-- ==== Sys2Proof/Config.lean ====
section
/-! DEFINITION. What the spec leaves open and an implementation fixes: free values, each an opaque constant that no proof can
evaluate. A free value is applied to the operands it depends on, so that the device stays one deterministic machine. -/

namespace Sys2Proof.Config

/-- R74, Table 4-1: the error of the lanes' sine and cosine table at a 16-bit angle, of which the spec gives only the bound
2^−24; the second argument is 0 for cosine and 1 for sine (log 20). -/
opaque sineError : Nat → Nat → Rat

/-- R99: the checker lane's deviation of one duty from the full lanes' duty, of which the spec gives only the bound of 0.1 % of
the period; the arguments are the machine, the half-bridge and the ideal duty in steps (log 21). -/
opaque checkerError : Nat → Nat → Nat → Rat

/-- Stage 11 of Table 4-1 with a measured DC-link voltage of 0 or less: the on-time ratio, which the spec does not state; the
arguments are the machine and the half-bridge (log 22). -/
opaque ratioNoLink : Nat → Nat → Rat

/-- Table 4-8: what IN reads from a port that is not readable at the running hook; the arguments are hook, port and element
(log 23). -/
opaque portUnreadable : Nat → Nat → Nat → Nat

/-- Table 4-7: FTOQ of a NaN (log 24). -/
opaque ftoqNaN : Nat → Nat

/-- Table 4-8, port 0: the update flags, whose bits the spec does not give; the arguments are FN and the machine (log 26). -/
opaque updateFlags : Nat → Nat → Nat

/-- R138: the coefficients of the noise transfer function's five poles, in delays 1 to 5, by the carrier period: the spec gives only the out-of-band
gain that they bring (log 27). -/
opaque shaperPoles : Nat → List Rat

/-- R204: the coefficients b0, b1, b2, a1 and a2 of a speaker's second-order tracking filter, which the spec does not give, by the corner in Hz and the
interval between samples in counts (log 129). -/
opaque trackingFilter : Rat → Nat → List Rat

/-- R247: the coefficients of the 95-tap half-band filter of a 96 kHz port, which the spec does not give, by the odd distance 1 to 47 from the centre
(log 35). -/
opaque halfBand : Nat → Rat

/-- R179: the coefficients of the motor band limiter, of which the spec gives only the response, from the ceiling in Hz and the age of a sample, 0 to 63
(log 37). -/
opaque bandLimit : Nat → Nat → Rat

/-- R181, R183: the coefficients of the 256-phase interpolator, which the spec does not give, from the phase 0 to 256 and the place of a sample around
the position, 0 to 63, oldest first (log 37). -/
opaque polyphase : Nat → Nat → Rat

/-- R198: the attenuation of an order while one of its two smoothed powers is 0, whose logarithm the spec does not state, from the
machine, the order and the time (log 39). -/
opaque attenuationOpen : Nat → Nat → Nat → Rat

/-- Table 15-1: the value of a slot whose formula has no value at a code or its parameters (a code of 0 for an NTC, a parameter B of 0),
which the spec does not state, from the slot and the code (log 43). -/
opaque slotValueOpen : Nat → Nat → Rat

/-- R90: one update of the back-EMF observer and its phase-locked loop, whose arithmetic the spec does not state, from the bandwidth, the update time,
R_s, L_d, L_q, the stage-10 phase voltages of the previous update, the measured phase currents and the observer's state: its new state, of which the
first three are the electrical angle in turns, the mechanical speed in turns per second and the estimate's error in electrical turns (log 28). -/
opaque backEmf : Rat → Rat → List Rat → List Rat → List Rat → List Rat → List Rat

/-- R91: one update of the injection observer's phase-locked loop, whose arithmetic the spec does not state, from the bandwidth, the update time, i_q
demodulated at f_h and the loop's state: its new state, laid out as backEmf's (log 28). -/
opaque injectionTrack : Rat → Rat → Rat → List Rat → List Rat

/-- R91: the counter ticks in which the injection observer's loop settles, which the spec bounds only with the polarity check (10 ms together), from the
machine and the bandwidth (log 122). -/
opaque injectionSettle : Nat → Nat → Fin 1600001

/-- R376: the fixed turnaround of a Ridge hop in ps, which the spec does not state (log 134). -/
opaque ridgeTurnaround : Nat

/-- R65: the phase in turns of a resolver's excitation at counter value 0 (log 120). -/
opaque excitationPhase : Nat → Rat

/-- R67: the demodulated amplitude in converter codes that is nominal, which the spec does not state, from the front end and the excitation amplitude
(log 120). -/
opaque resolverNominal : Nat → Nat → Rat

/-- R64: the coefficients of a microphone channel's 31-tap half-band filter, which the spec does not give, by the odd distance 1 to 15 from the centre
(log 123). -/
opaque micHalfBand : Nat → Rat

/-- R64: the coefficients of a microphone channel's 49-tap filter with droop correction, which the spec does not give, by the distance 0 to 24 from the
centre (log 123). -/
opaque micDroop : Nat → Rat

/-- R91: the band-stop of f_h ± 10 % that a machine's Hearth injection passes while the injection observer runs, whose arithmetic the spec does not
state, from the machine, the time and the injection (log 28). -/
opaque bandStop : Nat → Nat → Rat → Rat

/-- 0x1000.04: the unique device number, fixed at the factory (log 3), less 1: never 0 and never all ones (Table 0-5). -/
opaque deviceNumber : Fin 18446744073709551614

/-- 0x1000.04: the unique device number, from 1 to 2^64 − 2. -/
def uniqueNumber : Nat := deviceNumber.val + 1

/-- 0x1010.01: the Ethernet MAC address, fixed at the factory (log 3). -/
opaque macEthernet : Nat

/-- 0x1010.02: the T1S MAC address, fixed at the factory (log 3). -/
opaque macT1s : Nat

/-- R353: the delivery key of slot 0, per device, as 128 bits (log 3). -/
opaque deliveryKey : Nat

/-- R372: the recovery code issued for the unique device number (log 3). -/
opaque recoveryCode : Nat

/-- R349: the random source: the device nonce of the n-th draw (log 4). -/
opaque nonce : Nat → Nat

/-- R321: the bytes of a thermal record written at BOOT that the retained register does not hold; the arguments are the register and the byte's place
(log 49). -/
opaque thermalByte : Nat → Nat → BitVec 8

/-- R396: whether the ECDSA P-256 signature of an image verifies under the public key of the boot ROM, from the image's bytes (log 5). -/
opaque signatureOk : List (BitVec 8) → Bool

end Sys2Proof.Config
end

