-- ==== Sys2Proof/Word.lean ====
section
/-! DEFINITION. The word types of the YV6420 and nothing else: bytes as the manual carries them, and the raw form in which an
object's value is held (an unsigned number of the object's item width). -/

namespace Sys2Proof

/-- One byte of a frame, a BLOB or a memory of the device. -/
abbrev Byte := BitVec 8

/-- A raw value: the unsigned number whose bits are the item of an object, most significant byte first (R324). -/
abbrev Raw := Nat

end Sys2Proof
end

