-- ==== Sys2Proof/Machine/Num.lean ====
section
/-! DEFINITION. Numbers as the manual uses them: bit fields, two's complement, the fixed-point formats Qm.n and UQm.n
(00 "Numbers and units"), IEEE 754 single precision (Table 16-2), and the elementary functions that the manual's formulas
name, computed to 96 binary places before the result is rounded to the format the manual gives it. -/

namespace Sys2Proof.Machine

/-! ### Bit fields -/

/-- Field [hi:lo] of a raw value. -/
def bits (x hi lo : Nat) : Nat := (x >>> lo) % 2 ^ (hi - lo + 1)

/-- Bit n of a raw value. -/
def bit (x n : Nat) : Bool := x.testBit n

/-- A bit as the number 0 or 1. -/
def b2n (b : Bool) : Nat := if b then 1 else 0

/-- The raw value x with bit n made b. -/
def setBit (x n : Nat) (b : Bool) : Nat :=
  if x.testBit n == b then x else if b then x + 2 ^ n else x - 2 ^ n

/-- The raw value x with field [hi:lo] replaced by v. -/
def setField (x hi lo v : Nat) : Nat :=
  let w := 2 ^ (hi - lo + 1)
  x - ((x >>> lo) % w) <<< lo + (v % w) <<< lo

/-- The word whose bit n is the n-th element of the list. -/
def ofBits : List Bool → Nat
  | [] => 0
  | b :: bs => b2n b + 2 * ofBits bs

/-- How many of the low n bits of x are set. -/
def popCount : Nat → Nat → Nat
  | 0, _ => 0
  | n + 1, x => x % 2 + popCount n (x / 2)

/-- The numbers below n whose bit is set in x, ascending. -/
def bitsSet (n x : Nat) : List Nat := (List.range n).filter (fun i => x.testBit i)

/-- Two's complement: the signed value of the low w bits of x. -/
def sext (w x : Nat) : Int :=
  let y := x % 2 ^ w
  if y.testBit (w - 1) then (y : Int) - (2 ^ w : Nat) else y

/-- Two's complement: the low w bits of a signed value. -/
def ofInt (w : Nat) (x : Int) : Nat := (x % ((2 ^ w : Nat) : Int)).toNat

/-- x limited to lo to hi. -/
def clampI (lo hi x : Int) : Int := if x < lo then lo else if hi < x then hi else x

/-- x limited to lo to hi. -/
def clampN (lo hi x : Nat) : Nat := if x < lo then lo else if hi < x then hi else x

/-- x limited to lo to hi. -/
def clampR (lo hi x : Rat) : Rat := if x < lo then lo else if hi < x then hi else x

/-- The magnitude of x. -/
def absR (x : Rat) : Rat := if x < 0 then -x else x

/-- The lower of two numbers. -/
def minR (x y : Rat) : Rat := if x ≤ y then x else y

/-- The higher of two numbers. -/
def maxR (x y : Rat) : Rat := if x ≤ y then y else x

/-- −1, 0 or 1. -/
def signR (x : Rat) : Rat := if x < 0 then -1 else if x = 0 then 0 else 1

/-- The sum of a list of numbers. -/
def sumR (l : List Rat) : Rat := l.foldl (· + ·) 0

/-- A saturating counter: one more, but not past top. -/
def satInc (top x : Nat) : Nat := if x < top then x + 1 else top

/-- A wrapping 32-bit counter, one up. -/
def inc32 (x : Nat) : Nat := (x + 1) % 2 ^ 32

/-- A wrapping 32-bit counter, n up. -/
def add32 (x n : Nat) : Nat := (x + n) % 2 ^ 32

/-- The n-th element, or the given value past the end. -/
def nth {α : Type} (l : List α) (n : Nat) (d : α) : α := l.getD n d

/-- The list with its n-th element replaced by what f makes of it; unchanged past the end. -/
def upd {α : Type} (l : List α) (n : Nat) (f : α → α) : List α := l.modify n f

/-! ### Rounding and fixed point -/

/-- The nearest integer, ties away from zero (the rounding the example of R137 shows; log 12). -/
def roundAway (x : Rat) : Int :=
  if x < 0 then -((-x + 1/2).floor) else (x + 1/2).floor

/-- The nearest integer, ties to even. -/
def roundEven (x : Rat) : Int :=
  let f := x.floor
  let d := x - (f : Rat)
  if d < 1/2 then f else if 1/2 < d then f + 1 else if f % 2 = 0 then f else f + 1

/-- 2^n as a rational, for an integer n. -/
def pow2 (n : Int) : Rat :=
  if 0 ≤ n then ((2 ^ n.toNat : Nat) : Rat) else 1 / ((2 ^ (-n).toNat : Nat) : Rat)

/-- The raw signed integer of a value in a format with n fractional bits, saturated to w bits. -/
def toQ (w n : Nat) (x : Rat) : Int :=
  clampI (-((2 ^ (w - 1) : Nat) : Int)) (((2 ^ (w - 1) : Nat) : Int) - 1) (roundAway (x * pow2 n))

/-- The value of a raw signed integer in a format with n fractional bits. -/
def ofQ (n : Nat) (x : Int) : Rat := (x : Rat) * pow2 (-(n : Int))

/-- The value after rounding to a signed format of w bits, n of them fractional. -/
def quant (w n : Nat) (x : Rat) : Rat := ofQ n (toQ w n x)

/-! ### IEEE 754 single precision -/

/-- The value of a single-precision pattern; an infinity or NaN pattern, which no object holds (Table 16-2), reads as 0. -/
def f32ToRat (b : Nat) : Rat :=
  let e := bits b 30 23
  let f := bits b 22 0
  let m : Rat :=
    if e = 255 then 0
    else if e = 0 then (f : Rat) * pow2 (-149)
    else ((f + 2 ^ 23 : Nat) : Rat) * pow2 ((e : Int) - 150)
  if b.testBit 31 then -m else m

/-- The exponent of the binade that holds a positive rational: 2^e ≤ x < 2^(e+1). -/
def ilog2 (x : Rat) : Int :=
  let e := (Nat.log2 x.num.natAbs : Int) - (Nat.log2 x.den : Int)
  if x < pow2 e then e - 1 else if pow2 (e + 1) ≤ x then e + 1 else e

/-- The single-precision pattern nearest a value, ties to even; a magnitude beyond the largest finite number takes the largest
finite number, and a subnormal result is stored as 0 (Table 16-2). -/
def f32OfRat (x : Rat) : Nat :=
  if x = 0 then 0 else
  let a := absR x
  let s := if x < 0 then 2 ^ 31 else 0
  let e := ilog2 a
  if e < -126 then 0 else
  let m := (roundEven (a * pow2 (23 - e))).toNat
  let (m, e) := if m = 2 ^ 24 then (2 ^ 23, e + 1) else (m, e)
  if 127 < e then s + 0x7F7FFFFF
  else s + ((e + 127).toNat) * 2 ^ 23 + (m - 2 ^ 23)

/-- A value after rounding to single precision. -/
def f32R (x : Rat) : Rat := f32ToRat (f32OfRat x)

/-- Whether a single-precision pattern is NaN or an infinity. -/
def f32Bad (b : Nat) : Bool := bits b 30 23 == 255

/-- What a stored single-precision item becomes: −0 and subnormals as +0 (Table 16-2). -/
def f32Canon (b : Nat) : Nat := if bits b 30 23 = 0 then 0 else b

/-! ### Elementary functions, to 96 binary places -/

/-- The scale of the working fixed point: 2^96. -/
def fxOne : Int := 2 ^ 96

/-- A rational in the working fixed point. -/
def toFx (x : Rat) : Int := (x * (fxOne : Rat)).floor

/-- A working fixed-point number as a rational. -/
def ofFx (x : Int) : Rat := mkRat x (2 ^ 96)

/-- The working product. -/
def fxMul (a b : Int) : Int := (a * b) / fxOne

/-- Integer square root by bits: the largest r with r² ≤ n, for n below 2^(2·fuel). -/
def isqrtGo : Nat → Nat → Nat → Nat
  | 0, _, r => r
  | k + 1, n, r =>
    let c := r + 2 ^ k
    if c * c ≤ n then isqrtGo k n c else isqrtGo k n r

/-- The integer square root. -/
def isqrt (n : Nat) : Nat := isqrtGo (Nat.log2 n / 2 + 1) n 0

/-- The square root; 0 of a negative number. -/
def sqrtR (x : Rat) : Rat :=
  if x ≤ 0 then 0 else mkRat (isqrt ((x * (2 ^ 192 : Nat)).floor.toNat)) (2 ^ 96)

/-- π in the working fixed point. -/
def fxPi : Int := 248902613312231085230521944622

/-- ln 2 in the working fixed point. -/
def fxLn2 : Int := 54916777467707473351141471128

/-- Sum of a Taylor series whose next term is the last times y over (k+1)(k+2), with alternating sign. -/
def trigSeries : Nat → Int → Int → Int → Int → Int
  | 0, _, _, _, acc => acc
  | n + 1, y2, k, t, acc =>
    let t' := -(fxMul t y2) / ((k + 1) * (k + 2))
    trigSeries n y2 (k + 2) t' (acc + t')

/-- Sine of a working fixed-point angle in radians of small magnitude. -/
def fxSin (y : Int) : Int := trigSeries 16 (fxMul y y) 1 y y

/-- Cosine of a working fixed-point angle in radians of small magnitude. -/
def fxCos (y : Int) : Int := trigSeries 16 (fxMul y y) 0 fxOne fxOne

/-- (cosine, sine) of an angle in turns. -/
def cosSinTurn (u : Rat) : Rat × Rat :=
  let f := u - (u.floor : Rat)
  let q := (f * 4 + 1/2).floor
  let y := fxMul (2 * fxPi) (toFx (f - (q : Rat) / 4))
  let c := ofFx (fxCos y)
  let s := ofFx (fxSin y)
  if q = 0 ∨ q = 4 then (c, s) else if q = 1 then (-s, c) else if q = 2 then (-c, -s) else (s, -c)

/-- Sine of an angle in turns. -/
def sinTurn (u : Rat) : Rat := (cosSinTurn u).2

/-- Cosine of an angle in turns. -/
def cosTurn (u : Rat) : Rat := (cosSinTurn u).1

/-- π as a rational. -/
def piR : Rat := ofFx fxPi

/-- The exponential series. -/
def expSeries : Nat → Int → Int → Int → Int → Int
  | 0, _, _, _, acc => acc
  | n + 1, y, k, t, acc =>
    let t' := fxMul t y / (k + 1)
    expSeries n y (k + 1) t' (acc + t')

/-- e to the power x, for |x| below 2000. -/
def expR (x : Rat) : Rat :=
  let k := roundAway (x / ofFx fxLn2)
  let y := toFx x - k * fxLn2
  ofFx (expSeries 28 y 0 fxOne fxOne) * pow2 k

/-- The series of 2·artanh z. -/
def lnSeries : Nat → Int → Int → Int → Int → Int
  | 0, _, _, _, acc => acc
  | n + 1, z2, k, t, acc =>
    let t' := fxMul t z2
    lnSeries n z2 (k + 2) t' (acc + 2 * t' / (k + 2))

/-- The natural logarithm of a positive number; 0 of any other (callers exclude those). -/
def lnR (x : Rat) : Rat :=
  if x ≤ 0 then 0 else
  let e := ilog2 x
  let m := x * pow2 (-e)
  let z := toFx ((m - 1) / (m + 1))
  ofFx (lnSeries 36 (fxMul z z) 1 z (2 * z) + e * fxLn2)

/-- 10 to the power x. -/
def pow10R (x : Rat) : Rat := expR (x * lnR 10)

/-- The amplitude gain of a level in decibels. -/
def dbGain (db : Rat) : Rat := pow10R (db / 20)

/-- The base-10 logarithm. -/
def log10R (x : Rat) : Rat := lnR x / lnR 10

/-- The arctangent series for a small argument. -/
def atanSeries : Nat → Int → Int → Int → Int → Int
  | 0, _, _, _, acc => acc
  | n + 1, z2, k, t, acc =>
    let t' := -(fxMul t z2)
    atanSeries n z2 (k + 2) t' (acc + t' / (k + 2))

/-- arctan of 0 ≤ z ≤ 1, in radians: the angle is halved twice, then the series is summed. -/
def atanUnit (z : Rat) : Rat :=
  let h1 := z / (1 + sqrtR (1 + z * z))
  let h2 := h1 / (1 + sqrtR (1 + h1 * h1))
  let y := toFx h2
  4 * ofFx (atanSeries 40 (fxMul y y) 1 y y)

/-- The angle of the vector (x, y) in radians, −π to π; 0 for the zero vector. -/
def atan2R (y x : Rat) : Rat :=
  let ax := absR x
  let ay := absR y
  if ax = 0 ∧ ay = 0 then 0 else
  let a := if ay ≤ ax then atanUnit (ay / ax) else piR / 2 - atanUnit (ax / ay)
  let a := if x < 0 then piR - a else a
  if y < 0 then -a else a

/-- A filter of finite length: coefficients by place, on the samples at those places. -/
def firR (taps : Nat → Rat) (l : List Int) : Rat := sumR (l.mapIdx (fun (i : Nat) (x : Int) => taps i * (x : Rat)))

/-- A filter of linear phase about a centre place: coefficients by the distance from it. -/
def firLinear (taps : Nat → Rat) (centre : Nat) (l : List Int) : Rat :=
  firR (fun i => taps (if i ≤ centre then centre - i else i - centre)) l

/-- The coefficients of a half-band filter by the distance from its centre: one half there, 0 at the other even distances, free at the odd ones. -/
def halfBandTaps (c : Nat → Rat) (d : Nat) : Rat := if d = 0 then 1 / 2 else if d % 2 = 0 then 0 else c d

/-- Integer powers of a rational. -/
def powR (x : Rat) : Nat → Rat
  | 0 => 1
  | n + 1 => x * powR x n

/-- The middle elements: insertion into an ascending list. -/
def insertAsc (x : Rat) : List Rat → List Rat
  | [] => [x]
  | y :: ys => if x ≤ y then x :: y :: ys else y :: insertAsc x ys

/-- An ascending list of the same numbers. -/
def sortAsc (l : List Rat) : List Rat := l.foldr insertAsc []

/-! ### Words and bytes, most significant byte first (R3) -/

/-- The n bytes of a raw value, most significant first. -/
def toBytes : Nat → Nat → List Byte
  | 0, _ => []
  | n + 1, x => BitVec.ofNat 8 (x / 2 ^ (8 * n)) :: toBytes n x

/-- The raw value of a list of bytes, most significant first. -/
def ofBytes (l : List Byte) : Nat := l.foldl (fun a b => a * 256 + b.toNat) 0

/-- Serial comparison of frame numbers (R31): whether a lies 1 to 2^31 − 1 ahead of b. -/
def fnAhead (a b : Nat) : Bool :=
  let d := (a + 2 ^ 32 - b % 2 ^ 32) % 2 ^ 32
  decide (0 < d ∧ d < 2 ^ 31)

end Sys2Proof.Machine
end

