-- ==== Sys2Proof/Machine/ObjTypes.lean ====
section
/-! DEFINITION. The vocabulary of the object table (chapter 16): types (Table 16-2), access codes (Table 16-3), ranges, and
the row that describes a run of objects. -/

namespace Sys2Proof.Machine

/-- Object types (Table 16-2). A CPAIR32's value word is read as U32, I32 or F32 (R325). A STR is a BLOB of 64 bytes. -/
inductive ObjTy where
  | bool | u8 | u16 | u32 | u64 | i8 | i16 | i32 | f32 | pairU | pairI | pairF
  | blob (max : Nat)
  deriving DecidableEq, Repr

/-- Access codes (Table 16-3). -/
inductive Access where
  | ro | rw | wo | rws | rwp
  deriving DecidableEq, Repr

/-- Ranges that read a structured word or another object: each is decided by the named rule or table. -/
inductive Special where
  /-- Table 2-6 -/ | commitWord
  /-- 1 A to the full scale of the machine's channels (Table 3-4) -/ | fullScale (m : Nat)
  /-- −T_ax to T_ax -/ | absTax (m : Nat)
  /-- 0 to T_ax -/ | zeroTax (m : Nat)
  /-- minus the reverse to the forward speed limit -/ | speedLim (m : Nat)
  /-- within the machine's current limit -/ | curLim (m : Nat)
  /-- −V_b to V_b -/ | absVb (m : Nat)
  /-- lo (A when the flag is set) to hi × I_b of machine m -/ | ibSpan (m : Nat) (lo : Rat) (amp : Bool) (hi : Rat)
  /-- lo A to hi × I_b of the discharge machine (0x5060.04) -/ | ibSpanDis (lo : Rat) (hi : Rat)
  /-- 100 to 0.1 × f_upd -/ | updTenth (m : Nat)
  /-- single precision, at least 0 -/ | nonneg
  /-- single precision, above 0 -/ | positive
  /-- empty or exactly this many bytes -/ | blobLen (n : Nat)
  /-- Table 3-5 -/ | channelCfg
  /-- 0x2200.16 -/ | voteTest
  /-- 0x5000.01 -/ | m0Freq
  /-- 0x5010.01 -/ | m1Freq
  /-- 0x5400.05 -/ | spreadRaw
  /-- 0x5401 -/ | shapedEntry
  /-- Table 6-4 -/ | eventCfg
  /-- Table 6-5 -/ | ctcCfg
  /-- 0x5070.05 -/ | gdlRequest
  /-- Table 7-14 -/ | fltCfg
  /-- Table 7-14, Ridge -/ | ridgeCfg
  /-- Table 7-8 -/ | gdlEntry
  /-- Table 8-2 -/ | inputSource
  /-- 0x7005 -/ | sendTap
  /-- 0x7010.05 -/ | partialWord
  /-- at least 0, ascending along the map (0x7010.0D) -/ | ascending
  /-- Table 8-7 -/ | chimePlay
  /-- Table 8-10 -/ | clipDir
  /-- 0x7100.02 -/ | identMask
  /-- Table 9-4 -/ | orderDef
  /-- Table 11-4 -/ | tapRequest
  /-- Table 11-5 -/ | orderMon
  /-- Table 11-10 -/ | captureSignal
  /-- Table 12-6 with R239 -/ | aspCfg
  /-- bits below SLOTS -/ | aspMask
  /-- Table 12-6, staged -/ | aspCfgStaged
  /-- Table 13-12 -/ | pairCfg
  /-- 0x9020.04 -/ | tpMode
  /-- 0x9021.01 -/ | loopSig
  /-- Table 13-7 -/ | reaction
  /-- Table 15-10 -/ | thresholdCfg
  /-- Table 15-4 -/ | slotEntry
  /-- Table 16-10 with its key -/ | keyMask (key : Nat)
  /-- 0x1012 -/ | vlanEntry
  /-- 0x1020.04 -/ | samplePoints
  /-- Table 17-7 -/ | imageCfg
  /-- R356 -/ | imageMap
  /-- Table 20-7 -/ | updateCtl
  deriving DecidableEq, Repr

/-- The Range column. A flags object is an RW status object whose write only clears the flags of its mask (R4); a mask of 0
here means that the chapter's own table is in Machine/ObjRange.lean. -/
inductive Rng where
  | any
  | nat (lo hi : Nat)
  | int (lo hi : Int)
  | real (lo hi : Rat)
  | even (lo hi : Nat)
  | codes (l : List Nat)
  | mask (m : Nat)
  | zeroOr (lo hi : Nat)
  | flags (m : Nat)
  | sp (k : Special)
  deriving DecidableEq, Repr

/-- One run of objects of one index: subindices lo to hi share everything but their defaults, of which the last repeats.
grp is the settings group's code of Table 2-4, 0 for none. -/
structure ObjRow where
  idx : Nat
  lo : Nat
  hi : Nat
  ty : ObjTy
  acc : Access
  grp : Nat
  dflt : List Nat
  rng : Rng
  deriving DecidableEq, Repr

end Sys2Proof.Machine
end

