-- ==== Sys2Proof/Machine/ObjTable.lean ====
section
/-! DEFINITION. The object tables of chapters 00 to 22: every object of the index map (Table 16-1) with its type, access,
settings group, default and range as its chapter's table gives them. A default the spec derives or takes from the device
is 0 here and is formed at BOOT (R337). Subindex 0x00 of each index is formed from these rows (R322). -/

namespace Sys2Proof.Machine

/-- Objects 0x1000 to 0x1060. -/
def objRows1p0 : List ObjRow := [
  ⟨0x1000, 1, 1, .u32, .ro, 0, [0x6420], .any⟩,  -- Part number
  ⟨0x1000, 2, 2, .u16, .ro, 0, [0x4101], .any⟩,  -- Silicon revision
  ⟨0x1000, 3, 3, .u16, .ro, 0, [0x110], .any⟩,  -- Package and grade
  ⟨0x1000, 4, 4, .u64, .ro, 0, [0], .any⟩,  -- Unique device number
  ⟨0x1000, 5, 5, .u32, .ro, 0, [0], .any⟩,  -- Firmware version
  ⟨0x1010, 1, 1, .u64, .ro, 13, [0], .any⟩,  -- Ethernet MAC address
  ⟨0x1010, 2, 2, .u64, .ro, 13, [0], .any⟩,  -- T1S MAC address
  ⟨0x1010, 3, 3, .u32, .rw, 13, [0xC0A80A0A], .nat 16777216 3758096382⟩,  -- Ethernet IPv4 address
  ⟨0x1010, 4, 4, .u32, .rw, 13, [0xC0A80B0A], .nat 0x01000000 0xDFFFFFFE⟩,  -- T1S IPv4 address
  ⟨0x1010, 5, 5, .u16, .rw, 13, [0x594F], .nat 1024 65535⟩,  -- YOAP UDP port
  ⟨0x1010, 6, 6, .u8, .rw, 13, [7], .nat 0 7⟩,  -- Interface enable
  ⟨0x1011, 1, 1, .u16, .ro, 13, [0], .any⟩,  -- Link status
  ⟨0x1011, 2, 2, .u32, .ro, 13, [0], .any⟩,  -- Frames received
  ⟨0x1011, 3, 5, .u32, .ro, 13, [0], .any⟩,  -- Unsupported, oversize, malformed frames
  ⟨0x1012, 1, 8, .u16, .rw, 13, [1, 0xFFFF, 0xFFFF, 0xFFFF, 0xFFFF, 0xFFFF, 0xFFFF, 0xFFFF], .sp .vlanEntry⟩,  -- Device VLANs
  ⟨0x1012, 9, 9, .u8, .rw, 13, [0], .nat 0 7⟩,  -- Untagged PCP
  ⟨0x1012, 0xA, 0xA, .u16, .rw, 13, [1], .nat 0 4094⟩,  -- Device VLAN for YOAP
  ⟨0x1012, 0xB, 0xB, .u8, .rw, 13, [5], .nat 0 7⟩,  -- YOAP response PCP
  ⟨0x1013, 1, 0x30, .u32, .ro, 13, [0], .any⟩,  -- Queue drops Q0 to Q47
  ⟨0x1020, 1, 1, .u8, .rw, 13, [1], .nat 0 15⟩,  -- CAN enable
  ⟨0x1020, 2, 2, .u32, .rw, 13, [0x7A120], .nat 125000 1000000⟩,  -- CAN nominal bit rate
  ⟨0x1020, 3, 3, .u32, .rw, 13, [0x1E8480], .nat 1000000 8000000⟩,  -- CAN data bit rate
  ⟨0x1020, 4, 4, .u16, .rw, 13, [0x5046], .sp .samplePoints⟩,  -- CAN sample points
  ⟨0x1020, 5, 6, .u16, .rw, 13, [0x640, 0x5C0], .nat 0 2047⟩,  -- CAN request ID, response ID
  ⟨0x1020, 7, 7, .u16, .rw, 13, [0x100], .nat 0 2040⟩,  -- CAN image base ID
  ⟨0x1020, 8, 8, .u8, .rw, 13, [1], .nat 0 15⟩,  -- CAN YOAP enable
  ⟨0x1020, 9, 0xC, .u32, .ro, 13, [0], .any⟩,  -- CAN0 to CAN3 bus-off events
  ⟨0x1030, 1, 1, .u8, .rw, 13, [1], .nat 0 31⟩,  -- PLCA node ID
  ⟨0x1030, 2, 2, .u8, .rw, 13, [8], .nat 1 32⟩,  -- PLCA node count
  ⟨0x1030, 3, 3, .bool, .rw, 13, [1], .nat 0 1⟩,  -- T1S wake enable
  ⟨0x1040, 1, 1, .u8, .rw, 13, [0], .nat 0 2⟩,  -- gPTP port
  ⟨0x1040, 2, 2, .u8, .rw, 13, [0], .nat 0 127⟩,  -- gPTP domain
  ⟨0x1040, 3, 3, .u32, .ro, 13, [0], .any⟩,  -- gPTP losses
  ⟨0x1040, 4, 4, .u32, .rw, 13, [0x3E8], .nat 125 100000⟩,  -- Network cycle
  ⟨0x1050, 1, 1, .u16, .ro, 13, [0], .any⟩,  -- Open sessions
  ⟨0x1050, 2, 2, .u16, .rw, 13, [0x1388], .nat 100 60000⟩,  -- Session idle timeout
  ⟨0x1050, 3, 3, .u8, .ro, 13, [0], .any⟩,  -- Operations in flight
  ⟨0x1050, 4, 5, .u32, .ro, 13, [0], .any⟩,  -- Authentication failures, replays
  ⟨0x1050, 6, 6, .u32, .ro, 13, [0], .any⟩,  -- Duplicates
  ⟨0x1060, 1, 8, .u32, .rw, 13, [0x30C014], .sp .imageCfg⟩]  -- Image configuration 0 to 7

/-- Objects 0x1061 to 0x1411. -/
def objRows1p1 : List ObjRow := [
  ⟨0x1061, 1, 0x40, .u32, .rw, 13, [0], .sp .imageMap⟩,  -- Mapping, images 0 to 7
  ⟨0x1062, 1, 0x40, .u32, .rw, 13, [0], .sp .imageMap⟩,
  ⟨0x1063, 1, 0x40, .u32, .rw, 13, [0], .sp .imageMap⟩,
  ⟨0x1064, 1, 0x40, .u32, .rw, 13, [0], .sp .imageMap⟩,
  ⟨0x1065, 1, 0x40, .u32, .rw, 13, [0], .sp .imageMap⟩,
  ⟨0x1066, 1, 0x40, .u32, .rw, 13, [0], .sp .imageMap⟩,
  ⟨0x1067, 1, 0x40, .u32, .rw, 13, [0], .sp .imageMap⟩,
  ⟨0x1068, 1, 0x40, .u32, .rw, 13, [0], .sp .imageMap⟩,
  ⟨0x1069, 1, 8, .u8, .rw, 13, [0], .nat 0 64⟩,  -- Mapped count
  ⟨0x106A, 1, 8, .u16, .rw, 13, [3], .nat 1 100⟩,  -- Image timeout
  ⟨0x106B, 1, 8, .u8, .rw, 13, [1], .nat 0 2⟩,  -- Timeout reaction
  ⟨0x106C, 1, 8, .u16, .ro, 13, [0], .any⟩,  -- Image status
  ⟨0x106D, 1, 8, .u32, .ro, 13, [0], .any⟩,  -- Image rejects
  ⟨0x1410, 1, 8, .blob 20, .wo, 13, [0], .sp (.blobLen 20)⟩,  -- Key slot 0 to 7
  ⟨0x1411, 1, 8, .u16, .ro, 13, [0x300, 0, 0, 0, 0, 0, 0, 0], .any⟩]  -- Key slot status 0 to 7

/-- Objects of block 0x1000. -/
def objRows1 : List ObjRow := objRows1p0 ++ objRows1p1

/-- Objects 0x2000 to 0x2200. -/
def objRows2p0 : List ObjRow := [
  ⟨0x2000, 1, 1, .u8, .ro, 1, [0], .any⟩,  -- Device state
  ⟨0x2000, 2, 2, .u8, .wo, 1, [0], .nat 1 4⟩,  -- State request
  ⟨0x2000, 3, 3, .u32, .ro, 1, [0], .any⟩,  -- Last transition
  ⟨0x2000, 4, 4, .u8, .ro, 1, [0], .any⟩,  -- Last refusal
  ⟨0x2000, 5, 5, .u32, .ro, 1, [0], .any⟩,  -- Proofing status
  ⟨0x2000, 6, 6, .u64, .ro, 1, [0], .any⟩,  -- Shutdown cause
  ⟨0x2000, 7, 7, .u8, .wo, 1, [0], .codes [1]⟩,  -- Clear shutdown cause
  ⟨0x2000, 8, 8, .u8, .rwp, 1, [1], .nat 0 1⟩,  -- Wake enable
  ⟨0x2000, 9, 9, .u32, .ro, 1, [0], .any⟩,  -- Failed wakes
  ⟨0x2010, 1, 6, .u16, .ro, 1, [0], .any⟩,  -- nRST hold histogram
  ⟨0x2010, 7, 7, .u32, .ro, 1, [0], .any⟩,  -- nRST last hold
  ⟨0x2030, 1, 1, .u16, .ro, 1, [0], .any⟩,  -- Clock status
  ⟨0x2030, 2, 2, .u32, .ro, 1, [0], .any⟩,  -- REF losses
  ⟨0x2030, 3, 3, .i32, .ro, 1, [0], .any⟩,  -- Backup deviation
  ⟨0x2040, 1, 1, .u64, .ro, 0, [0], .any⟩,  -- System counter
  ⟨0x2040, 2, 2, .u32, .ro, 0, [0], .any⟩,  -- Frame number
  ⟨0x2040, 3, 3, .u64, .ro, 0, [0], .any⟩,  -- Last Trough time
  ⟨0x2040, 4, 4, .u64, .ro, 0, [0], .any⟩,  -- gPTP offset
  ⟨0x2040, 5, 5, .i32, .ro, 0, [0], .any⟩,  -- Counter rate trim
  ⟨0x2100, 1, 1, .u32, .wo, 0, [0], .sp .commitWord⟩,  -- Commit
  ⟨0x2100, 2, 2, .u16, .ro, 0, [1], .any⟩,  -- Commit token
  ⟨0x2100, 3, 3, .u16, .wo, 0, [0], .mask 0x3FFE⟩,  -- Discard staged
  ⟨0x2100, 4, 4, .u32, .ro, 0, [0], .any⟩,  -- Commit status
  ⟨0x2100, 5, 5, .u32, .ro, 0, [0], .any⟩,  -- Last commit FN
  ⟨0x2100, 6, 6, .u64, .ro, 0, [0], .any⟩,  -- Last commit time
  ⟨0x2100, 7, 7, .u32, .ro, 0, [0], .any⟩,  -- Rejected object
  ⟨0x2100, 8, 8, .u32, .rw, 0, [0], .any⟩,  -- Commit target FN
  ⟨0x2100, 9, 9, .u8, .rw, 0, [0], .nat 0 1⟩,  -- Read view
  ⟨0x2100, 0xA, 0xA, .u32, .ro, 0, [0], .any⟩,  -- Commits applied
  ⟨0x2100, 0xB, 0xB, .u32, .ro, 0, [0], .any⟩,  -- Commits rejected
  ⟨0x2110, 1, 1, .u32, .wo, 1, [0], .sp (.keyMask 0x5356)⟩,  -- Save
  ⟨0x2110, 2, 2, .u32, .rw, 1, [0], .flags 0x4000⟩,  -- Save status
  ⟨0x2110, 3, 3, .u32, .wo, 1, [0], .sp (.keyMask 0x5244)⟩,  -- Restore defaults
  ⟨0x2110, 4, 4, .u16, .ro, 1, [0], .any⟩,  -- Persisted groups loaded
  ⟨0x2110, 5, 5, .u32, .ro, 1, [0], .any⟩,  -- Persisted records dropped
  ⟨0x2110, 6, 6, .u32, .ro, 1, [0], .any⟩,  -- Saves completed
  ⟨0x2120, 1, 1, .u64, .ro, 0, [0], .any⟩,  -- Last abort
  ⟨0x2120, 2, 2, .u32, .ro, 0, [0], .any⟩,  -- Aborts issued
  ⟨0x2200, 1, 1, .u8, .ro, 1, [0], .any⟩,  -- Lane A state
  ⟨0x2200, 2, 2, .u8, .ro, 1, [1], .any⟩]  -- Lane B state

/-- Objects 0x2200 to 0x2600. -/
def objRows2p1 : List ObjRow := [
  ⟨0x2200, 3, 3, .u8, .ro, 1, [1], .any⟩,  -- Checker lane state
  ⟨0x2200, 4, 4, .u8, .ro, 1, [0], .any⟩,  -- Active lane
  ⟨0x2200, 5, 5, .u32, .ro, 1, [0], .any⟩,  -- Vote status
  ⟨0x2200, 6, 6, .u32, .ro, 1, [0], .any⟩,  -- Takeovers
  ⟨0x2200, 7, 7, .u32, .ro, 1, [0], .any⟩,  -- Disagreements
  ⟨0x2200, 8, 8, .u32, .ro, 1, [0], .any⟩,  -- Checker deviations
  ⟨0x2200, 9, 9, .u32, .ro, 1, [0], .any⟩,  -- Divergence resyncs
  ⟨0x2200, 0xA, 0xA, .u32, .ro, 1, [0], .any⟩,  -- Corrected ECC Lane A
  ⟨0x2200, 0xB, 0xB, .u32, .ro, 1, [0], .any⟩,  -- Corrected ECC Lane B
  ⟨0x2200, 0xC, 0xC, .u32, .ro, 1, [0], .any⟩,  -- Corrected ECC checker lane
  ⟨0x2200, 0xD, 0xD, .u32, .ro, 1, [0], .any⟩,  -- Last takeover FN
  ⟨0x2200, 0xE, 0xE, .u16, .ro, 1, [0], .any⟩,  -- Last drop cause
  ⟨0x2200, 0xF, 0xF, .u8, .ro, 1, [0], .any⟩,  -- Readmissions Lane A
  ⟨0x2200, 0x10, 0x10, .u8, .ro, 1, [0], .any⟩,  -- Readmissions Lane B
  ⟨0x2200, 0x11, 0x11, .u16, .ro, 1, [0], .any⟩,  -- Probation updates
  ⟨0x2200, 0x12, 0x12, .bool, .rw, 1, [1], .nat 0 1⟩,  -- Lane readmission
  ⟨0x2200, 0x13, 0x13, .u8, .wo, 1, [0], .codes [1]⟩,  -- Swap active
  ⟨0x2200, 0x14, 0x14, .u8, .wo, 1, [0], .nat 1 7⟩,  -- Lane test request
  ⟨0x2200, 0x15, 0x15, .u32, .ro, 1, [0], .any⟩,  -- Lane test result
  ⟨0x2200, 0x16, 0x16, .u16, .wo, 1, [0], .sp .voteTest⟩,  -- Vote test
  ⟨0x2300, 1, 1, .u32, .ro, 1, [0], .any⟩,  -- Standing faults
  ⟨0x2300, 2, 2, .u32, .ro, 1, [0], .any⟩,  -- Single faults
  ⟨0x2300, 3, 3, .u32, .ro, 1, [0], .any⟩,  -- Last fault
  ⟨0x2300, 4, 4, .u32, .ro, 1, [0], .any⟩,  -- Last fault FN
  ⟨0x2300, 5, 5, .u64, .ro, 1, [0], .any⟩,  -- Last fault time
  ⟨0x2300, 6, 6, .u16, .ro, 1, [0], .any⟩,  -- Bedrock cause
  ⟨0x2300, 7, 7, .u32, .ro, 1, [0], .any⟩,  -- Bedrock FN
  ⟨0x2300, 8, 8, .u64, .ro, 1, [0], .any⟩,  -- Bedrock time
  ⟨0x2300, 9, 9, .bool, .rw, 1, [0], .nat 0 1⟩,  -- Start with standing faults
  ⟨0x2300, 0xA, 0xA, .u16, .rw, 13, [0xF0], .nat 0 2047⟩,  -- Bedrock status ID
  ⟨0x2301, 1, 0x19, .u32, .ro, 1, [0], .any⟩,  -- Fault counters
  ⟨0x2600, 1, 1, .u16, .rws, 1, [0x64], .nat 10 1000⟩,  -- Reference step tolerance
  ⟨0x2600, 2, 2, .u16, .rws, 1, [0x14], .nat 5 200⟩]  -- Integrator tolerance

/-- Objects of block 0x2000. -/
def objRows2 : List ObjRow := objRows2p0 ++ objRows2p1

/-- Objects 0x3000 to 0x3020. -/
def objRows3p0 : List ObjRow := [
  ⟨0x3000, 1, 1, .u8, .rw, 2, [0], .nat 0 5⟩,  -- M0 control mode
  ⟨0x3000, 2, 2, .u8, .ro, 2, [0], .any⟩,  -- M0 mode in use
  ⟨0x3001, 1, 1, .pairF, .rw, 2, [0xFFFFFFFF], .sp (.absTax 0)⟩,  -- M0 torque command
  ⟨0x3001, 2, 2, .f32, .rw, 2, [0], .sp (.speedLim 0)⟩,  -- M0 speed command
  ⟨0x3001, 3, 3, .f32, .rw, 2, [0], .sp (.curLim 0)⟩,  -- M0 d-current command
  ⟨0x3001, 4, 4, .f32, .rw, 2, [0], .sp (.curLim 0)⟩,  -- M0 q-current command
  ⟨0x3001, 5, 5, .f32, .rw, 2, [0], .sp (.absVb 0)⟩,  -- M0 d-voltage command
  ⟨0x3001, 6, 6, .f32, .rw, 2, [0], .sp (.absVb 0)⟩,  -- M0 q-voltage command
  ⟨0x3001, 7, 7, .f32, .rw, 2, [0], .real (-2000) 2000⟩,  -- M0 voltage-mode frequency
  ⟨0x3010, 1, 1, .u8, .rw, 2, [3], .codes [3, 6]⟩,  -- M0 phase count
  ⟨0x3010, 2, 2, .u8, .rw, 2, [1], .nat 0 2⟩,  -- M0 star displacement
  ⟨0x3010, 3, 3, .u8, .rw, 2, [4], .nat 1 32⟩,  -- M0 pole pairs
  ⟨0x3010, 4, 4, .f32, .rw, 2, [0x461C4000], .real 100 30000⟩,  -- M0 rated speed
  ⟨0x3010, 5, 5, .f32, .rw, 2, [0x3C23D70A], .real (1/10000) 10⟩,  -- M0 stator resistance
  ⟨0x3010, 6, 6, .f32, .rw, 2, [0x38D1B717], .real (1/1000000) (1/10)⟩,  -- M0 d inductance
  ⟨0x3010, 7, 7, .f32, .rw, 2, [0x38D1B717], .real (1/1000000) (1/10)⟩,  -- M0 q inductance
  ⟨0x3010, 8, 8, .f32, .rw, 2, [0x3D4CCCCD], .real 0 2⟩,  -- M0 magnet flux
  ⟨0x3010, 9, 9, .f32, .rw, 2, [0x44480000], .real 100 1200⟩,  -- M0 nominal DC-link voltage
  ⟨0x3010, 0xA, 0xA, .u16, .rw, 2, [0], .any⟩,  -- M0 rotor angle offset
  ⟨0x3012, 1, 1, .pairF, .rw, 2, [0xFFFFFFFF], .sp (.zeroTax 0)⟩,  -- M0 torque limit
  ⟨0x3012, 2, 2, .pairF, .rw, 2, [0xFFFFFFFF], .sp (.zeroTax 0)⟩,  -- M0 generating torque limit
  ⟨0x3012, 3, 3, .pairF, .rw, 2, [0x447A0000BB85FFFF], .real 0 30000⟩,  -- M0 forward speed limit
  ⟨0x3012, 4, 4, .pairF, .rw, 2, [0x447A0000BB85FFFF], .real 0 30000⟩,  -- M0 reverse speed limit
  ⟨0x3012, 5, 5, .pairF, .rw, 2, [0xFFFFFFFF], .sp (.ibSpan 0 1 true (5/4))⟩,  -- M0 current limit
  ⟨0x3012, 6, 6, .u16, .rw, 2, [0x3C0], .nat 800 1000⟩,  -- M0 voltage margin
  ⟨0x3013, 1, 1, .f32, .rw, 2, [0x447A0000], .real 1 1000000⟩,  -- M0 torque slew
  ⟨0x3013, 2, 2, .f32, .rw, 2, [0x447A0000], .real 1 1000000⟩,  -- M0 speed slew
  ⟨0x3013, 3, 3, .f32, .rw, 2, [0x42C80000], .real (1/10) 100000⟩,  -- M0 current slew
  ⟨0x3013, 4, 4, .f32, .rw, 2, [0x41200000], .real (1/10) 10000⟩,  -- M0 voltage slew
  ⟨0x3014, 1, 1, .f32, .rw, 2, [0x447A0000], .sp (.updTenth 0)⟩,  -- M0 current loop bandwidth
  ⟨0x3014, 2, 2, .f32, .rw, 2, [0x41A00000], .real 1 200⟩,  -- M0 speed loop bandwidth
  ⟨0x3014, 3, 3, .f32, .rw, 2, [0x3D4CCCCD], .real (1/10000) 100⟩,  -- M0 inertia
  ⟨0x3014, 4, 4, .bool, .rw, 2, [1], .nat 0 1⟩,  -- M0 decoupling
  ⟨0x3014, 5, 5, .bool, .rw, 2, [1], .nat 0 1⟩,  -- M0 dead-time compensation
  ⟨0x3020, 1, 1, .u32, .ro, 2, [0], .any⟩,  -- M0 control status
  ⟨0x3020, 2, 2, .f32, .ro, 2, [0], .any⟩,  -- M0 estimated torque
  ⟨0x3020, 3, 3, .f32, .ro, 2, [0], .any⟩,  -- M0 measured d current
  ⟨0x3020, 4, 4, .f32, .ro, 2, [0], .any⟩,  -- M0 measured q current
  ⟨0x3020, 5, 5, .f32, .ro, 2, [0], .any⟩,  -- M0 d voltage
  ⟨0x3020, 6, 6, .f32, .ro, 2, [0], .any⟩]  -- M0 q voltage

/-- Objects 0x3020 to 0x3407. -/
def objRows3p1 : List ObjRow := [
  ⟨0x3020, 7, 7, .u16, .ro, 2, [0], .any⟩,  -- M0 modulation index
  ⟨0x3020, 8, 8, .f32, .ro, 2, [0], .any⟩,  -- M0 torque limit in force
  ⟨0x3020, 9, 9, .u8, .ro, 2, [0], .any⟩,  -- M0 torque limit source
  ⟨0x3020, 0xA, 0xA, .f32, .ro, 2, [0], .any⟩,  -- M0 speed in use
  ⟨0x3020, 0xB, 0xB, .u32, .ro, 2, [0], .any⟩,  -- M0 saturation events
  ⟨0x3400, 1, 4, .i32, .rws, 2, [0], .int 0 2147483647⟩,  -- Kp d, Ki·T d, Kp q, Ki·T q
  ⟨0x3400, 5, 5, .u16, .rws, 2, [0x3C0], .nat 800 1000⟩,  -- Voltage margin raw
  ⟨0x3401, 1, 2, .f32, .rws, 2, [0], .sp .nonneg⟩,  -- Speed Kp, Ki·T
  ⟨0x3402, 1, 2, .f32, .rws, 2, [0x3D4CCCCD, 0xBD4CCCCD], .any⟩,  -- K_fw, Δψ_min
  ⟨0x3403, 1, 1, .blob 16384, .rws, 2, [0], .sp (.blobLen 16384)⟩,  -- MTPA table
  ⟨0x3403, 2, 4, .f32, .rws, 2, [0x447A0000, 0x3C23D70A, 0x3F800000], .sp .positive⟩,  -- T_ax, ψ_lo, ψ_hi
  ⟨0x3404, 1, 1, .u16, .rws, 2, [0xC8], .nat 50 1000⟩,  -- Back-EMF PLL bandwidth
  ⟨0x3404, 2, 2, .u16, .rws, 2, [0x3E8], .nat 500 5000⟩,  -- Injection frequency, amplitude
  ⟨0x3404, 3, 3, .u16, .rws, 2, [0x32], .nat 20 200⟩,
  ⟨0x3404, 4, 4, .u16, .rws, 2, [0x64], .nat 50 200⟩,  -- Injection PLL bandwidth
  ⟨0x3405, 1, 2, .f32, .rws, 2, [0x41A00000, 0x42C80000], .sp .positive⟩,  -- Position gain, hold speed limit
  ⟨0x3406, 1, 2, .i32, .rws, 2, [0], .int 0 2147483647⟩,  -- Difference Kp, Ki·T
  ⟨0x3407, 1, 1, .f32, .rws, 2, [0], .sp (.ibSpan 0 0 true (1/5))⟩]  -- Dead-time compensation threshold

/-- Objects of block 0x3000. -/
def objRows3 : List ObjRow := objRows3p0 ++ objRows3p1

/-- Objects 0x4000 to 0x4020. -/
def objRows4p0 : List ObjRow := [
  ⟨0x4000, 1, 1, .u8, .rw, 3, [0], .nat 0 5⟩,  -- M1 control mode
  ⟨0x4000, 2, 2, .u8, .ro, 3, [0], .any⟩,  -- M1 mode in use
  ⟨0x4001, 1, 1, .pairF, .rw, 3, [0xFFFFFFFF], .sp (.absTax 1)⟩,  -- M1 torque command
  ⟨0x4001, 2, 2, .f32, .rw, 3, [0], .sp (.speedLim 1)⟩,  -- M1 speed command
  ⟨0x4001, 3, 3, .f32, .rw, 3, [0], .sp (.curLim 1)⟩,  -- M1 d-current command
  ⟨0x4001, 4, 4, .f32, .rw, 3, [0], .sp (.curLim 1)⟩,  -- M1 q-current command
  ⟨0x4001, 5, 5, .f32, .rw, 3, [0], .sp (.absVb 1)⟩,  -- M1 d-voltage command
  ⟨0x4001, 6, 6, .f32, .rw, 3, [0], .sp (.absVb 1)⟩,  -- M1 q-voltage command
  ⟨0x4001, 7, 7, .f32, .rw, 3, [0], .real (-2000) 2000⟩,  -- M1 voltage-mode frequency
  ⟨0x4010, 1, 1, .u8, .rw, 3, [3], .codes [3, 6]⟩,  -- M1 phase count
  ⟨0x4010, 2, 2, .u8, .rw, 3, [1], .nat 0 2⟩,  -- M1 star displacement
  ⟨0x4010, 3, 3, .u8, .rw, 3, [4], .nat 1 32⟩,  -- M1 pole pairs
  ⟨0x4010, 4, 4, .f32, .rw, 3, [0x461C4000], .real 100 30000⟩,  -- M1 rated speed
  ⟨0x4010, 5, 5, .f32, .rw, 3, [0x3C23D70A], .real (1/10000) 10⟩,  -- M1 stator resistance
  ⟨0x4010, 6, 6, .f32, .rw, 3, [0x38D1B717], .real (1/1000000) (1/10)⟩,  -- M1 d inductance
  ⟨0x4010, 7, 7, .f32, .rw, 3, [0x38D1B717], .real (1/1000000) (1/10)⟩,  -- M1 q inductance
  ⟨0x4010, 8, 8, .f32, .rw, 3, [0x3D4CCCCD], .real 0 2⟩,  -- M1 magnet flux
  ⟨0x4010, 9, 9, .f32, .rw, 3, [0x44480000], .real 100 1200⟩,  -- M1 nominal DC-link voltage
  ⟨0x4010, 0xA, 0xA, .u16, .rw, 3, [0], .any⟩,  -- M1 rotor angle offset
  ⟨0x4012, 1, 1, .pairF, .rw, 3, [0xFFFFFFFF], .sp (.zeroTax 1)⟩,  -- M1 torque limit
  ⟨0x4012, 2, 2, .pairF, .rw, 3, [0xFFFFFFFF], .sp (.zeroTax 1)⟩,  -- M1 generating torque limit
  ⟨0x4012, 3, 3, .pairF, .rw, 3, [0x447A0000BB85FFFF], .real 0 30000⟩,  -- M1 forward speed limit
  ⟨0x4012, 4, 4, .pairF, .rw, 3, [0x447A0000BB85FFFF], .real 0 30000⟩,  -- M1 reverse speed limit
  ⟨0x4012, 5, 5, .pairF, .rw, 3, [0xFFFFFFFF], .sp (.ibSpan 1 1 true (5/4))⟩,  -- M1 current limit
  ⟨0x4012, 6, 6, .u16, .rw, 3, [0x3C0], .nat 800 1000⟩,  -- M1 voltage margin
  ⟨0x4013, 1, 1, .f32, .rw, 3, [0x447A0000], .real 1 1000000⟩,  -- M1 torque slew
  ⟨0x4013, 2, 2, .f32, .rw, 3, [0x447A0000], .real 1 1000000⟩,  -- M1 speed slew
  ⟨0x4013, 3, 3, .f32, .rw, 3, [0x42C80000], .real (1/10) 100000⟩,  -- M1 current slew
  ⟨0x4013, 4, 4, .f32, .rw, 3, [0x41200000], .real (1/10) 10000⟩,  -- M1 voltage slew
  ⟨0x4014, 1, 1, .f32, .rw, 3, [0x447A0000], .sp (.updTenth 1)⟩,  -- M1 current loop bandwidth
  ⟨0x4014, 2, 2, .f32, .rw, 3, [0x41A00000], .real 1 200⟩,  -- M1 speed loop bandwidth
  ⟨0x4014, 3, 3, .f32, .rw, 3, [0x3D4CCCCD], .real (1/10000) 100⟩,  -- M1 inertia
  ⟨0x4014, 4, 4, .bool, .rw, 3, [1], .nat 0 1⟩,  -- M1 decoupling
  ⟨0x4014, 5, 5, .bool, .rw, 3, [1], .nat 0 1⟩,  -- M1 dead-time compensation
  ⟨0x4020, 1, 1, .u32, .ro, 3, [0], .any⟩,  -- M1 control status
  ⟨0x4020, 2, 2, .f32, .ro, 3, [0], .any⟩,  -- M1 estimated torque
  ⟨0x4020, 3, 3, .f32, .ro, 3, [0], .any⟩,  -- M1 measured d current
  ⟨0x4020, 4, 4, .f32, .ro, 3, [0], .any⟩,  -- M1 measured q current
  ⟨0x4020, 5, 5, .f32, .ro, 3, [0], .any⟩,  -- M1 d voltage
  ⟨0x4020, 6, 6, .f32, .ro, 3, [0], .any⟩]  -- M1 q voltage

/-- Objects 0x4020 to 0x4407. -/
def objRows4p1 : List ObjRow := [
  ⟨0x4020, 7, 7, .u16, .ro, 3, [0], .any⟩,  -- M1 modulation index
  ⟨0x4020, 8, 8, .f32, .ro, 3, [0], .any⟩,  -- M1 torque limit in force
  ⟨0x4020, 9, 9, .u8, .ro, 3, [0], .any⟩,  -- M1 torque limit source
  ⟨0x4020, 0xA, 0xA, .f32, .ro, 3, [0], .any⟩,  -- M1 speed in use
  ⟨0x4020, 0xB, 0xB, .u32, .ro, 3, [0], .any⟩,  -- M1 saturation events
  ⟨0x4400, 1, 4, .i32, .rws, 3, [0], .int 0 2147483647⟩,  -- Kp d, Ki·T d, Kp q, Ki·T q
  ⟨0x4400, 5, 5, .u16, .rws, 3, [0x3C0], .nat 800 1000⟩,  -- Voltage margin raw
  ⟨0x4401, 1, 2, .f32, .rws, 3, [0], .sp .nonneg⟩,  -- Speed Kp, Ki·T
  ⟨0x4402, 1, 2, .f32, .rws, 3, [0x3D4CCCCD, 0xBD4CCCCD], .any⟩,  -- K_fw, Δψ_min
  ⟨0x4403, 1, 1, .blob 16384, .rws, 3, [0], .sp (.blobLen 16384)⟩,  -- MTPA table
  ⟨0x4403, 2, 4, .f32, .rws, 3, [0x447A0000, 0x3C23D70A, 0x3F800000], .sp .positive⟩,  -- T_ax, ψ_lo, ψ_hi
  ⟨0x4404, 1, 1, .u16, .rws, 3, [0xC8], .nat 50 1000⟩,  -- Back-EMF PLL bandwidth
  ⟨0x4404, 2, 2, .u16, .rws, 3, [0x3E8], .nat 500 5000⟩,  -- Injection frequency, amplitude
  ⟨0x4404, 3, 3, .u16, .rws, 3, [0x32], .nat 20 200⟩,
  ⟨0x4404, 4, 4, .u16, .rws, 3, [0x64], .nat 50 200⟩,  -- Injection PLL bandwidth
  ⟨0x4405, 1, 2, .f32, .rws, 3, [0x41A00000, 0x42C80000], .sp .positive⟩,  -- Position gain, hold speed limit
  ⟨0x4406, 1, 2, .i32, .rws, 3, [0], .int 0 2147483647⟩,  -- Difference Kp, Ki·T
  ⟨0x4407, 1, 1, .f32, .rws, 3, [0], .sp (.ibSpan 1 0 true (1/5))⟩]  -- Dead-time compensation threshold

/-- Objects of block 0x4000. -/
def objRows4 : List ObjRow := objRows4p0 ++ objRows4p1

/-- Objects 0x5000 to 0x5040. -/
def objRows5p0 : List ObjRow := [
  ⟨0x5000, 1, 1, .u32, .rw, 2, [0x2710], .sp .m0Freq⟩,  -- M0 switching frequency
  ⟨0x5000, 2, 2, .u8, .rw, 2, [0], .nat 0 6⟩,  -- M0 modulation mode
  ⟨0x5000, 3, 3, .u8, .rw, 2, [0], .nat 0 1⟩,  -- M0 update mode
  ⟨0x5000, 4, 4, .u16, .rw, 2, [0xFA], .nat 10 2000⟩,  -- M0 dead time
  ⟨0x5000, 5, 5, .u16, .rw, 2, [0x64], .nat 20 2000⟩,  -- M0 minimum pulse
  ⟨0x5000, 6, 6, .u16, .rw, 2, [0x32], .nat 0 200⟩,  -- M0 spread band
  ⟨0x5000, 7, 7, .bool, .rw, 2, [1], .nat 0 1⟩,  -- M0 output enable
  ⟨0x5000, 8, 8, .u16, .rw, 2, [8], .flags 0⟩,  -- M0 modulation status
  ⟨0x5000, 9, 9, .u32, .ro, 2, [0], .any⟩,  -- M0 period in use
  ⟨0x5000, 0xA, 0xA, .u32, .ro, 2, [0], .any⟩,  -- M0 minimum-pulse adjustments
  ⟨0x5010, 1, 1, .u32, .rw, 3, [0x2710], .sp .m1Freq⟩,  -- M1 switching frequency
  ⟨0x5010, 2, 2, .u8, .rw, 3, [0], .nat 0 6⟩,  -- M1 modulation mode
  ⟨0x5010, 3, 3, .u8, .rw, 3, [0], .nat 0 1⟩,  -- M1 update mode
  ⟨0x5010, 4, 4, .u16, .rw, 3, [0xFA], .nat 10 2000⟩,  -- M1 dead time
  ⟨0x5010, 5, 5, .u16, .rw, 3, [0x64], .nat 20 2000⟩,  -- M1 minimum pulse
  ⟨0x5010, 6, 6, .u16, .rw, 3, [0x32], .nat 0 200⟩,  -- M1 spread band
  ⟨0x5010, 7, 7, .bool, .rw, 3, [1], .nat 0 1⟩,  -- M1 output enable
  ⟨0x5010, 8, 8, .u16, .rw, 3, [8], .flags 0⟩,  -- M1 modulation status
  ⟨0x5010, 9, 9, .u32, .ro, 3, [0], .any⟩,  -- M1 period in use
  ⟨0x5010, 0xA, 0xA, .u32, .ro, 3, [0], .any⟩,  -- M1 minimum-pulse adjustments
  ⟨0x5020, 1, 1, .u32, .rw, 1, [0x927C0], .nat 300000 1200000⟩,  -- SPK0 carrier frequency
  ⟨0x5020, 2, 2, .u32, .rw, 1, [0x927C0], .nat 300000 1200000⟩,  -- SPK1 carrier frequency
  ⟨0x5020, 3, 3, .u16, .rw, 1, [0x14], .nat 5 200⟩,  -- Speaker dead time
  ⟨0x5020, 4, 4, .u16, .rw, 1, [0x14], .nat 10 200⟩,  -- Speaker minimum pulse
  ⟨0x5020, 5, 5, .bool, .rw, 1, [1], .nat 0 1⟩,  -- SPK0 output enable
  ⟨0x5020, 6, 6, .bool, .rw, 1, [1], .nat 0 1⟩,  -- SPK1 output enable
  ⟨0x5020, 7, 7, .u16, .rw, 1, [8], .flags 0⟩,  -- SPK0 status
  ⟨0x5020, 8, 8, .u16, .rw, 1, [8], .flags 0⟩,  -- SPK1 status
  ⟨0x5020, 9, 9, .u32, .ro, 1, [0], .any⟩,  -- SPK0 shaper overloads
  ⟨0x5020, 0xA, 0xA, .u32, .ro, 1, [0], .any⟩,  -- SPK1 shaper overloads
  ⟨0x5030, 1, 1, .u8, .rw, 1, [0], .nat 0 63⟩,  -- M0 event enable
  ⟨0x5030, 2, 2, .u8, .rw, 1, [0], .nat 0 63⟩,  -- M1 event enable
  ⟨0x5031, 1, 0xC, .u64, .ro, 1, [0], .any⟩,  -- Last event time
  ⟨0x5040, 1, 1, .u16, .rw, 1, [0xFFF], .nat 0 4095⟩,  -- FLT enable
  ⟨0x5040, 2, 2, .u16, .rw, 1, [0x64], .nat 0 1000⟩,  -- FLT filter
  ⟨0x5040, 3, 6, .u32, .ro, 1, [0], .any⟩,  -- Trip status M0, M1, SPK0, SPK1
  ⟨0x5040, 7, 7, .u8, .wo, 1, [0], .nat 1 15⟩,  -- Trip clear
  ⟨0x5040, 8, 8, .u32, .ro, 1, [0], .any⟩,  -- Refused clears
  ⟨0x5040, 9, 9, .u32, .ro, 1, [0], .any⟩,  -- Trips
  ⟨0x5040, 0xA, 0xA, .u16, .ro, 1, [0], .any⟩]  -- First trip source

/-- Objects 0x5040 to 0x5420. -/
def objRows5p1 : List ObjRow := [
  ⟨0x5040, 0xB, 0xB, .u64, .ro, 1, [0], .any⟩,  -- First trip time
  ⟨0x5050, 1, 1, .pairU, .rw, 2, [0x1FFFFFFFE], .nat 0 3⟩,  -- M0 safe pattern mode
  ⟨0x5050, 2, 2, .pairF, .rw, 2, [0x447A0000BB85FFFF], .real 0 30000⟩,  -- M0 crossover speed
  ⟨0x5050, 3, 3, .pairF, .rw, 2, [0x42C80000BD37FFFF], .real 0 5000⟩,  -- M0 crossover hysteresis
  ⟨0x5050, 4, 4, .pairU, .rw, 2, [0xAFFFFFFF5], .nat 1 10000⟩,  -- M0 safe-pattern delay
  ⟨0x5050, 5, 5, .pairU, .rw, 2, [0xFFFFFFFF], .nat 0 1⟩,  -- M0 overcurrent pattern inhibit
  ⟨0x5051, 1, 1, .pairU, .rw, 3, [0x1FFFFFFFE], .nat 0 3⟩,  -- M1 safe pattern mode
  ⟨0x5051, 2, 2, .pairF, .rw, 3, [0x447A0000BB85FFFF], .real 0 30000⟩,  -- M1 crossover speed
  ⟨0x5051, 3, 3, .pairF, .rw, 3, [0x42C80000BD37FFFF], .real 0 5000⟩,  -- M1 crossover hysteresis
  ⟨0x5051, 4, 4, .pairU, .rw, 3, [0xAFFFFFFF5], .nat 1 10000⟩,  -- M1 safe-pattern delay
  ⟨0x5051, 5, 5, .pairU, .rw, 3, [0xFFFFFFFF], .nat 0 1⟩,  -- M1 overcurrent pattern inhibit
  ⟨0x5060, 1, 1, .pairU, .rw, 1, [0xFFFFFFFF], .nat 0 1⟩,  -- Discharge demand
  ⟨0x5060, 2, 2, .u8, .rw, 1, [0], .nat 0 3⟩,  -- Discharge method
  ⟨0x5060, 3, 3, .u8, .rw, 1, [0], .nat 0 1⟩,  -- Discharge machine
  ⟨0x5060, 4, 4, .f32, .rw, 1, [0], .sp (.ibSpanDis 1 (1/2))⟩,  -- Discharge current
  ⟨0x5060, 5, 5, .f32, .rw, 1, [0x42480000], .real 20 120⟩,  -- Discharge end voltage
  ⟨0x5060, 6, 6, .u16, .rw, 1, [0x7D0], .nat 10 5000⟩,  -- Discharge time limit
  ⟨0x5060, 7, 7, .u16, .rw, 1, [0x1F4], .nat 10 2000⟩,  -- DCHG maximum on-time
  ⟨0x5060, 8, 8, .u16, .rw, 1, [0], .flags 0⟩,  -- Discharge status
  ⟨0x5070, 1, 2, .u8, .rw, 1, [6], .nat 1 12⟩,  -- GDL0, GDL1 driver count
  ⟨0x5070, 3, 3, .u32, .rw, 1, [0x989680], .nat 1000000 10000000⟩,  -- GDL clock
  ⟨0x5070, 4, 4, .u16, .rw, 1, [0x14], .nat 1 1000⟩,  -- GDL cycle
  ⟨0x5070, 5, 5, .u16, .wo, 1, [0], .sp .gdlRequest⟩,  -- GDL request
  ⟨0x5070, 6, 7, .u16, .rw, 1, [0], .flags 0⟩,  -- GDL0, GDL1 status
  ⟨0x5070, 8, 8, .u32, .ro, 1, [0], .any⟩,  -- GDL last response
  ⟨0x5070, 9, 0xA, .u32, .ro, 1, [0], .any⟩,  -- GDL0, GDL1 check failures
  ⟨0x5400, 1, 1, .u32, .rws, 2, [0x4E20], .even 2000 100000⟩,  -- M0 period
  ⟨0x5400, 2, 2, .u16, .rws, 2, [0x640], .nat 64 12800⟩,  -- M0 dead time, minimum pulse
  ⟨0x5400, 3, 3, .u16, .rws, 2, [0x280], .nat 128 12800⟩,
  ⟨0x5400, 4, 4, .bool, .rws, 2, [0], .nat 0 1⟩,  -- M0 ratio hold
  ⟨0x5400, 5, 5, .u32, .rws, 2, [0x3E8], .sp .spreadRaw⟩,  -- M0 spread band
  ⟨0x5400, 6, 6, .u32, .rws, 2, [1], .nat 1 8388607⟩,  -- Spread seed
  ⟨0x5400, 7, 7, .u8, .rws, 2, [1], .nat 1 64⟩,  -- Shaped pattern length, entries
  ⟨0x5401, 1, 0x40, .u32, .rws, 2, [0x4E20], .sp .shapedEntry⟩,
  ⟨0x5410, 1, 1, .u32, .rws, 3, [0x4E20], .even 2000 100000⟩,  -- M1 period
  ⟨0x5410, 2, 2, .u16, .rws, 3, [0x640], .nat 64 12800⟩,  -- M1 dead time, minimum pulse
  ⟨0x5410, 3, 3, .u16, .rws, 3, [0x280], .nat 128 12800⟩,
  ⟨0x5410, 4, 4, .bool, .rws, 3, [0], .nat 0 1⟩,  -- M1 ratio hold
  ⟨0x5420, 1, 2, .u16, .rws, 1, [0x29AB], .nat 5333 21333⟩,  -- SPK0 period, SPK1 period, speaker dead time, speaker minimum pulse
  ⟨0x5420, 3, 3, .u16, .rws, 1, [0x80], .nat 32 1280⟩]

/-- Objects 0x5420 to 0x5482. -/
def objRows5p2 : List ObjRow := [
  ⟨0x5420, 4, 4, .u16, .rws, 1, [0x80], .nat 64 1280⟩,
  ⟨0x5420, 5, 5, .u16, .rws, 1, [0x352], .nat 500 900⟩,  -- Shaper input limit
  ⟨0x5430, 1, 0xC, .u32, .rws, 1, [0x1000000], .sp .eventCfg⟩,  -- Event configuration
  ⟨0x5440, 1, 4, .u32, .rws, 1, [0], .sp .ctcCfg⟩,  -- CTC0 to CTC3
  ⟨0x5450, 1, 0xC, .u32, .rws, 1, [0x8010000A, 0x8010000A, 0x8010000A, 0x8010000A, 0x8010000A, 0x8010000A, 0x8020000A, 0x8020000A, 0x8020000A, 0x8020000A, 0x8020000A, 0x8020000A], .sp .fltCfg⟩,  -- FLT0 to FLT11 configuration
  ⟨0x5450, 0xD, 0xD, .u32, .rws, 1, [0xC0F00000], .sp .ridgeCfg⟩,  -- Ridge trip configuration
  ⟨0x5480, 1, 0x40, .u64, .rws, 1, [0], .sp .gdlEntry⟩,  -- GDL0 entries
  ⟨0x5481, 1, 0x40, .u64, .rws, 1, [0], .sp .gdlEntry⟩,  -- GDL1 entries
  ⟨0x5482, 1, 2, .u8, .rws, 1, [0], .nat 0 64⟩]  -- GDL0, GDL1 table length

/-- Objects of block 0x5000. -/
def objRows5 : List ObjRow := objRows5p0 ++ objRows5p1 ++ objRows5p2

/-- Objects 0x6000 to 0x6110. -/
def objRows6p0 : List ObjRow := [
  ⟨0x6000, 1, 1, .u32, .rw, 1, [0x1312D00], .nat 5000000 25000000⟩,  -- Current modulator clock
  ⟨0x6000, 2, 2, .u32, .rw, 1, [0x1312D00], .nat 5000000 25000000⟩,  -- Voltage and speaker modulator clock
  ⟨0x6000, 3, 3, .u16, .rw, 1, [0x40], .even 16 256⟩,  -- Current decimation
  ⟨0x6000, 4, 4, .u16, .rw, 1, [0x40], .even 16 256⟩,  -- DC-link decimation
  ⟨0x6000, 5, 5, .u16, .rw, 1, [0x80], .nat 16 256⟩,  -- Speaker sense decimation
  ⟨0x6000, 6, 6, .u8, .rw, 1, [0], .nat 0 1⟩,  -- M0 window centre
  ⟨0x6000, 7, 7, .u8, .rw, 1, [0], .nat 0 1⟩,  -- M1 window centre
  ⟨0x6000, 8, 8, .u8, .rw, 1, [2], .nat 1 2⟩,  -- Fast-path order
  ⟨0x6000, 9, 9, .u8, .rw, 1, [8], .nat 4 32⟩,  -- Fast-path decimation
  ⟨0x6010, 1, 1, .pairF, .rw, 1, [0xFFFFFFFF], .sp (.fullScale 0)⟩,  -- M0 phase overcurrent trip
  ⟨0x6010, 2, 2, .pairF, .rw, 1, [0xFFFFFFFF], .sp (.fullScale 1)⟩,  -- M1 phase overcurrent trip
  ⟨0x6010, 3, 3, .pairF, .rw, 1, [0xFFFFFFFF], .sp (.fullScale 0)⟩,  -- M0 phase current alert
  ⟨0x6010, 4, 4, .pairF, .rw, 1, [0xFFFFFFFF], .sp (.fullScale 1)⟩,  -- M1 phase current alert
  ⟨0x6020, 1, 1, .u16, .rw, 1, [0x12C], .nat 10 2000⟩,  -- Pair tolerance
  ⟨0x6020, 2, 2, .u8, .rw, 1, [1], .nat 1 8⟩,  -- Pair confirmation
  ⟨0x6020, 3, 3, .u32, .ro, 1, [0], .any⟩,  -- Active paths
  ⟨0x6020, 4, 4, .u32, .ro, 1, [0], .any⟩,  -- Failed paths
  ⟨0x6020, 5, 5, .u32, .ro, 1, [0], .any⟩,  -- Path switches
  ⟨0x6020, 6, 6, .u16, .rw, 1, [0x1F4], .nat 0 2000⟩,  -- Sum tolerance
  ⟨0x6020, 7, 7, .u32, .wo, 1, [0], .mask 0x0FFFFFFF⟩,  -- Restore paths
  ⟨0x6030, 1, 1, .f32, .ro, 1, [0], .any⟩,  -- M0 DC-link voltage
  ⟨0x6030, 2, 2, .f32, .ro, 1, [0], .any⟩,  -- M1 DC-link voltage
  ⟨0x6030, 3, 3, .bool, .rw, 1, [1], .nat 0 1⟩,  -- DC-link shared
  ⟨0x6030, 4, 4, .u8, .rw, 1, [0], .nat 0 32⟩,  -- DC-link backup slot
  ⟨0x6040, 1, 0x18, .f32, .ro, 1, [0], .any⟩,  -- Phase current SD0 to SD23
  ⟨0x6041, 1, 8, .f32, .ro, 1, [0], .any⟩,  -- Voltage and speaker sense SD24 to SD31
  ⟨0x6050, 1, 0x28, .u16, .rw, 1, [0], .flags 0x0003⟩,  -- Channel status SD0 to SD31, MIC0 to MIC7
  ⟨0x6060, 1, 1, .u8, .rw, 4, [0], .nat 0 255⟩,  -- Microphone enable
  ⟨0x6060, 2, 2, .u32, .ro, 4, [0x52042], .any⟩,  -- Microphone group delay
  ⟨0x6100, 1, 1, .u32, .rw, 1, [0x2710], .nat 4000 20000⟩,  -- RES0 excitation frequency
  ⟨0x6100, 2, 2, .u16, .rw, 1, [0x7D0], .nat 500 4000⟩,  -- RES0 excitation amplitude
  ⟨0x6100, 3, 3, .u16, .rw, 1, [0x3E8], .nat 200 4000⟩,  -- RES0 tracking bandwidth
  ⟨0x6100, 4, 4, .u8, .rw, 1, [1], .nat 1 16⟩,  -- RES0 pole pairs
  ⟨0x6100, 5, 5, .u16, .ro, 1, [0], .any⟩,  -- RES0 angle
  ⟨0x6100, 6, 6, .f32, .ro, 1, [0], .any⟩,  -- RES0 speed
  ⟨0x6100, 7, 7, .u16, .ro, 1, [0], .any⟩,  -- RES0 status
  ⟨0x6100, 8, 8, .u16, .ro, 1, [0], .any⟩,  -- RES0 amplitude
  ⟨0x6110, 1, 1, .u32, .rw, 1, [0x2710], .nat 4000 20000⟩,  -- RES1 excitation frequency
  ⟨0x6110, 2, 2, .u16, .rw, 1, [0x7D0], .nat 500 4000⟩,  -- RES1 excitation amplitude
  ⟨0x6110, 3, 3, .u16, .rw, 1, [0x3E8], .nat 200 4000⟩]  -- RES1 tracking bandwidth

/-- Objects 0x6110 to 0x6430. -/
def objRows6p1 : List ObjRow := [
  ⟨0x6110, 4, 4, .u8, .rw, 1, [1], .nat 1 16⟩,  -- RES1 pole pairs
  ⟨0x6110, 5, 5, .u16, .ro, 1, [0], .any⟩,  -- RES1 angle
  ⟨0x6110, 6, 6, .f32, .ro, 1, [0], .any⟩,  -- RES1 speed
  ⟨0x6110, 7, 7, .u16, .ro, 1, [0], .any⟩,  -- RES1 status
  ⟨0x6110, 8, 8, .u16, .ro, 1, [0], .any⟩,  -- RES1 amplitude
  ⟨0x6200, 1, 1, .u8, .rw, 1, [0], .nat 0 2⟩,  -- ENC0 mode
  ⟨0x6200, 2, 2, .u32, .rw, 1, [0x400], .nat 1 65536⟩,  -- ENC0 lines
  ⟨0x6200, 3, 3, .u8, .rw, 1, [0], .nat 0 2⟩,  -- ENC0 Z mode
  ⟨0x6200, 4, 4, .u8, .rw, 1, [3], .nat 0 31⟩,  -- ENC0 input filter
  ⟨0x6200, 5, 5, .u32, .rw, 1, [0xF4240], .nat 100000 4000000⟩,  -- ENC0 SSI clock
  ⟨0x6200, 6, 6, .u8, .rw, 1, [0x19], .nat 8 32⟩,  -- ENC0 SSI data bits
  ⟨0x6200, 7, 7, .u8, .rw, 1, [0], .nat 0 7⟩,  -- ENC0 SSI format
  ⟨0x6200, 8, 8, .u32, .ro, 1, [0], .any⟩,  -- ENC0 position
  ⟨0x6200, 9, 9, .f32, .ro, 1, [0], .any⟩,  -- ENC0 speed
  ⟨0x6200, 0xA, 0xA, .u16, .ro, 1, [0], .any⟩,  -- ENC0 status
  ⟨0x6210, 1, 1, .u8, .rw, 1, [0], .nat 0 2⟩,  -- ENC1 mode
  ⟨0x6210, 2, 2, .u32, .rw, 1, [0x400], .nat 1 65536⟩,  -- ENC1 lines
  ⟨0x6210, 3, 3, .u8, .rw, 1, [0], .nat 0 2⟩,  -- ENC1 Z mode
  ⟨0x6210, 4, 4, .u8, .rw, 1, [3], .nat 0 31⟩,  -- ENC1 input filter
  ⟨0x6210, 5, 5, .u32, .rw, 1, [0xF4240], .nat 100000 4000000⟩,  -- ENC1 SSI clock
  ⟨0x6210, 6, 6, .u8, .rw, 1, [0x19], .nat 8 32⟩,  -- ENC1 SSI data bits
  ⟨0x6210, 7, 7, .u8, .rw, 1, [0], .nat 0 7⟩,  -- ENC1 SSI format
  ⟨0x6210, 8, 8, .u32, .ro, 1, [0], .any⟩,  -- ENC1 position
  ⟨0x6210, 9, 9, .f32, .ro, 1, [0], .any⟩,  -- ENC1 speed
  ⟨0x6210, 0xA, 0xA, .u16, .ro, 1, [0], .any⟩,  -- ENC1 status
  ⟨0x6300, 1, 1, .u8, .rw, 1, [0], .nat 0 4⟩,  -- M0 position source
  ⟨0x6300, 2, 2, .u8, .rw, 1, [1], .nat 0 4⟩,  -- M1 position source
  ⟨0x6300, 3, 3, .bool, .rw, 1, [1], .nat 0 1⟩,  -- Standstill observer armed
  ⟨0x6300, 4, 4, .u8, .ro, 1, [0], .any⟩,  -- M0 source in use
  ⟨0x6300, 5, 5, .u8, .ro, 1, [0], .any⟩,  -- M1 source in use
  ⟨0x6400, 1, 2, .u8, .rws, 1, [0xA], .nat 8 40⟩,  -- Current divider, group 3 divider
  ⟨0x6400, 3, 6, .u8, .rws, 1, [8], .nat 0 31⟩,  -- Sample delay SDG0 to SDG3
  ⟨0x6400, 7, 8, .u16, .rws, 1, [0x40], .even 16 256⟩,  -- D_I, D_U raw
  ⟨0x6400, 9, 9, .u16, .rws, 1, [0x80], .nat 16 256⟩,  -- D_S raw
  ⟨0x6400, 0xA, 0xA, .u8, .rws, 1, [2], .nat 1 2⟩,  -- Fast order
  ⟨0x6400, 0xB, 0xB, .u8, .rws, 1, [8], .nat 4 32⟩,  -- Fast decimation
  ⟨0x6400, 0xC, 0xC, .u8, .rws, 1, [1], .nat 1 4⟩,  -- Comparator confirmation
  ⟨0x6410, 1, 0x20, .u32, .rws, 1, [0x1A1, 0x1A1, 0x1A1, 0x1A1, 0x1A1, 0x1A1, 0x1A1, 0x1A1, 0x1A1, 0x1A1, 0x1A1, 0x1A1, 0x181, 0x181, 0x181, 0x181, 0x181, 0x181, 0x181, 0x181, 0x181, 0x181, 0x181, 0x181, 1, 1, 1, 1, 1, 1, 1, 1], .sp .channelCfg⟩,  -- Channel configuration SD0 to SD31
  ⟨0x6420, 1, 0x18, .pairI, .rws, 1, [0xFFFFFFFF], .any⟩,  -- TH1 SD0 to SD23
  ⟨0x6430, 1, 0x18, .pairI, .rws, 1, [0xFFFFFFFF], .any⟩]  -- TH2 SD0 to SD23

/-- Objects 0x6440 to 0x6510. -/
def objRows6p2 : List ObjRow := [
  ⟨0x6440, 1, 0x18, .pairI, .rws, 1, [0xFFFFFFFF], .any⟩,  -- OFS SD0 to SD23
  ⟨0x6500, 1, 1, .i16, .rws, 1, [0], .any⟩,  -- Resolver demodulation phase
  ⟨0x6500, 2, 3, .u16, .rws, 1, [500, 2731], .any⟩,  -- LOS threshold, LOT threshold
  ⟨0x6510, 1, 1, .i16, .rws, 1, [0], .any⟩,  -- Resolver demodulation phase
  ⟨0x6510, 2, 3, .u16, .rws, 1, [500, 2731], .any⟩]  -- LOS threshold, LOT threshold

/-- Objects of block 0x6000. -/
def objRows6 : List ObjRow := objRows6p0 ++ objRows6p1 ++ objRows6p2

/-- Objects 0x7000 to 0x7011. -/
def objRows7p0 : List ObjRow := [
  ⟨0x7000, 1, 1, .u32, .rw, 4, [0], .flags 0⟩,  -- Hearth status
  ⟨0x7000, 2, 2, .u16, .ro, 4, [0x60], .any⟩,  -- Hearth latency
  ⟨0x7000, 3, 3, .u64, .ro, 4, [0], .any⟩,  -- Latest block cairn
  ⟨0x7000, 4, 4, .u32, .ro, 4, [0], .any⟩,  -- Blocks
  ⟨0x7000, 5, 5, .u32, .ro, 4, [0], .any⟩,  -- Block overruns
  ⟨0x7000, 6, 6, .u32, .ro, 4, [0], .any⟩,  -- Output clips
  ⟨0x7000, 7, 7, .u32, .ro, 4, [0], .any⟩,  -- Recipe faults
  ⟨0x7000, 8, 8, .u32, .ro, 4, [0], .any⟩,  -- Alignment shifts
  ⟨0x7001, 1, 8, .u16, .rw, 4, [0], .sp .inputSource⟩,  -- Input source S0 to S7
  ⟨0x7001, 9, 0x10, .i16, .ro, 4, [0], .any⟩,  -- Input alignment residual S0 to S7
  ⟨0x7002, 1, 0x20, .i16, .rw, 4, [0xFC18], .int (-1000) 60⟩,  -- Matrix gain
  ⟨0x7003, 1, 4, .bool, .rw, 4, [0], .nat 0 1⟩,  -- Output enable O0 to O3
  ⟨0x7003, 5, 5, .f32, .rw, 4, [0], .sp (.ibSpan 0 1 true (1/4))⟩,  -- Injection full scale M0, M1
  ⟨0x7003, 6, 6, .f32, .rw, 4, [0], .sp (.ibSpan 1 1 true (1/4))⟩,
  ⟨0x7003, 7, 8, .f32, .rw, 4, [0x41600000], .real 5 60⟩,  -- Speaker supply SPK0, SPK1
  ⟨0x7003, 9, 0xA, .u8, .rw, 4, [0], .nat 0 32⟩,  -- Speaker supply slot SPK0, SPK1
  ⟨0x7003, 0xB, 0xC, .u8, .rw, 4, [0], .nat 0 2⟩,  -- Speaker fallback SPK0, SPK1
  ⟨0x7003, 0xD, 0xE, .u16, .ro, 4, [0], .any⟩,  -- Motor sound ceiling M0, M1
  ⟨0x7003, 0xF, 0x12, .u16, .ro, 4, [0x3E8], .any⟩,  -- Limiter gain O0 to O3
  ⟨0x7005, 1, 8, .u8, .rw, 4, [0], .sp .sendTap⟩,  -- Send tap T0 to T7
  ⟨0x7010, 1, 1, .bool, .rw, 4, [0], .nat 0 1⟩,  -- G0 enable
  ⟨0x7010, 2, 2, .u8, .rw, 4, [0], .nat 0 2⟩,  -- G0 speed source
  ⟨0x7010, 3, 3, .f32, .rw, 4, [0], .any⟩,  -- G0 speed input
  ⟨0x7010, 4, 4, .u8, .rw, 4, [2], .nat 2 8⟩,  -- G0 map points
  ⟨0x7010, 5, 0xC, .u16, .rw, 4, [0x800, 0, 0, 0, 0, 0, 0, 0], .sp .partialWord⟩,  -- G0 partial 1 to 8
  ⟨0x7010, 0xD, 0x14, .f32, .rw, 4, [0, 0x447A0000, 0, 0, 0, 0, 0, 0], .sp .ascending⟩,  -- G0 map speed 1 to 8
  ⟨0x7010, 0x15, 0x1C, .f32, .rw, 4, [0x43FA0000], .real 20 2000⟩,  -- G0 map pitch 1 to 8
  ⟨0x7010, 0x1D, 0x24, .i16, .rw, 4, [0xFC18], .int (-1000) 0⟩,  -- G0 map level 1 to 8
  ⟨0x7010, 0x25, 0x25, .f32, .ro, 4, [0], .any⟩,  -- G0 pitch in use
  ⟨0x7010, 0x26, 0x26, .i16, .ro, 4, [0], .any⟩,  -- G0 level in use
  ⟨0x7011, 1, 1, .bool, .rw, 4, [0], .nat 0 1⟩,  -- G1 enable
  ⟨0x7011, 2, 2, .u8, .rw, 4, [0], .nat 0 2⟩,  -- G1 speed source
  ⟨0x7011, 3, 3, .f32, .rw, 4, [0], .any⟩,  -- G1 speed input
  ⟨0x7011, 4, 4, .u8, .rw, 4, [2], .nat 2 8⟩,  -- G1 map points
  ⟨0x7011, 5, 0xC, .u16, .rw, 4, [0x800, 0, 0, 0, 0, 0, 0, 0], .sp .partialWord⟩,  -- G1 partial 1 to 8
  ⟨0x7011, 0xD, 0x14, .f32, .rw, 4, [0, 0x447A0000, 0, 0, 0, 0, 0, 0], .sp .ascending⟩,  -- G1 map speed 1 to 8
  ⟨0x7011, 0x15, 0x1C, .f32, .rw, 4, [0x43FA0000], .real 20 2000⟩,  -- G1 map pitch 1 to 8
  ⟨0x7011, 0x1D, 0x24, .i16, .rw, 4, [0xFC18], .int (-1000) 0⟩,  -- G1 map level 1 to 8
  ⟨0x7011, 0x25, 0x25, .f32, .ro, 4, [0], .any⟩,  -- G1 pitch in use
  ⟨0x7011, 0x26, 0x26, .i16, .ro, 4, [0], .any⟩]  -- G1 level in use

/-- Objects 0x7020 to 0x7111. -/
def objRows7p1 : List ObjRow := [
  ⟨0x7020, 1, 1, .u16, .wo, 4, [0], .sp .chimePlay⟩,  -- G2 play
  ⟨0x7020, 2, 2, .u16, .ro, 4, [0], .any⟩,  -- G2 status
  ⟨0x7020, 3, 3, .i16, .rw, 4, [0], .int (-1000) 0⟩,  -- G2 level
  ⟨0x7021, 1, 1, .u16, .wo, 4, [0], .sp .chimePlay⟩,  -- G3 play
  ⟨0x7021, 2, 2, .u16, .ro, 4, [0], .any⟩,  -- G3 status
  ⟨0x7021, 3, 3, .i16, .rw, 4, [0], .int (-1000) 0⟩,  -- G3 level
  ⟨0x7030, 1, 0xC, .u8, .rw, 4, [0], .nat 0 8⟩,  -- O0 biquad type 1 to 12
  ⟨0x7030, 0xD, 0x18, .f32, .rw, 4, [0x447A0000], .real 20 20000⟩,  -- O0 biquad frequency 1 to 12
  ⟨0x7030, 0x19, 0x24, .f32, .rw, 4, [0x3F350481], .real (1/10) 20⟩,  -- O0 biquad Q 1 to 12
  ⟨0x7030, 0x25, 0x30, .f32, .rw, 4, [0], .real (-24) 12⟩,  -- O0 biquad gain 1 to 12
  ⟨0x7031, 1, 0xC, .u8, .rw, 4, [0], .nat 0 8⟩,  -- O1 biquad type 1 to 12
  ⟨0x7031, 0xD, 0x18, .f32, .rw, 4, [0x447A0000], .real 20 20000⟩,  -- O1 biquad frequency 1 to 12
  ⟨0x7031, 0x19, 0x24, .f32, .rw, 4, [0x3F350481], .real (1/10) 20⟩,  -- O1 biquad Q 1 to 12
  ⟨0x7031, 0x25, 0x30, .f32, .rw, 4, [0], .real (-24) 12⟩,  -- O1 biquad gain 1 to 12
  ⟨0x7032, 1, 0xC, .u8, .rw, 4, [0], .nat 0 8⟩,  -- O2 biquad type 1 to 12
  ⟨0x7032, 0xD, 0x18, .f32, .rw, 4, [0x447A0000], .real 20 20000⟩,  -- O2 biquad frequency 1 to 12
  ⟨0x7032, 0x19, 0x24, .f32, .rw, 4, [0x3F350481], .real (1/10) 20⟩,  -- O2 biquad Q 1 to 12
  ⟨0x7032, 0x25, 0x30, .f32, .rw, 4, [0], .real (-24) 12⟩,  -- O2 biquad gain 1 to 12
  ⟨0x7033, 1, 0xC, .u8, .rw, 4, [0], .nat 0 8⟩,  -- O3 biquad type 1 to 12
  ⟨0x7033, 0xD, 0x18, .f32, .rw, 4, [0x447A0000], .real 20 20000⟩,  -- O3 biquad frequency 1 to 12
  ⟨0x7033, 0x19, 0x24, .f32, .rw, 4, [0x3F350481], .real (1/10) 20⟩,  -- O3 biquad Q 1 to 12
  ⟨0x7033, 0x25, 0x30, .f32, .rw, 4, [0], .real (-24) 12⟩,  -- O3 biquad gain 1 to 12
  ⟨0x7100, 1, 1, .u32, .rw, 4, [0], .flags 0⟩,  -- Canceller status
  ⟨0x7100, 2, 2, .u16, .wo, 4, [0], .sp .identMask⟩,  -- Identification request
  ⟨0x7100, 3, 3, .u32, .ro, 4, [0], .any⟩,  -- Identification status
  ⟨0x7100, 4, 4, .u16, .rw, 4, [0x64], .nat 20 500⟩,  -- Identification amplitude
  ⟨0x7100, 5, 5, .u32, .ro, 4, [0], .any⟩,  -- Divergences
  ⟨0x7101, 1, 1, .bool, .rw, 4, [0], .nat 0 1⟩,  -- M0 canceller enable
  ⟨0x7101, 2, 2, .u16, .rw, 4, [0xC8], .nat 1 2500⟩,  -- M0 step size
  ⟨0x7101, 3, 3, .u16, .rw, 4, [0xA], .nat 0 1000⟩,  -- M0 leakage
  ⟨0x7101, 4, 4, .u16, .rw, 4, [0xFA], .nat 10 1000⟩,  -- M0 order output limit
  ⟨0x7101, 5, 5, .u16, .rw, 4, [0x1F4], .nat 10 1000⟩,  -- M0 total output limit
  ⟨0x7101, 6, 6, .u16, .rw, 4, [0x64], .nat 10 400⟩,  -- M0 attenuation target
  ⟨0x7102, 1, 0xE, .i16, .rw, 4, [0], .int (-1000) 1000⟩,  -- M0 sensor weight
  ⟨0x7103, 1, 8, .u32, .rw, 4, [0], .sp .orderDef⟩,  -- M0 order definition 0 to 7
  ⟨0x7104, 1, 8, .u16, .rw, 4, [0], .flags 0⟩,  -- M0 order status 0 to 7
  ⟨0x7105, 1, 8, .f32, .ro, 4, [0], .any⟩,  -- M0 order frequency 0 to 7
  ⟨0x7106, 1, 8, .u16, .ro, 4, [0], .any⟩,  -- M0 order amplitude 0 to 7
  ⟨0x7107, 1, 8, .i16, .ro, 4, [0], .any⟩,  -- M0 order attenuation 0 to 7
  ⟨0x7111, 1, 1, .bool, .rw, 4, [0], .nat 0 1⟩]  -- M1 canceller enable

/-- Objects 0x7111 to 0x7210. -/
def objRows7p2 : List ObjRow := [
  ⟨0x7111, 2, 2, .u16, .rw, 4, [0xC8], .nat 1 2500⟩,  -- M1 step size
  ⟨0x7111, 3, 3, .u16, .rw, 4, [0xA], .nat 0 1000⟩,  -- M1 leakage
  ⟨0x7111, 4, 4, .u16, .rw, 4, [0xFA], .nat 10 1000⟩,  -- M1 order output limit
  ⟨0x7111, 5, 5, .u16, .rw, 4, [0x1F4], .nat 10 1000⟩,  -- M1 total output limit
  ⟨0x7111, 6, 6, .u16, .rw, 4, [0x64], .nat 10 400⟩,  -- M1 attenuation target
  ⟨0x7112, 1, 0xE, .i16, .rw, 4, [0], .int (-1000) 1000⟩,  -- M1 sensor weight
  ⟨0x7113, 1, 8, .u32, .rw, 4, [0], .sp .orderDef⟩,  -- M1 order definition 0 to 7
  ⟨0x7114, 1, 8, .u16, .rw, 4, [0], .flags 0⟩,  -- M1 order status 0 to 7
  ⟨0x7115, 1, 8, .f32, .ro, 4, [0], .any⟩,  -- M1 order frequency 0 to 7
  ⟨0x7116, 1, 8, .u16, .ro, 4, [0], .any⟩,  -- M1 order amplitude 0 to 7
  ⟨0x7117, 1, 8, .i16, .ro, 4, [0], .any⟩,  -- M1 order attenuation 0 to 7
  ⟨0x7180, 1, 2, .u8, .rw, 4, [0], .nat 0 5⟩,  -- ACC0, ACC1 rate
  ⟨0x7180, 3, 3, .u32, .rw, 4, [0x7A1200], .nat 1000000 10000000⟩,  -- Accelerometer SPI clock
  ⟨0x7180, 4, 5, .u8, .rw, 4, [0], .nat 0 255⟩,  -- ACC0, ACC1 read command
  ⟨0x7180, 6, 6, .u8, .rw, 4, [0], .nat 0 3⟩,  -- Accelerometer format
  ⟨0x7180, 7, 8, .u32, .rw, 4, [0], .nat 0 2000000⟩,  -- ACC0, ACC1 group delay
  ⟨0x7180, 9, 9, .u16, .rw, 4, [0], .flags 0⟩,  -- Accelerometer status
  ⟨0x7180, 0xA, 0xA, .u32, .ro, 4, [0], .any⟩,  -- Accelerometer skips
  ⟨0x7181, 1, 6, .i16, .ro, 4, [0], .any⟩,  -- Latest samples
  ⟨0x7200, 1, 1, .u32, .rw, 5, [0], .sp .aspCfg⟩,  -- ASP0 configuration
  ⟨0x7200, 2, 2, .u16, .rw, 5, [0], .sp .aspMask⟩,  -- ASP0 receive slot mask
  ⟨0x7200, 3, 3, .u16, .rw, 5, [0], .sp .aspMask⟩,  -- ASP0 transmit slot mask
  ⟨0x7200, 4, 4, .u16, .rw, 5, [0], .flags 0⟩,  -- ASP0 status
  ⟨0x7200, 5, 5, .u32, .ro, 5, [0], .any⟩,  -- ASP0 underruns
  ⟨0x7200, 6, 6, .u32, .ro, 5, [0], .any⟩,  -- ASP0 overruns
  ⟨0x7200, 7, 7, .u32, .ro, 5, [0], .any⟩,  -- ASP0 glitched frames
  ⟨0x7200, 8, 8, .u32, .ro, 5, [0], .any⟩,  -- ASP0 clock losses
  ⟨0x7200, 9, 9, .u32, .ro, 5, [0], .any⟩,  -- ASP0 rate errors
  ⟨0x7200, 0xA, 0xA, .f32, .ro, 5, [0], .any⟩,  -- ASP0 measured frame rate
  ⟨0x7200, 0xB, 0xB, .u64, .ro, 5, [0], .any⟩,  -- ASP0 latest receive cairn
  ⟨0x7200, 0xC, 0xC, .u64, .ro, 5, [0], .any⟩,  -- ASP0 latest transmit cairn
  ⟨0x7204, 1, 0x10, .u8, .rw, 5, [0], .nat 0 8⟩,  -- ASP0 transmit slot source 0 to 15
  ⟨0x7210, 1, 1, .u32, .rw, 6, [0], .sp .aspCfg⟩,  -- ASP1 configuration
  ⟨0x7210, 2, 2, .u16, .rw, 6, [0], .sp .aspMask⟩,  -- ASP1 receive slot mask
  ⟨0x7210, 3, 3, .u16, .rw, 6, [0], .sp .aspMask⟩,  -- ASP1 transmit slot mask
  ⟨0x7210, 4, 4, .u16, .rw, 6, [0], .flags 0⟩,  -- ASP1 status
  ⟨0x7210, 5, 5, .u32, .ro, 6, [0], .any⟩,  -- ASP1 underruns
  ⟨0x7210, 6, 6, .u32, .ro, 6, [0], .any⟩,  -- ASP1 overruns
  ⟨0x7210, 7, 7, .u32, .ro, 6, [0], .any⟩,  -- ASP1 glitched frames
  ⟨0x7210, 8, 8, .u32, .ro, 6, [0], .any⟩]  -- ASP1 clock losses

/-- Objects 0x7210 to 0x7260. -/
def objRows7p3 : List ObjRow := [
  ⟨0x7210, 9, 9, .u32, .ro, 6, [0], .any⟩,  -- ASP1 rate errors
  ⟨0x7210, 0xA, 0xA, .f32, .ro, 6, [0], .any⟩,  -- ASP1 measured frame rate
  ⟨0x7210, 0xB, 0xB, .u64, .ro, 6, [0], .any⟩,  -- ASP1 latest receive cairn
  ⟨0x7210, 0xC, 0xC, .u64, .ro, 6, [0], .any⟩,  -- ASP1 latest transmit cairn
  ⟨0x7214, 1, 0x10, .u8, .rw, 6, [0], .nat 0 8⟩,  -- ASP1 transmit slot source 0 to 15
  ⟨0x7220, 1, 1, .u32, .rw, 7, [0], .sp .aspCfg⟩,  -- ASP2 configuration
  ⟨0x7220, 2, 2, .u16, .rw, 7, [0], .sp .aspMask⟩,  -- ASP2 receive slot mask
  ⟨0x7220, 3, 3, .u16, .rw, 7, [0], .sp .aspMask⟩,  -- ASP2 transmit slot mask
  ⟨0x7220, 4, 4, .u16, .rw, 7, [0], .flags 0⟩,  -- ASP2 status
  ⟨0x7220, 5, 5, .u32, .ro, 7, [0], .any⟩,  -- ASP2 underruns
  ⟨0x7220, 6, 6, .u32, .ro, 7, [0], .any⟩,  -- ASP2 overruns
  ⟨0x7220, 7, 7, .u32, .ro, 7, [0], .any⟩,  -- ASP2 glitched frames
  ⟨0x7220, 8, 8, .u32, .ro, 7, [0], .any⟩,  -- ASP2 clock losses
  ⟨0x7220, 9, 9, .u32, .ro, 7, [0], .any⟩,  -- ASP2 rate errors
  ⟨0x7220, 0xA, 0xA, .f32, .ro, 7, [0], .any⟩,  -- ASP2 measured frame rate
  ⟨0x7220, 0xB, 0xB, .u64, .ro, 7, [0], .any⟩,  -- ASP2 latest receive cairn
  ⟨0x7220, 0xC, 0xC, .u64, .ro, 7, [0], .any⟩,  -- ASP2 latest transmit cairn
  ⟨0x7224, 1, 0x10, .u8, .rw, 7, [0], .nat 0 8⟩,  -- ASP2 transmit slot source 0 to 15
  ⟨0x7230, 1, 1, .u32, .rw, 8, [0], .sp .aspCfg⟩,  -- ASP3 configuration
  ⟨0x7230, 2, 2, .u16, .rw, 8, [0], .sp .aspMask⟩,  -- ASP3 receive slot mask
  ⟨0x7230, 3, 3, .u16, .rw, 8, [0], .sp .aspMask⟩,  -- ASP3 transmit slot mask
  ⟨0x7230, 4, 4, .u16, .rw, 8, [0], .flags 0⟩,  -- ASP3 status
  ⟨0x7230, 5, 5, .u32, .ro, 8, [0], .any⟩,  -- ASP3 underruns
  ⟨0x7230, 6, 6, .u32, .ro, 8, [0], .any⟩,  -- ASP3 overruns
  ⟨0x7230, 7, 7, .u32, .ro, 8, [0], .any⟩,  -- ASP3 glitched frames
  ⟨0x7230, 8, 8, .u32, .ro, 8, [0], .any⟩,  -- ASP3 clock losses
  ⟨0x7230, 9, 9, .u32, .ro, 8, [0], .any⟩,  -- ASP3 rate errors
  ⟨0x7230, 0xA, 0xA, .f32, .ro, 8, [0], .any⟩,  -- ASP3 measured frame rate
  ⟨0x7230, 0xB, 0xB, .u64, .ro, 8, [0], .any⟩,  -- ASP3 latest receive cairn
  ⟨0x7230, 0xC, 0xC, .u64, .ro, 8, [0], .any⟩,  -- ASP3 latest transmit cairn
  ⟨0x7234, 1, 0x10, .u8, .rw, 8, [0], .nat 0 8⟩,  -- ASP3 transmit slot source 0 to 15
  ⟨0x7240, 1, 1, .u8, .rw, 4, [7], .nat 0 7⟩,  -- Leading source
  ⟨0x7240, 2, 2, .i32, .ro, 4, [0], .any⟩,  -- AUD trim
  ⟨0x7240, 3, 3, .u16, .ro, 4, [0], .any⟩,  -- Audio clock status
  ⟨0x7260, 1, 1, .bool, .rw, 4, [0], .nat 0 1⟩,  -- Listener enable 0, 1
  ⟨0x7260, 2, 2, .u64, .rw, 4, [0], .any⟩,  -- Listener stream ID
  ⟨0x7260, 3, 3, .u64, .rw, 4, [0], .mask 0xFFFFFFFFFFFF⟩,  -- Listener destination MAC
  ⟨0x7260, 4, 4, .u8, .rw, 4, [2], .nat 1 8⟩,  -- Listener channel count
  ⟨0x7260, 5, 5, .u16, .rw, 4, [0], .flags 0x001C⟩,  -- Listener status
  ⟨0x7260, 6, 8, .u32, .ro, 4, [0], .any⟩]  -- Late PDUs, sequence gaps, format errors

/-- Objects 0x7260 to 0x7432. -/
def objRows7p4 : List ObjRow := [
  ⟨0x7260, 9, 9, .u64, .ro, 4, [0], .any⟩,  -- Listener latest cairn
  ⟨0x7261, 1, 1, .bool, .rw, 4, [0], .nat 0 1⟩,
  ⟨0x7261, 2, 2, .u64, .rw, 4, [0], .any⟩,
  ⟨0x7261, 3, 3, .u64, .rw, 4, [0], .mask 0xFFFFFFFFFFFF⟩,
  ⟨0x7261, 4, 4, .u8, .rw, 4, [2], .nat 1 8⟩,
  ⟨0x7261, 5, 5, .u16, .rw, 4, [0], .flags 0x001C⟩,
  ⟨0x7261, 6, 8, .u32, .ro, 4, [0], .any⟩,
  ⟨0x7261, 9, 9, .u64, .ro, 4, [0], .any⟩,
  ⟨0x7270, 1, 1, .bool, .rw, 4, [0], .nat 0 1⟩,  -- Talker enable 0, 1
  ⟨0x7270, 2, 2, .u64, .rw, 4, [0], .any⟩,  -- Talker stream ID
  ⟨0x7270, 3, 3, .u64, .rw, 4, [0], .mask 0xFFFFFFFFFFFF⟩,  -- Talker destination MAC
  ⟨0x7270, 4, 4, .u16, .rw, 4, [2], .nat 0 4094⟩,  -- Talker VLAN ID
  ⟨0x7270, 5, 5, .u8, .rw, 4, [3], .nat 0 7⟩,  -- Talker priority
  ⟨0x7270, 6, 6, .u8, .rw, 4, [2], .nat 1 8⟩,  -- Talker channel count
  ⟨0x7270, 7, 7, .u8, .rw, 4, [2], .nat 0 2⟩,  -- Talker sample format
  ⟨0x7270, 8, 8, .u8, .rw, 4, [6], .nat 1 32⟩,  -- Talker samples per PDU
  ⟨0x7270, 9, 9, .u32, .rw, 4, [0x3567E0], .nat 1500000 50000000⟩,  -- Talker presentation offset
  ⟨0x7270, 0xA, 0x11, .u8, .rw, 4, [0], .nat 0 8⟩,  -- Talker channel source 1 to 8
  ⟨0x7270, 0x12, 0x12, .u8, .ro, 4, [0], .any⟩,  -- Talker status
  ⟨0x7270, 0x13, 0x13, .u32, .ro, 4, [0], .any⟩,  -- PDUs sent
  ⟨0x7271, 1, 1, .bool, .rw, 4, [0], .nat 0 1⟩,
  ⟨0x7271, 2, 2, .u64, .rw, 4, [0], .any⟩,
  ⟨0x7271, 3, 3, .u64, .rw, 4, [0], .mask 0xFFFFFFFFFFFF⟩,
  ⟨0x7271, 4, 4, .u16, .rw, 4, [2], .nat 0 4094⟩,
  ⟨0x7271, 5, 5, .u8, .rw, 4, [3], .nat 0 7⟩,
  ⟨0x7271, 6, 6, .u8, .rw, 4, [2], .nat 1 8⟩,
  ⟨0x7271, 7, 7, .u8, .rw, 4, [2], .nat 0 2⟩,
  ⟨0x7271, 8, 8, .u8, .rw, 4, [6], .nat 1 32⟩,
  ⟨0x7271, 9, 9, .u32, .rw, 4, [0x3567E0], .nat 1500000 50000000⟩,
  ⟨0x7271, 0xA, 0x11, .u8, .rw, 4, [0], .nat 0 8⟩,
  ⟨0x7271, 0x12, 0x12, .u8, .ro, 4, [0], .any⟩,
  ⟨0x7271, 0x13, 0x13, .u32, .ro, 4, [0], .any⟩,
  ⟨0x7280, 1, 1, .u16, .rw, 4, [0xA], .nat 0 100⟩,  -- PDM wake time
  ⟨0x7280, 2, 2, .u8, .ro, 4, [0], .any⟩,  -- PDM status
  ⟨0x7402, 1, 0x20, .i16, .rws, 4, [0], .int (-32768) 32767⟩,  -- Matrix raw
  ⟨0x7420, 1, 1, .blob 196608, .rws, 4, [0], .any⟩,  -- Chime store
  ⟨0x7421, 1, 0x10, .u32, .rws, 4, [0], .sp .clipDir⟩,  -- Clip directory 0 to 15
  ⟨0x7430, 1, 0x3C, .i32, .rws, 4, [0x20000000, 0, 0, 0, 0, 0x20000000, 0, 0, 0, 0, 0x20000000, 0, 0, 0, 0, 0x20000000, 0, 0, 0, 0, 0x20000000, 0, 0, 0, 0, 0x20000000, 0, 0, 0, 0, 0x20000000, 0, 0, 0, 0, 0x20000000, 0, 0, 0, 0, 0x20000000, 0, 0, 0, 0, 0x20000000, 0, 0, 0, 0, 0x20000000, 0, 0, 0, 0, 0x20000000, 0, 0, 0, 0], .any⟩,  -- O0 biquad coefficients
  ⟨0x7431, 1, 0x3C, .i32, .rws, 4, [0x20000000, 0, 0, 0, 0, 0x20000000, 0, 0, 0, 0, 0x20000000, 0, 0, 0, 0, 0x20000000, 0, 0, 0, 0, 0x20000000, 0, 0, 0, 0, 0x20000000, 0, 0, 0, 0, 0x20000000, 0, 0, 0, 0, 0x20000000, 0, 0, 0, 0, 0x20000000, 0, 0, 0, 0, 0x20000000, 0, 0, 0, 0, 0x20000000, 0, 0, 0, 0, 0x20000000, 0, 0, 0, 0], .any⟩,  -- O1 biquad coefficients
  ⟨0x7432, 1, 0x3C, .i32, .rws, 4, [0x20000000, 0, 0, 0, 0, 0x20000000, 0, 0, 0, 0, 0x20000000, 0, 0, 0, 0, 0x20000000, 0, 0, 0, 0, 0x20000000, 0, 0, 0, 0, 0x20000000, 0, 0, 0, 0, 0x20000000, 0, 0, 0, 0, 0x20000000, 0, 0, 0, 0, 0x20000000, 0, 0, 0, 0, 0x20000000, 0, 0, 0, 0, 0x20000000, 0, 0, 0, 0, 0x20000000, 0, 0, 0, 0], .any⟩]  -- O2 biquad coefficients

/-- Objects 0x7433 to 0x7630. -/
def objRows7p5 : List ObjRow := [
  ⟨0x7433, 1, 0x3C, .i32, .rws, 4, [0x20000000, 0, 0, 0, 0, 0x20000000, 0, 0, 0, 0, 0x20000000, 0, 0, 0, 0, 0x20000000, 0, 0, 0, 0, 0x20000000, 0, 0, 0, 0, 0x20000000, 0, 0, 0, 0, 0x20000000, 0, 0, 0, 0, 0x20000000, 0, 0, 0, 0, 0x20000000, 0, 0, 0, 0, 0x20000000, 0, 0, 0, 0, 0x20000000, 0, 0, 0, 0, 0x20000000, 0, 0, 0, 0], .any⟩,  -- O3 biquad coefficients
  ⟨0x7500, 1, 8, .blob 512, .rws, 4, [0], .sp (.blobLen 512)⟩,  -- M0 secondary-path table 0 to 7
  ⟨0x7501, 1, 0x10, .f32, .rws, 4, [0x43480000, 0x45DAC000, 0x43480000, 0x45DAC000, 0x43480000, 0x45DAC000, 0x43480000, 0x45DAC000, 0x43480000, 0x45DAC000, 0x43480000, 0x45DAC000, 0x43480000, 0x45DAC000, 0x43480000, 0x45DAC000], .real 20 10000⟩,  -- M0 table frequency range
  ⟨0x7510, 1, 8, .blob 512, .rws, 4, [0], .sp (.blobLen 512)⟩,  -- M1 secondary-path table 0 to 7
  ⟨0x7511, 1, 0x10, .f32, .rws, 4, [0x43480000, 0x45DAC000, 0x43480000, 0x45DAC000, 0x43480000, 0x45DAC000, 0x43480000, 0x45DAC000, 0x43480000, 0x45DAC000, 0x43480000, 0x45DAC000, 0x43480000, 0x45DAC000, 0x43480000, 0x45DAC000], .real 20 10000⟩,  -- M1 table frequency range
  ⟨0x7600, 1, 1, .u32, .rws, 5, [0], .sp .aspCfgStaged⟩,  -- ASP0 configuration, staged
  ⟨0x7600, 2, 2, .u16, .rws, 5, [0], .nat 0 65535⟩,  -- ASP0 receive slot mask, staged
  ⟨0x7600, 3, 3, .u16, .rws, 5, [0], .nat 0 65535⟩,  -- ASP0 transmit slot mask, staged
  ⟨0x7610, 1, 1, .u32, .rws, 6, [0], .sp .aspCfgStaged⟩,  -- ASP1 configuration, staged
  ⟨0x7610, 2, 2, .u16, .rws, 6, [0], .nat 0 65535⟩,  -- ASP1 receive slot mask, staged
  ⟨0x7610, 3, 3, .u16, .rws, 6, [0], .nat 0 65535⟩,  -- ASP1 transmit slot mask, staged
  ⟨0x7620, 1, 1, .u32, .rws, 7, [0], .sp .aspCfgStaged⟩,  -- ASP2 configuration, staged
  ⟨0x7620, 2, 2, .u16, .rws, 7, [0], .nat 0 65535⟩,  -- ASP2 receive slot mask, staged
  ⟨0x7620, 3, 3, .u16, .rws, 7, [0], .nat 0 65535⟩,  -- ASP2 transmit slot mask, staged
  ⟨0x7630, 1, 1, .u32, .rws, 8, [0], .sp .aspCfgStaged⟩,  -- ASP3 configuration, staged
  ⟨0x7630, 2, 2, .u16, .rws, 8, [0], .nat 0 65535⟩,  -- ASP3 receive slot mask, staged
  ⟨0x7630, 3, 3, .u16, .rws, 8, [0], .nat 0 65535⟩]  -- ASP3 transmit slot mask, staged

/-- Objects of block 0x7000. -/
def objRows7 : List ObjRow := objRows7p0 ++ objRows7p1 ++ objRows7p2 ++ objRows7p3 ++ objRows7p4 ++ objRows7p5

/-- Objects 0x8000 to 0x8011. -/
def objRows8p0 : List ObjRow := [
  ⟨0x8000, 1, 1, .u16, .wo, 4, [0], .mask 0x000F⟩,  -- Adopt identification
  ⟨0x8010, 1, 1, .u8, .rw, 4, [0], .nat 0 32⟩,  -- Reference slot
  ⟨0x8010, 2, 2, .f32, .rw, 4, [0x42D20000], .real (-40) 200⟩,  -- Fallback reference temperature
  ⟨0x8010, 3, 3, .f32, .rw, 4, [0x41A00000], .real 0 100⟩,  -- Start offset
  ⟨0x8010, 4, 4, .f32, .rw, 4, [0x3C23D70A], .real (1/10000) 100⟩,  -- Coil resistance
  ⟨0x8010, 5, 5, .f32, .rw, 4, [0x41C80000], .real (-40) 200⟩,  -- Resistance temperature
  ⟨0x8010, 6, 6, .f32, .rw, 4, [0x3B80C73B], .real (1/1000) (1/100)⟩,  -- Temperature coefficient
  ⟨0x8010, 7, 7, .f32, .rw, 4, [0x44FA0000], .real (1/10) 100000⟩,  -- Node 1 capacity
  ⟨0x8010, 8, 8, .f32, .rw, 4, [0x45FA0000], .real (1/10) 100000⟩,  -- Node 2 capacity
  ⟨0x8010, 9, 9, .f32, .rw, 4, [0x3C23D70A], .real (1/10000) 1000⟩,  -- Node 1 to node 2 resistance
  ⟨0x8010, 0xA, 0xA, .f32, .rw, 4, [0x3CA3D70A], .real (1/10000) 1000⟩,  -- Node 2 to reference resistance
  ⟨0x8010, 0xB, 0xB, .u16, .rw, 4, [0x12C], .nat 0 1000⟩,  -- Node 2 loss share
  ⟨0x8010, 0xC, 0xC, .pairF, .rw, 4, [0x43340000BCCBFFFF], .real 40 250⟩,  -- Node 1 limit
  ⟨0x8010, 0xD, 0xD, .pairF, .rw, 4, [0x432A0000BCD5FFFF], .real 40 250⟩,  -- Node 2 limit
  ⟨0x8010, 0xE, 0xE, .pairF, .rw, 4, [0x41A00000BE5FFFFF], .real 1 100⟩,  -- Derating span
  ⟨0x8010, 0xF, 0xF, .pairF, .rw, 4, [0x41200000BEDFFFFF], .real 1 100⟩,  -- Sound span
  ⟨0x8010, 0x10, 0x10, .pairU, .rw, 4, [0x12CFFFFFED3], .nat 0 1000⟩,  -- Derated torque floor
  ⟨0x8010, 0x11, 0x11, .u8, .rw, 4, [0], .nat 0 32⟩,  -- Node 2 sensor slot
  ⟨0x8010, 0x12, 0x12, .u16, .rw, 4, [0x64], .nat 0 1000⟩,  -- Resistance tracking gain
  ⟨0x8010, 0x13, 0x13, .u16, .rw, 4, [0xA], .nat 0 1000⟩,  -- Sensor tracking gain
  ⟨0x8010, 0x14, 0x14, .f32, .rw, 4, [0x42200000], .real 10 200⟩,  -- Tracking corner
  ⟨0x8010, 0x15, 0x15, .f32, .rw, 4, [0x3D4CCCCD], .real (1/1000) 10⟩,  -- Tracking minimum current
  ⟨0x8010, 0x16, 0x16, .i16, .rw, 4, [0xFFC4], .int (-1000) 0⟩,  -- Sense-loss gain
  ⟨0x8011, 1, 1, .u8, .rw, 4, [0], .nat 0 32⟩,  -- Reference slot
  ⟨0x8011, 2, 2, .f32, .rw, 4, [0x42D20000], .real (-40) 200⟩,  -- Fallback reference temperature
  ⟨0x8011, 3, 3, .f32, .rw, 4, [0x41A00000], .real 0 100⟩,  -- Start offset
  ⟨0x8011, 4, 4, .f32, .rw, 4, [0x3C23D70A], .real (1/10000) 100⟩,  -- Coil resistance
  ⟨0x8011, 5, 5, .f32, .rw, 4, [0x41C80000], .real (-40) 200⟩,  -- Resistance temperature
  ⟨0x8011, 6, 6, .f32, .rw, 4, [0x3B80C73B], .real (1/1000) (1/100)⟩,  -- Temperature coefficient
  ⟨0x8011, 7, 7, .f32, .rw, 4, [0x44FA0000], .real (1/10) 100000⟩,  -- Node 1 capacity
  ⟨0x8011, 8, 8, .f32, .rw, 4, [0x45FA0000], .real (1/10) 100000⟩,  -- Node 2 capacity
  ⟨0x8011, 9, 9, .f32, .rw, 4, [0x3C23D70A], .real (1/10000) 1000⟩,  -- Node 1 to node 2 resistance
  ⟨0x8011, 0xA, 0xA, .f32, .rw, 4, [0x3CA3D70A], .real (1/10000) 1000⟩,  -- Node 2 to reference resistance
  ⟨0x8011, 0xB, 0xB, .u16, .rw, 4, [0x12C], .nat 0 1000⟩,  -- Node 2 loss share
  ⟨0x8011, 0xC, 0xC, .pairF, .rw, 4, [0x43340000BCCBFFFF], .real 40 250⟩,  -- Node 1 limit
  ⟨0x8011, 0xD, 0xD, .pairF, .rw, 4, [0x432A0000BCD5FFFF], .real 40 250⟩,  -- Node 2 limit
  ⟨0x8011, 0xE, 0xE, .pairF, .rw, 4, [0x41A00000BE5FFFFF], .real 1 100⟩,  -- Derating span
  ⟨0x8011, 0xF, 0xF, .pairF, .rw, 4, [0x41200000BEDFFFFF], .real 1 100⟩,  -- Sound span
  ⟨0x8011, 0x10, 0x10, .pairU, .rw, 4, [0x12CFFFFFED3], .nat 0 1000⟩,  -- Derated torque floor
  ⟨0x8011, 0x11, 0x11, .u8, .rw, 4, [0], .nat 0 32⟩]  -- Node 2 sensor slot

/-- Objects 0x8011 to 0x8013. -/
def objRows8p1 : List ObjRow := [
  ⟨0x8011, 0x12, 0x12, .u16, .rw, 4, [0x64], .nat 0 1000⟩,  -- Resistance tracking gain
  ⟨0x8011, 0x13, 0x13, .u16, .rw, 4, [0xA], .nat 0 1000⟩,  -- Sensor tracking gain
  ⟨0x8011, 0x14, 0x14, .f32, .rw, 4, [0x42200000], .real 10 200⟩,  -- Tracking corner
  ⟨0x8011, 0x15, 0x15, .f32, .rw, 4, [0x3D4CCCCD], .real (1/1000) 10⟩,  -- Tracking minimum current
  ⟨0x8011, 0x16, 0x16, .i16, .rw, 4, [0xFFC4], .int (-1000) 0⟩,  -- Sense-loss gain
  ⟨0x8012, 1, 1, .u8, .rw, 4, [0], .nat 0 32⟩,  -- Reference slot
  ⟨0x8012, 2, 2, .f32, .rw, 4, [0x42700000], .real (-40) 200⟩,  -- Fallback reference temperature
  ⟨0x8012, 3, 3, .f32, .rw, 4, [0x41200000], .real 0 100⟩,  -- Start offset
  ⟨0x8012, 4, 4, .f32, .rw, 4, [0x40666666], .real (1/10000) 100⟩,  -- Coil resistance
  ⟨0x8012, 5, 5, .f32, .rw, 4, [0x41C80000], .real (-40) 200⟩,  -- Resistance temperature
  ⟨0x8012, 6, 6, .f32, .rw, 4, [0x3B80C73B], .real (1/1000) (1/100)⟩,  -- Temperature coefficient
  ⟨0x8012, 7, 7, .f32, .rw, 4, [0x40A00000], .real (1/10) 100000⟩,  -- Node 1 capacity
  ⟨0x8012, 8, 8, .f32, .rw, 4, [0x43480000], .real (1/10) 100000⟩,  -- Node 2 capacity
  ⟨0x8012, 9, 9, .f32, .rw, 4, [0x40000000], .real (1/10000) 1000⟩,  -- Node 1 to node 2 resistance
  ⟨0x8012, 0xA, 0xA, .f32, .rw, 4, [0x41000000], .real (1/10000) 1000⟩,  -- Node 2 to reference resistance
  ⟨0x8012, 0xB, 0xB, .u16, .rw, 4, [0], .nat 0 1000⟩,  -- Node 2 loss share
  ⟨0x8012, 0xC, 0xC, .pairF, .rw, 4, [0x42F00000BD0FFFFF], .real 40 250⟩,  -- Node 1 limit
  ⟨0x8012, 0xD, 0xD, .pairF, .rw, 4, [0x42B40000BD4BFFFF], .real 40 250⟩,  -- Node 2 limit
  ⟨0x8012, 0xE, 0xE, .pairF, .rw, 4, [0x41A00000BE5FFFFF], .real 1 100⟩,  -- Derating span
  ⟨0x8012, 0xF, 0xF, .pairF, .rw, 4, [0x41200000BEDFFFFF], .real 1 100⟩,  -- Sound span
  ⟨0x8012, 0x10, 0x10, .pairU, .rw, 4, [0x12CFFFFFED3], .nat 0 1000⟩,  -- Derated torque floor
  ⟨0x8012, 0x11, 0x11, .u8, .rw, 4, [0], .nat 0 32⟩,  -- Node 2 sensor slot
  ⟨0x8012, 0x12, 0x12, .u16, .rw, 4, [0x64], .nat 0 1000⟩,  -- Resistance tracking gain
  ⟨0x8012, 0x13, 0x13, .u16, .rw, 4, [0xA], .nat 0 1000⟩,  -- Sensor tracking gain
  ⟨0x8012, 0x14, 0x14, .f32, .rw, 4, [0x42200000], .real 10 200⟩,  -- Tracking corner
  ⟨0x8012, 0x15, 0x15, .f32, .rw, 4, [0x3D4CCCCD], .real (1/1000) 10⟩,  -- Tracking minimum current
  ⟨0x8012, 0x16, 0x16, .i16, .rw, 4, [0xFFC4], .int (-1000) 0⟩,  -- Sense-loss gain
  ⟨0x8013, 1, 1, .u8, .rw, 4, [0], .nat 0 32⟩,  -- Reference slot
  ⟨0x8013, 2, 2, .f32, .rw, 4, [0x42700000], .real (-40) 200⟩,  -- Fallback reference temperature
  ⟨0x8013, 3, 3, .f32, .rw, 4, [0x41200000], .real 0 100⟩,  -- Start offset
  ⟨0x8013, 4, 4, .f32, .rw, 4, [0x40666666], .real (1/10000) 100⟩,  -- Coil resistance
  ⟨0x8013, 5, 5, .f32, .rw, 4, [0x41C80000], .real (-40) 200⟩,  -- Resistance temperature
  ⟨0x8013, 6, 6, .f32, .rw, 4, [0x3B80C73B], .real (1/1000) (1/100)⟩,  -- Temperature coefficient
  ⟨0x8013, 7, 7, .f32, .rw, 4, [0x40A00000], .real (1/10) 100000⟩,  -- Node 1 capacity
  ⟨0x8013, 8, 8, .f32, .rw, 4, [0x43480000], .real (1/10) 100000⟩,  -- Node 2 capacity
  ⟨0x8013, 9, 9, .f32, .rw, 4, [0x40000000], .real (1/10000) 1000⟩,  -- Node 1 to node 2 resistance
  ⟨0x8013, 0xA, 0xA, .f32, .rw, 4, [0x41000000], .real (1/10000) 1000⟩,  -- Node 2 to reference resistance
  ⟨0x8013, 0xB, 0xB, .u16, .rw, 4, [0], .nat 0 1000⟩,  -- Node 2 loss share
  ⟨0x8013, 0xC, 0xC, .pairF, .rw, 4, [0x42F00000BD0FFFFF], .real 40 250⟩,  -- Node 1 limit
  ⟨0x8013, 0xD, 0xD, .pairF, .rw, 4, [0x42B40000BD4BFFFF], .real 40 250⟩]  -- Node 2 limit

/-- Objects 0x8013 to 0x8030. -/
def objRows8p2 : List ObjRow := [
  ⟨0x8013, 0xE, 0xE, .pairF, .rw, 4, [0x41A00000BE5FFFFF], .real 1 100⟩,  -- Derating span
  ⟨0x8013, 0xF, 0xF, .pairF, .rw, 4, [0x41200000BEDFFFFF], .real 1 100⟩,  -- Sound span
  ⟨0x8013, 0x10, 0x10, .pairU, .rw, 4, [0x12CFFFFFED3], .nat 0 1000⟩,  -- Derated torque floor
  ⟨0x8013, 0x11, 0x11, .u8, .rw, 4, [0], .nat 0 32⟩,  -- Node 2 sensor slot
  ⟨0x8013, 0x12, 0x12, .u16, .rw, 4, [0x64], .nat 0 1000⟩,  -- Resistance tracking gain
  ⟨0x8013, 0x13, 0x13, .u16, .rw, 4, [0xA], .nat 0 1000⟩,  -- Sensor tracking gain
  ⟨0x8013, 0x14, 0x14, .f32, .rw, 4, [0x42200000], .real 10 200⟩,  -- Tracking corner
  ⟨0x8013, 0x15, 0x15, .f32, .rw, 4, [0x3D4CCCCD], .real (1/1000) 10⟩,  -- Tracking minimum current
  ⟨0x8013, 0x16, 0x16, .i16, .rw, 4, [0xFFC4], .int (-1000) 0⟩,  -- Sense-loss gain
  ⟨0x8020, 1, 1, .f32, .rw, 4, [0x453B8000], .real 20 10000⟩,  -- Resonance
  ⟨0x8020, 2, 2, .f32, .rw, 4, [0x40A00000], .real (3/10) 50⟩,  -- Q
  ⟨0x8020, 3, 3, .f32, .rw, 4, [0], .real 0 1000000000⟩,  -- Static gain
  ⟨0x8020, 4, 4, .f32, .rw, 4, [0], .real 0 1000000⟩,  -- Displacement limit
  ⟨0x8020, 5, 5, .f32, .rw, 4, [0], .real 0 1000000⟩,  -- Acceleration limit
  ⟨0x8020, 6, 6, .u16, .rw, 4, [0x1F4], .nat 10 5000⟩,  -- Release time
  ⟨0x8020, 7, 7, .u16, .rw, 4, [0x14], .nat 0 500⟩,  -- Hold time
  ⟨0x8021, 1, 1, .f32, .rw, 4, [0x453B8000], .real 20 10000⟩,  -- Resonance
  ⟨0x8021, 2, 2, .f32, .rw, 4, [0x40A00000], .real (3/10) 50⟩,  -- Q
  ⟨0x8021, 3, 3, .f32, .rw, 4, [0], .real 0 1000000000⟩,  -- Static gain
  ⟨0x8021, 4, 4, .f32, .rw, 4, [0], .real 0 1000000⟩,  -- Displacement limit
  ⟨0x8021, 5, 5, .f32, .rw, 4, [0], .real 0 1000000⟩,  -- Acceleration limit
  ⟨0x8021, 6, 6, .u16, .rw, 4, [0x1F4], .nat 10 5000⟩,  -- Release time
  ⟨0x8021, 7, 7, .u16, .rw, 4, [0x14], .nat 0 500⟩,  -- Hold time
  ⟨0x8022, 1, 1, .f32, .rw, 4, [0x42A00000], .real 20 10000⟩,  -- Resonance
  ⟨0x8022, 2, 2, .f32, .rw, 4, [0x3F666666], .real (3/10) 50⟩,  -- Q
  ⟨0x8022, 3, 3, .f32, .rw, 4, [0x43FA0000], .real 0 1000000000⟩,  -- Static gain
  ⟨0x8022, 4, 4, .f32, .rw, 4, [0x453B8000], .real 0 1000000⟩,  -- Displacement limit
  ⟨0x8022, 5, 5, .f32, .rw, 4, [0], .real 0 1000000⟩,  -- Acceleration limit
  ⟨0x8022, 6, 6, .u16, .rw, 4, [0xC8], .nat 10 5000⟩,  -- Release time
  ⟨0x8022, 7, 7, .u16, .rw, 4, [0x14], .nat 0 500⟩,  -- Hold time
  ⟨0x8023, 1, 1, .f32, .rw, 4, [0x42A00000], .real 20 10000⟩,  -- Resonance
  ⟨0x8023, 2, 2, .f32, .rw, 4, [0x3F666666], .real (3/10) 50⟩,  -- Q
  ⟨0x8023, 3, 3, .f32, .rw, 4, [0x43FA0000], .real 0 1000000000⟩,  -- Static gain
  ⟨0x8023, 4, 4, .f32, .rw, 4, [0x453B8000], .real 0 1000000⟩,  -- Displacement limit
  ⟨0x8023, 5, 5, .f32, .rw, 4, [0], .real 0 1000000⟩,  -- Acceleration limit
  ⟨0x8023, 6, 6, .u16, .rw, 4, [0xC8], .nat 10 5000⟩,  -- Release time
  ⟨0x8023, 7, 7, .u16, .rw, 4, [0x14], .nat 0 500⟩,  -- Hold time
  ⟨0x8030, 1, 1, .u16, .rw, 4, [0], .flags 0⟩,  -- Model status
  ⟨0x8030, 2, 2, .f32, .ro, 4, [0], .any⟩,  -- Node 1 temperature
  ⟨0x8030, 3, 3, .f32, .ro, 4, [0], .any⟩]  -- Node 2 temperature

/-- Objects 0x8030 to 0x8033. -/
def objRows8p3 : List ObjRow := [
  ⟨0x8030, 4, 4, .f32, .ro, 4, [0], .any⟩,  -- Reference temperature in use
  ⟨0x8030, 5, 5, .f32, .ro, 4, [0], .any⟩,  -- Resistance estimate
  ⟨0x8030, 6, 6, .f32, .ro, 4, [0], .any⟩,  -- Loss
  ⟨0x8030, 7, 7, .u16, .ro, 4, [0x3E8], .any⟩,  -- Coil gain
  ⟨0x8030, 8, 8, .u16, .ro, 4, [0x3E8], .any⟩,  -- Cone gain
  ⟨0x8030, 9, 9, .f32, .ro, 4, [0], .any⟩,  -- Displacement peak
  ⟨0x8030, 0xA, 0xA, .f32, .ro, 4, [0], .any⟩,  -- Acceleration peak
  ⟨0x8030, 0xB, 0xB, .u16, .ro, 4, [0x3E8], .any⟩,  -- Thermal factor
  ⟨0x8030, 0xC, 0xC, .u32, .ro, 4, [0], .any⟩,  -- Cone attacks
  ⟨0x8030, 0xD, 0xD, .u32, .ro, 4, [0], .any⟩,  -- Overshoots
  ⟨0x8031, 1, 1, .u16, .rw, 4, [0], .flags 0⟩,  -- Model status
  ⟨0x8031, 2, 2, .f32, .ro, 4, [0], .any⟩,  -- Node 1 temperature
  ⟨0x8031, 3, 3, .f32, .ro, 4, [0], .any⟩,  -- Node 2 temperature
  ⟨0x8031, 4, 4, .f32, .ro, 4, [0], .any⟩,  -- Reference temperature in use
  ⟨0x8031, 5, 5, .f32, .ro, 4, [0], .any⟩,  -- Resistance estimate
  ⟨0x8031, 6, 6, .f32, .ro, 4, [0], .any⟩,  -- Loss
  ⟨0x8031, 7, 7, .u16, .ro, 4, [0x3E8], .any⟩,  -- Coil gain
  ⟨0x8031, 8, 8, .u16, .ro, 4, [0x3E8], .any⟩,  -- Cone gain
  ⟨0x8031, 9, 9, .f32, .ro, 4, [0], .any⟩,  -- Displacement peak
  ⟨0x8031, 0xA, 0xA, .f32, .ro, 4, [0], .any⟩,  -- Acceleration peak
  ⟨0x8031, 0xB, 0xB, .u16, .ro, 4, [0x3E8], .any⟩,  -- Thermal factor
  ⟨0x8031, 0xC, 0xC, .u32, .ro, 4, [0], .any⟩,  -- Cone attacks
  ⟨0x8031, 0xD, 0xD, .u32, .ro, 4, [0], .any⟩,  -- Overshoots
  ⟨0x8032, 1, 1, .u16, .rw, 4, [0], .flags 0⟩,  -- Model status
  ⟨0x8032, 2, 2, .f32, .ro, 4, [0], .any⟩,  -- Node 1 temperature
  ⟨0x8032, 3, 3, .f32, .ro, 4, [0], .any⟩,  -- Node 2 temperature
  ⟨0x8032, 4, 4, .f32, .ro, 4, [0], .any⟩,  -- Reference temperature in use
  ⟨0x8032, 5, 5, .f32, .ro, 4, [0], .any⟩,  -- Resistance estimate
  ⟨0x8032, 6, 6, .f32, .ro, 4, [0], .any⟩,  -- Loss
  ⟨0x8032, 7, 7, .u16, .ro, 4, [0x3E8], .any⟩,  -- Coil gain
  ⟨0x8032, 8, 8, .u16, .ro, 4, [0x3E8], .any⟩,  -- Cone gain
  ⟨0x8032, 9, 9, .f32, .ro, 4, [0], .any⟩,  -- Displacement peak
  ⟨0x8032, 0xA, 0xA, .f32, .ro, 4, [0], .any⟩,  -- Acceleration peak
  ⟨0x8032, 0xB, 0xB, .u16, .ro, 4, [0x3E8], .any⟩,  -- Thermal factor
  ⟨0x8032, 0xC, 0xC, .u32, .ro, 4, [0], .any⟩,  -- Cone attacks
  ⟨0x8032, 0xD, 0xD, .u32, .ro, 4, [0], .any⟩,  -- Overshoots
  ⟨0x8033, 1, 1, .u16, .rw, 4, [0], .flags 0⟩,  -- Model status
  ⟨0x8033, 2, 2, .f32, .ro, 4, [0], .any⟩,  -- Node 1 temperature
  ⟨0x8033, 3, 3, .f32, .ro, 4, [0], .any⟩,  -- Node 2 temperature
  ⟨0x8033, 4, 4, .f32, .ro, 4, [0], .any⟩]  -- Reference temperature in use

/-- Objects 0x8033 to 0x8050. -/
def objRows8p4 : List ObjRow := [
  ⟨0x8033, 5, 5, .f32, .ro, 4, [0], .any⟩,  -- Resistance estimate
  ⟨0x8033, 6, 6, .f32, .ro, 4, [0], .any⟩,  -- Loss
  ⟨0x8033, 7, 7, .u16, .ro, 4, [0x3E8], .any⟩,  -- Coil gain
  ⟨0x8033, 8, 8, .u16, .ro, 4, [0x3E8], .any⟩,  -- Cone gain
  ⟨0x8033, 9, 9, .f32, .ro, 4, [0], .any⟩,  -- Displacement peak
  ⟨0x8033, 0xA, 0xA, .f32, .ro, 4, [0], .any⟩,  -- Acceleration peak
  ⟨0x8033, 0xB, 0xB, .u16, .ro, 4, [0x3E8], .any⟩,  -- Thermal factor
  ⟨0x8033, 0xC, 0xC, .u32, .ro, 4, [0], .any⟩,  -- Cone attacks
  ⟨0x8033, 0xD, 0xD, .u32, .ro, 4, [0], .any⟩,  -- Overshoots
  ⟨0x8040, 1, 1, .u16, .wo, 4, [0], .sp .tapRequest⟩,  -- Tap-test request
  ⟨0x8040, 2, 2, .u32, .rw, 4, [0], .flags 0⟩,  -- Tap-test status
  ⟨0x8040, 3, 3, .u8, .rwp, 4, [0xB], .nat 0 31⟩,  -- Tap-test depth
  ⟨0x8040, 4, 4, .u16, .rw, 4, [0x32], .nat 10 200⟩,  -- Machine tap amplitude
  ⟨0x8040, 5, 5, .u16, .rw, 4, [0x64], .nat 10 500⟩,  -- Speaker tap amplitude
  ⟨0x8040, 6, 6, .f32, .rw, 4, [0x43480000], .real 10 2000⟩,  -- Phase-test frequency
  ⟨0x8040, 7, 7, .f32, .rw, 4, [0x41200000], .real 1 100⟩,  -- Standstill limit
  ⟨0x8040, 8, 8, .f32, .rw, 4, [0x43960000], .real 50 2000⟩,  -- Spin speed
  ⟨0x8040, 9, 9, .u32, .ro, 4, [0], .any⟩,  -- Tap tests completed
  ⟨0x8040, 0xA, 0xA, .u32, .ro, 4, [0], .any⟩,  -- Tap tests aborted
  ⟨0x8041, 1, 1, .u8, .rw, 4, [0], .nat 0 32⟩,  -- Tone count M0, M1, SPK0, SPK1
  ⟨0x8041, 2, 0x21, .f32, .rw, 4, [0], .real 10 20000⟩,  -- Tone frequency 1 to 32
  ⟨0x8042, 1, 1, .u8, .rw, 4, [0], .nat 0 32⟩,
  ⟨0x8042, 2, 0x21, .f32, .rw, 4, [0], .real 10 20000⟩,
  ⟨0x8043, 1, 1, .u8, .rw, 4, [0x18], .nat 1 32⟩,
  ⟨0x8043, 2, 0x21, .f32, .rw, 4, [0x41A00000, 0x41C377E7, 0x41EECC9E, 0x4211DE2B, 0x42323414, 0x4259B505, 0x4284FBE2, 0x42A276A4, 0x42C67A58, 0x42F279D8, 0x43141D1B, 0x4334F278, 0x435D0F1C, 0x4387080A, 0x43A4F6FE, 0x43C988A5, 0x43F63591, 0x441664E5, 0x4437BBAC, 0x4460766B, 0x44891C44, 0x44A78133, 0x44CCA2FE, 0x44FA0000, 0, 0, 0, 0, 0, 0, 0, 0], .real 10 20000⟩,
  ⟨0x8044, 1, 1, .u8, .rw, 4, [0x18], .nat 1 32⟩,
  ⟨0x8044, 2, 0x21, .f32, .rw, 4, [0x41A00000, 0x41C377E7, 0x41EECC9E, 0x4211DE2B, 0x42323414, 0x4259B505, 0x4284FBE2, 0x42A276A4, 0x42C67A58, 0x42F279D8, 0x43141D1B, 0x4334F278, 0x435D0F1C, 0x4387080A, 0x43A4F6FE, 0x43C988A5, 0x43F63591, 0x441664E5, 0x4437BBAC, 0x4460766B, 0x44891C44, 0x44A78133, 0x44CCA2FE, 0x44FA0000, 0, 0, 0, 0, 0, 0, 0, 0], .real 10 20000⟩,
  ⟨0x8045, 1, 1, .u16, .rw, 4, [0x64], .nat 10 500⟩,  -- Imbalance limit
  ⟨0x8045, 2, 2, .u16, .rw, 4, [0x2BC], .nat 100 950⟩,  -- Short factor
  ⟨0x8045, 3, 3, .f32, .rw, 4, [0x42200000], .real 1 1000⟩,  -- Speaker open limit, short limit
  ⟨0x8045, 4, 4, .f32, .rw, 4, [0x3F800000], .real (1/10) 10⟩,
  ⟨0x8046, 1, 1, .f32, .rw, 4, [0x41A00000], .real 10 200⟩,  -- Speaker pilot frequency SPK0, SPK1
  ⟨0x8046, 2, 2, .i16, .rw, 4, [0xFC18], .int (-1000) (-200)⟩,  -- Speaker pilot level SPK0, SPK1
  ⟨0x8046, 3, 3, .f32, .rw, 4, [0x41A00000], .real 10 200⟩,
  ⟨0x8046, 4, 4, .i16, .rw, 4, [0xFC18], .int (-1000) (-200)⟩,
  ⟨0x8050, 1, 1, .u32, .ro, 4, [0], .any⟩,  -- Machine result status M0, M1
  ⟨0x8050, 2, 5, .f32, .ro, 4, [0], .any⟩,  -- Rs, Ld, Lq, ψ
  ⟨0x8050, 6, 6, .f32, .ro, 4, [0], .any⟩,  -- Result temperature, result time
  ⟨0x8050, 7, 7, .u64, .ro, 4, [0], .any⟩,
  ⟨0x8050, 8, 0xD, .f32, .ro, 4, [0], .any⟩]  -- Phase resistance 0 to 5

/-- Objects 0x8050 to 0x8412. -/
def objRows8p5 : List ObjRow := [
  ⟨0x8050, 0xE, 0x13, .f32, .ro, 4, [0], .any⟩,  -- Phase inductance 0 to 5
  ⟨0x8050, 0x14, 0x15, .u16, .ro, 4, [0], .any⟩,  -- R imbalance, L imbalance
  ⟨0x8051, 1, 1, .u32, .ro, 4, [0], .any⟩,
  ⟨0x8051, 2, 5, .f32, .ro, 4, [0], .any⟩,  -- Rs, Ld, Lq, ψ
  ⟨0x8051, 6, 6, .f32, .ro, 4, [0], .any⟩,  -- Result temperature, result time
  ⟨0x8051, 7, 7, .u64, .ro, 4, [0], .any⟩,
  ⟨0x8051, 8, 0xD, .f32, .ro, 4, [0], .any⟩,  -- Phase resistance 0 to 5
  ⟨0x8051, 0xE, 0x13, .f32, .ro, 4, [0], .any⟩,  -- Phase inductance 0 to 5
  ⟨0x8051, 0x14, 0x15, .u16, .ro, 4, [0], .any⟩,  -- R imbalance, L imbalance
  ⟨0x8052, 1, 1, .u16, .ro, 4, [0], .any⟩,  -- Speaker result status SPK0, SPK1
  ⟨0x8052, 2, 8, .f32, .ro, 4, [0], .any⟩,  -- Re, Le, fs, Q, Qms, Qes, Res
  ⟨0x8052, 9, 9, .f32, .ro, 4, [0], .any⟩,  -- Result temperature, result time
  ⟨0x8052, 0xA, 0xA, .u64, .ro, 4, [0], .any⟩,
  ⟨0x8053, 1, 1, .u16, .ro, 4, [0], .any⟩,
  ⟨0x8053, 2, 8, .f32, .ro, 4, [0], .any⟩,  -- Re, Le, fs, Q, Qms, Qes, Res
  ⟨0x8053, 9, 9, .f32, .ro, 4, [0], .any⟩,  -- Result temperature, result time
  ⟨0x8053, 0xA, 0xA, .u64, .ro, 4, [0], .any⟩,
  ⟨0x8060, 1, 0x40, .f32, .ro, 4, [0], .any⟩,  -- Sweep impedance M0, M1, SPK0, SPK1
  ⟨0x8061, 1, 0x40, .f32, .ro, 4, [0], .any⟩,
  ⟨0x8062, 1, 0x40, .f32, .ro, 4, [0], .any⟩,
  ⟨0x8063, 1, 0x40, .f32, .ro, 4, [0], .any⟩,
  ⟨0x8070, 1, 1, .u8, .rw, 4, [3], .nat 0 3⟩,  -- Drift monitor enable
  ⟨0x8070, 2, 2, .u16, .rw, 4, [0xC8], .nat 50 1000⟩,  -- Drift minimum current
  ⟨0x8070, 3, 3, .f32, .rw, 4, [0x43480000], .real 10 2000⟩,  -- Drift frequency limit
  ⟨0x8070, 4, 4, .u16, .rw, 4, [0x32], .nat 10 500⟩,  -- Passive imbalance limit
  ⟨0x8071, 1, 1, .u32, .ro, 4, [0], .any⟩,  -- Valid drift windows M0, M1
  ⟨0x8071, 2, 2, .u16, .ro, 4, [0], .any⟩,  -- Passive imbalance M0, M1
  ⟨0x8071, 3, 3, .u8, .ro, 4, [0], .any⟩,  -- Passive monitor status M0, M1
  ⟨0x8072, 1, 1, .u32, .ro, 4, [0], .any⟩,
  ⟨0x8072, 2, 2, .u16, .ro, 4, [0], .any⟩,
  ⟨0x8072, 3, 3, .u8, .ro, 4, [0], .any⟩,
  ⟨0x8080, 1, 0x10, .u32, .rw, 4, [0], .sp .orderMon⟩,  -- Order monitor 0 to 15
  ⟨0x8081, 1, 0x10, .u16, .rw, 4, [0x3E8], .nat 1 32767⟩,  -- Order threshold 0 to 15
  ⟨0x8082, 1, 0x10, .u16, .ro, 4, [0], .any⟩,  -- Order amplitude 0 to 15
  ⟨0x8083, 1, 1, .u32, .ro, 4, [0], .any⟩,  -- Order monitor status
  ⟨0x8410, 1, 4, .pairF, .rws, 4, [0x43160000BCE9FFFF, 0x43200000BCDFFFFF, 0x43200000BCDFFFFF, 0x43340000BCCBFFFF], .real (-40) 250⟩,  -- Node 1 thresholds
  ⟨0x8410, 5, 8, .pairF, .rws, 4, [0x430C0000BCF3FFFF, 0x43160000BCE9FFFF, 0x43160000BCE9FFFF, 0x432A0000BCD5FFFF], .real (-40) 250⟩,  -- Node 2 thresholds
  ⟨0x8411, 1, 4, .pairF, .rws, 4, [0x43160000BCE9FFFF, 0x43200000BCDFFFFF, 0x43200000BCDFFFFF, 0x43340000BCCBFFFF], .real (-40) 250⟩,  -- Node 1 thresholds
  ⟨0x8411, 5, 8, .pairF, .rws, 4, [0x430C0000BCF3FFFF, 0x43160000BCE9FFFF, 0x43160000BCE9FFFF, 0x432A0000BCD5FFFF], .real (-40) 250⟩,  -- Node 2 thresholds
  ⟨0x8412, 1, 2, .pairF, .rws, 4, [0x42DC0000BD23FFFF, 0x42F00000BD0FFFFF], .real (-40) 250⟩,
  ⟨0x8412, 3, 4, .pairF, .rws, 4, [0xFFFFFFFF], .real 0 0⟩]  -- Node 1 thresholds

/-- Objects 0x8412 to 0x8423. -/
def objRows8p6 : List ObjRow := [
  ⟨0x8412, 5, 6, .pairF, .rws, 4, [0x42A00000BD5FFFFF, 0x42B40000BD4BFFFF], .real (-40) 250⟩,
  ⟨0x8412, 7, 8, .pairF, .rws, 4, [0xFFFFFFFF], .real 0 0⟩,  -- Node 2 thresholds
  ⟨0x8413, 1, 2, .pairF, .rws, 4, [0x42DC0000BD23FFFF, 0x42F00000BD0FFFFF], .real (-40) 250⟩,
  ⟨0x8413, 3, 4, .pairF, .rws, 4, [0xFFFFFFFF], .real 0 0⟩,  -- Node 1 thresholds
  ⟨0x8413, 5, 6, .pairF, .rws, 4, [0x42A00000BD5FFFFF, 0x42B40000BD4BFFFF], .real (-40) 250⟩,
  ⟨0x8413, 7, 8, .pairF, .rws, 4, [0xFFFFFFFF], .real 0 0⟩,  -- Node 2 thresholds
  ⟨0x8420, 1, 5, .i32, .rws, 4, [0], .any⟩,  -- Cone coefficients
  ⟨0x8421, 1, 5, .i32, .rws, 4, [0], .any⟩,  -- Cone coefficients
  ⟨0x8422, 1, 5, .i32, .rws, 4, [0], .any⟩,  -- Cone coefficients
  ⟨0x8423, 1, 5, .i32, .rws, 4, [0], .any⟩]  -- Cone coefficients

/-- Objects of block 0x8000. -/
def objRows8 : List ObjRow := objRows8p0 ++ objRows8p1 ++ objRows8p2 ++ objRows8p3 ++ objRows8p4 ++ objRows8p5 ++ objRows8p6

/-- Objects 0x9000 to 0x9060. -/
def objRows9p0 : List ObjRow := [
  ⟨0x9000, 1, 1, .u32, .rw, 10, [0], .flags 0⟩,  -- Crust status
  ⟨0x9000, 2, 2, .u16, .ro, 10, [0], .any⟩,  -- Demands in force
  ⟨0x9000, 3, 3, .u16, .ro, 10, [0], .any⟩,  -- Demands latched
  ⟨0x9000, 4, 4, .u64, .ro, 10, [0], .any⟩,  -- Input image
  ⟨0x9000, 5, 5, .u32, .ro, 10, [0], .any⟩,  -- Refused resets
  ⟨0x9000, 6, 6, .pairU, .rw, 1, [0xFFFFFFFF], .nat 0 255⟩,  -- Host request
  ⟨0x9000, 7, 7, .u8, .ro, 10, [0], .any⟩,  -- SRST status
  ⟨0x9000, 8, 0xA, .u32, .ro, 10, [0], .any⟩,  -- SRST accepted, short, stuck
  ⟨0x9000, 0xB, 0xB, .u32, .ro, 10, [0], .any⟩,  -- SRST last high duration
  ⟨0x9000, 0xC, 0xD, .u32, .ro, 10, [0], .any⟩,  -- Lane, Hearth watchdog expiries
  ⟨0x9010, 1, 8, .pairU, .rw, 10, [0x1400FFFFEBFF], .sp .pairCfg⟩,  -- Pair configuration 0 to 7
  ⟨0x9011, 1, 8, .pairU, .rw, 10, [0xAFFFFFFF5], .nat 1 1000⟩,  -- Discrepancy time 0 to 7
  ⟨0x9012, 1, 8, .u16, .ro, 10, [0], .any⟩,  -- Pair status 0 to 7
  ⟨0x9013, 1, 8, .u32, .ro, 10, [0], .any⟩,  -- Pair faults 0 to 7
  ⟨0x9020, 1, 1, .pairU, .rw, 10, [0x64FFFFFF9B], .nat 10 1000⟩,  -- Test-pulse period
  ⟨0x9020, 2, 2, .pairU, .rw, 10, [0x1F4FFFFFE0B], .nat 200 2000⟩,  -- Test-pulse width
  ⟨0x9020, 3, 3, .pairU, .rw, 10, [0xC8FFFFFF37], .nat 0 1000⟩,  -- Test-pulse lag
  ⟨0x9020, 4, 4, .pairU, .rw, 10, [0x55FFFFFFAA], .sp .tpMode⟩,  -- TP mode
  ⟨0x9021, 1, 4, .pairU, .rw, 10, [0x27100BB8D8EFF447], .sp .loopSig⟩,  -- Loop signature TP0 to TP3
  ⟨0x9021, 5, 5, .pairU, .rw, 10, [0x32FFFFFFCD], .nat 10 1000⟩,  -- Loop tolerance
  ⟨0x9030, 1, 1, .u16, .ro, 10, [0], .any⟩,  -- Safe-off status
  ⟨0x9030, 2, 2, .pairU, .rw, 10, [0x3CFFFFFFC3], .nat 1 3600⟩,  -- Off-pulse period
  ⟨0x9030, 3, 3, .pairU, .rw, 10, [0xC8FFFFFF37], .nat 50 500⟩,  -- Off-pulse width
  ⟨0x9030, 4, 4, .pairU, .rw, 10, [0x32FFFFFFCD], .nat 10 500⟩,  -- Readback time
  ⟨0x9030, 5, 5, .pairU, .rw, 10, [0x3E8FFFFFC17], .nat 10 10000⟩,  -- Safe-off maximum wait
  ⟨0x9030, 6, 6, .u8, .wo, 10, [0], .codes [1]⟩,  -- Safe-off test request
  ⟨0x9030, 7, 7, .u32, .ro, 10, [0], .any⟩,  -- Off-pulse tests
  ⟨0x9040, 1, 0x10, .pairU, .rw, 10, [0x3FFFFFFFC, 0x800000037FFFFFFC, 0xFFFFFFFF, 0xFFFFFFFF, 0xFFFFFFFF, 0xFFFFFFFF, 0xFFFFFFFF, 0xFFFFFFFF, 0xFFFFFFFF, 0xFFFFFFFF, 0xFFFFFFFF, 0xFFFFFFFF, 0xFFFFFFFF, 0xFFFFFFFF, 0xFFFFFFFF, 0xFFFFFFFF], .sp .reaction⟩,  -- Reaction D0 to D15
  ⟨0x9041, 1, 2, .pairF, .rw, 10, [0xFFFFFFFF], .sp (.zeroTax 0)⟩,  -- M0 Crust torque limit A, B
  ⟨0x9041, 3, 4, .pairF, .rw, 10, [0xFFFFFFFF], .sp (.zeroTax 1)⟩,  -- M1 Crust torque limit A, B
  ⟨0x9050, 1, 2, .pairU, .rw, 10, [0x1FFFFFFFE, 0x2FFFFFFFD], .nat 0 2⟩,  -- M0, M1 Crust resolver
  ⟨0x9050, 3, 4, .pairU, .rw, 10, [0x1FFFFFFFE], .nat 1 16⟩,  -- M0, M1 resolver pole pairs
  ⟨0x9050, 5, 5, .pairU, .rw, 10, [0x1F4FFFFFE0B], .nat 100 950⟩,  -- Amplitude reference
  ⟨0x9050, 6, 6, .pairF, .rw, 10, [0x46C35000B93CAFFF], .real 1000 40000⟩,  -- Plausibility speed
  ⟨0x9051, 1, 4, .pairF, .rw, 10, [0x46EA6000B9159FFF], .real 0 30000⟩,  -- Speed threshold M0 A, B, M1 A, B
  ⟨0x9052, 1, 2, .f32, .ro, 10, [0], .any⟩,  -- M0, M1 Crust speed
  ⟨0x9052, 3, 4, .u16, .ro, 10, [0], .any⟩,  -- M0, M1 Crust angle
  ⟨0x9052, 5, 5, .u8, .ro, 10, [0], .any⟩,  -- Crust speed status
  ⟨0x9060, 1, 1, .pairU, .rw, 10, [0xFFFFFFFF], .nat 0 1⟩,  -- Bedrock tone enable
  ⟨0x9060, 2, 2, .pairU, .rw, 10, [0x2BCFFFFFD43], .nat 300 2000⟩]  -- Tone frequency 1

/-- Objects 0x9060 to 0x9060. -/
def objRows9p1 : List ObjRow := [
  ⟨0x9060, 3, 3, .pairU, .rw, 10, [0x3E8FFFFFC17], .zeroOr 300 2000⟩,  -- Tone frequency 2
  ⟨0x9060, 4, 4, .pairU, .rw, 10, [0x1F4FFFFFE0B], .nat 100 2000⟩,  -- Alternation period
  ⟨0x9060, 5, 5, .pairU, .rw, 10, [0x64FFFFFF9B], .nat 10 500⟩,  -- Tone level
  ⟨0x9060, 6, 6, .pairU, .rw, 10, [0xFFFFFFFF], .nat 0 1⟩,  -- Tone speed machine
  ⟨0x9060, 7, 7, .pairF, .rw, 10, [0x44FA0000BB05FFFF], .real 0 30000⟩]  -- Tone speed limit

/-- Objects of block 0x9000. -/
def objRows9 : List ObjRow := objRows9p0 ++ objRows9p1

/-- Objects 0xA000 to 0xA412. -/
def objRowsA : List ObjRow := [
  ⟨0xA000, 1, 1, .u32, .rw, 9, [0], .flags 0⟩,  -- Housekeeping status
  ⟨0xA000, 2, 2, .u32, .ro, 9, [0], .any⟩,  -- Rounds
  ⟨0xA000, 3, 3, .u32, .ro, 9, [0], .any⟩,  -- Event conversions dropped
  ⟨0xA000, 4, 4, .f32, .ro, 9, [0], .any⟩,  -- Die temperature in use
  ⟨0xA000, 5, 5, .f32, .ro, 9, [0], .any⟩,  -- Median die temperature
  ⟨0xA001, 1, 0x20, .f32, .ro, 9, [0], .any⟩,  -- Slot value 0 to 31
  ⟨0xA002, 1, 0x20, .u64, .ro, 9, [0], .any⟩,  -- Slot time 0 to 31
  ⟨0xA003, 1, 0x20, .u8, .ro, 9, [0], .any⟩,  -- Slot status 0 to 31
  ⟨0xA004, 1, 1, .pairF, .rw, 1, [0x43110000BCEEFFFF], .real 100 169⟩,  -- Thermal warning
  ⟨0xA004, 2, 2, .pairF, .rw, 1, [0x43250000BCDAFFFF], .real 150 170⟩,  -- Thermal stop threshold
  ⟨0xA004, 3, 3, .pairF, .rw, 1, [0x41A00000BE5FFFFF], .real 10 50⟩,  -- Thermal release hysteresis
  ⟨0xA004, 4, 4, .pairU, .rw, 1, [0x2FFFFFFFD], .nat 1 4⟩,  -- Thermal stop confirmation
  ⟨0xA004, 5, 5, .u32, .ro, 1, [0], .any⟩,  -- Thermal warnings
  ⟨0xA004, 6, 6, .u32, .ro, 1, [0], .any⟩,  -- Thermal stops
  ⟨0xA010, 1, 0x10, .u32, .rw, 9, [0x200000], .sp .thresholdCfg⟩,  -- Threshold configuration 0 to 15
  ⟨0xA011, 1, 0x10, .f32, .rw, 9, [0], .any⟩,  -- Threshold level 0 to 15
  ⟨0xA012, 1, 0x10, .f32, .rw, 9, [0x40000000], .sp .nonneg⟩,  -- Threshold hysteresis 0 to 15
  ⟨0xA013, 1, 1, .u32, .ro, 9, [0], .any⟩,  -- Threshold status
  ⟨0xA014, 1, 0x10, .u32, .ro, 9, [0], .any⟩,  -- Threshold activations 0 to 15
  ⟨0xA020, 1, 4, .i16, .ro, 9, [0], .any⟩,  -- Trim in use: SAFE, AON, bandgap, resolver amplitude
  ⟨0xA400, 1, 1, .u8, .rws, 9, [0], .nat 0 24⟩,  -- Round recipe length
  ⟨0xA400, 9, 0x20, .u32, .rws, 9, [0], .sp .slotEntry⟩,  -- Slot entry 8 to 31
  ⟨0xA410, 9, 0x20, .f32, .rws, 9, [0x461C4000], .any⟩,  -- Parameter A, slots 8 to 31
  ⟨0xA411, 9, 0x20, .f32, .rws, 9, [0x4556B000], .any⟩,  -- Parameter B, slots 8 to 31
  ⟨0xA412, 9, 0x20, .f32, .rws, 9, [0x461C4000], .sp .positive⟩]  -- Parameter C, slots 8 to 31

/-- Objects 0xB000 to 0xB501. -/
def objRowsB : List ObjRow := [
  ⟨0xB000, 1, 1, .u16, .ro, 1, [0], .any⟩,  -- Starter set status
  ⟨0xB000, 2, 2, .u32, .ro, 1, [0], .any⟩,  -- Starter set CRC
  ⟨0xB000, 3, 3, .u8, .ro, 1, [0], .any⟩,  -- User entries
  ⟨0xB000, 4, 4, .u32, .ro, 1, [0], .any⟩,  -- Journal restores
  ⟨0xB010, 1, 0x82, .u16, .ro, 1, [0], .any⟩,  -- Entry info 1 to 130
  ⟨0xB100, 1, 1, .u16, .ro, 1, [0], .any⟩,  -- Bank status
  ⟨0xB100, 2, 3, .u32, .ro, 1, [0], .any⟩,  -- Bank A version, bank B version
  ⟨0xB100, 4, 4, .u32, .ro, 1, [0], .any⟩,  -- Device epoch
  ⟨0xB200, 1, 1, .blob 0, .ro, 1, [0], .any⟩,  -- Event log
  ⟨0xB200, 2, 2, .u16, .ro, 1, [0], .any⟩,  -- Records held
  ⟨0xB200, 3, 3, .u32, .ro, 1, [0], .any⟩,  -- Records dropped
  ⟨0xB200, 4, 4, .u32, .ro, 1, [0], .any⟩,  -- Records written
  ⟨0xB200, 5, 5, .u32, .ro, 1, [0], .any⟩,  -- Boot count
  ⟨0xB400, 1, 1, .blob 0, .ro, 1, [0], .any⟩,  -- Starter set export
  ⟨0xB401, 1, 1, .blob 2116, .wo, 1, [0], .sp (.blobLen 2116)⟩,  -- Starter set import
  ⟨0xB410, 1, 0x18, .pairF, .rws, 12, [0x447A0000BB85FFFF], .sp .positive⟩,  -- Current gain G, SD0 to SD23
  ⟨0xB411, 1, 0x18, .pairF, .rws, 12, [0xFFFFFFFF], .real (-1/10) (1/10)⟩,  -- Current offset, SD0 to SD23
  ⟨0xB412, 1, 8, .pairF, .rws, 12, [0x447A0000BB85FFFF], .sp .positive⟩,  -- Gain G_U, SD24 to SD31
  ⟨0xB413, 1, 8, .pairF, .rws, 12, [0xFFFFFFFF], .real (-1/10) (1/10)⟩,  -- Offset, SD24 to SD31
  ⟨0xB420, 1, 1, .pairI, .rws, 12, [0xFFFFFFFF], .any⟩,  -- Resolver demodulation phase
  ⟨0xB420, 2, 2, .pairF, .rws, 12, [0x3F800000C07FFFFF], .real (4/5) (5/4)⟩,  -- Amplitude ratio
  ⟨0xB420, 3, 3, .pairI, .rws, 12, [0xFFFFFFFF], .any⟩,  -- Quadrature correction
  ⟨0xB421, 1, 1, .pairI, .rws, 12, [0xFFFFFFFF], .any⟩,  -- Resolver demodulation phase
  ⟨0xB421, 2, 2, .pairF, .rws, 12, [0x3F800000C07FFFFF], .real (4/5) (5/4)⟩,  -- Amplitude ratio
  ⟨0xB421, 3, 3, .pairI, .rws, 12, [0xFFFFFFFF], .any⟩,  -- Quadrature correction
  ⟨0xB430, 1, 4, .pairI, .rws, 12, [0xFFFFFFFF], .any⟩,  -- Trim at 25 C: SAFE, AON, bandgap, excitation
  ⟨0xB431, 1, 8, .pairF, .rws, 12, [0xFFFFFFFF], .any⟩,  -- k1, k2 of the four trims
  ⟨0xB432, 1, 0xC, .pairF, .rws, 12, [0xFFFFFFFF, 0x3F800000C07FFFFF, 0xFFFFFFFF, 0xFFFFFFFF, 0x3F800000C07FFFFF, 0xFFFFFFFF, 0xFFFFFFFF, 0x3F800000C07FFFFF, 0xFFFFFFFF, 0xFFFFFFFF, 0x3F800000C07FFFFF, 0xFFFFFFFF], .any⟩,  -- Die sensor curve c0, c1, c2
  ⟨0xB433, 1, 4, .pairF, .rws, 12, [0x3F800000C07FFFFF], .sp .positive⟩,  -- Divider ratio VDD08, VDDIO, VDDA18, VAON
  ⟨0xB440, 1, 0x20, .pairI, .rws, 12, [0xFFFFFFFF], .int (-64) 63⟩,  -- Deskew of the 32 outputs
  ⟨0xB500, 1, 1, .u8, .wo, 1, [0], .sp .updateCtl⟩,  -- Update control
  ⟨0xB500, 2, 2, .u32, .ro, 1, [0], .any⟩,  -- Update status
  ⟨0xB501, 1, 1, .blob 2093056, .wo, 1, [0], .any⟩]  -- Update image

/-- Objects 0xC000 to 0xC600. -/
def objRowsC : List ObjRow := [
  ⟨0xC000, 1, 3, .u16, .ro, 1, [0], .any⟩,  -- Worst-case cycles M0, M1, cycle budget
  ⟨0xC000, 4, 4, .bool, .ro, 1, [0], .any⟩,  -- Recipe loaded
  ⟨0xC000, 5, 5, .u32, .ro, 1, [0], .any⟩,  -- Port write refusals
  ⟨0xC001, 1, 1, .u16, .ro, 4, [0], .any⟩,  -- Hearth recipe worst-case cycles
  ⟨0xC001, 2, 2, .bool, .ro, 4, [0], .any⟩,  -- Hearth recipe loaded
  ⟨0xC001, 3, 3, .u32, .ro, 4, [0], .any⟩,  -- Hearth port write refusals
  ⟨0xC002, 1, 1, .u16, .ro, 10, [0], .any⟩,  -- Crust recipe steps
  ⟨0xC002, 2, 2, .bool, .ro, 10, [0], .any⟩,  -- Crust recipe loaded
  ⟨0xC400, 1, 1, .blob 64576, .rws, 1, [0], .any⟩,  -- Lane recipe image
  ⟨0xC400, 2, 2, .u16, .rws, 1, [0], .nat 0 8192⟩,  -- Lane recipe length
  ⟨0xC400, 3, 3, .u32, .rws, 1, [0], .any⟩,  -- Lane recipe signature
  ⟨0xC410, 1, 0x80, .u32, .rws, 1, [0], .any⟩,  -- Lane recipe parameters
  ⟨0xC411, 1, 0x80, .u32, .rws, 1, [0], .any⟩,
  ⟨0xC500, 1, 1, .blob 48192, .rws, 4, [0], .any⟩,  -- Hearth recipe image
  ⟨0xC500, 2, 2, .u16, .rws, 4, [0], .nat 0 4096⟩,  -- Hearth recipe length
  ⟨0xC500, 3, 3, .u32, .rws, 4, [0], .any⟩,  -- Hearth recipe signature
  ⟨0xC510, 1, 0x80, .u32, .rws, 4, [0], .any⟩,  -- Hearth recipe parameters
  ⟨0xC511, 1, 0x80, .u32, .rws, 4, [0], .any⟩,
  ⟨0xC600, 1, 1, .blob 4112, .rws, 10, [0], .any⟩,  -- Crust logic recipe image
  ⟨0xC600, 2, 2, .u16, .rws, 10, [0], .nat 0 1024⟩,  -- Crust logic recipe length
  ⟨0xC600, 3, 3, .u32, .rws, 10, [0], .any⟩]  -- Crust logic recipe signature

/-- Objects 0xD000 to 0xD400. -/
def objRowsD : List ObjRow := [
  ⟨0xD000, 1, 1, .u8, .ro, 11, [0], .any⟩,  -- Chain role
  ⟨0xD000, 2, 2, .u8, .ro, 11, [0], .any⟩,  -- Chain position
  ⟨0xD000, 3, 3, .u16, .rw, 11, [0], .flags 0⟩,  -- Chain status
  ⟨0xD000, 4, 4, .u8, .ro, 11, [0], .any⟩,  -- Devices calibrated
  ⟨0xD000, 5, 5, .u32, .ro, 11, [0], .any⟩,  -- Hop delay
  ⟨0xD000, 6, 6, .u64, .ro, 11, [0], .any⟩,  -- Chain counter offset
  ⟨0xD000, 7, 8, .u8, .rw, 11, [0], .nat 0 2⟩,  -- M0, M1 chain use
  ⟨0xD000, 9, 0xA, .u8, .rw, 11, [0], .nat 0 3⟩,  -- M0, M1 partner
  ⟨0xD000, 0xB, 0xB, .u8, .ro, 11, [0], .any⟩,  -- Twin state
  ⟨0xD000, 0xC, 0xC, .u8, .wo, 1, [0], .nat 1 3⟩,  -- Twin swap
  ⟨0xD000, 0xD, 0xD, .u32, .ro, 11, [0], .any⟩,  -- Successions
  ⟨0xD000, 0xE, 0xE, .u32, .ro, 11, [0], .any⟩,  -- Link losses
  ⟨0xD000, 0xF, 0xF, .u32, .ro, 11, [0], .any⟩,  -- Period mismatches
  ⟨0xD000, 0x10, 0x10, .u32, .ro, 11, [0], .any⟩,  -- Twin takeovers
  ⟨0xD400, 1, 1, .i8, .rws, 11, [0], .int (-16) 15⟩]  -- Skew trim

/-- Objects 0xE000 to 0xE010. -/
def objRowsE : List ObjRow := [
  ⟨0xE000, 1, 1, .u8, .wo, 1, [0], .nat 1 3⟩,  -- Capture control
  ⟨0xE000, 2, 2, .u16, .rw, 1, [0], .flags 0x0008⟩,  -- Capture status
  ⟨0xE000, 3, 3, .u8, .rw, 1, [1], .nat 1 8⟩,  -- Signal count
  ⟨0xE000, 4, 4, .u8, .rw, 1, [0], .nat 0 1⟩,  -- Sample source
  ⟨0xE000, 5, 5, .u16, .rw, 1, [1], .nat 1 65535⟩,  -- Decimation
  ⟨0xE000, 6, 6, .u32, .rw, 1, [0], .nat 0 21845⟩,  -- Record count
  ⟨0xE000, 7, 7, .u8, .rw, 1, [0], .nat 0 1⟩,  -- Capture mode
  ⟨0xE000, 8, 8, .u8, .rw, 1, [0], .nat 0 5⟩,  -- Trigger
  ⟨0xE000, 9, 9, .u32, .rw, 1, [0], .any⟩,  -- Trigger FN
  ⟨0xE000, 0xA, 0xA, .f32, .rw, 1, [0], .any⟩,  -- Trigger level
  ⟨0xE000, 0xB, 0xB, .u32, .rw, 1, [0], .nat 0 21845⟩,  -- Pretrigger records
  ⟨0xE000, 0xC, 0xC, .u32, .ro, 1, [0], .any⟩,  -- Records available
  ⟨0xE000, 0xD, 0xD, .u32, .ro, 1, [0], .any⟩,  -- Records dropped
  ⟨0xE000, 0xE, 0xE, .u32, .ro, 1, [0x5555], .any⟩,  -- Capacity
  ⟨0xE001, 1, 8, .u16, .rw, 1, [0], .sp .captureSignal⟩,  -- Signal 1 to 8
  ⟨0xE002, 1, 1, .blob 0, .ro, 1, [0], .any⟩,  -- Capture data
  ⟨0xE010, 1, 1, .u8, .rw, 1, [0], .mask 0x83⟩,  -- Test-signal target
  ⟨0xE010, 2, 2, .u8, .rw, 1, [0], .nat 0 5⟩,  -- Waveform
  ⟨0xE010, 3, 3, .pairF, .rw, 1, [0xFFFFFFFF], .any⟩,  -- Test-signal amplitude
  ⟨0xE010, 4, 5, .f32, .rw, 1, [0x41200000, 0x42C80000], .real (1/10) 10000⟩,  -- f1, f2
  ⟨0xE010, 6, 6, .u16, .rw, 1, [1], .nat 1 1000⟩,  -- PRBS bit length
  ⟨0xE010, 7, 7, .u32, .rw, 1, [0], .any⟩,  -- Test-signal duration
  ⟨0xE010, 8, 8, .u32, .wo, 1, [0], .any⟩,  -- Test-signal start
  ⟨0xE010, 9, 9, .bool, .wo, 1, [0], .codes [1]⟩,  -- Test-signal stop
  ⟨0xE010, 0xA, 0xA, .u8, .ro, 1, [0], .any⟩]  -- Test-signal status

/-- The rows of the block that holds an index (Table 16-1). -/
def objRows (idx : Nat) : List ObjRow :=
  match idx / 0x1000 with
  | 0x1 => objRows1
  | 0x2 => objRows2
  | 0x3 => objRows3
  | 0x4 => objRows4
  | 0x5 => objRows5
  | 0x6 => objRows6
  | 0x7 => objRows7
  | 0x8 => objRows8
  | 0x9 => objRows9
  | 0xA => objRowsA
  | 0xB => objRowsB
  | 0xC => objRowsC
  | 0xD => objRowsD
  | 0xE => objRowsE
  | _ => []

end Sys2Proof.Machine
end

