-- ==== Sys2Proof/Machine/Store.lean ====
section
/-! DEFINITION. The object store (chapter 16): a copy of the object table's values as plain data. A copy lists only the
values that differ from their defaults, in ascending order of key, so equal copies are equal data. -/

namespace Sys2Proof.Machine

/-- The key of an object: index × 256 + subindex. -/
def objKey (idx sub : Nat) : Nat := idx * 256 + sub

/-- The row that describes a key, if the table has one; subindex 0 has none (R322 forms it). -/
def findRow (key : Nat) : Option ObjRow :=
  (objRows (key / 256)).find? (fun r => r.idx == key / 256 && r.lo ≤ key % 256 && key % 256 ≤ r.hi)

/-- The default of a key, 0 where the table has no row. -/
def objDefault (key : Nat) : Nat :=
  match findRow key with
  | none => 0
  | some r =>
    let n := key % 256 - r.lo
    if n < r.dflt.length then r.dflt.getD n 0 else r.dflt.getD (r.dflt.length - 1) 0

/-- The settings group of a key (Table 2-4), 0 for none. -/
def objGroup (key : Nat) : Nat := match findRow key with | none => 0 | some r => r.grp

/-- The highest subindex of an index, 0 where the index holds no object (R322). -/
def maxSub (idx : Nat) : Nat := ((objRows idx).filter (fun r => r.idx == idx)).foldl (fun a r => max a r.hi) 0

/-- One copy of the object table's values. vals holds (key, raw value) and blobs (key, bytes), each in ascending order of key;
vals lists no default and blobs no empty content. -/
structure Store where
  vals : List (Nat × Nat) := []
  blobs : List (Nat × List Byte) := []
  deriving DecidableEq, Repr

/-- The value listed for a key. -/
def lookupKey {α : Type} (l : List (Nat × α)) (k : Nat) : Option α := (l.find? (fun e => e.1 == k)).map (·.2)

/-- The list without a key. -/
def eraseKey {α : Type} (l : List (Nat × α)) (k : Nat) : List (Nat × α) := l.filter (fun e => e.1 != k)

/-- Insertion in ascending order of key, in place of any entry of the same key. -/
def insertKey {α : Type} (k : Nat) (v : α) : List (Nat × α) → List (Nat × α)
  | [] => [(k, v)]
  | e :: l => if k < e.1 then (k, v) :: e :: l else if k = e.1 then (k, v) :: l else e :: insertKey k v l

/-- Keys strictly ascending. -/
def ascendingKeys {α : Type} : List (Nat × α) → Bool
  | [] => true
  | e :: l => (match l with | [] => true | f :: _ => decide (e.1 < f.1)) && ascendingKeys l

namespace Store

/-- The raw value of an object. -/
def raw (st : Store) (key : Nat) : Nat := (lookupKey st.vals key).getD (objDefault key)

/-- The store with an object's raw value replaced; a default is not listed. -/
def put (st : Store) (key v : Nat) : Store :=
  { st with vals := if v = objDefault key then eraseKey st.vals key else insertKey key v st.vals }

/-- The content of a BLOB. -/
def blob (st : Store) (key : Nat) : List Byte := (lookupKey st.blobs key).getD []

/-- The store with a BLOB's content replaced; an empty content is not listed. -/
def putBlob (st : Store) (key : Nat) (v : List Byte) : Store :=
  { st with blobs := if v = [] then eraseKey st.blobs key else insertKey key v st.blobs }

/-- The canonical form: ascending, no default listed, no empty content listed. -/
def wf (st : Store) : Bool :=
  ascendingKeys st.vals && ascendingKeys st.blobs && st.vals.all (fun e => e.2 != objDefault e.1)
    && st.blobs.all (fun e => !e.2.isEmpty)

/-- The store whose objects of the keys p selects come from src, the rest from dst. -/
def merge (p : Nat → Bool) (src dst : Store) : Store :=
  let v := src.vals.foldl (fun a e => if p e.1 then insertKey e.1 e.2 a else a) (dst.vals.filter (fun e => !p e.1))
  let b := src.blobs.foldl (fun a e => if p e.1 then insertKey e.1 e.2 a else a) (dst.blobs.filter (fun e => !p e.1))
  ⟨v, b⟩

/-- An unsigned object. -/
def u (st : Store) (idx sub : Nat) : Nat := st.raw (objKey idx sub)

/-- A two's-complement object of w bits. -/
def i (st : Store) (w idx sub : Nat) : Int := sext w (st.raw (objKey idx sub))

/-- An F32 object. -/
def f (st : Store) (idx sub : Nat) : Rat := f32ToRat (st.raw (objKey idx sub))

/-- A BOOL object. -/
def b (st : Store) (idx sub : Nat) : Bool := st.raw (objKey idx sub) != 0

/-- The value word of a CPAIR32. -/
def pv (st : Store) (idx sub : Nat) : Nat := st.raw (objKey idx sub) / 2 ^ 32

/-- The value word of a CPAIR32 carrying I32. -/
def pi (st : Store) (idx sub : Nat) : Int := sext 32 (st.pv idx sub)

/-- The value of a CPAIR32 carrying F32. -/
def pf (st : Store) (idx sub : Nat) : Rat := f32ToRat (st.pv idx sub)

end Store

/-- The CPAIR32 of a value word (R325): the word, then its bitwise complement. -/
def pairOf (w : Nat) : Nat := (w % 2 ^ 32) * 2 ^ 32 + (2 ^ 32 - 1 - w % 2 ^ 32)

/-- Whether a pair's complement is the bitwise inverse of its value (R43). -/
def pairOk (raw : Nat) : Bool := raw % 2 ^ 32 == 2 ^ 32 - 1 - (raw / 2 ^ 32) % 2 ^ 32

/-- Whether a type is CPAIR32. -/
def ObjTy.isPair : ObjTy → Bool
  | .pairU | .pairI | .pairF => true
  | _ => false

/-- Whether a type is STR or BLOB. -/
def ObjTy.isBlob : ObjTy → Bool
  | .blob _ => true
  | _ => false

/-- Item size in bytes (Table 16-2); 0 for a BLOB, whose size varies. -/
def ObjTy.size : ObjTy → Nat
  | .bool | .u8 | .i8 => 1
  | .u16 | .i16 => 2
  | .u32 | .i32 | .f32 => 4
  | .u64 | .pairU | .pairI | .pairF => 8
  | .blob _ => 0

end Sys2Proof.Machine
end

