-- ==== Sys2Proof/Machine/TypesAudio.lean ====
section
/-! DEFINITION. State of the audio ports, the network streams and the audio clock (chapter 12). Samples are raw Q4.28 integers;
times are counts of the system counter. -/

namespace Sys2Proof.Machine

/-- One received sample at 48 kHz: its time and its slots or channels. -/
structure RxSample where
  time : Nat := 0
  v : List Int := []
  deriving DecidableEq, Repr

/-- A stream on its way to Hearth (R167, R168): the samples held, oldest first, and the number of the oldest; the number of the
stream's first sample; the offset from sample numbers to Hearth sample numbers once it is fixed, and that of the stream before it; the residual in
samples, and the consecutive blocks in which it lay beyond ±0.75. -/
structure RxStream where
  on : Bool := false
  samples : List RxSample := []
  seq0 : Nat := 0
  start : Nat := 0
  offset : Option Int := none
  prev : Option Int := none
  resid : Rat := 0
  beyond : Nat := 0
  deriving DecidableEq, Repr

/-- A receive slot: running, its ramp position 0 to 64, its latest sample, and what is left of a fall to zero. -/
structure SlotRx where
  on : Bool := false
  ramp : Nat := 0
  last : Int := 0
  fall : Nat := 0
  fallLen : Nat := 64
  deriving DecidableEq, Repr

/-- A transmit slot: 0 released, 1 carrying lead-in or mute zeros, 2 carrying its source with its fade position, 3 lead-out with the
frames sent. -/
structure SlotTx where
  st : Nat := 0
  pos : Nat := 0
  deriving DecidableEq, Repr

/-- The lines of a port over one bit clock (R237): FS and DIN at the rising edge of BCLK and at its falling edge. -/
structure BitCycle where
  fsRise : Bool := false
  dinRise : Bool := false
  fsFall : Bool := false
  dinFall : Bool := false
  deriving DecidableEq, Repr

/-- One serial audio port. phase: 0 stopped, 1 lead-in, 2 running, 3 lead-out before a restart, 4 clock loss, 5 rate error, 6 lead-out before it stops.
run, rx and tx are the configuration and masks it runs with; next the configuration that a lead-out or a clock loss holds back. starts lists the latest
frame starts, newest first; hist the latest 96 kHz frames, newest first; dout the slot words of the frame that runs, none where it is not driven, and
doutPrev those of the frame before it; track the (frames, time, cairn) of the latest block boundaries. -/
structure AspPort where
  phase : Nat := 0
  run : Nat := 0
  rx : Nat := 0
  tx : Nat := 0
  next : Option Nat := none
  count : Nat := 0
  frames : Nat := 0
  seen : Bool := false
  starts : List Nat := []
  glitches : List Bool := []
  slotsRx : List SlotRx := List.replicate 16 {}
  slotsTx : List SlotTx := List.replicate 16 {}
  hist : List RxSample := []
  stream : RxStream := {}
  txIdx : Option Int := none
  txLevel : Rat := 0
  dout : List (Option Nat) := List.replicate 16 none
  doutPrev : List (Option Nat) := List.replicate 16 none
  loss : Bool := false
  rateErr : Bool := false
  glitch : Bool := false
  slip : Bool := false
  freqLock : Bool := false
  clock : Bool := false
  underruns : Nat := 0
  overruns : Nat := 0
  glitched : Nat := 0
  losses : Nat := 0
  rateErrors : Nat := 0
  rate : Nat := 0
  rxCairn : Nat := 0
  txCairn : Nat := 0
  track : List (Nat × Nat × Nat) := []
  deriving DecidableEq, Repr

/-- One listener stream (R256, R257). idle counts the blocks since the latest accepted PDU. -/
structure Listener where
  receiving : Bool := false
  late : Bool := false
  seqGap : Bool := false
  formatErr : Bool := false
  latePdus : Nat := 0
  gaps : Nat := 0
  formatErrors : Nat := 0
  lastSeq : Option Nat := none
  cairn : Nat := 0
  idle : Nat := 0
  stream : RxStream := {}
  chans : List SlotRx := List.replicate 8 {}
  deriving DecidableEq, Repr

/-- The header and the sample bytes of a PDU that a talker sent (R258): each sample most significant byte first, as IEEE 1722 has them (R3). -/
structure TalkerPdu where
  dest : Nat := 0
  vlan : Nat := 0
  pcp : Nat := 0
  streamId : Nat := 0
  mr : Bool := false
  seq : Nat := 0
  timestamp : Nat := 0
  format : Nat := 0
  depth : Nat := 0
  chans : Nat := 0
  data : List Byte := []
  deriving DecidableEq, Repr

/-- One talker stream (R258). held lists the samples not yet sent, oldest first; sent the PDUs of the latest block. -/
structure Talker where
  sending : Bool := false
  starts : Nat := 0
  mr : Bool := false
  seq : Nat := 0
  heldTime : Nat := 0
  held : List (List Int) := []
  count : Nat := 0
  sent : List TalkerPdu := []
  deriving DecidableEq, Repr

/-- The AUD oscillator and its steering (R249): trim in parts per 10^9, the loop's integral, the source it follows, consecutive blocks with |e| below
0.1 sample. -/
structure AudClock where
  trim : Int := 0
  integ : Rat := 0
  src : Nat := 0
  low : Nat := 0
  steering : Bool := false
  locked : Bool := false
  holdover : Bool := false
  atLimit : Bool := false
  deriving DecidableEq, Repr

/-- The audio ports, PDM channels (enabled, and the time at which the wake ends), streams, the audio clock, and whether gPTP was present at the latest
block boundary (R259). -/
structure AudioState where
  asp : List AspPort := List.replicate 4 {}
  lis : List Listener := List.replicate 2 {}
  tal : List Talker := List.replicate 2 {}
  aud : AudClock := {}
  micOn : List Bool := List.replicate 8 false
  micWake : List (Option Nat) := List.replicate 8 none
  gptpSeen : Bool := false
  deriving DecidableEq, Repr

end Sys2Proof.Machine
end

