-- ==== Sys2Proof/Machine/Audio.lean ====
section
/-! DEFINITION. Audio ports, streams and cairns (chapter 12). -/

namespace Sys2Proof.Machine

/-- A value in Q4.28: rounded to nearest and saturated (R166). -/
def q28 (x : Rat) : Int := toQ 32 28 x

/-- The value of a Q4.28 sample. -/
def v28 (x : Int) : Rat := ofQ 28 x

/-- A sample scaled by a fraction. -/
def scale28 (x : Int) (num den : Nat) : Int := q28 (v28 x * mkRat num den)

/-- Full scale: 1.0. -/
def one28 : Int := 2 ^ 28

/-! ### Streams -/

/-- The latest block of Hearth's grid at an instant: number, cairn and step (R165). -/
structure HGrid where
  n : Nat := 0
  cairn : Nat := 0
  delta : Rat := 12500 / 3
  deriving DecidableEq, Repr

/-- The position of a time on the grid, in samples (R165, R181). -/
def HGrid.pos (g : HGrid) (time : Nat) : Rat := 32 * (g.n : Rat) + (((time : Int) - g.cairn : Int) : Rat) / g.delta

namespace RxStream

/-- The sample of a number, if it is held. -/
def at? (s : RxStream) (seq : Int) : Option RxSample :=
  if seq < s.seq0 then none else s.samples[(seq - s.seq0).toNat]?

/-- The sample at a Hearth sample number: of the stream from its first sample on, and before it of the stream before. -/
def sampleAt (s : RxStream) (h : Int) : Option RxSample :=
  let now := match s.offset with | some o => if s.start ≤ h - o then s.at? (h - o) else none | none => none
  match now with
  | some x => some x
  | none => match s.prev with | some o => if h - o < s.start then s.at? (h - o) else none | none => none

/-- The value of a channel at a Hearth sample number: 0 where the stream has none (R167). -/
def value (s : RxStream) (ch : Nat) (h : Int) : Int := match s.sampleAt h with | none => 0 | some x => nth x.v ch 0

/-- The number the next sample gets. -/
def nextSeq (s : RxStream) : Nat := s.seq0 + s.samples.length

/-- A sample joins the stream; 512 are held. -/
def append (x : RxSample) (s : RxStream) : RxStream :=
  let l := s.samples ++ [x]
  if 512 < l.length then { s with samples := l.drop 1, seq0 := s.seq0 + 1 } else { s with samples := l }

/-- A stream starts: its next sample is its first, and its offset is open. -/
def begin_ (s : RxStream) : RxStream :=
  { s with on := true, start := s.nextSeq, prev := if s.offset.isSome then s.offset else s.prev, offset := none, resid := 0, beyond := 0 }

/-- A block's first sample (R168): the offset is fixed at the first block, to the Hearth sample nearest to the block's cairn; a later block gives the
residual. -/
def align (g : HGrid) (seq time : Nat) (s : RxStream) : RxStream :=
  let pos := g.pos time
  match s.offset with
  | none =>
    let i := (pos + 1/2).floor
    { s with offset := some (i - seq), resid := pos - (i : Rat), beyond := 0 }
  | some o =>
    let r := pos - ((seq + o : Int) : Rat)
    { s with resid := r, beyond := if 3/4 < absR r then s.beyond + 1 else 0 }

/-- A sample arrives; the first of each block of 32 is aligned. -/
def push (g : HGrid) (x : RxSample) (s : RxStream) : RxStream :=
  let seq := s.nextSeq
  let s := if s.on && (seq - s.start) % 32 == 0 then s.align g seq x.time else s
  s.append x

/-- The one-sample move of R168: whether a move is due, the stream after it, and whether it repeated a sample (an underrun). -/
def shift (s : RxStream) : Option (RxStream × Bool) :=
  match s.offset with
  | none => none
  | some o =>
    if s.beyond < 4 then none
    else if 0 < s.resid then some ({ s with offset := some (o + 1), resid := s.resid - 1, beyond := 0 }, true)
    else some ({ s with offset := some (o - 1), resid := s.resid + 1, beyond := 0 }, false)

end RxStream

/-- One sample of a receive slot: its ramp-in, its value, or its fall (R167, R251). -/
def SlotRx.take (x : Int) (s : SlotRx) : SlotRx × Int :=
  if s.on then
    let r := min 64 (s.ramp + 1)
    let y := scale28 x r 64
    ({ s with ramp := r, last := y }, y)
  else if 0 < s.fall then
    ({ s with fall := s.fall - 1 }, scale28 s.last (s.fall - 1) s.fallLen)
  else (s, 0)

/-- A slot starts: it ramps in over 64 samples. -/
def SlotRx.begin_ (s : SlotRx) : SlotRx := { s with on := true, ramp := 0, fall := 0 }

/-- A slot ends: it falls to zero over a number of samples. -/
def SlotRx.end_ (len : Nat) (s : SlotRx) : SlotRx := if s.on then { s with on := false, fall := len, fallLen := len } else s

/-! ### Serial audio ports -/

/-- FORMAT of a configuration (Table 12-6). -/
def aspFormat (w : Nat) : Nat := bits w 1 0
/-- Slot count. -/
def aspSlots (w : Nat) : Nat := bits w 28 24
/-- Slot width in bits. -/
def aspWidth (w : Nat) : Nat := if bits w 21 20 = 0 then 16 else 32
/-- Framed at 96 kHz. -/
def aspDouble (w : Nat) : Bool := bits w 17 16 == 1
/-- Configured frame rate in Hz. -/
def aspRate (w : Nat) : Nat := if aspDouble w then 96000 else 48000

/-- FS of a bit clock as the port interprets it (R237): BCLK_INV exchanges the edges, FS_INV inverts FS. -/
def BitCycle.fs (cfg : Nat) (c : BitCycle) : Bool := (if bit cfg 7 then c.fsFall else c.fsRise) != bit cfg 8

/-- DIN of a bit clock as the port samples it. -/
def BitCycle.din (cfg : Nat) (c : BitCycle) : Bool := if bit cfg 7 then c.dinFall else c.dinRise

/-- The bit clocks from the frame start to the first bit of slot 0 (Table 12-1). -/
def aspLead (cfg : Nat) : Nat := match aspFormat cfg with | 1 => 1 | 3 => b2n (bit cfg 9) | _ => 0

/-- Whether the last of some bit clocks is a frame start (Table 12-1): the falling edge of FS in I2S, the rising edge in the other formats. A single one,
with nothing before it, is taken as a frame start. -/
def aspStarts (cfg : Nat) (l : List BitCycle) : Bool :=
  match l.reverse with
  | c :: p :: _ => if aspFormat cfg = 1 then p.fs cfg && !c.fs cfg else !p.fs cfg && c.fs cfg
  | _ => true

/-- The slot words of a frame, most significant bit first (R237), from the bit clocks from its start to the next frame start's own. -/
def aspWords (cfg : Nat) (l : List BitCycle) : List Nat :=
  let b := l.map (fun c => b2n (c.din cfg))
  (List.range (aspSlots cfg)).map (fun k => ((b.drop (aspLead cfg + k * aspWidth cfg)).take (aspWidth cfg)).foldl (fun a x => 2 * a + x) 0)

/-- R239: whether a configuration word is valid, FORMAT 0 (port off) included. -/
def aspConfigOk (w : Nat) : Bool :=
  decide (aspRate w * aspSlots w * aspWidth w ≤ 24576000) && (match aspFormat w with
    | 0 => true
    | 3 => decide (2 ≤ aspSlots w) && decide (aspSlots w ≤ 16)
    | _ => aspSlots w == 2 && !bit w 9)

/-- A received slot word in Q4.28 (R238). -/
def aspIn (width word : Nat) : Int := if width = 16 then sext 16 word * 2 ^ 13 else (sext 32 word) / 8

/-- A transmitted sample: clipped to ±1.0 and rounded (R238). -/
def aspOut (width : Nat) (x : Int) : Nat :=
  let y := clampI (-one28) one28 x
  if width = 16 then ofInt 16 (clampI (-32768) 32767 (roundAway (mkRat y (2 ^ 13)))) else ofInt 32 (clampI (-(2 ^ 31)) (2 ^ 31 - 1) (8 * y))

namespace AspPort

/-- The measured frame rate over the latest 32 frame starts, Hz (R253). -/
def measured (p : AspPort) : Rat :=
  match p.starts, p.starts.getLast? with
  | t :: _, some o => if t ≤ o then 0 else 200000000 * ((p.starts.length - 1 : Nat) : Rat) / ((t - o : Nat) : Rat)
  | _, _ => 0

/-- Within ±2 % of the configured rate. -/
def rateOk (p : AspPort) : Bool :=
  let r := p.measured
  let c : Rat := aspRate p.run
  p.starts.length < 2 || (decide (c * 98 / 100 ≤ r) && decide (r ≤ c * 102 / 100))

/-- Begin the lead-in of the configuration that runs (R241). -/
def leadIn (p : AspPort) : AspPort :=
  { p with
    phase := 1, count := 0, loss := false, glitches := [],
    slotsTx := p.slotsTx.mapIdx (fun k s => if bit p.tx k then { s with st := 1, pos := 0 } else s) }

/-- Every receive slot ends, and its fall to zero over a number of samples follows on the Hearth timeline (R167, R242, R244, R251, R253). -/
def drain (now len : Nat) (p : AspPort) : AspPort :=
  if p.slotsRx.all (fun s => !s.on) then { p with stream := { p.stream with on := false } } else
  let p : AspPort := { p with slotsRx := p.slotsRx.map (SlotRx.end_ len), stream := { p.stream with on := false } }
  (List.range len).foldl (fun p k =>
    let r := p.slotsRx.map (fun s => s.take 0)
    { p with slotsRx := r.map (·.1), stream := p.stream.append ⟨now + (k + 1) * 12500 / 3, r.map (·.2)⟩ }) p

/-- Every transmit slot of the mask starts its lead-out (R242, R244). -/
def leadOutAll (p : AspPort) : AspPort :=
  { p with slotsTx := p.slotsTx.map (fun s => if s.st = 0 then s else { s with st := 3, pos := 0 }) }

/-- Whether any slot runs its lead-out. -/
def leadingOut (p : AspPort) : Bool := p.slotsTx.any (fun s => s.st == 3)

/-- Whether no transmit slot drives. -/
def silent (p : AspPort) : Bool := p.slotsTx.all (fun s => s.st == 0)

/-- Release every transmit slot at once. -/
def release (p : AspPort) : AspPort :=
  { p with slotsTx := List.replicate 16 {}, dout := List.replicate 16 none, doutPrev := List.replicate 16 none, txIdx := none }

/-- The port stopped (R242): it ignores DIN, and no frame start counts as seen. -/
def stop (p : AspPort) : AspPort := { p.release with phase := 0, loss := false, seen := false, starts := [], next := none }

/-- Run a new configuration: off, or its lead-in (R241, R244). -/
def start (cfg rx tx : Nat) (p : AspPort) : AspPort :=
  let p := { p.release with run := cfg, rx := rx, tx := tx, next := none, starts := [], hist := [], seen := false, clock := false }
  if aspFormat cfg = 0 ∨ (rx = 0 ∧ tx = 0) then p.stop else p.leadIn

/-- The end of a port's data (R242, R244): its receive slots end, its transmit slots run their lead-out in the old configuration, and cfg waits for its
end, none where the port only stops; with no transmit slot there is no lead-out. -/
def finish (now : Nat) (cfg : Option Nat) (rx tx : Nat) (p : AspPort) : AspPort :=
  let p := p.drain now 64
  if p.silent then (match cfg with | some w => p.start w rx tx | none => { p with rx := rx, tx := tx }.stop)
  else { p.leadOutAll with
    phase := match cfg with | some w => if aspFormat w = 0 then 6 else 3 | none => 6
    next := cfg, rx := rx, tx := tx }

/-- The settings of a port applied at its boundary (R240, R242 to R244): cfg, rx and tx are the values now in force. In a lead-out the latest
configuration waits; in clock loss there is nothing to lead out. -/
def settings (now cfg rx tx : Nat) (p : AspPort) : AspPort :=
  let stops := decide (rx = 0 ∧ tx = 0)
  if p.phase = 3 ∨ p.phase = 6 then
    { p with
      phase := if aspFormat cfg = 0 || stops then 6 else 3, rx := rx, tx := tx
      next := if cfg == p.run && stops then none else some cfg }
  else if p.phase = 4 then
    if aspFormat cfg = 0 || stops then p.start cfg rx tx
    else { p with run := cfg, rx := rx, tx := tx, next := none, hist := if cfg == p.run then p.hist else [] }
  else if p.phase = 0 then
    if cfg == p.run && p.rx == rx && p.tx == tx then p else p.start cfg rx tx
  else if cfg != p.run then p.finish now (some cfg) rx tx
  else if p.rx == rx && p.tx == tx then p
  else if stops then p.finish now none rx tx
  else
    let running := p.phase == 2
    { p with
      rx := rx, tx := tx,
      slotsRx := p.slotsRx.mapIdx (fun k s => if bit rx k then (if s.on || !running then s else s.begin_) else s.end_ 64),
      slotsTx := p.slotsTx.mapIdx (fun k s =>
        if bit tx k then (if s.st = 0 ∨ s.st = 3 then { s with st := if running then 2 else 1, pos := 0 } else s)
        else if s.st = 0 ∨ s.st = 3 then s else { s with st := 3, pos := 0 }) }

/-- Lead-in complete (R241): data flows from the next frame. -/
def leadInEnd (p : AspPort) : AspPort :=
  if p.phase ≠ 1 ∨ p.count < 32 then p else
  { p with
    phase := 2, stream := p.stream.begin_, txIdx := none,
    slotsRx := p.slotsRx.mapIdx (fun k s => if bit p.rx k then s.begin_ else s),
    slotsTx := p.slotsTx.mapIdx (fun k s => if bit p.tx k then { s with st := 2, pos := 0 } else s) }

/-- Lead-out complete (R242, R244): slots that have carried 32 frames of zeros are released; then a waiting configuration starts, and a port that
stops is stopped. -/
def leadOutEnd (rx tx : Nat) (p : AspPort) : AspPort :=
  let p := { p with slotsTx := p.slotsTx.map (fun s => if s.st = 3 ∧ 32 ≤ s.pos then {} else s) }
  if p.leadingOut then p
  else if p.phase = 3 ∨ p.phase = 6 then (match p.next with | some cfg => p.start cfg rx tx | none => p.stop)
  else p

/-- One sample of every receive slot, at 48 kHz. -/
def pushRx (g : HGrid) (time : Nat) (v : List Int) (p : AspPort) : AspPort :=
  let r : List (SlotRx × Int) := (List.range 16).map (fun k => SlotRx.take (nth v k 0) (nth p.slotsRx k {}))
  let p : AspPort := { p with slotsRx := r.map (·.1) }
  let first := p.stream.nextSeq
  let p : AspPort := { p with stream := p.stream.push g ⟨time, r.map (·.2)⟩ }
  if (first - p.stream.start) % 32 = 0 then { p with rxCairn := time } else p

/-- A data frame's receive side (R238, R247): at 96 kHz every second frame gives one sample of the half-band filter, whose time is
that of the frame at the centre of its window. -/
def receive (g : HGrid) (now : Nat) (words : List Nat) (p : AspPort) : AspPort :=
  let w := aspWidth p.run
  let v := (List.range 16).map (fun k => if k < aspSlots p.run then aspIn w (nth words k 0) else 0)
  if aspDouble p.run then
    let h := (⟨now, v⟩ :: p.hist).take 95
    let p := { p with hist := h }
    if p.frames % 2 = 0 then
      p.pushRx g (nth h 47 ⟨now, v⟩).time ((List.range 16).map (fun k => clampI (-(2 ^ 31)) (2 ^ 31 - 1) (roundAway (firLinear (halfBandTaps Config.halfBand) 47 (h.map (fun x => nth x.v k 0))))))
    else p
  else p.pushRx g now v

/-- The last received words again, for a discarded frame (R252). -/
def repeatLast (g : HGrid) (now : Nat) (p : AspPort) : AspPort :=
  let l : List Int := p.slotsRx.map (fun s => s.last)
  let r : List (SlotRx × Int) := (List.range 16).map (fun k => let s : SlotRx := nth p.slotsRx k {}; if s.on then (s, nth l k 0) else s.take 0)
  let p : AspPort := { p with slotsRx := r.map (·.1) }
  if aspDouble p.run ∧ p.frames % 2 = 1 then p else { p with stream := p.stream.push g ⟨now, r.map (·.2)⟩ }

/-- The transmit position of a frame (R248, R250): the Hearth sample number it carries, kept one further per frame while the level
stays within ±0.75 frame of the first; answers the port, the number, and the slips. pos is s(now) − 64. -/
def transmitIdx (pos : Rat) (p : AspPort) : AspPort × Int :=
  let near := (pos + 1/2).floor
  let half := aspDouble p.run && p.frames % 2 == 1
  match p.txIdx with
  | none => ({ p with txIdx := some near, txLevel := pos - (near : Rat) }, near)
  | some i =>
    if half then (p, i) else
    let lvl := pos - ((i + 1 : Int) : Rat)
    if lvl < p.txLevel - 3/4 then ({ p with underruns := inc32 p.underruns, slip := true }, i)
    else if p.txLevel + 3/4 < lvl then ({ p with txIdx := some (i + 2), overruns := inc32 p.overruns, slip := true }, i + 2)
    else ({ p with txIdx := some (i + 1) }, i + 1)

/-- A transmit sample at 96 kHz (R247): the half-band filter over the taps with zeros between them, placed by its centre. The centre of an even frame is
the sample of the number itself; that of the odd frame after it lies half a sample later, among 24 samples on either side (log 125). -/
def halfBandUp (odd : Bool) (tap : Int → Int) (idx : Int) : Int :=
  if !odd then tap idx else
  clampI (-(2 ^ 31)) (2 ^ 31 - 1) (roundAway (2 * sumR ((List.range 24).map (fun (k : Nat) =>
    Config.halfBand (2 * k + 1) * ((tap (idx - k) + tap (idx + 1 + k) : Int) : Rat)))))

/-- A frame's transmit side (R241, R245, R248). tap k i is the sample of send tap k at Hearth sample i; src k is the transmit slot
source of slot k. A slot beyond the slot count, or released, is not driven. -/
def transmit (now : Nat) (pos : Rat) (tap : Nat → Int → Int) (src : Nat → Nat) (mute : Bool) (p : AspPort) : AspPort :=
  let (p, idx) := if p.slotsTx.any (fun s => s.st == 2) && !mute then p.transmitIdx pos else (p, 0)
  let w := aspWidth p.run
  let out := (List.range 16).map (fun k =>
    let s := nth p.slotsTx k {}
    if s.st = 0 ∨ aspSlots p.run ≤ k then (s, none)
    else if s.st = 2 ∧ mute = false then
      let r := min 64 (s.pos + 1)
      let x := if src k = 0 then 0 else
        if aspDouble p.run then halfBandUp (p.frames % 2 == 1) (tap (src k - 1)) idx
        else tap (src k - 1) idx
      ({ s with pos := r }, some (aspOut w (scale28 x r 64)))
    else ({ s with pos := if s.st = 3 then s.pos + 1 else s.pos }, some 0))
  { p with slotsTx := out.map (·.1), dout := out.map (·.2), doutPrev := p.dout, txCairn := if idx % 32 = 0 then now else p.txCairn }

/-- A frame start ends the frame before it (R237 to R254), whose bit clocks are given up to the new frame start's own: the first condition of R254 that
holds governs that frame. Nothing is judged before the first frame start since the configuration applied, nor where BCLK has just returned. -/
def ended (g : HGrid) (now : Nat) (cycles : List BitCycle) (p : AspPort) : AspPort :=
  if p.phase = 0 then { p with seen := true } else
  let time := p.starts.headD now
  let first := !p.seen
  let p := { p with starts := (now :: p.starts).take 32, seen := true }
  if p.phase = 4 then { p.leadIn with starts := [now] } else
  if first then p else
  let good := cycles.length == aspSlots p.run * aspWidth p.run + 1
  let p := { p with frames := p.frames + 1, rate := f32OfRat p.measured, clock := good }
  if p.phase = 3 ∨ p.phase = 6 then
    -- lead-out in the old configuration; a frame that does not match it ends the lead-out at once (R244)
    if good then p else p.release
  else if p.phase = 1 then
    let p := if good && p.rateOk then { p with count := min 32 (p.count + 1) } else { p with count := 0 }
    if good then p else { p with glitch := true, glitched := inc32 p.glitched }
  else if p.phase = 5 then
    let ok := good && p.rateOk
    let p := { p with count := if ok then p.count + 1 else 0, rateErr := p.rateErr || !ok }
    if 32 ≤ p.count then p.leadIn else p
  else
    let gl := ((!good) :: p.glitches).take 32
    let rateBad := !p.rateOk || decide (8 ≤ (gl.filter id).length)
    let p := { p with glitches := gl }
    if rateBad then { (p.drain now 64) with phase := 5, count := 0, rateErr := true, rateErrors := inc32 p.rateErrors, glitches := [] }
    else if !good then { p with glitch := true, glitched := inc32 p.glitched }.repeatLast g time
    else p.receive g time (aspWords p.run cycles)

/-- The frame that starts is sent (R241, R242, R245, R248, R253): source data while the port runs, zeros in lead-in, lead-out and mute. -/
def send (now : Nat) (pos : Rat) (tap : Nat → Int → Int) (src : Nat → Nat) (p : AspPort) : AspPort :=
  if p.phase = 0 ∨ p.phase = 4 then p else p.transmit now pos tap src (decide (p.phase ≠ 2))

/-- Clock loss (R251): the receive slots fall to zero over 480 samples on the Hearth timeline, and DOUT is released. A stopped port only forgets the
frame starts it has seen. -/
def clockLoss (now : Nat) (p : AspPort) : AspPort :=
  if p.phase = 0 then { p with seen := false } else
  if p.phase = 4 then p else
  let q := { (p.drain now 480).release with phase := 4, count := 0, loss := true, losses := inc32 p.losses, clock := false, starts := [] }
  if p.phase = 6 && p.next.isNone then { q.stop with loss := true } else q

/-- A configuration that a lead-out held back applies in clock loss at a block boundary (R240). -/
def takeNext (rx tx : Nat) (p : AspPort) : AspPort :=
  match p.next with
  | some cfg => if p.phase = 4 then p.settings 0 cfg rx tx else p
  | none => p

/-- DOUT in a bit clock of the frame that runs (R237, R245): none where it is high impedance. -/
def doutAt (cycle : Nat) (p : AspPort) : Option Bool :=
  let w := aspWidth p.run
  let s := aspSlots p.run
  let at_ (l : List (Option Nat)) (k i : Nat) : Option Bool := (nth l k none).map (fun x => bit x (w - 1 - i))
  if cycle < aspLead p.run then (if s = 0 then none else at_ p.doutPrev (s - 1) (w - 1))
  else let c := cycle - aspLead p.run
    if c / w < s then at_ p.dout (c / w) (c % w) else none

/-- Port status (Table 12-7). -/
def status (p : AspPort) : Nat :=
  512 * b2n (p.slotsTx.any (fun s => s.st == 2)) + 256 * b2n (p.phase == 2 && p.rx != 0) + 128 * b2n (p.phase == 1)
    + 64 * b2n p.leadingOut + 32 * b2n p.rateErr + 16 * b2n p.loss + 8 * b2n p.glitch + 4 * b2n p.slip
    + 2 * b2n p.freqLock + b2n p.clock

/-- A Hearth block boundary's part: the comparison of the frame rate with the AUD-derived rate over 32 blocks. -/
def boundary (c : Nat) (p : AspPort) : AspPort :=
  let t := ((p.frames, p.starts.headD 0, c) :: p.track).take 33
  let lock := match t, t.getLast? with
    | a :: _, some b =>
      t.length == 33 && p.phase == 2 && decide (b.2.1 < a.2.1) && decide (b.2.2 < a.2.2) &&
        (let fr : Rat := ((a.1 - b.1 : Nat) : Rat) / ((a.2.1 - b.2.1 : Nat) : Rat)
         let ar : Rat := 1024 * (if aspDouble p.run then 2 else 1) / ((a.2.2 - b.2.2 : Nat) : Rat)
         decide (absR (fr - ar) ≤ ar / 100000))
    | _, _ => false
  { p with track := t, freqLock := lock }

end AspPort

/-! ### Steering (R249) -/

/-- The natural frequency in rad/s of a second-order loop of damping 0.7 with a −3 dB bandwidth in Hz (R249; log 36). -/
def loopOmega (hz : Rat) : Rat :=
  let a : Rat := 1 + 2 * (7 / 10) * (7 / 10)
  2 * piR * hz / sqrtR (a + sqrtR (a * a + 1))

/-- One steering step from the error e of the leading source, absent while it does not deliver: a proportional-integral loop of 4 Hz and damping 0.7 over
the blocks, whose trim of 1 part in 10^9 moves the error by 48 000 / 10^9 samples a second. It starts from the trim in force after a holdover and on a
change of source, and stays within ±500 ppm. -/
def AudClock.step (src : Nat) (e : Option Rat) (a : AudClock) : AudClock :=
  if src = 0 then { a with steering := false, locked := false, holdover := false, low := 0, src := 0 } else
  match e with
  | none => { a with steering := true, holdover := true, locked := false, low := 0, src := src }
  | some e =>
    let k : Rat := 48000 / 1000000000
    let w := loopOmega 4
    let kp := 2 * (7 / 10) * w / k
    let i0 := if a.steering && !a.holdover && a.src == src then a.integ else (a.trim : Rat) - kp * e
    let i1 := clampR (-500000) 500000 (i0 + w * w / k * e * (32 / 48000))
    let t := clampI (-500000) 500000 (roundAway (i1 + kp * e))
    let low := if absR e < 1/10 then min 32 (a.low + 1) else 0
    { trim := t, integ := i1, src := src, low := low, steering := true, holdover := false,
      locked := decide (32 ≤ low) || (a.locked && decide (0 < low)), atLimit := decide (t = 500000 ∨ t = -500000) }

/-- Audio clock status (0x7240.03). -/
def AudClock.status (a : AudClock) : Nat := b2n a.steering + 2 * b2n a.locked + 4 * b2n a.holdover + 8 * b2n a.atLimit

/-- The error of the system counter as leading source: the distance of a cairn from the nearest multiple of 400 000 / 3 ticks, in
samples. -/
def counterError (c : Nat) : Rat :=
  let u : Rat := (c : Rat) * 3 / 400000
  (u - ((u + 1/2).floor : Rat)) * 32

/-! ### Network streams (R256 to R259) -/

/-- What an AAF PDU carries (R256, R257). data holds its samples in order, per sample its channels in order, each most significant byte first (R3). -/
structure AafPdu where
  streamId : Nat
  subtype : Nat
  tv : Bool
  sp : Bool
  nsr : Nat
  format : Nat
  depth : Nat
  chans : Nat
  seq : Nat
  timestamp : Nat
  data : List Byte
  deriving DecidableEq, Repr

/-- The width of an AAF format (R256); 0 for a format that is not supported. -/
def aafWidth (f : Nat) : Nat := if f = 2 then 32 else if f = 3 then 24 else if f = 4 then 16 else 0

/-- The samples of a PDU, each the words of its channels (R3). -/
def AafPdu.samples (p : AafPdu) : List (List Nat) :=
  let b := aafWidth p.format / 8
  let per := b * p.chans
  if per = 0 then [] else
  (List.range (p.data.length / per)).map (fun k => (List.range p.chans).map (fun j => ofBytes ((p.data.drop (k * per + j * b)).take b)))

/-- Whether a PDU complies with R256. -/
def AafPdu.ok (p : AafPdu) : Bool :=
  p.subtype == 2 && !p.sp && p.nsr == 5 && aafWidth p.format != 0 && p.depth == aafWidth p.format
    && decide (1 ≤ p.chans) && decide (p.chans ≤ 8)

/-- The 64-bit time nearest to a present time whose low 32 bits are given (R257). -/
def nearestTime (present : Int) (ts : Nat) : Int :=
  let d := ((ts : Int) - present) % 2 ^ 32
  present + (if d < 2 ^ 31 then d else d - 2 ^ 32)

/-- A sample word of an AAF format in Q4.28. -/
def aafIn (width word : Nat) : Int :=
  if width = 16 then sext 16 word * 2 ^ 13 else if width = 24 then sext 24 word * 2 ^ 5 else sext 32 word / 8

/-- A listener ends its stream: a fade to zero over 10 ms, then the stream end (R257). -/
def Listener.stop (now : Nat) (l : Listener) : Listener :=
  if !l.receiving then l else
  let l := { l with receiving := false, idle := 0, lastSeq := none, chans := l.chans.map (SlotRx.end_ 480) }
  let l := (List.range 480).foldl (fun l k =>
    let r := l.chans.map (fun s => s.take 0)
    { l with chans := r.map (·.1), stream := l.stream.append ⟨now + (k + 1) * 12500 / 3, r.map (·.2)⟩ }) l
  { l with stream := { l.stream with on := false } }

/-- A PDU at an enabled listener (R256, R257). id and chans are the listener's settings; offset is the gPTP offset in ns; the
cairn of the grid is the time of the latest Hearth block boundary. -/
def Listener.pdu (g : HGrid) (id chans now : Nat) (offset : Int) (p : AafPdu) (l : Listener) : Listener :=
  if p.streamId ≠ id then l
  else if !p.ok then { l with formatErr := true, formatErrors := inc32 l.formatErrors }
  else if !p.tv ∨ p.chans ≠ chans then l
  else
    let first := nearestTime (5 * (now : Int) + offset) p.timestamp
    let stamp (k : Nat) : Nat := ((roundAway (mkRat (first - offset) 5 + mkRat (k * 12500) 3)) % 2 ^ 64).toNat
    let gap := match l.lastSeq with | some s => (s + 1) % 256 != p.seq | none => false
    let l := { l with lastSeq := some p.seq, seqGap := l.seqGap || gap, gaps := if gap then inc32 l.gaps else l.gaps }
    let n := p.samples.length
    let late := decide (stamp (n - 1) < g.cairn) || decide (now + 16 * 133333 < stamp 0)
    if late then { l with late := true, latePdus := inc32 l.latePdus }
    else
      let l := if l.receiving then l else
        { l with receiving := true, stream := l.stream.begin_, chans := l.chans.mapIdx (fun k s => if k < chans then s.begin_ else s) }
      -- samples that a gap leaves out repeat the last received sample
      let missing := match l.stream.samples.getLast? with
        | some x => if gap && decide (x.time + 6250 < stamp 0) then (stamp 0 - x.time + 2083) * 3 / 12500 - 1 else 0
        | none => 0
      let l := (List.range (min missing 512)).foldl (fun l _ =>
        { l with stream := l.stream.push g ⟨(l.stream.samples.getLastD {}).time + 12500 / 3, (l.chans.map (·.last))⟩ }) l
      let l := (List.range n).foldl (fun l k =>
        let w := nth p.samples k []
        let r := l.chans.mapIdx (fun j s => s.take (aafIn (aafWidth p.format) (nth w j 0)))
        { l with chans := r.map (·.1), stream := l.stream.push g ⟨stamp k, r.map (·.2)⟩ }) l
      { l with idle := 0, cairn := stamp 0 }

/-- Listener status (0x7260.05). -/
def Listener.status (l : Listener) (noGptp : Bool) : Nat :=
  b2n l.receiving + 2 * b2n noGptp + 4 * b2n l.late + 8 * b2n l.seqGap + 16 * b2n l.formatErr

/-- A sample word that a talker sends: clipped and rounded as R238. -/
def aafOut (fmt : Nat) (x : Int) : Nat :=
  if fmt = 0 then aspOut 16 x
  else if fmt = 1 then ofInt 24 (clampI (-(2 ^ 23)) (2 ^ 23 - 1) (roundAway (mkRat (clampI (-one28) one28 x) 32)))
  else aspOut 32 x

/-- The PDUs a talker sends for one processed block (R258): idx is the object index 0x7270 or 0x7271; c0 and d are the block's cairn and
step; tap k i is send tap k at sample i of the block; offset is the gPTP offset. -/
def Talker.block (c : Store) (idx : Nat) (gptp : Bool) (offset : Int) (c0 : Nat) (d : Rat) (tap : Nat → Nat → Int) (t : Talker) : Talker :=
  if !(c.b idx 1 && gptp) then { t with sending := false, held := [], sent := [] } else
  let t := if t.sending then t else { t with sending := true, starts := t.starts + 1, mr := t.starts % 2 == 1, seq := 0, held := [] }
  let chans := c.u idx 6
  let fmt := c.u idx 7
  let per := c.u idx 8
  (List.range 32).foldl (fun t (i : Nat) =>
    let tm := ((c0 : Rat) + d * (i : Rat)).floor.toNat
    let t := if t.held.isEmpty then { t with heldTime := tm } else t
    let x := (List.range chans).map (fun k => let s := c.u idx (0xA + k); if s = 0 then 0 else tap (s - 1) i)
    let t := { t with held := t.held ++ [x] }
    if t.held.length < per then t else
    let ts := ((5 * (t.heldTime : Int) + offset + c.u idx 9) % 2 ^ 32).toNat
    let pdu : TalkerPdu :=
      { dest := c.u idx 3, vlan := c.u idx 4, pcp := c.u idx 5, streamId := c.u idx 2, mr := t.mr, seq := t.seq, timestamp := ts,
        format := 4 - fmt, depth := 16 + 8 * fmt, chans := chans, data := t.held.flatMap (fun v => v.flatMap (fun x => toBytes (2 + fmt) (aafOut fmt x))) }
    { t with seq := (t.seq + 1) % 256, count := inc32 t.count, held := [], sent := t.sent ++ [pdu] }) { t with sent := [] }

end Sys2Proof.Machine
end

