-- ==== Sys2Proof/Machine/LaneVm.lean ====
section
/-! DEFINITION. The recipe machine of the full lanes and of Hearth (R92 to R94): vector registers, data memory, and the
instructions of Table 4-7, with IEEE 754 single precision on element e0. -/

namespace Sys2Proof.Machine

/-! ### Single-precision operations on patterns -/

namespace F32op

/-- The quiet NaN that an invalid operation gives. -/
def qnan : Nat := 0x7FC00000

/-- NaN test. -/
def isNaN (a : Nat) : Bool := bits a 30 23 == 255 && bits a 22 0 != 0

/-- Infinity test. -/
def isInf (a : Nat) : Bool := bits a 30 23 == 255 && bits a 22 0 == 0

/-- The sign bit. -/
def neg (a : Nat) : Bool := a.testBit 31

/-- An infinity of a sign. -/
def inf (s : Bool) : Nat := 0x7F800000 + (if s then 2 ^ 31 else 0)

/-- A zero of a sign. -/
def zero (s : Bool) : Nat := if s then 2 ^ 31 else 0

/-- Round a nonzero exact result to nearest even, to infinity on overflow and to a subnormal where it is small. -/
def round (x : Rat) : Nat :=
  let a := absR x
  let s := if x < 0 then 2 ^ 31 else 0
  let e := ilog2 a
  let e := if e < -126 then -126 else e
  let m := (roundEven (a * pow2 (23 - e))).toNat
  let (m, e) := if m = 2 ^ 24 then (2 ^ 23, e + 1) else (m, e)
  if 127 < e then s + 0x7F800000
  else if m < 2 ^ 23 then s + m
  else s + ((e + 127).toNat) * 2 ^ 23 + (m - 2 ^ 23)

/-- Round an exact result, a zero taking the given sign. -/
def roundZ (s : Bool) (x : Rat) : Nat := if x = 0 then zero s else round x

/-- Addition. -/
def add (a b : Nat) : Nat :=
  if isNaN a || isNaN b then qnan
  else if isInf a then (if isInf b && neg a != neg b then qnan else a)
  else if isInf b then b
  else roundZ (neg a && neg b) (f32ToRat a + f32ToRat b)

/-- Negation. -/
def negate (a : Nat) : Nat := if neg a then a - 2 ^ 31 else a + 2 ^ 31

/-- Subtraction. -/
def sub (a b : Nat) : Nat := if isNaN b then qnan else add a (negate b)

/-- Multiplication. -/
def mul (a b : Nat) : Nat :=
  let s := neg a != neg b
  if isNaN a || isNaN b then qnan
  else if isInf a || isInf b then (if f32ToRat a = 0 && !isInf a || f32ToRat b = 0 && !isInf b then qnan else inf s)
  else roundZ s (f32ToRat a * f32ToRat b)

/-- Division. -/
def div (a b : Nat) : Nat :=
  let s := neg a != neg b
  if isNaN a || isNaN b then qnan
  else if isInf a then (if isInf b then qnan else inf s)
  else if isInf b then zero s
  else if f32ToRat b = 0 then (if f32ToRat a = 0 then qnan else inf s)
  else roundZ s (f32ToRat a / f32ToRat b)

/-- Square root, rounded from the integer root of the significand scaled by an even power of 2: 30 bits below it decide, with a half for the rest. -/
def sqrt (a : Nat) : Nat :=
  if isNaN a then qnan
  else if f32ToRat a = 0 && !isInf a then a
  else if neg a then qnan
  else if isInf a then a
  else
    let e := bits a 30 23
    let m := bits a 22 0 + (if e = 0 then 0 else 2 ^ 23)
    let e : Int := (if e = 0 then 1 else e : Nat) - 150
    let m := if e % 2 = 0 then m else 2 * m
    let r := isqrt (m * 2 ^ 60)
    round (((r : Rat) + (if r * r = m * 2 ^ 60 then 0 else 1 / 2)) * pow2 (e / 2 - 30))

/-- Comparison a < b; false with a NaN. -/
def lt (a b : Nat) : Bool :=
  if isNaN a || isNaN b then false
  else
    let v (x : Nat) : Rat := if isInf x then (if neg x then -(2 ^ 200) else 2 ^ 200) else f32ToRat x
    decide (v a < v b)

/-- Minimum; the other operand where one is NaN (log 107). -/
def min (a b : Nat) : Nat := if isNaN a then b else if isNaN b then a else if lt b a then b else a

/-- Maximum; the other operand where one is NaN (log 107). -/
def max (a b : Nat) : Nat := if isNaN a then b else if isNaN b then a else if lt a b then b else a

end F32op

/-! ### Instruction words (Table 4-6) -/

/-- OP. -/
def rOp (w : Nat) : Nat := bits w 31 26
/-- D. -/
def rD (w : Nat) : Nat := bits w 25 22
/-- A. -/
def rA (w : Nat) : Nat := bits w 21 18
/-- B. -/
def rB (w : Nat) : Nat := bits w 17 14
/-- IMM, unsigned. -/
def rImm (w : Nat) : Nat := bits w 13 0
/-- IMM, sign-extended. -/
def rImmS (w : Nat) : Int := sext 14 w

/-- Opcodes of Table 4-7 that are not reserved. -/
def rOpKnown (op : Nat) : Bool :=
  decide (op ≤ 0x09) || decide (0x10 ≤ op ∧ op ≤ 0x1B) || decide (0x20 ≤ op ∧ op ≤ 0x29) || decide (0x30 ≤ op ∧ op ≤ 0x34)
    || decide (op = 0x3F)

/-- Whether an opcode is a branch. -/
def rIsBranch (op : Nat) : Bool := decide (0x30 ≤ op ∧ op ≤ 0x34)

/-- Cycles of an instruction, a branch counted as taken (Table 4-7). -/
def rCycles (op : Nat) : Nat := if op = 0x24 ∨ op = 0x25 then 8 else if rIsBranch op then 2 else 1

/-- Cycle cost of the longest path from each address, from the last instruction back (R92): the list at address i holds the
worst case from i. A branch costs 2 and its target, or 1 and the next word; BR has no other way. -/
def rWorst : List Nat → List Nat
  | [] => []
  | w :: ws =>
    let rest := rWorst ws
    let op := rOp w
    let next := rest.headD 0
    let tgt := rest.getD (rImm w - 1) 0
    let c :=
      if op = 0x3F then 1
      else if op = 0x30 then 2 + tgt
      else if rIsBranch op then max (2 + tgt) (1 + next)
      else rCycles op + next
    c :: rest

/-- Sparse word memory: (address, word), ascending, no zero word listed. -/
abbrev WordMem := List (Nat × Nat)

/-- A word of the memory, 0 where none is listed. -/
def memGet (m : WordMem) (a : Nat) : Nat := ((m.find? (fun e => e.1 == a)).map (·.2)).getD 0

/-- Insertion in ascending order of address. -/
def memInsert (a v : Nat) : WordMem → WordMem
  | [] => [(a, v)]
  | e :: m => if a < e.1 then (a, v) :: e :: m else if a = e.1 then (a, v) :: m else e :: memInsert a v m

/-- The memory with one word written; a zero is not listed. -/
def memPut (m : WordMem) (a v : Nat) : WordMem :=
  if v = 0 then m.filter (fun e => e.1 != a) else memInsert a v m

/-- A running hook: registers (16 vectors of 4 words), data memory, the words written to it in order, the elements (4 × register + element) that hold a
float result that is NaN, the ports written so far, and the failures of R93. -/
structure Vm where
  regs : List (List Nat) := List.replicate 16 [0, 0, 0, 0]
  mem : WordMem := []
  written : List Nat := []
  nans : List Nat := []
  outs : List (Nat × List Nat) := []
  refused : Nat := 0
  access : Bool := false
  nan : Bool := false
  cycles : Nat := 0
  deriving DecidableEq, Repr

/-- What a hook sees: the ports it can read, the ports it can write, the parameter window, the ports that carry F32, and its hook number. -/
structure VmEnv where
  hook : Nat
  reads : List (Nat × List Nat)
  writes : List Nat
  params : List Nat
  floats : List Nat := []
  deriving DecidableEq, Repr

namespace Vm

/-- A vector register. -/
def reg (v : Vm) (n : Nat) : List Nat := nth v.regs n [0, 0, 0, 0]
/-- Element e0 of a register. -/
def e0 (v : Vm) (n : Nat) : Nat := nth (v.reg n) 0 0
/-- Write a vector register. -/
def set (v : Vm) (n : Nat) (x : List Nat) : Vm := { v with regs := upd v.regs n (fun _ => x), nans := v.nans.filter (fun k => k / 4 != n) }
/-- Write one element; nan marks a float result that is NaN. -/
def setE (v : Vm) (n k x : Nat) (nan : Bool) : Vm :=
  { v with
    regs := upd v.regs n (fun r => upd r k (fun _ => x))
    nans := (if nan then [4 * n + k] else []) ++ v.nans.filter (fun j => j != 4 * n + k) }
/-- Write element e0. -/
def setE0 (v : Vm) (n x : Nat) : Vm := v.setE n 0 x false
/-- Write a float result to element e0. -/
def setF (v : Vm) (n x : Nat) : Vm := v.setE n 0 x (F32op.isNaN x)
/-- Whether an element holds a float result that is NaN. -/
def nanAt (v : Vm) (n k : Nat) : Bool := v.nans.contains (4 * n + k)

/-- Read a data word: the memory below 0x1F00, the parameter window to 0x1FFF, a lane check failure above (R93). -/
def load (e : VmEnv) (v : Vm) (a : Nat) : Vm × Nat :=
  if 0x1FFF < a then ({ v with access := true }, 0)
  else if 0x1F00 ≤ a then (v, nth e.params (a - 0x1F00) 0)
  else (v, memGet v.mem a)

/-- Write a data word; above 0x1EFF it is a lane check failure (R93). -/
def store (v : Vm) (a x : Nat) : Vm :=
  if 0x1EFF < a then { v with access := true } else { v with mem := memPut v.mem a x, written := v.written ++ [x] }

end Vm

/-- Saturation to a signed 32-bit word. -/
def sat32 (x : Int) : Nat := ofInt 32 (clampI (-(2 ^ 31)) (2 ^ 31 - 1) x)

/-- Elementwise operation on two vectors of signed words. -/
def vec2 (f : Int → Int → Int) (a b : List Nat) : List Nat := List.zipWith (fun x y => sat32 (f (sext 32 x) (sext 32 y))) a b

/-- round((a × b) >> n). -/
def mulShift (n : Nat) (a b : Int) : Int := roundAway ((a * b : Int) * pow2 (-(n : Int)))

/-- The effective address A.e0 + IMM, modulo 2^32. -/
def rAddr (v : Vm) (w : Nat) : Nat := ofInt 32 (sext 32 (v.e0 (rA w)) + rImmS w)

/-- Write a register to a port: listed where it is writable at this hook, otherwise without effect and counted (R95). A float result that is NaN fails
the lane's check on any port (R93), and so does any NaN on a port that carries F32 (log 115). -/
def rOut (e : VmEnv) (v : Vm) (port d : Nat) : Vm :=
  let x := v.reg d
  if e.writes.contains port then
    { v with
      outs := v.outs.filter (fun o => o.1 != port) ++ [(port, x)]
      nan := v.nan || (List.range 4).any (v.nanAt d) || (e.floats.contains port && x.any F32op.isNaN) }
  else { v with refused := v.refused + 1 }

/-- One instruction other than a branch or END (Table 4-7). FMAC rounds its product before the sum (log 106). -/
def rExec (e : VmEnv) (v : Vm) (w : Nat) : Vm :=
  let d := rD w
  let a := v.reg (rA w)
  let b := v.reg (rB w)
  let n := bits w 5 0
  let f (g : Nat → Nat → Nat) : Vm := v.setF d (g (v.e0 (rA w)) (v.e0 (rB w)))
  match rOp w with
  | 0x01 => v.set d (List.replicate 4 (ofInt 32 (rImmS w)))
  | 0x02 => let (v, x) := v.load e (rAddr v w); v.setE0 d x
  | 0x03 =>
    let ad := rAddr v w
    let (v, x0) := v.load e ad
    let (v, x1) := v.load e (ad + 1)
    let (v, x2) := v.load e (ad + 2)
    let (v, x3) := v.load e (ad + 3)
    v.set d [x0, x1, x2, x3]
  | 0x04 => v.store (rAddr v w) (v.e0 d)
  | 0x05 =>
    let ad := rAddr v w
    let x := v.reg d
    (((v.store ad (nth x 0 0)).store (ad + 1) (nth x 1 0)).store (ad + 2) (nth x 2 0)).store (ad + 3) (nth x 3 0)
  | 0x06 =>
    match e.reads.find? (fun p => p.1 == rImm w) with
    | some p => v.set d (((v.outs.find? (fun o => o.1 == rImm w)).getD p).2)
    | none => v.set d ((List.range 4).map (Config.portUnreadable e.hook (rImm w)))
  | 0x07 => rOut e v (rImm w) d
  | 0x08 => v.setE d 0 (nth a (bits w 1 0) 0) (v.nanAt (rA w) (bits w 1 0))
  | 0x09 => v.setE d (bits w 1 0) (v.e0 (rA w)) (v.nanAt (rA w) 0)
  | 0x10 => v.set d (vec2 (· + ·) a b)
  | 0x11 => v.set d (vec2 (· - ·) a b)
  | 0x12 => v.set d (vec2 (mulShift n) a b)
  | 0x13 => v.set d (List.zipWith (fun x p => sat32 (sext 32 x + p)) (v.reg d) (List.zipWith (fun x y => mulShift n (sext 32 x) (sext 32 y)) a b))
  | 0x14 => v.set d (vec2 (fun x y => if x ≤ y then x else y) a b)
  | 0x15 => v.set d (vec2 (fun x y => if x ≤ y then y else x) a b)
  | 0x16 => v.set d (a.map (fun x => sat32 (if sext 32 x < 0 then -(sext 32 x) else sext 32 x)))
  | 0x17 => v.set d (a.map (fun x => sat32 (sext 32 x / (2 ^ n : Nat))))
  | 0x18 => v.set d (a.map (fun x => sat32 (sext 32 x * (2 ^ n : Nat))))
  | 0x19 => v.set d (List.zipWith (· &&& ·) a b)
  | 0x1A => v.set d (List.zipWith (· ||| ·) a b)
  | 0x1B => v.set d (List.zipWith (· ^^^ ·) a b)
  | 0x20 => f F32op.add
  | 0x21 => f F32op.sub
  | 0x22 => f F32op.mul
  | 0x23 => v.setF d (F32op.add (v.e0 d) (F32op.mul (v.e0 (rA w)) (v.e0 (rB w))))
  | 0x24 => f F32op.div
  | 0x25 => v.setF d (F32op.sqrt (v.e0 (rA w)))
  | 0x26 => f F32op.min
  | 0x27 => f F32op.max
  | 0x28 => v.setE0 d (F32op.roundZ false ((sext 32 (v.e0 (rA w)) : Rat) * pow2 (-(n : Int))))
  | 0x29 =>
    let x := v.e0 (rA w)
    let y := if F32op.isNaN x then Config.ftoqNaN x
      else if F32op.isInf x then (if F32op.neg x then 2 ^ 31 else 2 ^ 31 - 1)
      else sat32 (roundAway (f32ToRat x * pow2 n))
    v.setE0 d y
  | _ => v

/-- Whether a branch is taken. -/
def rTaken (v : Vm) (w : Nat) : Bool :=
  let a := v.e0 (rA w)
  let b := v.e0 (rB w)
  match rOp w with
  | 0x30 => true
  | 0x31 => a == 0
  | 0x32 => a != 0
  | 0x33 => decide (sext 32 a < sext 32 b)
  | 0x34 => F32op.lt a b
  | _ => false

/-- Run from an address to END; past the last instruction word the hook ends too (log 108). Branches go forward only, so the fuel of one instruction store never runs out. -/
def rRun (e : VmEnv) : Nat → List Nat → Vm → Vm
  | 0, _, v => v
  | _ + 1, [], v => v
  | k + 1, w :: ws, v =>
    if rOp w = 0x3F then { v with cycles := v.cycles + 1 }
    else if rIsBranch (rOp w) then
      if rTaken v w then rRun e k (ws.drop (rImm w - 1)) { v with cycles := v.cycles + 2 }
      else rRun e k ws { v with cycles := v.cycles + 1 }
    else
      let v := rExec e v w
      rRun e k ws { v with cycles := v.cycles + rCycles (rOp w) }

/-- The words of an image, most significant byte first. -/
def imageWords : List Byte → List Nat
  | b0 :: b1 :: b2 :: b3 :: l => ofBytes [b0, b1, b2, b3] :: imageWords l
  | _ => []

/-- A recipe image's instruction words. -/
def recipeCode (img : List Nat) : List Nat := (img.drop 16).take (nth img 1 0)

/-- A recipe image's data words. -/
def recipeData (img : List Nat) : List Nat := (img.drop (16 + nth img 1 0)).take (nth img 2 0)

/-- The data memory that an image initialises (R92, R97). -/
def recipeMem (img : List Nat) : WordMem :=
  (List.range (nth img 2 0)).foldl (fun m a => memPut m a (nth (recipeData img) a 0)) []

/-- The refusal conditions of R97 on a transferred image: format, counts, reserved opcodes and ports, branches and entries
outside the code, and a length that disagrees with the header. entries are the header words of the entry addresses. -/
def recipeImageOk (maxN : Nat) (entries : List Nat) (reservedFrom : Nat) (badPort : Nat → Bool) (bytes : List Byte) : Bool :=
  let img := imageWords bytes
  let n := nth img 1 0
  let d := nth img 2 0
  let code := recipeCode img
  decide (bytes.length = 4 * (16 + n + d)) && nth img 0 0 == 1 && decide (1 ≤ n ∧ n ≤ maxN) && decide (d ≤ 7936)
    && ((img.take 16).drop reservedFrom).all (· == 0)
    && entries.all (fun k => nth img k 0 == 0xFFFFFFFF || decide (nth img k 0 < n))
    && (List.range n).all (fun i =>
      let w := nth code i 0
      let op := rOp w
      rOpKnown op && (!rIsBranch op || decide (1 ≤ rImm w ∧ rImm w ≤ 8191 ∧ i + rImm w < n))
        && !((op == 0x06 || op == 0x07) && badPort (rImm w)))

end Sys2Proof.Machine
end

