-- ==== Sys2Proof/Machine/TypesCrust.lean ====
section
/-! DEFINITION. State of Crust (chapter 13). Crust times are counts of its 1 µs input samples; cycles are Crust cycles of 100 µs. -/

namespace Sys2Proof.Machine

/-- One input channel SIN0A to SIN7B: the filtered level, the latest raw sample and how many equal ones in a row; the latest edges; the
signature of LOOP (R267); the permit held over a test pulse (R269); the test results of R270 and the lows of R268. -/
structure Channel where
  level : Bool := false
  raw : Bool := false
  run : Nat := 0
  rise : Nat := 0
  fall : Nat := 0
  prevFall : Option Nat := none
  high : Option Nat := none
  sigValid : Bool := false
  sig : Bool := false
  holdUntil : Nat := 0
  holdVal : Bool := false
  lowSeen : Bool := false
  missed : Nat := 0
  inside : List Bool := [false, false, false, false]
  crossed : List Nat := [0, 0, 0, 0]
  lowFrom : Nat := 0
  lowTo : Nat := 0
  shortLow : Bool := false
  deriving DecidableEq, Repr

/-- One safety input pair (R264, Table 13-13). both says that both channels have demanded in one cycle since FAULT was entered; overlaps
counts the consecutive coincident lows of R268. -/
structure SafePair where
  st : Nat := 0
  count : Nat := 0
  both : Bool := false
  disc : Bool := false
  sig : Bool := false
  test : Bool := false
  cross : Bool := false
  aFault : Bool := false
  bFault : Bool := false
  aPermit : Bool := false
  bPermit : Bool := false
  overlaps : Nat := 0
  faults : Nat := 0
  deriving DecidableEq, Repr

/-- The safety-reset input (R273, R274). -/
structure Srst where
  level : Bool := false
  raw : Bool := false
  run : Nat := 0
  rise : Nat := 0
  fall : Nat := 0
  pulse : Bool := false
  accept : Bool := false
  stuck : Bool := false
  accepted : Nat := 0
  short : Nat := 0
  stuckCount : Nat := 0
  lastHigh : Nat := 0
  deriving DecidableEq, Repr

/-- What Crust forms from a resolver's converters (R275): the samples of the excitation period that runs, newest first, each with the reference of its
demodulation; the sine and cosine demodulated over the latest complete one, in codes, and their angle in 2^−16 of a turn; the largest angle change between
excitation periods since the latest Crust cycle; the consecutive samples with a converter at its limit, and whether there were two since that cycle. -/
structure CrustRes where
  window : List (Rat × Rat) := []
  sin : Rat := 0
  cos : Rat := 0
  elec : Nat := 0
  jump : Nat := 0
  full : Nat := 0
  limit : Bool := false
  deriving DecidableEq, Repr

/-- Crust's angle and speed of a machine (R275): the angle changes of the latest cycles, newest first, the latest electrical angle, and the consecutive good
cycles. -/
structure CrustAxis where
  moves : List Int := []
  elec : Option Nat := none
  angle : Nat := 0
  speed : Rat := 0
  valid : Bool := false
  good : Nat := 0
  overA : Bool := false
  overB : Bool := false
  deriving DecidableEq, Repr

/-- A recipe timer (R280). -/
structure CrustTimer where
  count : Nat := 0
  out : Bool := false
  deriving DecidableEq, Repr

/-- The safe-off switches (R284 to R287): commands, readbacks, when each command changed, the consecutive cycles of a wrong readback, the
status bits of Table 13-8, the readback test's step with its start, the off-pulse, and since when mode 2 has waited. -/
structure SafeOff where
  hCmd : Bool := false
  lCmd : Bool := false
  rbh : Bool := false
  rbl : Bool := false
  hSince : Nat := 0
  lSince : Nat := 0
  hBad : Nat := 0
  lBad : Nat := 0
  hStuck : Bool := false
  lStuck : Bool := false
  hNoOn : Bool := false
  lNoOn : Bool := false
  testFail : Bool := false
  testPass : Bool := false
  test : Option Nat := none
  testFrom : Nat := 0
  testBad : Bool := false
  pulse : Option Bool := none
  pulseFrom : Nat := 0
  pulseFell : Bool := false
  nextLow : Bool := false
  bothOnFrom : Option Nat := none
  waitFrom : Option Nat := none
  released : Bool := false
  pulses : Nat := 0
  deriving DecidableEq, Repr

/-- Crust. usec counts the input samples, demand is the demand register, tpFrom the start of a running test pulse per source, tpOrigin the start of the
first test period of the timing in force, voteAt and
hearthAt the system-counter times of the latest heartbeats, gateClosed and gateRamp the Hearth gate (R278), toneOn to toneHi the Bedrock
tone (R288). -/
structure CrustState where
  armed : Bool := false
  usec : Nat := 0
  ch : List Channel := List.replicate 16 {}
  pairs : List SafePair := List.replicate 8 {}
  srst : Srst := {}
  res : List CrustRes := [{}, {}]
  axis : List CrustAxis := [{}, {}]
  tpFrom : List (Option Nat) := [none, none, none, none]
  tpOrigin : Nat := 0
  flags : Nat := 0
  timers : List CrustTimer := List.replicate 32 {}
  bits : Nat := 0
  demand : Nat := 0
  latched : Nat := 0
  refusedResets : Nat := 0
  hostReq : Nat := 0
  input : Nat := 0
  laneWd : Bool := false
  hearthWd : Bool := false
  hearthFlag : Bool := false
  laneExpiries : Nat := 0
  hearthExpiries : Nat := 0
  voteAt : Option Nat := none
  hearthAt : Option Nat := none
  onTime : Nat := 0
  gateClosed : Bool := false
  gateRamp : Option Nat := none
  soff : SafeOff := {}
  tlim : List (Option Rat) := [none, none]
  supplyFault : Bool := false
  clockFault : Bool := false
  paramFault : Bool := false
  voteBedrock : Bool := false
  toneOn : Bool := false
  toneFade : Nat := 0
  toneHi : Bool := false
  toneFrom : Nat := 0
  deriving DecidableEq, Repr

end Sys2Proof.Machine
end

