-- ==== Sys2Proof/Machine/Crust.lean ====
section
/-! DEFINITION. Crust: safety inputs, recipe, demands and safe-off (chapter 13). -/

namespace Sys2Proof.Machine

/-! ### Pair configuration (Table 13-12) -/

/-- A pair's configuration word. -/
def pairCfg (c : Store) (p : Nat) : Nat := c.pv 0x9010 (p + 1)
/-- TYPE. -/
def pairType (w : Nat) : Nat := bits w 31 29
/-- RESTART. -/
def pairRestart (w : Nat) : Bool := bit w 28
/-- The test source code of channel A or B. -/
def pairSource (w : Nat) (b : Bool) : Nat := if b then bits w 24 22 else bits w 27 25
/-- FILTER in µs. -/
def pairFilter (w : Nat) : Nat := bits w 15 8
/-- BLANK in µs. -/
def pairBlank (w : Nat) : Nat := bits w 7 0 * 10
/-- The mode of a test-pulse source (0x9020.04). -/
def tpMode (c : Store) (n : Nat) : Nat := bits (c.pv 0x9020 4) (2 * n + 1) (2 * n)
/-- W_tp, L_tp in µs. -/
def tpWidth (c : Store) : Nat := c.pv 0x9020 2
/-- L_tp. -/
def tpLag (c : Store) : Nat := c.pv 0x9020 3
/-- P_sig and H_sig of a source in µs. -/
def loopSig (c : Store) (n : Nat) : Nat × Nat := let w := c.pv 0x9021 (n + 1); (bits w 31 16, bits w 15 0)

/-! ### Input samples (R261, R267 to R270) -/

/-- Whether two times lie within a tolerance. -/
def within (tol a b : Nat) : Bool := decide (a ≤ b + tol) && decide (b ≤ a + tol)

/-- A filtered edge of a LOOP channel (R267). What set SIG is over with a valid signature. -/
def Channel.loopEdge (c : Store) (src : Nat) (now : Nat) (newLevel : Bool) (x : Channel) : Channel :=
  if src = 0 then x else
  let (p, h) := loopSig c (src - 1)
  let tol := c.pv 0x9021 5
  if newLevel then x else
  let high := some (now - x.rise)
  match x.prevFall with
  | none => { x with prevFall := some now, high := high }
  | some f =>
    let ok := within tol (now - f) p && within tol (now - x.rise) h
    { x with prevFall := some now, high := high, sigValid := ok, sig := !ok && (x.sig || x.sigValid) }

/-- One 1 µs sample of a channel: glitch filter, edges, and what the windows of the test pulses see. -/
def Channel.sample (c : Store) (w : Nat) (isB : Bool) (now : Nat) (tpFrom : List (Option Nat)) (raw : Bool) (x : Channel) : Channel :=
  let run := if raw == x.raw then min 256 (x.run + 1) else 1
  let x := { x with raw := raw, run := run }
  let accept := raw != x.level && decide (max 1 (pairFilter w) ≤ run)
  let x := if !accept then x else
    let x := if pairType w = 3 then x.loopEdge c (pairSource w isB) now raw else x
    if raw then
      let dur := now - x.fall
      { x with
        level := true, rise := now, lowFrom := x.fall, lowTo := now, shortLow := decide (dur ≤ pairBlank w)
        inside := tpFrom.map (fun t => match t with
          | some s => decide (s ≤ x.fall) && decide (now ≤ s + tpWidth c + tpLag c)
          | none => false) }
    else { x with level := false, fall := now }
  { x with lowSeen := x.lowSeen || !x.level }

/-- The start of a test pulse on the channels it feeds (R269): the permit bit is held, and the window opens. -/
def Channel.pulseStart (w : Nat) (isB : Bool) (n now hold : Nat) (permit : Bool) (x : Channel) : Channel :=
  let x := { x with inside := upd x.inside n (fun _ => false) }
  if pairSource w isB = n + 1 ∧ (pairType w = 1 ∨ (pairType w = 2 ∧ isB = false)) then
    { x with holdUntil := now + hold + pairFilter w, holdVal := permit, lowSeen := !x.level }
  else x

/-- The end of a source's window on a channel (R270): a fed channel passes when it was low; any other counts a low inside the window. -/
def Channel.windowEnd (w : Nat) (isB : Bool) (n : Nat) (x : Channel) : Channel :=
  if !(pairType w = 1 ∨ (pairType w = 2 ∧ isB = false)) then x
  else if pairSource w isB = n + 1 then { x with missed := if x.lowSeen then 0 else min 2 (x.missed + 1) }
  else { x with
    crossed := upd x.crossed n (fun k => if nth x.inside n false && x.level then min 2 (k + 1) else 0)
    inside := upd x.inside n (fun _ => false) }

/-- The signature of a LOOP channel as time passes (R267): no edge for 1.5 × P_sig. -/
def Channel.loopIdle (c : Store) (src now : Nat) (x : Channel) : Channel :=
  if src = 0 then { x with sigValid := false } else
  let (p, _) := loopSig c (src - 1)
  let last := max x.rise x.fall
  if 3 * p ≤ 2 * (now - last) then { x with sigValid := false, sig := x.sig || (x.sigValid && x.level), prevFall := none } else x

/-- A channel's permit bit (Table 13-1). -/
def Channel.permit (w : Nat) (isB : Bool) (now : Nat) (x : Channel) : Bool :=
  let base := match pairType w with
    | 1 => x.level
    | 2 => if isB then !x.level else x.level
    | 3 => x.sigValid
    | 4 => x.level || decide (now ≤ x.fall + pairBlank w)
    | _ => false
  if now < x.holdUntil ∧ (pairType w = 1 ∨ pairType w = 2) then x.holdVal else base

/-! ### Pair state machine (R264, R265) -/

/-- The rows of DEMAND (Table 13-2). -/
def SafePair.demandRows (a b restart : Bool) (x : SafePair) : SafePair :=
  if a && b then { x with st := if restart then 3 else 4, count := 0 }
  else if a != b then { x with st := 2, count := 1 }
  else { x with st := 1, count := 0 }

/-- Enter FAULT. -/
def SafePair.fault (x : SafePair) : SafePair := { x with st := 5, both := false, count := 0, faults := inc32 x.faults }

/-- One Crust cycle of a pair: permits, channel faults of both channels (test, cross, sig), accepted reset, and N of R265. -/
def SafePair.cycle (type : Nat) (restart : Bool) (n : Nat) (a b : Bool) (fa fb : Bool × Bool × Bool) (srst : Bool) (x : SafePair) : SafePair :=
  if type = 0 then { x with st := 0, count := 0, aPermit := false, bPermit := false } else
  let x := { x with aPermit := a, bPermit := b }
  let any (f : Bool × Bool × Bool) : Bool := f.1 || f.2.1 || f.2.2
  let chFault := any fa || any fb
  if x.st = 0 then { x with st := 1, count := 0 }
  else if chFault && decide (x.st ≠ 5) then
    { x.fault with
      test := x.test || fa.1 || fb.1, cross := x.cross || fa.2.1 || fb.2.1, sig := x.sig || fa.2.2 || fb.2.2
      aFault := any fa, bFault := any fb }
  else match x.st with
    | 1 => x.demandRows a b restart
    | 2 =>
      if !a && !b then { x with st := 1, count := 0 }
      else if a && b then x.demandRows a b restart
      else if x.count + 1 = n then { x.fault with disc := true, aFault := true, bFault := true }
      else { x with count := x.count + 1 }
    | 3 =>
      if !a && !b then { x with st := 1 }
      else if a != b then { x with st := 2, count := 1 }
      else if srst then { x with st := 4 } else x
    | 4 =>
      if !a && !b then { x with st := 1 }
      else if a != b then { x with st := 2, count := 1 } else x
    | _ =>
      let both := x.both || (!a && !b)
      if srst && both && !chFault then
        let y := { x with disc := false, sig := false, test := false, cross := false, aFault := false, bFault := false, both := false }
        if a && b then { y with st := 4 } else y.demandRows a b restart
      else { x with both := both }

/-- Pair status (Table 13-13). -/
def SafePair.status (x : SafePair) : Nat :=
  2048 * b2n x.cross + 1024 * b2n x.test + 512 * b2n x.sig + 256 * b2n x.disc + 128 * b2n x.bFault + 64 * b2n x.aFault
    + 32 * b2n x.bPermit + 16 * b2n x.aPermit + x.st

/-- A configuration or discrepancy time applied to a pair (R272). -/
def SafePair.configure (type : Nat) (x : SafePair) : SafePair :=
  if type = 0 then
    { x with st := 0, count := 0, disc := false, sig := false, test := false, cross := false, aFault := false, bFault := false, both := false }
  else if x.st = 5 then x else { x with st := 1, count := 0 }

/-! ### SRST (R273, R274) -/

/-- One sample of SRST, behind its 1 ms filter. -/
def Srst.sample (now : Nat) (raw : Bool) (x : Srst) : Srst :=
  let run := if raw == x.raw then min 1001 (x.run + 1) else 1
  let x := { x with raw := raw, run := run }
  if raw == x.level ∨ run < 1000 then x
  else if raw then { x with level := true, rise := now, pulse := decide (x.fall + 50000 ≤ now) }
  else
    let high := now - x.rise
    let x := { x with level := false, fall := now, lastHigh := if x.pulse || x.stuck then high / 1000 else x.lastHigh }
    if x.stuck then { x with stuck := false, pulse := false }
    else if !x.pulse then x
    else if high < 20000 then { x with pulse := false, short := inc32 x.short }
    else if high ≤ 2000000 then { x with pulse := false, accept := true }
    else { x with pulse := false }

/-- A high of more than 2 s (R274): whether SRST_STUCK becomes set. -/
def Srst.long (now : Nat) (x : Srst) : Srst × Bool :=
  if x.level && !x.stuck && decide (x.rise + 2000000 < now) then
    ({ x with stuck := true, pulse := false, stuckCount := inc32 x.stuckCount }, true)
  else (x, false)

/-! ### Angle and speed (R275, R276) -/

/-- One sample of a resolver's converters, ahead of its tracking loop (R260, R275): ref is the excitation's reference at the sample, n the samples of an
excitation period. -/
def CrustRes.sample (ref : Rat) (n : Nat) (sin cos : Int) (x : CrustRes) : CrustRes :=
  let full := if sin ≤ -32768 ∨ 32767 ≤ sin ∨ cos ≤ -32768 ∨ 32767 ≤ cos then min 2 (x.full + 1) else 0
  let w := (ref * (sin : Rat), ref * (cos : Rat)) :: x.window
  let x := { x with window := w, full := full, limit := x.limit || decide (full = 2) }
  if w.length < n then x else
  let k : Rat := 2 / (w.length : Rat)
  let s := k * sumR (w.map (·.1))
  let c := k * sumR (w.map (·.2))
  let e := (roundAway (atan2R s c / (2 * piR) * 65536) % 65536).toNat
  { x with window := [], sin := s, cos := c, elec := e, jump := max x.jump (sext 16 (ofInt 16 ((e : Int) - x.elec))).natAbs }

/-- One cycle of a machine's angle and speed, from the resolver that Crust resolver names; exc is its excitation frequency in Hz. -/
def CrustAxis.cycle (c : Store) (m exc : Nat) (r : CrustRes) (x : CrustAxis) : CrustAxis :=
  let pp := c.pv 0x9050 (3 + m)
  let ref : Rat := mkRat (c.pv 0x9050 5) 1000
  let amp := sqrtR (r.sin * r.sin + r.cos * r.cos) / 32768
  let d : Int := match x.elec with | some e => sext 16 (ofInt 16 ((r.elec : Int) - e)) | none => 0
  let moves := (d :: x.moves).take 10
  let implied : Rat := (r.jump : Rat) / 65536 * (exc : Rat) * 60 / (pp : Rat)
  let bad := decide (amp < ref / 2) || decide (3 / 2 * ref < amp) || r.limit || decide (c.pf 0x9050 6 < implied)
    || decide (c.pv 0x9050 (1 + m) = 0)
  let good := if bad then 0 else min 10 (x.good + 1)
  let valid := !bad && (x.valid || decide (10 ≤ good))
  let v : Rat := ((moves.foldl (· + ·) 0 : Int) : Rat) / 65536 * 600000 / (pp : Rat) / (moves.length : Rat)
  let excess (k : Nat) (was : Bool) : Bool :=
    let t := c.pf 0x9051 k
    if !valid then true else if was then decide (98 / 100 * t ≤ absR v) else decide (t < absR v)
  { moves := moves, elec := some r.elec, angle := r.elec / pp, speed := f32R v, valid := valid, good := good,
    overA := excess (2 * m + 1) x.overA, overB := excess (2 * m + 2) x.overB }

/-! ### The logic recipe (R279 to R281) -/

/-- What a recipe runs on: the read-only bits, flags, demands, timers, accumulator and stack. -/
structure CrustVm where
  input : Nat
  flags : Nat
  demands : Nat := 0
  timers : List CrustTimer
  acc : Bool := false
  stack : List Bool := []
  deriving DecidableEq, Repr

namespace CrustVm

/-- A bit of Table 13-3. -/
def get (v : CrustVm) (a : Nat) : Bool :=
  if a < 0x40 then a == 0x3F || bit v.input a
  else if a < 0x80 then bit v.flags (a - 0x40)
  else if a < 0x90 then bit v.demands (a - 0x80)
  else if a < 0xB0 then (nth v.timers (a - 0x90) {}).out
  else false

/-- Write a flag or a demand. -/
def put (v : CrustVm) (a : Nat) (b : Bool) : CrustVm :=
  if 0x40 ≤ a ∧ a < 0x80 then { v with flags := setBit v.flags (a - 0x40) b }
  else if 0x80 ≤ a ∧ a < 0x90 then { v with demands := setBit v.demands (a - 0x80) b }
  else v

/-- A timer step: TON counts the cycles of ACC 1, TOF those after it. -/
def timer (v : CrustVm) (a imm : Nat) (off : Bool) : CrustVm :=
  let k := a - 0x90
  let t := nth v.timers k {}
  let t := if off then
      if v.acc then { count := 0, out := true }
      else if t.out && decide (t.count < imm) then { count := t.count + 1, out := true } else { count := t.count, out := false }
    else if v.acc then { count := min imm (t.count + 1), out := decide (imm ≤ t.count + 1) } else { count := 0, out := false }
  { v with timers := upd v.timers k (fun _ => t), acc := t.out }

/-- One step (Table 13-4). -/
def step (v : CrustVm) (w : Nat) : CrustVm :=
  let a := bits w 23 16
  let x := v.get a
  match bits w 31 26 with
  | 0x01 => { v with acc := x }
  | 0x02 => { v with acc := !x }
  | 0x03 => { v with acc := v.acc && x }
  | 0x04 => { v with acc := v.acc && !x }
  | 0x05 => { v with acc := v.acc || x }
  | 0x06 => { v with acc := v.acc || !x }
  | 0x07 => { v with acc := v.acc != x }
  | 0x08 => { v with stack := v.acc :: v.stack }
  | 0x09 => { v with acc := v.stack.headD false && v.acc, stack := v.stack.tail }
  | 0x0A => { v with acc := v.stack.headD false || v.acc, stack := v.stack.tail }
  | 0x0B => v.put a v.acc
  | 0x0C => v.put a (!v.acc)
  | 0x0D => if v.acc then v.put a true else v
  | 0x0E => if v.acc then v.put a false else v
  | 0x0F => v.timer a (bits w 15 0) false
  | 0x10 => v.timer a (bits w 15 0) true
  | 0x11 => { (v.put a v.acc) with acc := v.acc && !x }
  | _ => v

/-- The steps up to the first END. -/
def run (v : CrustVm) : List Nat → CrustVm
  | [] => v
  | w :: l => if bits w 31 26 = 0x3F then v else (v.step w).run l

end CrustVm

/-- Whether an address may be read: not a reserved one. -/
def crustReadable (a : Nat) : Bool := decide (a < 0x2A) || decide (0x3F ≤ a ∧ a < 0xB0)
/-- Whether an address may be written. -/
def crustWritable (a : Nat) : Bool := decide (0x40 ≤ a ∧ a < 0x90)

/-- The stack depth traced to the first END: none on overflow or underflow. -/
def crustDepth : Nat → List Nat → Bool
  | _, [] => true
  | d, w :: l =>
    let op := bits w 31 26
    if op = 0x3F then true
    else if op = 0x08 then decide (d < 8) && crustDepth (d + 1) l
    else if op = 0x09 ∨ op = 0x0A then decide (0 < d) && crustDepth (d - 1) l
    else crustDepth d l

/-- The refusal conditions of a recipe image (R280). -/
def crustImageOk (bytes : List Byte) : Bool :=
  let img := imageWords bytes
  let n := nth img 1 0
  let steps := img.drop 4
  let timers := (steps.filter (fun w => bits w 31 26 == 0x0F || bits w 31 26 == 0x10)).map (fun w => bits w 23 16)
  decide (bytes.length = 4 * (4 + n)) && nth img 0 0 == 1 && decide (1 ≤ n ∧ n ≤ 1024) && nth img 2 0 == 0 && nth img 3 0 == 0
    && steps.all (fun w =>
      let op := bits w 31 26
      let a := bits w 23 16
      bits w 25 24 == 0 && (decide (op ≤ 0x11) || op == 0x3F)
        && (!(decide (1 ≤ op ∧ op ≤ 7)) || crustReadable a)
        && (!(decide (0x0B ≤ op ∧ op ≤ 0x0E)) || crustWritable a)
        && (op != 0x11 || decide (0x40 ≤ a ∧ a < 0x80))
        && (!(op == 0x0F || op == 0x10) || (decide (0x90 ≤ a ∧ a < 0xB0) && bits w 15 0 != 0)))
    && timers.eraseDups.length == timers.length && crustDepth 0 steps

/-- The fixed program of R281. -/
def crustFixed (c : Store) (pairs : List SafePair) (input12 : Bool) : Nat :=
  let d0 := (List.range 8).any (fun p => pairType (pairCfg c p) != 0 && (nth pairs p {}).st != 4)
  let d1 := pairs.any (fun x => x.st == 5) || input12
  b2n d0 + 2 * b2n d1

/-! ### Demands (R282, R283) -/

/-- A reaction word (Table 13-7). -/
def reaction (c : Store) (k : Nat) : Nat := c.pv 0x9040 (k + 1)

/-- The combination of the demands in force: groups tripped, groups with the pattern inhibited, discharge, BEDROCK, safe-off mode (0 none),
and the torque limits of both machines. -/
structure Reaction where
  trip : Nat := 0
  inhibit : Nat := 0
  discharge : Bool := false
  bedrock : Bool := false
  soff : Nat := 0
  soffTrip : Nat := 0
  tlim : List (Option Rat) := [none, none]
  deriving DecidableEq, Repr

/-- The lower of two optional limits. -/
def lowerOf (a b : Option Rat) : Option Rat :=
  match a, b with
  | some x, some y => some (minR x y)
  | none, y => y
  | x, none => x

/-- One demand's reaction added to the others (R282). -/
def Reaction.add (c : Store) (w : Nat) (r : Reaction) : Reaction :=
  let lim (m f : Nat) : Option Rat := if f = 1 ∨ f = 2 then some (c.pf 0x9041 (2 * m + f)) else none
  let soff := bits w 28 27
  { trip := r.trip ||| bits w 3 0, inhibit := if bit w 26 then r.inhibit ||| bits w 3 0 else r.inhibit,
    discharge := r.discharge || bit w 29, bedrock := r.bedrock || bit w 30,
    soff := if soff = 0 then r.soff else if r.soff = 0 then soff else min r.soff soff,
    soffTrip := if soff = 2 then r.soffTrip ||| (bits w 3 0 % 4) else r.soffTrip,
    tlim := [lowerOf (nth r.tlim 0 none) (lim 0 (bits w 21 20)), lowerOf (nth r.tlim 1 none) (lim 1 (bits w 23 22))] }

/-- The reactions of the demands in force. -/
def reactions (c : Store) (demand : Nat) : Reaction :=
  (bitsSet 16 demand).foldl (fun r k => r.add c (reaction c k)) {}

/-- Latch and reset (R283): the latches, the demands in force, and whether the reset was refused. -/
def latchReset (c : Store) (bits_ latched : Nat) (srst : Bool) : Nat × Nat × Bool :=
  let l := (List.range 16).map (fun k =>
    let b := bit bits_ k
    let was := bit latched k
    (if b then was || bit (reaction c k) 31 else was && !srst, b && was && srst))
  let lat := ofBits (l.map (·.1))
  (lat, bits_ ||| lat, l.any (·.2))

/-! ### Safe-off (R284 to R287) -/

namespace SafeOff

/-- Command both switches; a change notes its time. -/
def command (now : Nat) (h l : Bool) (s : SafeOff) : SafeOff :=
  { s with
    hCmd := h, lCmd := l, hSince := if h == s.hCmd then s.hSince else now, lSince := if l == s.lCmd then s.lSince else now
    bothOnFrom := if h && l then (if s.hCmd && s.lCmd then s.bothOnFrom else some now) else s.bothOnFrom }

/-- The commands of a demand-register write: off under a mode in effect, else on while the test has passed. mode2 says that R284's condition
for mode 2 holds. -/
def write (now : Nat) (maxWait mode : Nat) (mode2 : Bool) (s : SafeOff) : SafeOff :=
  if s.test.isSome then { s with waitFrom := if mode = 0 then none else s.waitFrom } else
  if mode = 1 then { s with pulse := none, waitFrom := none, released := true }.command now false false
  else if mode = 2 then
    let w := s.waitFrom.getD now
    let off := s.released || mode2 || decide (w + maxWait ≤ now)
    let s := { s with waitFrom := some w }
    if off && s.pulse.isNone then { s with released := true }.command now false false else s
  else
    let s := { s with waitFrom := none, released := false }
    match s.pulse with
    | some low => if s.testPass then s.command now low (!low) else s
    | none => s.command now s.testPass s.testPass

/-- The end of mode 2's maximum wait. -/
def maxWaitEnd (now maxWait : Nat) (s : SafeOff) : SafeOff :=
  match s.waitFrom with
  | none => s
  | some w => if w + maxWait ≤ now && s.pulse.isNone then { s with released := true }.command now false false else s

/-- The readbacks compared with the commands in a cycle (R285): new stuck-on findings are answered. -/
def compare (now rb : Nat) (s : SafeOff) : SafeOff × Bool :=
  if s.test.isSome then (s, false) else
  let one (cmd rbk : Bool) (since n : Nat) (pulsed : Bool) : Nat :=
    if pulsed || decide (now < since + rb) then 0 else if cmd != rbk then min 3 (n + 1) else 0
  let hb := one s.hCmd s.rbh s.hSince s.hBad (s.pulse == some false)
  let lb := one s.lCmd s.rbl s.lSince s.lBad (s.pulse == some true)
  let hs := s.hStuck || (decide (hb = 3) && !s.hCmd)
  let ls := s.lStuck || (decide (lb = 3) && !s.lCmd)
  ({ s with
      hBad := hb, lBad := lb, hStuck := hs, lStuck := ls
      hNoOn := if s.hCmd == s.rbh then false else s.hNoOn || (decide (hb = 3) && s.hCmd)
      lNoOn := if s.lCmd == s.rbl then false else s.lNoOn || (decide (lb = 3) && s.lCmd) },
    (hs && !s.hStuck) || (ls && !s.lStuck))

/-- The readback the test expects in a step (Table 13-6): (high, low). -/
def expected (k : Nat) : Bool × Bool := (k == 2 || k == 4, k == 3 || k == 4)

/-- A readback sample: the test's last 1 ms and an off-pulse's fall. -/
def sample (now rb : Nat) (h l : Bool) (s : SafeOff) : SafeOff :=
  let s := { s with rbh := h, rbl := l }
  let s := match s.test with
    | some k => if s.testFrom + 1000 ≤ now then { s with testBad := s.testBad || (h, l) != expected k } else s
    | none => s
  match s.pulse with
  | some low => if now ≤ s.pulseFrom + rb && !(if low then l else h) then { s with pulseFell := true } else s
  | none => s

/-- Start the readback test (R286). -/
def testStart (now : Nat) (s : SafeOff) : SafeOff :=
  { s with test := some 1, testFrom := now, testBad := false, testPass := false, testFail := false, pulse := none }.command now false false

/-- The end of a step: the next step, the pass, or the failure. -/
def testStep (now : Nat) (s : SafeOff) : SafeOff :=
  match s.test with
  | none => s
  | some k =>
    if now < s.testFrom + 1940 then s
    else if s.testBad then { s with test := none, testFail := true }.command now false false
    else if k = 4 then { s with test := none, testPass := true }
    else
      let e := expected (k + 1)
      { s with test := some (k + 1), testFrom := now, testBad := false }.command now e.1 e.2

/-- The start of an off-pulse (R287): period in seconds. -/
def pulseStart (now period : Nat) (s : SafeOff) : SafeOff :=
  match s.bothOnFrom with
  | none => s
  | some t =>
    if s.hCmd && s.lCmd && s.pulse.isNone && s.test.isNone && decide (t + period * 970000 ≤ now) then
      let low := s.nextLow
      { s with pulse := some low, pulseFrom := now, pulseFell := false }.command now low (!low)
    else s

/-- The end of an off-pulse: its readback is judged, and the switch is turned on again. Answers whether it passed and whether the switch is
newly found stuck on. -/
def pulseEnd (now width : Nat) (s : SafeOff) : SafeOff × Bool × Bool :=
  match s.pulse with
  | none => (s, false, false)
  | some low =>
    if now < s.pulseFrom + width * 97 / 100 then (s, false, false) else
    let ok := s.pulseFell
    let fresh := !ok && !(if low then s.lStuck else s.hStuck)
    let s := { s with
      pulse := none, nextLow := !low, pulses := inc32 s.pulses,
      hStuck := if low then s.hStuck else !ok, lStuck := if low then !ok else s.lStuck }
    (s.command now true true, ok, fresh)

/-- Safe-off status (Table 13-8). -/
def status (s : SafeOff) : Nat :=
  512 * b2n s.lStuck + 256 * b2n s.hStuck + 128 * b2n s.lNoOn + 64 * b2n s.hNoOn + 32 * b2n s.testFail + 16 * b2n s.testPass
    + 8 * b2n s.rbl + 4 * b2n s.rbh + 2 * b2n s.lCmd + b2n s.hCmd

end SafeOff

/-! ### Samples and cycles -/

namespace CrustState

/-- One 1 µs sample of every input ball (R261): sin is a word whose bit 2p + 1 is channel B of pair p and bit 2p channel A. -/
def sample (c : Store) (sin : Nat) (srst rbh rbl : Bool) (s : CrustState) : CrustState :=
  let now := s.usec + 1
  let ch := s.ch.mapIdx (fun i x => x.sample c (pairCfg c (i / 2)) (i % 2 == 1) now s.tpFrom (bit sin i))
  -- windows of the test pulses that end now (R270)
  let ends := (List.range 4).filter (fun n => match nth s.tpFrom n none with
    | some t => t + tpWidth c + tpLag c == now
    | none => false)
  let ch := ends.foldl (fun ch n => ch.mapIdx (fun i x => Channel.windowEnd (pairCfg c (i / 2)) (i % 2 == 1) n x)) ch
  -- coincident short lows of PULSE pairs (R268), judged when the later of the two ends
  let pairs : List SafePair := s.pairs.mapIdx (fun p (x : SafePair) =>
    if pairType (pairCfg c p) ≠ 4 then x else
    let a := nth ch (2 * p) {}
    let b := nth ch (2 * p + 1) {}
    let ended (y z : Channel) : Bool := y.rise == now && z.level
    if (ended a b || ended b a) then
      let excess := decide (max a.lowFrom b.lowFrom + 1 ≤ min a.lowTo b.lowTo) && a.shortLow && b.shortLow
      { x with overlaps := if excess then min 2 (x.overlaps + 1) else 0 }
    else x)
  { s with
    usec := now, ch := ch, pairs := pairs, srst := s.srst.sample now srst, soff := s.soff.sample now (c.pv 0x9030 4) rbh rbl
    tpFrom := s.tpFrom.mapIdx (fun n t => if ends.contains n then none else t) }

/-- Whether a source's pulse starts now (R269): n quarters of the test period into it. -/
def testPulseDue (c : Store) (n : Nat) (s : CrustState) : Bool :=
  let p := 1000 * c.pv 0x9020 1
  tpMode c n == 1 && (s.usec - s.tpOrigin) % p == n * p / 4

/-- The start of a test pulse (R269). -/
def testPulse (c : Store) (n : Nat) (s : CrustState) : CrustState :=
  if !s.testPulseDue c n then s else
  let now := s.usec
  { s with
    tpFrom := upd s.tpFrom n (fun _ => some now)
    ch := s.ch.mapIdx (fun i x =>
      let w := pairCfg c (i / 2)
      x.pulseStart w (i % 2 == 1) n now (tpWidth c + tpLag c) (x.permit w (i % 2 == 1) now)) }

/-- The permit and fault bits of a channel at a boundary: (test, cross, sig). -/
def channelFault (c : Store) (i : Nat) (s : CrustState) : Bool × Bool × Bool :=
  let w := pairCfg c (i / 2)
  let x := nth s.ch i {}
  let tested := pairType w == 1 || (pairType w == 2 && i % 2 == 0)
  (tested && decide (2 ≤ x.missed),
    (tested && x.crossed.any (fun k => decide (2 ≤ k))) || (pairType w == 4 && decide (2 ≤ (nth s.pairs (i / 2) {}).overlaps)),
    pairType w == 3 && x.sig)

/-- What a cycle reads from the rest of the device: the state is RUN, SERVICE, BEDROCK; GATE_M0 and GATE_M1 not ARMED; the groups' pattern
is freewheel; the hard-limit states of R298 hold. -/
structure CycleEnv where
  run : Bool := false
  service : Bool := false
  bedrock : Bool := false
  notArmed0 : Bool := false
  notArmed1 : Bool := false
  free0 : Bool := false
  free1 : Bool := false
  hard : Bool := false
  deriving DecidableEq, Repr

/-- The input bits of Table 13-3. -/
def inputs (e : CycleEnv) (srst : Bool) (s : CrustState) : Nat :=
  let ax (m : Nat) : CrustAxis := nth s.axis m {}
  ofBits (s.pairs.map (fun p => p.st == 4) ++ s.pairs.map (fun p => p.st == 5)
    ++ [srst, s.srst.stuck, s.soff.status / 32 % 32 != 0, s.laneWd, s.hearthWd, s.voteBedrock, s.supplyFault, s.clockFault,
        (ax 0).valid, (ax 1).valid, (ax 0).overA, (ax 0).overB, (ax 1).overA, (ax 1).overB, e.run, e.service]
    ++ (List.range 8).map (fun k => !e.bedrock && bit s.hostReq k) ++ [e.notArmed0, e.notArmed1])
    + 2 ^ 63

/-- Whether mode 2 may cut the supply: every traction group the demand trips is slow or freewheels (R284). -/
def mode2Ok (c : Store) (e : CycleEnv) (trip : Nat) (s : CrustState) : Bool :=
  let slow (m : Nat) : Bool :=
    let x := nth s.axis m {}
    x.valid && decide (absR x.speed < c.pf (0x5050 + m) 2 - c.pf (0x5050 + m) 3)
  (!bit trip 0 || slow 0 || e.free0) && (!bit trip 1 || slow 1 || e.free1)

/-- One Crust cycle (R262): pairs, recipe, latch and reset, demand register. Before it is armed, Crust forms angle and speed and judges the safe-off
readbacks, and neither evaluates a pair nor runs the recipe. A Crust fault holds safe-off mode 1 (R294), and the hard-limit states hold both
switches off (R298). Answers the state, the reactions written, and whether a safe-off switch is newly found stuck on. -/
def cycle (c : Store) (e : CycleEnv) (s : CrustState) : CrustState × Reaction × Bool :=
  let now := s.usec
  let srst := s.srst.accept
  let s : CrustState := { s with
    srst := if srst then { s.srst with accept := false, accepted := inc32 s.srst.accepted } else s.srst
    ch := s.ch.mapIdx (fun i (x : Channel) =>
      let w := pairCfg c (i / 2)
      if pairType w = 3 then x.loopIdle c (pairSource w (i % 2 == 1)) now else x)
    axis := s.axis.mapIdx (fun m (x : CrustAxis) =>
      let n := c.pv 0x9050 (1 + m) - 1
      x.cycle c m (c.u (0x6100 + 0x10 * n) 1) (nth s.res n {}))
    res := s.res.map (fun (x : CrustRes) => { x with jump := 0, limit := decide (x.full = 2) }) }
  let (soff, stuck) := s.soff.compare now (c.pv 0x9030 4)
  let pairs : List SafePair := if !s.armed then s.pairs else s.pairs.mapIdx (fun p (x : SafePair) =>
    let w := pairCfg c p
    let per (b : Bool) : Bool := (nth s.ch (2 * p + b2n b) {}).permit w b now
    x.cycle (pairType w) (pairRestart w) (10 * c.pv 0x9011 (p + 1)) (per false) (per true)
      (s.channelFault c (2 * p)) (s.channelFault c (2 * p + 1)) srst)
  -- a pair that has left FAULT starts its channel findings anew
  let left (p : Nat) : Bool := (nth s.pairs p {}).st == 5 && (nth pairs p {}).st != 5
  let s : CrustState := { s with
    soff := soff, pairs := pairs.mapIdx (fun p (x : SafePair) => if left p then { x with overlaps := 0 } else x)
    ch := s.ch.mapIdx (fun i (x : Channel) => if left (i / 2) then { x with sig := false, missed := 0, crossed := [0, 0, 0, 0] } else x) }
  let inp := s.inputs e srst
  let img := imageWords (c.blob (objKey 0xC600 1))
  let vm := ({ input := inp, flags := s.flags, timers := s.timers } : CrustVm).run (img.drop 4)
  let loaded := decide (c.u 0xC600 2 ≠ 0)
  let b := if !s.armed then 0 else if loaded then vm.demands else crustFixed c s.pairs (bit inp 0x12)
  let (lat, dem, refused) := latchReset c b s.latched srst
  let r := reactions c dem
  let fixed := (s.laneWd && !e.bedrock) || s.soff.hNoOn || s.soff.lNoOn
  let r := { r with trip := if fixed then r.trip ||| 3 else r.trip }
  let mode := if s.supplyFault || s.clockFault || s.paramFault || e.hard then 1 else r.soff
  let soff := s.soff.write now (c.pv 0x9030 5 * 1000) mode (s.mode2Ok c e r.soffTrip)
  ({ s with
      input := inp, flags := if loaded && s.armed then vm.flags else s.flags, timers := if loaded && s.armed then vm.timers else s.timers
      bits := b, demand := dem, latched := lat, refusedResets := if refused then inc32 s.refusedResets else s.refusedResets
      soff := soff, tlim := r.tlim }, r, stuck)

/-- Crust arms: it evaluates from READY or BEDROCK entry on, and the heartbeats are expected from there (R277, R278). -/
def arm (now : Nat) (s : CrustState) : CrustState := if s.armed then s else { s with armed := true, voteAt := some now }

/-- LANE_WATCHDOG_EXPIRY (R277): the vote heartbeat is missing for 2 M0 periods and 200 µs of Crust time. -/
def laneLate (now period : Nat) (s : CrustState) : Bool :=
  match s.voteAt with
  | some t => decide (t * 100 + (2 * period + 40000) * 97 < now * 100)
  | none => false

/-- The Hearth heartbeat is missing for 27 Crust cycles (R278). -/
def hearthLate (now : Nat) (s : CrustState) : Bool := match s.hearthAt with | some t => decide (t + 523800 < now) | none => true

/-- HEARTH_WATCHDOG_EXPIRY (R278): the gate closes. -/
def hearthExpire (s : CrustState) : CrustState :=
  { s with gateClosed := true, gateRamp := none, hearthWd := true, hearthFlag := true, hearthExpiries := inc32 s.hearthExpiries, onTime := 0 }

/-- HEARTH_GATE_REOPEN (R278): 64 heartbeats on time open the gate with its ramp. -/
def hearthReopen (now : Nat) (s : CrustState) : CrustState :=
  if s.gateClosed && decide (64 ≤ s.onTime) then { s with gateClosed := false, gateRamp := some now, hearthWd := false } else s

/-- A recipe that applies: flags and timers are cleared (R279). -/
def loadRecipe (s : CrustState) : CrustState := { s with flags := 0, timers := List.replicate 32 {} }

/-- The Hearth gate's factor at a time: 0 closed, ramping to 1 over 10 ms (R278). -/
def gate (now : Nat) (s : CrustState) : Rat :=
  if s.gateClosed then 0 else match s.gateRamp with
  | some t => minR 1 (mkRat (now - t) 2000000)
  | none => 1

/-- A Hearth heartbeat (R186, R278): 27 cycles of 100 µs are 540 000 ticks. -/
def hearthBeat (now : Nat) (s : CrustState) : CrustState :=
  let onTime := match s.hearthAt with | some t => decide (now ≤ t + 540000) | none => true
  { s with hearthAt := some now, onTime := if onTime then min 64 (s.onTime + 1) else 1 }

/-- The Bedrock tone in a Crust cycle (R288): whether it may sound, and its 10 ms fade. -/
def tone (c : Store) (bedrock blocked : Bool) (s : CrustState) : CrustState :=
  let x := nth s.axis (c.pv 0x9060 6) {}
  let on := bedrock && c.pv 0x9060 1 == 1 && (!x.valid || decide (absR x.speed ≤ c.pf 0x9060 7)) && !blocked
  { s with
    toneOn := on, toneFade := if blocked then 0 else if on then min 100 (s.toneFade + 1) else s.toneFade - 1
    toneFrom := if on && s.toneFade == 0 then s.usec else s.toneFrom, toneHi := if s.toneFade = 0 then false else s.toneHi }

/-- The alternation of the tone (R288). -/
def toneAlternate (c : Store) (s : CrustState) : CrustState :=
  if s.toneOn && c.pv 0x9060 3 != 0 && decide (s.toneFrom + c.pv 0x9060 4 * 970 ≤ s.usec) then { s with toneHi := !s.toneHi, toneFrom := s.usec }
  else s

/-- Crust status (Table 13-11). -/
def status (c : Store) (now : Nat) (crustDischarge : Bool) (s : CrustState) : Nat :=
  2048 * b2n s.paramFault + 1024 * b2n s.clockFault + 512 * b2n s.supplyFault + 256 * b2n (decide (s.gate now < 1)) + 128 * b2n s.hearthFlag
    + 64 * b2n s.laneWd + 32 * b2n (decide (c.u 0xC600 2 ≠ 0)) + 16 * b2n (decide (0 < s.toneFade)) + 8 * b2n (s.tlim.any Option.isSome)
    + 4 * b2n crustDischarge + 2 * b2n (decide ((reactions c s.demand).soff ≠ 0)) + b2n s.armed

end CrustState

end Sys2Proof.Machine
end

