-- ==== Sys2Proof/Machine/Signal.lean ====
section
/-! DEFINITION. What a block reports to the rest of the device while it works: the signals that the shared operations of
Machine/Ops.lean turn into standing faults (chapter 14), event-log records (chapter 20), trips (chapter 07) and BEDROCK. -/

namespace Sys2Proof.Machine

/-- A report of one block. -/
inductive Signal where
  /-- A single fault of Table 14-1: its code, the group code of Table 14-8 (0 for none, 0x20 for the lanes) and its detail. -/
  | fault (code group detail : Nat)
  /-- A second fault of a group by R293, without a code of its own. -/
  | second (group : Nat)
  /-- A Bedrock cause of 0x2300.06. -/
  | bedrock (cause : Nat)
  /-- A standing group's redundancy is restored (R292): the bit of Table 14-8. -/
  | restored (bit : Nat)
  deriving DecidableEq, Repr

end Sys2Proof.Machine
end

