-- ==== Sys2Proof/Machine/TypesSense.lean ====
section
/-! DEFINITION. State of the Sifter and the position front ends (chapter 03). -/

namespace Sys2Proof.Machine

/-- One main path SD0 to SD31: its latest value r in Q1.23 (R50), whether that is a valid sample (R49), the counter value of its window centre (R53), its
checks of the latest window (Table 3-6), and, after a restore, the count of passing updates (R61). diff counts consecutive differences from the shared
median (R62). -/
structure SdPath where
  r : Int := 0
  valid : Bool := false
  failed : Bool := false
  clip : Bool := false
  stuck : Bool := false
  disagree : Bool := false
  th1 : Bool := false
  th2 : Bool := false
  restoring : Option Nat := none
  diff : Nat := 0
  time : Nat := 0
  deriving DecidableEq, Repr

/-- One fast path SD0 to SD23 and its comparator (R54): consecutive exceeding outputs and the exceeded state of TH1 and TH2,
and whether the path trips alone (R55). peak is the largest doubled magnitude |2 f − 2 OFS| since the machine's latest Trough (R158). -/
structure FastPath where
  cnt1 : Nat := 0
  cnt2 : Nat := 0
  ex1 : Bool := false
  ex2 : Bool := false
  alone : Bool := false
  peak : Nat := 0
  deriving DecidableEq, Repr

/-- One redundant pair: HB0 to HB11, then the DC links of M0 and M1 (R57 to R62). next is the path that the next update makes active (R58), true for
path B. -/
structure PathPair where
  bActive : Bool := false
  next : Option Bool := none
  disCount : Nat := 0
  ambig : Bool := false
  ambigCount : Nat := 0
  ambigFault : Bool := false
  deriving DecidableEq, Repr

/-- The DC-link voltage in use of a machine: single precision, and whether the link has no valid path (R63). -/
structure DcLink where
  volts : Nat := 0
  lost : Bool := false
  deriving DecidableEq, Repr

/-- A resolver front end (R65 to R67): the demodulated samples of the latest excitation period, newest first; the tracking loop's angle in turns and its
16-bit reading; speed and amplitude of the latest loop step; its checks, and since when each timed condition has held. -/
structure Resolver where
  window : List (Rat × Rat) := []
  theta : Rat := 0
  angle : Nat := 0
  speed : Rat := 0
  amplitude : Nat := 0
  stepTime : Nat := 0
  los : Bool := false
  dos : Bool := false
  lot : Bool := false
  sat : Bool := false
  plaus : Bool := false
  losSince : Option Nat := none
  dosSince : Option Nat := none
  lotSince : Option Nat := none
  satCount : Nat := 0
  deriving DecidableEq, Repr

/-- An encoder front end (R69, R70). latched is the 32-bit count at the latest window centre, moved the edges counted since; edges holds the time of the
latest change of A, B and Z that passed the glitch filter. ssiSince is the start of the read in progress, ssiFree the end of the monoflop time. -/
structure Encoder where
  count : Nat := 0
  latched : Nat := 0
  moved : Int := 0
  edges : List (Option Nat) := [none, none, none]
  lastEdge : Nat := 0
  latchedEdge : Nat := 0
  speed : Rat := 0
  a : Bool := false
  b : Bool := false
  z : Bool := false
  aberr : Bool := false
  zerr : Bool := false
  ssierr : Bool := false
  invalid : Bool := false
  ssiErrs : Nat := 0
  ssiPos : Nat := 0
  ssiTime : Nat := 0
  ssiSeen : Bool := false
  ssiSince : Option Nat := none
  ssiFree : Nat := 0
  deriving DecidableEq, Repr

/-- The position of a machine (R71, R72): the source in use by the codes of 0x6300.04, whether the configured source is out until it is selected again,
which of RES0, RES1, ENC0 and ENC1 have been invalid since the machine last selected them, the injection observer and since when it runs, the held
torque limit, the angle and speed latched for the lanes (mechanical turns, turns per second), the states of the back-EMF and of the injection observer
(free but for the inputs they take: R90, R91), and the observer-error count of fault 0x0A. -/
structure PosSel where
  inUse : Nat := 0
  lost : Bool := false
  bad : List Bool := [false, false, false, false]
  injRunning : Bool := false
  injSince : Nat := 0
  injConverged : Bool := false
  emf : List Rat := []
  track : List Rat := []
  held : Option Rat := none
  angle : Rat := 0
  speed : Rat := 0
  time : Nat := 0
  obsErrCount : Nat := 0
  obsFaulted : Bool := false
  goodCount : Nat := 0
  deriving DecidableEq, Repr

/-- The decimation chain of one MIC channel (R64): the three integrators and the three comb delays of the sinc3 stage, the count of bits into its
decimation, the latest inputs of the half-band filter and of the droop filter, newest first, the run of identical bits, and its latest bit. -/
structure MicChain where
  acc : List Int := [0, 0, 0]
  comb : List Int := [0, 0, 0]
  phase : Nat := 0
  half : List Int := []
  droop : List Int := []
  run : Nat := 0
  last : Bool := false
  deriving DecidableEq, Repr

/-- The Sifter and the position front ends. iEdge and vEdge are counter values at which SDCLK0 to SDCLK2 and SDCLK3 have a rising edge (R47). iChanged, vChanged and fChanged are the counter values of the latest change of the
current clock, the group 3 clock and the fast-path filter (R49). zeros lists the offsets that the zero check put into the active scaling, by key
(R417). -/
structure SenseState where
  paths : List SdPath := List.replicate 32 {}
  fast : List FastPath := List.replicate 24 {}
  pairs : List PathPair := List.replicate 14 {}
  dc : List DcLink := List.replicate 2 {}
  switches : Nat := 0
  iEdge : Nat := 0
  vEdge : Nat := 0
  iChanged : Option Nat := none
  vChanged : Option Nat := none
  fChanged : Option Nat := none
  mics : List MicChain := List.replicate 8 {}
  micClip : List Bool := List.replicate 8 false
  micStuck : List Bool := List.replicate 8 false
  res : List Resolver := List.replicate 2 {}
  enc : List Encoder := List.replicate 2 {}
  pos : List PosSel := List.replicate 2 {}
  zeros : List (Nat × Nat) := []
  deriving DecidableEq, Repr

end Sys2Proof.Machine
end

