-- ==== Sys2Proof/Machine/Sense.lean ====
section
/-! DEFINITION. The Sifter's arithmetic and checks (chapter 03): main paths, fast paths, redundant pairs, DC links, resolver and
encoder front ends. The functions act on the chapter's own state and report through signals. -/

namespace Sys2Proof.Machine

/-- What one main-path window delivers: the channel, the sinc3 sum of ones S, the ones in the window, and the length of the
longest run of identical bits that ends inside it (R50, Table 3-2). -/
structure PathWindow where
  sd : Nat
  sum : Nat
  ones : Nat
  run : Nat
  deriving DecidableEq, Repr

/-! ### Clocks and scaling -/

/-- The divider of a channel's modulator clock: M_I of SDG0 to SDG2, M_V of SDG3 (R47). -/
def sdDivider (c : Store) (sd : Nat) : Nat := if sd < 24 then c.u 0x6400 1 else c.u 0x6400 2

/-- The main-path decimation of a channel: D_I, D_U or D_S (R50). -/
def sdDecimation (c : Store) (sd : Nat) : Nat :=
  if sd < 24 then c.u 0x6400 7 else if sd < 28 then c.u 0x6400 8 else c.u 0x6400 9

/-- r = 2 S / D^3 − 1 in Q1.23, the largest output saturated to 1 − 2^−23 (R50). -/
def sdValue (d sum : Nat) : Int :=
  if d = 0 then 0 else toQ 24 23 (mkRat (2 * sum) (d ^ 3) - 1)

/-- A channel's gain of the Starter set, A or V (entries 1 to 24 and 49 to 56 of Table 20-2). -/
def sdGain (c : Store) (sd : Nat) : Rat := if sd < 24 then c.pf 0xB410 (sd + 1) else c.pf 0xB412 (sd - 23)

/-- A channel's offset of the Starter set, a fraction of full scale. -/
def sdOffset (c : Store) (sd : Nat) : Rat := if sd < 24 then c.pf 0xB411 (sd + 1) else c.pf 0xB413 (sd - 23)

/-- The physical value of a reading: (r − r0) × G. -/
def sdPhys (c : Store) (sd : Nat) (r : Int) : Rat := (ofQ 23 r - sdOffset c sd) * sdGain c sd

/-- Bit n of a channel's configuration (Table 3-5). -/
def sdCfg (c : Store) (sd : Nat) : Nat := c.u 0x6410 (sd + 1)

/-- Channel enabled (Table 3-5, EN). -/
def sdEnabled (c : Store) (sd : Nat) : Bool := bit (sdCfg c sd) 0

/-- Clip check: ones density over the window outside the CLIP_LVL band (Table 3-2). -/
def sdClipped (c : Store) (sd ones bitsInWindow : Nat) : Bool :=
  let d := mkRat ones bitsInWindow
  match bits (sdCfg c sd) 11 10 with
  | 0 => decide (d < 2/100 ∨ 98/100 < d)
  | 1 => decide (d < 5/100 ∨ 95/100 < d)
  | _ => false

/-- Current base I_b of a machine: the gain of path A of its first half-bridge (R73). -/
def iBase (c : Store) (m : Nat) : Rat := sdGain c (6 * m)

/-- Voltage base V_b of a machine: nominal DC-link voltage / √3 (R73). -/
def vBase (c : Store) (m : Nat) : Rat := c.f (0x3010 + 0x1000 * m) 9 / sqrtR 3

/-- M1's or M0's phase count (0x3010.01). -/
def phaseCount (c : Store) (m : Nat) : Nat := c.u (0x3010 + 0x1000 * m) 1

/-! ### Pairs -/

/-- The channels of a pair: HB n has SDn and SD(12+n); the DC links have SD24, SD25 and SD26, SD27 (Table 3-1). -/
def pairA (p : Nat) : Nat := if p < 12 then p else 24 + 2 * (p - 12)
/-- Path B of a pair. -/
def pairB (p : Nat) : Nat := if p < 12 then p + 12 else 25 + 2 * (p - 12)
/-- The pair of a windowed channel. -/
def pairOfSd (sd : Nat) : Nat := if sd < 12 then sd else if sd < 24 then sd - 12 else 12 + (sd - 24) / 2
/-- The group code of a pair's faults: CURRENT n or DCLINK m (Table 14-8). -/
def pairGroup (p : Nat) : Nat := if p < 12 then p + 1 else p - 12 + 14
/-- The fault code of a pair's path: 0x04 or 0x07. -/
def pairCode (p : Nat) : Nat := if p < 12 then 0x04 else 0x07

namespace SenseState

/-- One main path. -/
def path (s : SenseState) (sd : Nat) : SdPath := nth s.paths sd {}
/-- One pair. -/
def pair (s : SenseState) (p : Nat) : PathPair := nth s.pairs p {}
/-- The active channel of a pair. -/
def activeSd (s : SenseState) (p : Nat) : Nat := if (s.pair p).bActive then pairB p else pairA p
/-- Replace one path. -/
def setPath (s : SenseState) (sd : Nat) (f : SdPath → SdPath) : SenseState := { s with paths := upd s.paths sd f }
/-- Replace one pair. -/
def setPair (s : SenseState) (p : Nat) (f : PathPair → PathPair) : SenseState := { s with pairs := upd s.pairs p f }

/-- A path usable by the lanes: neither failed nor still counting after a restore (R61). -/
def usable (s : SenseState) (sd : Nat) : Bool := !(s.path sd).failed && (s.path sd).restoring.isNone

/-- Failed paths (0x6020.04). -/
def failedWord (s : SenseState) : Nat := ofBits ((List.range 28).map (fun n => (s.path n).failed))
/-- Active paths (0x6020.03). -/
def activeWord (s : SenseState) : Nat := ofBits (s.pairs.map (·.bActive))

/-- Channel status of an SD channel (Table 3-6). -/
def sdStatus (s : SenseState) (sd : Nat) : Nat :=
  let x := s.path sd
  let p := pairOfSd sd
  let inPair := decide (sd < 28)
  b2n x.th1 + 2 * b2n x.th2 + 4 * b2n x.stuck + 8 * b2n x.clip + 16 * b2n x.disagree
    + 32 * b2n (inPair && (s.pair p).ambig) + 64 * b2n (inPair && s.activeSd p == sd) + 128 * b2n x.failed

/-- Every sample of the channels that a test names marked invalid (R49). -/
def invalidate (s : SenseState) (sel : Nat → Bool) : SenseState :=
  { s with paths := s.paths.mapIdx (fun sd (p : SdPath) => if sel sd then { p with valid := false } else p) }

/-- Switch the active path of a pair and count the switch (0x6020.05); none while SIFTER stands (code 0x06). -/
def switchTo (s : SenseState) (hold : Bool) (p : Nat) (b : Bool) : SenseState :=
  if hold || (s.pair p).bActive == b then s
  else { s.setPair p (fun x => { x with bActive := b }) with switches := inc32 s.switches }

/-- The path that R58 named becomes active at the next update of its pair. -/
def takeNext (s : SenseState) (hold : Bool) (p : Nat) : SenseState :=
  match (s.pair p).next with
  | none => s
  | some b => (s.setPair p (fun x => { x with next := none })).switchTo hold p b

/-- Mark a path failed and, where it was active and its partner is usable, move to the partner: at once for a check of the path's own (R57), at the
next update for a comparison (R58, later). A path that had been restored but was not yet eligible is marked failed again without a new fault (R61). -/
def markFailed (s : SenseState) (hold later : Bool) (p sd : Nat) : SenseState × List Signal :=
  let was := s.path sd
  if was.failed then (s, []) else
  let sig := if was.restoring.isSome then [] else [Signal.fault (pairCode p) (pairGroup p) sd]
  let s := s.setPath sd (fun x => { x with failed := true, restoring := none, diff := 0 })
  let partner := if sd = pairA p then pairB p else pairA p
  let b := partner == pairB p
  let s := if s.activeSd p == sd && s.usable partner then (if later then s.setPair p (fun x => { x with next := some b }) else s.switchTo hold p b) else s
  (s, sig)

end SenseState

/-- The current of a path in A. -/
def sdAmps (c : Store) (s : SenseState) (sd : Nat) : Rat := sdPhys c sd (s.path sd).r

/-- The other half-bridges of the star of a half-bridge (R59). -/
def starOthers (hb : Nat) : List Nat := (List.range 3).map (· + hb / 3 * 3) |>.filter (· != hb)

/-- The star sum with one path's value substituted (R58). -/
def starSum (c : Store) (s : SenseState) (hb sd : Nat) : Rat :=
  sdAmps c s sd + sumR ((starOthers hb).map (fun h => sdAmps c s (s.activeSd h)))

/-- Whether a window's filter has run a full window at the clock in force (R49); its result comes t_mod after it closed (R53). -/
def windowFresh (c : Store) (now : Nat) (s : SenseState) (sd : Nat) : Bool :=
  match (if sd < 24 then s.iChanged else s.vChanged) with
  | none => true
  | some t => decide (t + (3 * sdDecimation c sd + 1) * sdDivider c sd ≤ now)

/-- The counter value of the centre of the window whose result is available now: half its length and t_mod before (R53). -/
def windowCentre (c : Store) (now sd : Nat) : Nat := now - (3 * sdDecimation c sd * sdDivider c sd / 2 + sdDivider c sd)

/-- How far a window centre of the current channels lies behind its update instant: the window opens at the first rising edge of SDCLK at or after its
opening point (R51; log 121). -/
def centreDelay (c : Store) (s : SenseState) (now : Nat) : Nat := (((s.iEdge : Int) - now) % (c.u 0x6400 1 : Nat)).toNat

/-- Per-path checks of one window (R57): latest value, CLIP and STUCK. A window that closes before its filter has run a full
window at a new clock delivers no valid sample (R49). -/
def takeWindow (c : Store) (now : Nat) (s : SenseState) (w : PathWindow) : SenseState :=
  let d := sdDecimation c w.sd
  if !windowFresh c now s w.sd then s else
  let inv := bit (sdCfg c w.sd) 1
  let sum := if inv then d ^ 3 - w.sum else w.sum
  let ones := if inv then 3 * d - w.ones else w.ones
  s.setPath w.sd (fun x => { x with
    r := sdValue d sum, valid := true, time := windowCentre c now w.sd,
    clip := sdClipped c w.sd ones (3 * d), stuck := decide (64 ≤ w.run) })

/-- Whether a path is flagged by Table 3-2 in this update. -/
def flagged (c : Store) (s : SenseState) (sd : Nat) : Bool :=
  let x := s.path sd
  !x.failed && (x.clip || x.stuck || !sdEnabled c sd)

/-- R57 for one pair: a flagged path is marked failed; two paths flagged by their streams in one update stay unmarked; a
disabled path is marked failed directly. -/
def pairChecks (c : Store) (hold : Bool) (s : SenseState) (p : Nat) : SenseState × List Signal :=
  let a := pairA p
  let b := pairB p
  let fa := flagged c s a
  let fb := flagged c s b
  let da := fa && !sdEnabled c a
  let db := fb && !sdEnabled c b
  let both := fa && fb && !da && !db
  if both then (s, []) else
  let (s, g1) := if fa && (da || !db) then s.markFailed hold false p a else (s, [])
  let (s, g2) := if fb && (db || !da) then s.markFailed hold false p b else (s, [])
  (s, g1 ++ g2)

/-- R58 and R59 for one current pair: compare, confirm, and identify the faulty path by the star sum. -/
def comparePair (c : Store) (hold : Bool) (s : SenseState) (p : Nat) : SenseState × List Signal :=
  let a := pairA p
  let b := pairB p
  let x := s.pair p
  let dis := !(s.path a).failed && !(s.path b).failed && (s.path a).valid && (s.path b).valid &&
    decide ((c.u 0x6020 1 : Rat) / 10000 < absR (ofQ 23 (s.path a).r - ofQ 23 (s.path b).r))
  let n := if dis then min 8 (x.disCount + 1) else 0
  let s := (s.setPath a (fun y => { y with disagree := dis })).setPath b (fun y => { y with disagree := dis })
  let clear := if x.ambigFault then [Signal.restored (pairGroup p - 1)] else []
  if !(dis && decide (c.u 0x6020 2 ≤ n)) then
    (s.setPair p (fun y => { y with disCount := n, ambig := false, ambigCount := 0, ambigFault := false }), clear)
  else
    let tol := (c.u 0x6020 6 : Rat) / 10000 * sdGain c a
    let okA := decide (c.u 0x6020 6 ≠ 0) && decide (absR (starSum c s p a) ≤ tol)
    let okB := decide (c.u 0x6020 6 ≠ 0) && decide (absR (starSum c s p b) ≤ tol)
    if okA == okB then
      (s.setPair p (fun y => { y with disCount := n, ambig := true, ambigCount := min 100 (y.ambigCount + 1) }), [])
    else
      let s := s.setPair p (fun y => { y with disCount := n, ambig := false, ambigCount := 0, ambigFault := false })
      let (s, g) := s.markFailed hold true p (if okA then b else a)
      (s, clear ++ g)

/-- One more update for the restored paths of a pair: one that passes every check counts, another starts the count again (R61). -/
def countRestored (s : SenseState) (p : Nat) : SenseState :=
  let go (s : SenseState) (sd : Nat) : SenseState :=
    s.setPath sd (fun x => match x.restoring with
      | some n => { x with restoring := some (if x.clip || x.stuck || x.disagree || (s.pair p).ambig then 0 else min 100 (n + 1)) }
      | none => x)
  go (go s (pairA p)) (pairB p)

/-- The DC-link voltage of a path in V. -/
def sdVolts (c : Store) (s : SenseState) (sd : Nat) : Rat := sdPhys c sd (s.path sd).r

/-- The median of a list of numbers; the mean of the middle two of an even count. -/
def median (l : List Rat) : Rat :=
  let a := sortAsc l
  let n := a.length
  if n = 0 then 0 else if n % 2 = 1 then a.getD (n / 2) 0 else (a.getD (n / 2 - 1) 0 + a.getD (n / 2) 0) / 2

/-- Paths of a link whose value can be used in this update: not failed, not flagged, not still counting after a restore. -/
def linkValid (c : Store) (s : SenseState) (l : List Nat) : List Nat :=
  l.filter (fun sd => s.usable sd && (s.path sd).valid && sdEnabled c sd && !(s.path sd).stuck)

/-- R62 with the links shared: each valid path is compared with the median of the valid paths. -/
def compareShared (c : Store) (hold : Bool) (s : SenseState) : SenseState × List Signal :=
  let l := [24, 25, 26, 27]
  let med := median ((linkValid c s l).map (sdVolts c s))
  l.foldl (fun acc sd =>
    let s := acc.1
    let x := s.path sd
    if x.failed || !x.valid then acc else
    let off := decide ((c.u 0x6020 1 : Rat) / 10000 * sdGain c sd < absR (sdVolts c s sd - med))
    let n := if off then min 8 (x.diff + 1) else 0
    let s := s.setPath sd (fun y => { y with diff := n, disagree := off })
    if off && decide (c.u 0x6020 2 ≤ n) then
      let (s', g) := s.markFailed hold true (pairOfSd sd) sd
      (s', acc.2 ++ g)
    else (s, acc.2)) (s, [])

/-- R62 with the links separate: a confirmed disagreement is resolved against the backup slot's voltage, or sets AMBIG. -/
def compareLink (c : Store) (hold : Bool) (slot : Option Rat) (s : SenseState) (p : Nat) : SenseState × List Signal :=
  let a := pairA p
  let b := pairB p
  let x := s.pair p
  let dis := !(s.path a).failed && !(s.path b).failed && (s.path a).valid && (s.path b).valid &&
    decide ((c.u 0x6020 1 : Rat) / 10000 < absR (ofQ 23 (s.path a).r - ofQ 23 (s.path b).r))
  let n := if dis then min 8 (x.disCount + 1) else 0
  let s := (s.setPath a (fun y => { y with disagree := dis })).setPath b (fun y => { y with disagree := dis })
  if !(dis && decide (c.u 0x6020 2 ≤ n)) then
    (s.setPair p (fun y => { y with disCount := n, ambig := false }), [])
  else match slot with
    | none => (s.setPair p (fun y => { y with disCount := n, ambig := true }), [])
    | some v =>
      let s := s.setPair p (fun y => { y with disCount := n, ambig := false })
      let da := absR (sdVolts c s a - v)
      let db := absR (sdVolts c s b - v)
      s.markFailed hold true p (if da ≤ db then b else a)

/-- R62 and R63 for one machine's link: the voltage in use, and the loss of every path. slot is the backup slot's value where
one is configured and valid. -/
def linkVoltage (c : Store) (slot : Option Rat) (s : SenseState) (m : Nat) : SenseState × List Signal :=
  let shared := c.b 0x6030 3
  let valid := linkValid c s (if shared then [24, 25, 26, 27] else [24 + 2 * m, 25 + 2 * m])
  let l := nth s.dc m {}
  let set (v : Nat) (lost : Bool) := { s with dc := upd s.dc m (fun _ => ⟨v, lost⟩) }
  match valid with
  | [] =>
    let v := match slot with | some x => f32OfRat x | none => l.volts
    let sig := if l.lost then [] else match slot with
      | some _ => [Signal.fault 0x08 (14 + m) (24 + 2 * m)]
      | none => [Signal.second (14 + m)]
    (set v true, sig)
  | _ =>
    let v := if shared then median (valid.map (sdVolts c s))
      else
        let act := s.activeSd (12 + m)
        sdVolts c s (if valid.contains act then act else valid.headD act)
    (set (f32OfRat v) false, [])

/-- A path fault of code 0x07 whose link has no valid path left is reported as code 0x08 alone (log 31). -/
def dropPathFault (lostLinks : List Nat) (g : List Signal) : List Signal :=
  g.filter (fun x => match x with
    | .fault 0x07 grp _ => !lostLinks.contains grp
    | _ => true)

/-- The checks of the pairs ps in one update: per-path checks, pair comparison, restore counts and link voltages (R57 to R63). hold is SIFTER
standing. -/
def pairUpdate (c : Store) (hold : Bool) (slot : Option Rat) (ps : List Nat) (s : SenseState) : SenseState × List Signal :=
  let run (f : SenseState → Nat → SenseState × List Signal) (l : List Nat) (a : SenseState × List Signal) :=
    l.foldl (fun acc p => let r := f acc.1 p; (r.1, acc.2 ++ r.2)) a
  let s := ps.foldl (fun s p => s.takeNext hold p) s
  let (s, g1) := run (pairChecks c hold) ps (s, [])
  let (s, g2) := run (comparePair c hold) (ps.filter (· < 12)) (s, [])
  let dcs := ps.filter (12 ≤ ·)
  let (s, g3) := if dcs.isEmpty then (s, []) else
    if c.b 0x6030 3 then compareShared c hold s else run (compareLink c hold slot) dcs (s, [])
  let s := ps.foldl countRestored s
  let ms := if dcs.isEmpty then [] else if c.b 0x6030 3 then [0, 1] else dcs.map (· - 12)
  let (s, g4) := run (fun s m => linkVoltage c slot s m) ms (s, [])
  let lost := (ms.filter (fun m => (nth s.dc m {}).lost)).map (· + 14)
  (s, dropPathFault lost (g1 ++ g2 ++ g3) ++ g4)

/-- One update of the Sifter: the windows that a full filter gave (R49), then the checks of their pairs but those in skip, which wait for a twin's record (R385). The operand mismatch
says that the two copies of the pairing stage disagree (R60). -/
def senseUpdate (c : Store) (now : Nat) (hold mismatch : Bool) (slot : Option Rat) (skip : Nat → Bool) (ws : List PathWindow)
    (s : SenseState) : SenseState × List Signal :=
  let ws := ws.filter (fun w => windowFresh c now s w.sd)
  let s := ws.foldl (takeWindow c now) s
  let ps := ((ws.map (fun w => pairOfSd w.sd)).filter (fun p => decide (p < 14) && !skip p)).eraseDups
  let r := pairUpdate c (hold || mismatch) slot ps s
  (r.1, (if mismatch then [Signal.fault 0x06 16 0] else []) ++ r.2)

/-- The phase currents a machine's lanes take: the active path of each of its half-bridges, in per unit of I_b, Q3.29
(stage 1 of Table 4-1). -/
def phasePu (c : Store) (s : SenseState) (m hb : Nat) : Int :=
  let sd := s.activeSd (6 * m + hb)
  toQ 32 29 (sdAmps c s sd / iBase c m)

/-! ### Fast paths (R54 to R56) -/

/-- The sum's distance from the middle, doubled: 2 f = 2 S − D_F^k. -/
def fastTwice (c : Store) (sd sum : Nat) : Int :=
  let full := (c.u 0x6400 0xB) ^ (c.u 0x6400 0xA)
  let v := if bit (sdCfg c sd) 1 then full - sum else sum
  2 * (v : Int) - full

/-- Whether an output exceeds a threshold: f − OFS > TH or f − OFS < −TH (R54). -/
def fastExceeds (twice ofs th : Int) : Bool := decide (2 * th < twice - 2 * ofs ∨ twice - 2 * ofs < -(2 * th))

/-- One fast-path output of one channel (R54, R55): counts, exceeded states, sticky bits, and whether it trips alone. -/
def fastOutput (c : Store) (now : Nat) (sd sum : Nat) (s : SenseState) : SenseState :=
  let fresh := match s.fChanged, s.iChanged with
    | none, none => true
    | a, b => decide ((max (a.getD 0) (b.getD 0)) + (c.u 0x6400 0xB) * (c.u 0x6400 0xA) * c.u 0x6400 1 ≤ now)
  if !fresh || !sdEnabled c sd then
    { s with fast := upd s.fast sd (fun x => { x with cnt1 := 0, cnt2 := 0, ex1 := false, ex2 := false }) }
  else
  let t := fastTwice c sd sum
  let ofs := c.pi 0x6440 (sd + 1)
  let e1 := fastExceeds t ofs (c.pi 0x6420 (sd + 1))
  let e2 := fastExceeds t ofs (c.pi 0x6430 (sd + 1))
  let cc := c.u 0x6400 0xC
  let x := nth s.fast sd {}
  let n1 := if e1 then min 4 (x.cnt1 + 1) else 0
  let n2 := if e2 then min 4 (x.cnt2 + 1) else 0
  let ex1 := e1 && decide (cc ≤ n1)
  let ex2 := e2 && decide (cc ≤ n2)
  let partner := if sd < 12 then sd + 12 else sd - 12
  let alone := !s.usable partner
  let s := { s with fast := upd s.fast sd (fun y => ⟨n1, n2, ex1, ex2, alone, max y.peak (t - 2 * ofs).natAbs⟩) }
  s.setPath sd (fun y => { y with
    th1 := y.th1 || (ex1 && bits (sdCfg c sd) 7 6 != 0), th2 := y.th2 || (ex2 && bits (sdCfg c sd) 9 8 != 0) })

/-- Whether a half-bridge's comparators ask for a trip (R55). -/
def hbTrips (c : Store) (s : SenseState) (hb : Nat) : Bool :=
  let conj := bit (sdCfg c hb) 5
  let a := nth s.fast hb {}
  let b := nth s.fast (hb + 12) {}
  let actA := sdCfg c hb
  let actB := sdCfg c (hb + 12)
  let one (x y : Bool) (alone : Bool) (act : Nat) : Bool := act == 2 && x && (!conj || alone || y)
  one a.ex1 b.ex1 a.alone (bits actA 7 6) || one b.ex1 a.ex1 b.alone (bits actB 7 6)
    || one a.ex2 b.ex2 a.alone (bits actA 9 8) || one b.ex2 a.ex2 b.alone (bits actB 9 8)

/-- The overcurrent source of a machine: active while any of its half-bridges asks for a trip (R143). -/
def overcurrentActive (c : Store) (s : SenseState) (m : Nat) : Bool :=
  (List.range 6).any (fun h => hbTrips c s (6 * m + h))

/-! ### Microphones (R64) -/

namespace MicChain

/-- One stage's value in Q1.23. -/
def q23 (x : Int) : Int := clampI (-(2 ^ 23)) (2 ^ 23 - 1) x

/-- The sinc3 stage's output, D = 16: the combs on the third integrator, scaled to full scale, and the chain after it. -/
def decimate (x : MicChain) : MicChain × Int :=
  let w (v : Int) : Int := sext 32 (ofInt 32 v)
  let a := nth x.acc 2 0
  let y1 := w (a - nth x.comb 0 0)
  let y2 := w (y1 - nth x.comb 1 0)
  let y3 := w (y2 - nth x.comb 2 0)
  ({ x with comb := [a, y1, y2] }, q23 (y3 * 2 ^ 11))

/-- One PDM bit: the sinc3 stage to 192 kHz, the half-band filter to 96 kHz, and the droop filter to 48 kHz, whose coefficients are free (log 123).
Answers a sample every 64 bits. -/
def feed (x : MicChain) (b : Bool) : MicChain × Option Int :=
  let w (v : Int) : Int := sext 32 (ofInt 32 v)
  let a0 := w (nth x.acc 0 0 + (if b then 1 else -1))
  let a1 := w (nth x.acc 1 0 + a0)
  let a2 := w (nth x.acc 2 0 + a1)
  let k := x.phase
  let x : MicChain := { x with acc := [a0, a1, a2], phase := (k + 1) % 64, run := if b == x.last then x.run + 1 else 1, last := b }
  if k % 16 ≠ 15 then (x, none) else
  let d := x.decimate
  let x : MicChain := { d.1 with half := (d.2 :: d.1.half).take 31 }
  if k % 32 ≠ 31 then (x, none) else
  let x : MicChain := { x with droop := (q23 (roundAway (firLinear (halfBandTaps Config.micHalfBand) 15 x.half)) :: x.droop).take 49 }
  if k ≠ 63 then (x, none) else (x, some (q23 (roundAway (firLinear Config.micDroop 24 x.droop))))

/-- What a block of bits makes of a chain: its samples, and whether a run of 64 identical bits ended in it (Table 3-2). -/
structure MicOut where
  chain : MicChain
  samples : List Int
  stuck : Bool
  clip : Bool
  deriving DecidableEq, Repr

/-- A block of bits: the samples, STUCK, and CLIP, which is judged on the ones density of the block against the reset band of 0.02 to 0.98 (log 123). -/
def block (x : MicChain) (l : List Bool) : MicOut :=
  let r := l.foldl (fun (a : MicChain × List Int × Bool) b =>
    let y := a.1.feed b
    (y.1, (match y.2 with | some v => v :: a.2.1 | none => a.2.1), a.2.2 || decide (64 ≤ y.1.run))) (x, [], false)
  let d := mkRat (l.filter id).length l.length
  { chain := r.1, samples := r.2.1.reverse, stuck := r.2.2, clip := decide (l.length ≠ 0) && decide (d < 2 / 100 ∨ 98 / 100 < d) }

end MicChain

/-! ### Resolvers (R65 to R67) -/

/-- What one 1 MHz loop step takes: the two converters' samples, 16-bit signed codes (R65). -/
structure ResolverStep where
  sin : Int
  cos : Int
  deriving DecidableEq, Repr

/-- Since when a condition has held. -/
def heldSince (now : Nat) (cond : Bool) (since : Option Nat) : Option Nat :=
  if cond then some (since.getD now) else none

/-- Whether a condition has held for a time in ticks. -/
def heldFor (now : Nat) (since : Option Nat) (t : Nat) : Bool :=
  match since with | none => false | some x => decide (x + t ≤ now)

/-- The samples of one excitation period at 1 MS/s. -/
def excSamples (c : Store) (n : Nat) : Nat := (roundAway (1000000 / (c.u (0x6100 + 0x10 * n) 1 : Rat))).toNat

/-- The excitation's sine at a counter value, which starts at counter value 0 but for a free phase (log 120). -/
def excitationSine (c : Store) (n now : Nat) : Rat :=
  sinTurn ((c.u (0x6100 + 0x10 * n) 1 : Rat) * (now : Rat) / 200000000 + Config.excitationPhase n)

/-- The demodulation reference at a counter value: the excitation's phase, moved by the demodulation phase of the Starter set and that of the expert
object (R65), on the sine that starts at counter value 0 but for a free phase (log 120). -/
def demodRef (c : Store) (n now : Nat) : Rat :=
  let ph := mkRat (c.pi (0xB420 + n) 1 + c.i 16 (0x6500 + 0x10 * n) 1) 65536
  sinTurn ((c.u (0x6100 + 0x10 * n) 1 : Rat) * (now : Rat) / 200000000 + ph + Config.excitationPhase n)

/-- The demodulated sine and cosine over one excitation period, with the amplitude and phase correction of the Starter set (R65). The cosine channel is
taken to give ratio × cos(θ + quadrature) (log 120). -/
def demodulated (c : Store) (n : Nat) (w : List (Rat × Rat)) : Rat × Rat :=
  let k : Rat := 2 / (w.length : Rat)
  let s := k * sumR (w.map (·.1))
  let raw := k * sumR (w.map (·.2)) / c.pf (0xB420 + n) 2
  let q := cosSinTurn (mkRat (c.pi (0xB420 + n) 3) 65536)
  (s, if q.1 = 0 then raw else (raw + s * q.2) / q.1)

/-- The natural frequency in rad/s of the type II loop of damping 0.7 whose −3 dB bandwidth is the tracking bandwidth (R66):
f_3dB = f_n × √(1 + 2 ζ² + √((1 + 2 ζ²)² + 1)). -/
def trackOmega (c : Store) (n : Nat) : Rat :=
  let a : Rat := 1 + 2 * (7 / 10) * (7 / 10)
  2 * piR * (c.u (0x6100 + 0x10 * n) 3 : Rat) / sqrtR (a + sqrtR (a * a + 1))

/-- The tracking error in turns, from −1/2 to 1/2. -/
def trackError (s c theta : Rat) : Rat :=
  let e := atan2R s c / (2 * piR) - theta
  e - ((e + 1 / 2).floor : Rat)

/-- One loop step (R65, R66): demodulation over the latest excitation period, then the type II loop, whose speed stays within ±3000 rev/s; with the
checks of Table 3-3. The amplitude is the moving average of one excitation period, so LOS needs 10 µs (2000 ticks) beyond it; DOS needs 1 ms and LOT
100 µs. -/
def resolverStep (c : Store) (now n : Nat) (x : Resolver) (o : ResolverStep) : Resolver :=
  let r := demodRef c n now
  let w := ((r * (o.sin : Rat), r * (o.cos : Rat)) :: x.window).take (excSamples c n)
  let d := demodulated c n w
  let amp := (roundAway (sqrtR (d.1 * d.1 + d.2 * d.2) / Config.resolverNominal n (c.u (0x6100 + 0x10 * n) 2) * 1000)).toNat
  let e := trackError d.1 d.2 x.theta
  let wn := trackOmega c n
  let speed := clampR (-3000) 3000 (x.speed + wn * wn * e / 1000000)
  let th := x.theta + (speed + 2 * (7 / 10) * wn * e) / 1000000
  let th := th - (th.floor : Rat)
  let err := (roundAway (absR e * 65536)).toNat
  let full := decide (o.sin ≤ -32768 ∨ 32767 ≤ o.sin ∨ o.cos ≤ -32768 ∨ 32767 ≤ o.cos)
  let losC := decide (amp < c.u (0x6500 + 0x10 * n) 2)
  let dosC := decide (amp < 750 ∨ 1250 < amp)
  let lotC := decide (c.u (0x6500 + 0x10 * n) 3 < err)
  let ls := heldSince now losC x.losSince
  let ds := heldSince now dosC x.dosSince
  let ts := heldSince now lotC x.lotSince
  let sc := if full then min 2 (x.satCount + 1) else 0
  let sat := decide (sc = 2)
  { x with
    window := w, theta := th, angle := (roundAway (th * 65536)).toNat % 65536, speed := speed, amplitude := min 65535 amp, stepTime := now, losSince := ls,
    dosSince := ds, lotSince := ts, satCount := sc, sat := sat, los := heldFor now ls 2000 || sat,
    dos := heldFor now ds 200000, lot := heldFor now ts 20000 }

/-- A resolver status word (0x6100.07). -/
def Resolver.status (x : Resolver) : Nat := b2n x.los + 2 * b2n x.dos + 4 * b2n x.lot + 8 * b2n x.sat + 16 * b2n x.plaus

/-- Whether a resolver's position is valid: neither LOS nor LOT (R67). -/
def Resolver.valid (x : Resolver) : Bool := !x.los && !x.lot

/-- The angle latched at a window centre: θ + ω (t_c − t_k + τ_d), in electrical turns of the resolver, and its speed (R66). -/
def resolverLatch (c : Store) (tc n : Nat) (x : Resolver) : Rat × Rat :=
  let dt := (((tc : Int) - x.stepTime : Int) : Rat) * (5 / 1000000000) + 1 / (2 * (c.u (0x6100 + 0x10 * n) 1 : Rat))
  ((x.angle : Rat) / 65536 + x.speed * dt, x.speed)

/-! ### Encoders (R69, R70) -/

/-- Counts per revolution: 4 L. -/
def encCpr (c : Store) (n : Nat) : Nat := 4 * c.u (0x6200 + 0x10 * n) 2

/-- The quadrature step from one pair of levels to the next: +1, −1, or 0. -/
def quadStep (a b a' b' : Bool) : Int :=
  if a == a' && b == b' then 0 else
  if a != a' then (if a' == b then -1 else 1) else (if b' == a then 1 else -1)

/-- The level of an input behind its glitch filter (R69): a change closer than the filter time to the input's latest change does not pass. -/
def filtered (c : Store) (now n : Nat) (since : Option Nat) (old new : Bool) : Bool :=
  match since with
  | some t => if old != new && decide (now < t + 2 * c.u (0x6200 + 0x10 * n) 4) then old else new
  | none => new

/-- An edge in incremental mode (R69): the new levels of A, B and Z behind the glitch filter. A and B changing together set ABERR; a Z rise away from a
multiple of 4 L by more than 2 counts sets ZERR in Z modes 1 and 2. The count is a signed 32-bit number; the jump of a reset is no movement. -/
def encoderEdge (c : Store) (now n : Nat) (x : Encoder) (a b z : Bool) : Encoder :=
  let since (k : Nat) : Option Nat := nth x.edges k none
  let a := filtered c now n (since 0) x.a a
  let b := filtered c now n (since 1) x.b b
  let z := filtered c now n (since 2) x.z z
  let mark (k : Nat) (old new : Bool) : Option Nat := if old == new then since k else some now
  let both := x.a != a && x.b != b
  let d := if both then 0 else quadStep x.a x.b a b
  let cnt := ofInt 32 ((x.count : Int) + d)
  let cpr := encCpr c n
  let off := (sext 32 cnt % (cpr : Int)).toNat
  let zmode := c.u (0x6200 + 0x10 * n) 3
  let zrise := z && !x.z
  let zbad := zrise && decide (zmode ≠ 0) && decide (2 < off ∧ off + 2 < cpr)
  let cnt := if zrise && decide (zmode = 1) then 0 else cnt
  { x with
    count := cnt, moved := x.moved + d, a := a, b := b, z := z, edges := [mark 0 x.a a, mark 1 x.b b, mark 2 x.z z]
    lastEdge := if d = 0 then x.lastEdge else now,
    aberr := x.aberr || both, zerr := x.zerr || zbad,
    invalid := x.invalid || both || (zbad && decide (zmode = 2)) }

/-- The latch at a window centre: the count, and the speed in turns per second from the latest edges of consecutive updates,
limited to one count over the time since the last edge when none arrived (R69). -/
def encoderLatch (c : Store) (tc n : Nat) (x : Encoder) : Encoder :=
  let cpr := (encCpr c n : Rat)
  let sec (t : Nat) : Rat := (t : Rat) * (5 / 1000000000)
  let v :=
    if x.lastEdge = x.latchedEdge then
      let lim := if tc ≤ x.lastEdge then absR x.speed else 1 / cpr / sec (tc - x.lastEdge)
      clampR (-lim) lim x.speed
    else (x.moved : Rat) / cpr / sec (x.lastEdge - x.latchedEdge)
  { x with latched := x.count, moved := 0, latchedEdge := x.lastEdge, speed := v }

/-- R70: a read starts at an update instant when the previous read and the monoflop time have ended; otherwise it is skipped. -/
def ssiStart (now : Nat) (x : Encoder) : Encoder := if x.ssiSince.isNone && decide (x.ssiFree ≤ now) then { x with ssiSince := some now } else x

/-- What an encoder does at an update instant of its machine (R69, R70), by its mode. -/
def encoderUpdate (c : Store) (now tc n : Nat) (x : Encoder) : Encoder :=
  match c.u (0x6200 + 0x10 * n) 1 with
  | 1 => encoderLatch c tc n x
  | 2 => ssiStart now x
  | _ => x

/-- What an SSI read delivers: the bits read, first bit most significant (an error bit, then the position, then a parity bit, as the format has them),
whether no start bit came within two frame times, and the latch instant, which is that of the first falling clock edge. -/
structure SsiRead where
  word : Nat
  noStart : Bool
  start : Nat
  deriving DecidableEq, Repr

/-- Gray to binary over w bits. -/
def grayToBin : Nat → Nat → Nat
  | 0, _ => 0
  | w + 1, g =>
    let hi := grayToBin w (g / 2)
    2 * hi + (g + hi) % 2

/-- The data bits of an SSI position: the configured bits less a leading error bit. -/
def ssiBits (c : Store) (n : Nat) : Nat := c.u (0x6200 + 0x10 * n) 6 - b2n (bit (c.u (0x6200 + 0x10 * n) 7) 2)

/-- A completed SSI read (R70). A parity error, a set error bit, a missing start bit, or a change above a quarter turn sets
SSIERR; two in a row invalidate the position. The next read may start 20 µs (4000 ticks) after this one ends. One turn is 2^(position bits) counts
(log 117). -/
def ssiDone (c : Store) (now n : Nat) (x : Encoder) (o : SsiRead) : Encoder :=
  if x.ssiSince.isNone then x else
  let fmt := c.u (0x6200 + 0x10 * n) 7
  let w := ssiBits c n
  let total := c.u (0x6200 + 0x10 * n) 6
  let data := if bit fmt 1 then o.word / 2 else o.word
  let p := if bit fmt 0 then grayToBin w (data % 2 ^ w) else data % 2 ^ w
  let diff := sext w (ofInt w ((p : Int) - x.ssiPos))
  let jump := x.ssiSeen && decide ((2 ^ w : Nat) < 4 * diff.natAbs)
  let bad := (bit fmt 1 && popCount (total + 1) o.word % 2 == 1) || (bit fmt 2 && bit data w) || o.noStart || jump
  let sec (t : Nat) : Rat := (t : Rat) * (5 / 1000000000)
  let dt := sec (o.start - x.ssiTime)
  let n2 := if bad then min 2 (x.ssiErrs + 1) else 0
  let x := { x with ssierr := bad, ssiErrs := n2, invalid := x.invalid || decide (n2 = 2), ssiSince := none, ssiFree := now + 4000 }
  if bad then x else
  { x with
    ssiPos := p, ssiTime := o.start, ssiSeen := true, count := p,
    speed := if x.ssiSeen && decide (0 < dt) then mkRat diff (2 ^ w) / dt else x.speed }

/-- The SSI position extrapolated to a window centre, in turns (R70). -/
def ssiLatch (c : Store) (tc n : Nat) (x : Encoder) : Rat × Rat :=
  let dt := (((tc : Int) - x.ssiTime : Int) : Rat) * (5 / 1000000000)
  (mkRat x.ssiPos (2 ^ ssiBits c n) + x.speed * dt, x.speed)

/-- An encoder status word (0x6200.0A). -/
def Encoder.status (x : Encoder) : Nat := b2n x.aberr + 2 * b2n x.zerr + 4 * b2n x.ssierr + 8 * b2n x.invalid

/-! ### Position of a machine (R71, R72) -/

/-- Whether a position source (codes of 0x6300.01) delivers a valid position; sensorless only and an encoder that is off do
not. -/
def sourceValid (c : Store) (s : SenseState) (src : Nat) : Bool :=
  match src with
  | 0 => (nth s.res 0 {}).valid
  | 1 => (nth s.res 1 {}).valid
  | 2 => !(nth s.enc 0 {}).invalid && decide (c.u 0x6200 1 ≠ 0)
  | 3 => !(nth s.enc 1 {}).invalid && decide (c.u 0x6210 1 ≠ 0)
  | _ => false

/-- The mechanical angle in turns and the mechanical speed in turns per second of a source at a window centre: a resolver's
electrical angle is divided by its pole pairs. -/
def sourceLatch (c : Store) (s : SenseState) (tc src : Nat) : Rat × Rat :=
  match src with
  | 0 => let (a, v) := resolverLatch c tc 0 (nth s.res 0 {}); let p := (c.u 0x6100 4 : Rat); (a / p, v / p)
  | 1 => let (a, v) := resolverLatch c tc 1 (nth s.res 1 {}); let p := (c.u 0x6110 4 : Rat); (a / p, v / p)
  | 2 | 3 =>
    let n := src - 2
    let x := nth s.enc n {}
    if c.u (0x6200 + 0x10 * n) 1 = 2 then ssiLatch c tc n x
    else (mkRat (sext 32 x.latched % (encCpr c n : Int)) (encCpr c n), x.speed)
  | _ => (0, 0)

/-- The source configured for a machine. -/
def posSource (c : Store) (m : Nat) : Nat := c.u 0x6300 (m + 1)

/-- Whether a front end finds its position invalid (R67, R69, R70); one that is off finds nothing. -/
def sourceInvalid (s : SenseState) (src : Nat) : Bool :=
  match src with
  | 0 | 1 => !(nth s.res src {}).valid
  | 2 | 3 => (nth s.enc (src - 2) {}).invalid
  | _ => false

/-- Sources found invalid: each machine keeps which have been invalid since it last selected them, and one whose configured source is invalid takes
fault 0x09 once and keeps the loss until a source is selected again (R71, R72). -/
def markLost (c : Store) (s : SenseState) : SenseState × List Signal :=
  [0, 1].foldl (fun acc m =>
    let s := acc.1
    let x := nth s.pos m {}
    let src := posSource c m
    let new := decide (src < 4) && !x.lost && !sourceValid c s src
    ({ s with pos := upd s.pos m (fun y => { y with lost := y.lost || new, bad := y.bad.mapIdx (fun k b => b || sourceInvalid s k) }) },
      if new then acc.2 ++ [Signal.fault 0x09 (17 + m) m] else acc.2)) (s, [])

/-- Mechanical speed as a fraction of rated speed (0x3010.04, rpm). -/
def ratedFraction (c : Store) (m : Nat) (speed : Rat) : Rat := absR speed * 60 / c.f (0x3010 + 0x1000 * m) 4

end Sys2Proof.Machine
end

