-- ==== Sys2Proof/Machine/Operands.lean ====
section
/-! DEFINITION. The operands that commands carry from outside, beside those of the Sifter, the streams and Crust; and the forms of an item's
DATA (Table 16-2): its decoding into a raw value and the encoding of a read. -/

namespace Sys2Proof.Machine

/-- What a fault inside a lane does to its report of one update: the cause code of a lane check of Table 5-1 that fails (0: none), the corrected
ECC errors, and altered on-times, as (half-bridge, on-time in steps). -/
structure LaneUpset where
  cause : Nat := 0
  corrected : Nat := 0
  duties : List (Nat × Nat) := []
  deriving DecidableEq, Repr

/-- The cause of a Crust fault (R294). -/
inductive CrustFaultKind where
  | supply | clock | param | store
  deriving DecidableEq, Repr

/-- The network layer of a frame on Ethernet or T1S (R341, R342): the IP version and protocol, whether it is a fragment or carries IP options, the
destination address, and of a UDP datagram the destination port and the checksum field (0: none). -/
structure IpHead where
  version : Nat := 4
  protocol : Nat := 17
  fragment : Bool := false
  options : Bool := false
  dest : Nat := 0
  port : Nat := 0
  checksum : Nat := 0
  deriving DecidableEq, Repr

/-- Where a packet comes from: the interface (0 ETH0, 1 ETH1, 2 T1S, 3 to 6 CAN0 to CAN3), its sender (on Ethernet and T1S its MAC address, IPv4 address
and UDP port as one number, most significant first), its PCP, and how many frames wait in its receive queue (R345); on Ethernet and T1S the destination
MAC address, the VLAN (none: untagged) and the network layer. -/
structure Packet where
  iface : Nat
  source : Nat
  pcp : Nat
  backlog : Nat
  dest : Nat := 0
  vlan : Option Nat := none
  ip : IpHead := {}
  deriving DecidableEq, Repr

/-- A frame at an external port of the switch (R343): the port, the addresses, the VLAN (none: untagged) with its PCP, the length in bytes, whether
it carries two tags, and how many frames wait at the egress queue it goes to. -/
structure EthFrame where
  port : Nat
  dest : Nat
  source : Nat
  vlan : Option Nat
  pcp : Nat
  length : Nat
  twoTags : Bool
  backlog : Nat
  deriving DecidableEq, Repr

/-- A split-machine record (R383 to R386): the half's sum-pair currents in A and torque reference in Nm, the partner's main-path values r by channel
and the exceeded states of TH1 and TH2 of its fast paths by channel, and whether the twins' results agree. -/
structure SplitRecord where
  id : Rat
  iq : Rat
  torque : Rat
  paths : List (Nat × Int)
  hits : List (Nat × Bool × Bool)
  agree : Bool
  deriving DecidableEq, Repr

/-- What a Proofing step measured (Table 21-6): whether it failed, the 64 round trips of Ridge calibration in interpolation steps and the Summit's frame number and
counter at a Trough, and Devices calibrated as the line reports it (step 2), the lanes whose self-test failed (step 3, a mask), and the zero averages
of SD0 to SD23, SD28 and SD30 (step 4). -/
structure ProofResult where
  fail : Bool := false
  trips : List Nat := []
  summitFn : Nat := 0
  summitCounter : Nat := 0
  devices : Nat := 0
  lanes : Nat := 0
  zeros : List Rat := []
  deriving DecidableEq, Repr

/-- The raw value that DATA bytes carry for a type; none where the size is not the type's (R324). -/
def itemRaw (ty : ObjTy) (data : List Byte) : Option Nat :=
  if ty.isBlob || data.length != ty.size then none else some (ofBytes data)

/-- Whether an encoding is valid for a type, apart from a CPAIR32's complement (Table 16-2). A CPAIR32 that carries F32 takes the F32 rules in its
value word. -/
def encodingOk (ty : ObjTy) (raw : Nat) : Bool :=
  match ty with
  | .bool => decide (raw ≤ 1)
  | .f32 => !f32Bad raw
  | .pairF => !f32Bad (raw / 2 ^ 32)
  | _ => true

/-- The form in which a raw value is stored: −0 and subnormals of F32 as +0 (Table 16-2). -/
def storedRaw (ty : ObjTy) (raw : Nat) : Nat :=
  match ty with
  | .f32 => f32Canon raw
  | _ => raw

/-- The DATA bytes of a read. -/
def itemBytes (ty : ObjTy) (raw : Nat) : List Byte := toBytes ty.size raw

end Sys2Proof.Machine
end

