-- ==== Sys2Proof/Syntax.lean ====
section
/-! DEFINITION. The commands of the YV6420, one constructor per row of spec/opcode_table.json, in its order. The table gives the rows no operands; the
operands are what the rule of each row says arrives with it: a host write carries its session and its item's DATA bytes, an event its port and
measured values. -/

namespace Sys2Proof

open Sys2Proof.Machine

/-- A command: an item of a host, an event at a pin, a transfer that ends, a period or a time that expires. -/
inductive Instr where
  /-- M0_TROUGH (R24); edges has bit m set where the gate balls of machine m showed an edge in the frame that ends (R385, R386). -/
  | m0Trough (edges : Nat)
  /-- CREST (R25). -/
  | crest (m : Nat)
  /-- WINDOW_RESULT (R53). -/
  | windowResult (ws : List PathWindow) (mismatch : Bool)
  /-- CURRENT_PAIR_AMBIGUOUS (R59). -/
  | currentPairAmbiguous (hb : Nat)
  /-- RESTORED_PATH_ELIGIBLE (R61). -/
  | restoredPathEligible (sd : Nat)
  /-- SPEAKER_SENSE_RESULT (R53). -/
  | speakerSenseResult (w : PathWindow)
  /-- FAST_PATH_OUTPUT (R54). -/
  | fastPathOutput (sd : Nat) (sum : Nat)
  /-- RESTORE_PATHS (R61). -/
  | restorePaths (sess : Nat) (data : List Byte)
  /-- RESOLVER_LOOP_STEP (R66). -/
  | resolverLoopStep (n : Nat) (o : ResolverStep)
  /-- ENCODER_EDGE (R69). -/
  | encoderEdge (n : Nat) (a : Bool) (b : Bool) (z : Bool)
  /-- SSI_READ_DONE (R70). -/
  | ssiReadDone (n : Nat) (o : SsiRead)
  /-- POSITION_SOURCE_SELECT (R72). -/
  | positionSourceSelect (m : Nat) (sess : Nat) (data : List Byte)
  /-- INJECTION_CONVERGED (R91). -/
  | injectionConverged (m : Nat)
  /-- LANE_START (R32). -/
  | laneStart
  /-- LANE_REPORT (R100). -/
  | laneReport (x : Nat) (upset : LaneUpset)
  /-- LANE_DEADLINE (R32). -/
  | laneDeadline
  /-- VOTE (R105). -/
  | vote (outvoted : Bool)
  /-- LANE_SELFTEST_DONE (R109). -/
  | laneSelftestDone (x : Nat) (pass : Bool)
  /-- LANE_SYNC_DONE (R110). -/
  | laneSyncDone (x : Nat)
  /-- PROBATION_DONE (R111). -/
  | probationDone (x : Nat)
  /-- RECIPE_IMAGE_CHECK (R103). -/
  | recipeImageCheck (okA : Bool) (okB : Bool)
  /-- SWAP_ACTIVE (R114). -/
  | swapActive (sess : Nat) (data : List Byte)
  /-- LANE_TEST_REQUEST (R115). -/
  | laneTestRequest (sess : Nat) (data : List Byte)
  /-- VOTE_TEST (R116). -/
  | voteTest (sess : Nat) (data : List Byte)
  /-- CONTROL_MODE (R83). -/
  | controlMode (m : Nat) (sess : Nat) (data : List Byte)
  /-- MODE_FADE_END (R88). -/
  | modeFadeEnd (m : Nat)
  /-- OUTPUT_ENABLE (R131). -/
  | outputEnable (out : Nat) (sess : Nat) (data : List Byte)
  /-- EVENT_FIRE (R133). -/
  | eventFire (k : Nat)
  /-- CTC_FIRE (R134). -/
  | ctcFire (k : Nat)
  /-- SPEAKER_CARRIER_PERIOD (R137). -/
  | speakerCarrierPeriod (k : Nat)
  /-- FLT_INPUT (R143). -/
  | fltInput (n : Nat) (level : Bool)
  /-- SAFE_PATTERN_DELAY_END (R152). -/
  | safePatternDelayEnd (m : Nat)
  /-- TRIP_CLEAR (R149). -/
  | tripClear (sess : Nat) (data : List Byte)
  /-- DISCHARGE_DEMAND (R156). -/
  | dischargeDemand (sess : Nat) (data : List Byte)
  /-- DISCHARGE_DONE (R159). -/
  | dischargeDone
  /-- DISCHARGE_TIME_LIMIT (R157). -/
  | dischargeTimeLimit
  /-- DCHG_TIMEOUT (R159). -/
  | dchgTimeout
  /-- DCHG_LOCK_END (R159). -/
  | dchgLockEnd
  /-- GDL_TRANSFER_DONE (R160). -/
  | gdlTransferDone (link : Nat) (rx : List Nat)
  /-- GDL_REQUEST_ENTRY (R163). -/
  | gdlRequestEntry (sess : Nat) (data : List Byte)
  /-- GDL_SETUP_RERUN (R163). -/
  | gdlSetupRerun (sess : Nat) (data : List Byte)
  /-- HEARTH_BLOCK_BOUNDARY (R165). -/
  | hearthBlockBoundary (pdm : List (List Bool))
  /-- BLOCK_OVERRUN (R186). -/
  | blockOverrun
  /-- ALIGNMENT_SHIFT (R168). -/
  | alignmentShift (k : Nat)
  /-- CHIME_PLAY (R170). -/
  | chimePlay (g : Nat) (sess : Nat) (data : List Byte)
  /-- CHIME_STOP (R170). -/
  | chimeStop (g : Nat) (sess : Nat) (data : List Byte)
  /-- ACC_READ_DONE (R191). -/
  | accReadDone (n : Nat) (bytes : List Nat)
  /-- IDENTIFICATION_REQUEST (R197). -/
  | identificationRequest (sess : Nat) (data : List Byte)
  /-- IDENT_POINT_DONE (R197). -/
  | identPointDone
  /-- DIVERGED_HOLD_END (R199). -/
  | divergedHoldEnd (m : Nat) (k : Nat)
  /-- SPEAKER_RESISTANCE_ESTIMATE (R204). -/
  | speakerResistanceEstimate (k : Nat)
  /-- ADOPT_IDENTIFICATION (R216). -/
  | adoptIdentification (sess : Nat) (data : List Byte)
  /-- TAP_TEST_SWEEP (R218). -/
  | tapTestSweep (sess : Nat) (data : List Byte)
  /-- TAP_TEST_STANDSTILL (R218). -/
  | tapTestStandstill (sess : Nat) (data : List Byte)
  /-- TAP_TEST_PHASE (R218). -/
  | tapTestPhase (sess : Nat) (data : List Byte)
  /-- TAP_TEST_SPIN (R225). -/
  | tapTestSpin (sess : Nat) (data : List Byte)
  /-- TAP_TEST_ABORT (R221). -/
  | tapTestAbort (sess : Nat) (data : List Byte)
  /-- TAP_STEP_DONE (R222). -/
  | tapStepDone
  /-- DRIFT_WINDOW_END (R229). -/
  | driftWindowEnd (m : Nat)
  /-- IMBALANCE_WINDOW_END (R230). -/
  | imbalanceWindowEnd (m : Nat)
  /-- TEST_SIGNAL_START (R233). -/
  | testSignalStart (sess : Nat) (data : List Byte)
  /-- TEST_SIGNAL_STOP (R233). -/
  | testSignalStop (sess : Nat) (data : List Byte)
  /-- TEST_SIGNAL_DURATION_END (R233). -/
  | testSignalDurationEnd
  /-- CAPTURE_START (R235). -/
  | captureStart (sess : Nat) (data : List Byte)
  /-- CAPTURE_STOP (R235). -/
  | captureStop (sess : Nat) (data : List Byte)
  /-- CAPTURE_DISCARD (R235). -/
  | captureDiscard (sess : Nat) (data : List Byte)
  /-- ASP_FRAME (R246). -/
  | aspFrame (n : Nat) (cycles : List BitCycle)
  /-- LEAD_IN_END (R241). -/
  | leadInEnd (n : Nat)
  /-- LEAD_OUT_END (R242). -/
  | leadOutEnd (n : Nat)
  /-- ASP_CLOCK_LOSS (R251). -/
  | aspClockLoss (n : Nat)
  /-- PDM_WAKE_END (R255). -/
  | pdmWakeEnd (k : Nat)
  /-- LISTENER_PDU (R257). -/
  | listenerPdu (n : Nat) (backlog : Nat) (pdu : AafPdu)
  /-- LISTENER_TIMEOUT (R257). -/
  | listenerTimeout (n : Nat)
  /-- CRUST_INPUT_SAMPLE (R261). -/
  | crustInputSample (sin : Nat) (srst : Bool) (rbh : Bool) (rbl : Bool)
  /-- CRUST_CYCLE (R262). -/
  | crustCycle
  /-- TEST_PULSE (R269). -/
  | testPulse (n : Nat)
  /-- SRST_STUCK (R274). -/
  | srstStuck
  /-- LANE_WATCHDOG_EXPIRY (R277). -/
  | laneWatchdogExpiry
  /-- HEARTH_WATCHDOG_EXPIRY (R278). -/
  | hearthWatchdogExpiry
  /-- HEARTH_GATE_REOPEN (R278). -/
  | hearthGateReopen
  /-- SAFE_OFF_MAX_WAIT (R284). -/
  | safeOffMaxWait
  /-- SAFE_OFF_TEST_REQUEST (R286). -/
  | safeOffTestRequest (sess : Nat) (data : List Byte)
  /-- SAFE_OFF_TEST_STEP_END (R286). -/
  | safeOffTestStepEnd
  /-- OFF_PULSE_START (R287). -/
  | offPulseStart
  /-- OFF_PULSE_END (R287). -/
  | offPulseEnd
  /-- CRUST_FAULT (R294). -/
  | crustFault (kind : CrustFaultKind)
  /-- BEDROCK_TONE_ALTERNATION (R288). -/
  | bedrockToneAlternation
  /-- BEDROCK_STATUS_FRAME (R299). -/
  | bedrockStatusFrame
  /-- LOCKSTEP_MISMATCH (R290). -/
  | lockstepMismatch
  /-- HK_ROUND_BOUNDARY (R304). -/
  | hkRoundBoundary
  /-- HK_SLOT_CONVERSION (R306). -/
  | hkSlotConversion (slot : Nat) (code : Nat)
  /-- EVENT_SLOT_GROUP (R307). -/
  | eventSlotGroup (codes : List Nat)
  /-- THERMAL_STOP_ENTRY (R317). -/
  | thermalStopEntry
  /-- THERMAL_STOP_RELEASE (R318). -/
  | thermalStopRelease
  /-- YOAP_FRAME (R346). -/
  | yoapFrame (p : Packet) (bytes : List Byte)
  /-- READ (R329). -/
  | readItem (sess : Nat) (idx : Nat) (sub : Nat)
  /-- WRITE (R330). -/
  | writeItem (sess : Nat) (idx : Nat) (sub : Nat) (data : List Byte)
  /-- READ_SEG (R355). -/
  | readSeg (sess : Nat) (idx : Nat) (sub : Nat) (offset : Nat) (maxLen : Nat)
  /-- WRITE_SEG (R355). -/
  | writeSeg (sess : Nat) (idx : Nat) (sub : Nat) (offset : Nat) (last : Bool) (data : List Byte)
  /-- OPEN (R349). -/
  | openSession (p : Packet) (slot : Nat) (nonce : Nat)
  /-- CLOSE (R350). -/
  | closeSession (sess : Nat)
  /-- NOP (R350). -/
  | nopItem (sess : Nat)
  /-- IMAGE (R357). -/
  | imageItem (sess : Nat) (n : Nat) (p : Packet) (seq : Nat) (data : List Byte)
  /-- COMMIT (R38). -/
  | commitSets (sess : Nat) (data : List Byte)
  /-- COMMIT_CHECKS_DONE (R38). -/
  | commitChecksDone
  /-- DISCARD_STAGED (R37). -/
  | discardStaged (sess : Nat) (data : List Byte)
  /-- SAVE (R336). -/
  | saveGroups (sess : Nat) (data : List Byte)
  /-- SAVE_DONE (R336). -/
  | saveDone (groups : Nat) (ok : Bool)
  /-- RESTORE_DEFAULTS (R338). -/
  | restoreDefaults (sess : Nat) (data : List Byte)
  /-- BLOB_TRANSFER_TIMEOUT (R332). -/
  | blobTransferTimeout (idx : Nat) (sub : Nat)
  /-- SESSION_IDLE_TIMEOUT (R350). -/
  | sessionIdleTimeout (sess : Nat)
  /-- IMAGE_TIMEOUT (R359). -/
  | imageTimeout (n : Nat)
  /-- KEY_SLOT_WRITE (R353). -/
  | keySlotWrite (k : Nat) (sess : Nat) (data : List Byte)
  /-- STATE_REQUEST_READY (R413). -/
  | stateRequestReady (sess : Nat) (data : List Byte)
  /-- STATE_REQUEST_RUN (R413). -/
  | stateRequestRun (sess : Nat) (data : List Byte)
  /-- STATE_REQUEST_SERVICE (R413). -/
  | stateRequestService (sess : Nat) (data : List Byte)
  /-- STATE_REQUEST_STANDBY (R418). -/
  | stateRequestStandby (sess : Nat) (data : List Byte)
  /-- RUN_EXIT_FADE_END (R414). -/
  | runExitFadeEnd
  /-- CLEAR_SHUTDOWN_CAUSE (R420). -/
  | clearShutdownCause (sess : Nat) (data : List Byte)
  /-- ARP_REQUEST (R341). -/
  | arpRequest (p : Packet) (ip : Nat) (sender : List Byte)
  /-- ICMP_ECHO (R341). -/
  | icmpEcho (p : Packet) (payload : List Byte)
  /-- FRAME_FORWARD (R343). -/
  | frameForward (f : EthFrame)
  /-- SGMII_LINK_DOWN (R359). -/
  | sgmiiLinkDown (port : Nat)
  /-- GPTP_SYNC (R361); backlog frames wait in Q2. -/
  | gptpSync (port : Nat) (backlog : Nat) (domain : Nat) (origin : Nat) (correction : Nat) (interval : Nat) (rate : Int)
  /-- PDELAY_REQUEST (R361); backlog frames wait in Q2. -/
  | pdelayRequest (port : Nat) (backlog : Nat) (body : List Byte)
  /-- GPTP_LOSS (R361). -/
  | gptpLoss
  /-- BENCH_TRANSACTION (R364). -/
  | benchTransaction (clocks : Nat) (word : Nat)
  /-- BENCH_READ (R366). -/
  | benchRead (addr : Nat)
  /-- BENCH_WRITE (R367). -/
  | benchWrite (addr : Nat) (data : Nat)
  /-- BOOT_HOLD (R369). -/
  | bootHold
  /-- BOOT_GO (R369). -/
  | bootGo
  /-- BANK_VERIFICATION_DONE (R369). -/
  | bankVerificationDone (eccA : Bool) (eccB : Bool)
  /-- ERASE_BANK (R370). -/
  | eraseBank (bank : Nat)
  /-- PROGRAM_CHUNK (R370). -/
  | programChunk (bank : Nat) (chunk : Nat)
  /-- VERIFY_BANK (R370). -/
  | verifyBank (bank : Nat)
  /-- STARTER_IMPORT_CHUNK (R370). -/
  | starterImportChunk (chunk : Nat)
  /-- STARTER_IMPORT_COMMIT (R392). -/
  | starterImportCommit
  /-- KEY_SLOT_RESET (R370). -/
  | keySlotReset
  /-- PERSISTED_SET_ERASE (R370). -/
  | persistedSetErase
  /-- RECOVERY_ACTION_DONE (R370). -/
  | recoveryActionDone (ok : Bool)
  /-- UNLOCK_HI (R372). -/
  | unlockHi (data : Nat)
  /-- UNLOCK_LO (R372). -/
  | unlockLo (data : Nat)
  /-- UNLOCK_LOCKOUT_END (R372). -/
  | unlockLockoutEnd
  /-- CTC_COMMIT (R373). -/
  | ctcCommit (data : Nat)
  /-- BENCH_START (R373). -/
  | benchStart (data : Nat)
  /-- TROUGH_MARK (R376); gptp is the Summit's gPTP offset that its service traffic carries, none while gPTP is absent there (R378). -/
  | troughMark (fn : Nat) (period : Nat) (gptp : Option Nat) (summit : Bool)
  /-- TIMEBASE_LOSS (R381). -/
  | timebaseLoss
  /-- RIDGE_LINK_LOSS (R375). -/
  | ridgeLinkLoss (upper : Bool)
  /-- RIDGE_LINK_UP (R375). -/
  | ridgeLinkUp (upper : Bool)
  /-- RIDGE_HOP_REMEASURE (R377). -/
  | ridgeHopRemeasure (trips : List Nat)
  /-- RIDGE_TRIP (R380). -/
  | ridgeTrip (upper : Bool) (on : Bool)
  /-- SPLIT_MACHINE_RECORD (R384). -/
  | splitMachineRecord (m : Nat) (r : SplitRecord)
  /-- HAND_OFF (R386). -/
  | handOff (m : Nat)
  /-- TWIN_SWAP (R386). -/
  | twinSwap (sess : Nat) (data : List Byte)
  /-- FLASH_OPERATION_DONE (R388). -/
  | flashOperationDone (ok : Bool)
  /-- UPDATE_ERASE (R398). -/
  | updateErase (sess : Nat) (data : List Byte)
  /-- UPDATE_VERIFY (R398). -/
  | updateVerify (sess : Nat) (data : List Byte)
  /-- UPDATE_ACTIVATE (R398). -/
  | updateActivate (sess : Nat) (data : List Byte)
  /-- UPDATE_CONFIRM (R398). -/
  | updateConfirm (sess : Nat) (data : List Byte)
  /-- UPDATE_ABORT (R398). -/
  | updateAbort (sess : Nat) (data : List Byte)
  /-- UPDATE_ACTION_DONE (R398). -/
  | updateActionDone (ok : Bool)
  /-- REF_LOST (R403). -/
  | refLost (deviation : Int)
  /-- REF_RETURN (R404). -/
  | refReturn
  /-- NPOR_RISE (R406). -/
  | nporRise (straps : Nat) (ref : Bool)
  /-- NPOR_FALL (R408). -/
  | nporFall
  /-- NRST_LOW (R409). -/
  | nrstLow
  /-- NRST_RISE (R409). -/
  | nrstRise (aon : Nat)
  /-- VAON_LOST (R412). -/
  | vaonLost
  /-- WAKE (R419). -/
  | wakeUp (pin : Bool) (t1s : Bool)
  /-- FAILED_WAKE (R419). -/
  | failedWake
  /-- PROOFING_STEP_DONE (R416). -/
  | proofingStepDone (r : ProofResult)
  /-- ACC_READ_START (R191). -/
  | accReadStart (n : Nat)
  /-- SGMII_LINK_UP (R360). -/
  | sgmiiLinkUp (port : Nat)
  /-- PDELAY_RESPONSE (R361); backlog frames wait in Q2. -/
  | pdelayResponse (port : Nat) (backlog : Nat) (t1 : Nat) (t2 : Nat) (t3 : Nat) (t4 : Nat)
  /-- PLL_SLEW_COMPLETE (R404). -/
  | pllSlewComplete
  /-- BANK_STARTED (R412). -/
  | bankStarted
  /-- VAON_APPLIED (R405). -/
  | vaonApplied
  /-- CAN_BUS_OFF (R341). -/
  | canBusOff (n : Nat)
  /-- CAN_BUS_OFF_RECOVERY (R341). -/
  | canBusOffRecovery (n : Nat)
  /-- LEARNING_TABLE_AGEING (R343). -/
  | learningTableAgeing (mac : Nat)
  /-- SERVICE_CORES_RESUME (R290). -/
  | serviceCoresResume
  deriving DecidableEq, Repr

end Sys2Proof
end

