-- ==== Sys2Proof/Machine/TypesHk.lean ====
section
/-! DEFINITION. State of housekeeping and the thermal logic (chapter 15). -/

namespace Sys2Proof.Machine

/-- One slot of the round: the filtered value v (single precision), the value and time taken in the running round, the published value and
time, the code checks of R309, and the filtered value of the latest nine rounds in 1/64 of the unit, newest first (R312). -/
structure HkSlot where
  v : Rat := 0
  fresh : Bool := false
  freshTime : Nat := 0
  value : Rat := 0
  time : Nat := 0
  converted : Bool := false
  valid : Bool := false
  bad : Nat := 0
  good : Nat := 0
  invalid : Bool := false
  hist : List Int := []
  deriving DecidableEq, Repr

/-- One threshold (R311). -/
structure HkThreshold where
  on : Bool := false
  count : Nat := 0
  activations : Nat := 0
  deriving DecidableEq, Repr

/-- Housekeeping. boundary is the counter value of the latest round boundary; eventPending marks a triggered event group, eventUntil the end of the latest one that ran; trims are the
corrections of Table 15-3 in steps, safeInUse the SAFE code applied at the latest Crust cycle boundary; dieHist holds the published values of
the four die sensors of the latest nine rounds, newest first (Table 15-5). stopAt is 0 for no THERMAL STOP, 1 for one entered at the
threshold, 2 for one at the hard limit; hardSeen the mark of a THERMAL STOP at 175 °C since its entry (R298). -/
structure HkState where
  running : Bool := false
  boundary : Nat := 0
  rounds : Nat := 0
  slots : List HkSlot := List.replicate 32 {}
  eventPending : Bool := false
  eventUntil : Nat := 0
  dropped : Nat := 0
  drop : Bool := false
  tDie : Rat := 0
  tMed : Rat := 0
  tSensor : Nat := 0
  excluded : List Bool := [false, false, false, false]
  dieCount : List Nat := [0, 0, 0, 0]
  dieHist : List (List Rat) := []
  thresholds : List HkThreshold := List.replicate 16 {}
  trims : List Int := [0, 0, 0, 0]
  safeInUse : Int := 0
  trimLimit : Bool := false
  supply : Nat := 0
  warn : Bool := false
  warnCount : Nat := 0
  warnings : Nat := 0
  hot : Bool := false
  hotCount : Nat := 0
  stops : Nat := 0
  stopAt : Nat := 0
  hardSeen : Bool := false
  deriving DecidableEq, Repr

end Sys2Proof.Machine
end

