-- ==== Sys2Proof/Machine/Hk.lean ====
section
/-! DEFINITION. Housekeeping (chapter 15): the round and its slots, conversion, the die temperature in use, thresholds, compensation and
the thermal decisions. -/

namespace Sys2Proof.Machine

/-- The entry of slot s (Table 15-4); a slot past the round recipe is idle (R305). -/
def hkEntry (c : Store) (s : Nat) : Nat := if 8 ≤ s && s < 8 + c.u 0xA400 1 then c.u 0xA400 (s + 1) else 0

/-- The slot's type (Table 15-1): die sensors and supply monitors are fixed; 0 for a slot that is idle or not enabled. -/
def hkType (c : Store) (s : Nat) : Nat :=
  if s < 4 then 1 else if s < 8 then 5 else if bit (hkEntry c s) 31 then bits (hkEntry c s) 23 20 else 0

/-- Whether a slot is an event slot in use (R307). -/
def hkEvent (c : Store) (s : Nat) : Bool := hkType c s != 0 && bit (hkEntry c s) 30 && decide (29 ≤ s ∧ s < 32)

/-- The event slots, ascending. -/
def hkEventSlots (c : Store) : List Nat := [29, 30, 31].filter (hkEvent c)

/-- Acquisition time in µs; the fixed slots, whose ACQ the spec does not give, take 1 µs (log 44). -/
def hkAcq (c : Store) (s : Nat) : Nat := if s < 8 then 1 else bits (hkEntry c s) 19 16 + 1

/-- The value of a code (Table 15-1). -/
def hkValue (c : Store) (s code : Nat) : Rat :=
  let x : Rat := mkRat code 4096
  let a := c.f 0xA410 (s + 1)
  let b := c.f 0xA411 (s + 1)
  let r : Rat := c.f 0xA412 (s + 1) * x / (1 - x)
  match hkType c s with
  | 1 => c.pf 0xB432 (3 * s + 1) + c.pf 0xB432 (3 * s + 2) * code + c.pf 0xB432 (3 * s + 3) * code * code
  | 2 =>
    if a = 0 ∨ b = 0 ∨ r / a ≤ 0 then Config.slotValueOpen s code else
    let d : Rat := 1 / (29815 / 100) + lnR (r / a) / b
    if d = 0 then Config.slotValueOpen s code else 1 / d - 27315 / 100
  | 3 => if a = 0 ∨ b = 0 then Config.slotValueOpen s code else (r / a - 1) / b
  | 4 => a * x + b
  | 5 => c.pf 0xB433 (s - 3) * (3 / 2) * x
  | _ => 0

namespace HkState

/-- A slot. -/
def slot (h : HkState) (n : Nat) : HkSlot := nth h.slots n {}

/-- A slot as the configured consumers see it: its value when it is valid (R309). -/
def slotValid (h : HkState) (n : Nat) : Option Rat := if (h.slot n).valid then some (h.slot n).value else none

end HkState

/-- R309: the checks of a code. -/
def HkSlot.check (x : HkSlot) (on : Bool) (code : Nat) : HkSlot :=
  if !on then { x with bad := 0, good := 0, invalid := false } else
  if code ≤ 8 ∨ 4088 ≤ code then
    { x with bad := min 3 (x.bad + 1), good := 0, invalid := x.invalid || decide (2 ≤ x.bad) }
  else { x with bad := 0, good := min 3 (x.good + 1), invalid := x.invalid && decide (x.good < 2) }

/-- R306: a round conversion of slot s, its result filtered by v := v + (y − v) / 2^FILT. While the slot is invalid v keeps its value. -/
def HkSlot.convert (c : Store) (s code time : Nat) (x : HkSlot) : HkSlot :=
  let x := x.check (bit (hkEntry c s) 12) code
  let y := f32R (hkValue c s code)
  { x with
    v := if x.invalid then x.v else f32R (x.v + (y - x.v) / (2 ^ (if s < 8 then 0 else bits (hkEntry c s) 15 13) : Nat))
    fresh := true, freshTime := time }

/-- R306: publication at the round boundary; a slot not converted in the round that ended is no valid slot. -/
def HkSlot.publish (x : HkSlot) : HkSlot :=
  if !x.fresh then { x with converted := false, valid := false, hist := [] } else
  let ok := !x.invalid
  { x with
    fresh := false, converted := true, valid := ok, value := if ok then x.v else x.value, time := x.freshTime
    hist := if ok then (roundAway (x.v * 64) :: x.hist).take 9 else [] }

/-- R307: the end of an event slot's conversion; its value is published at once, unfiltered. -/
def HkSlot.event (c : Store) (s code time : Nat) (x : HkSlot) : HkSlot :=
  let x := x.check (bit (hkEntry c s) 12) code
  let y := f32R (hkValue c s code)
  if x.invalid then { x with converted := true, valid := false, time := time }
  else { x with converted := true, valid := true, v := y, value := y, time := time }

namespace HkState

/-- HK_SLOT_CONVERSION: slot s of the running round is converted, if it is no event slot. -/
def convert (c : Store) (s code : Nat) (h : HkState) : HkState :=
  if !h.running || hkType c s = 0 || hkEvent c s then h else
  { h with slots := upd h.slots s (HkSlot.convert c s code (h.boundary + 6250 * s + 200 * hkAcq c s)) }

/-- R307: a housekeeping trigger. One that arrives while a group is pending or running is dropped and counted. -/
def trigger (c : Store) (now : Nat) (h : HkState) : HkState :=
  if !h.running || (hkEventSlots c).isEmpty then h
  else if h.eventPending || decide (now < h.eventUntil) then { h with dropped := inc32 h.dropped, drop := true } else { h with eventPending := true }

/-- The conversions of one event group, back to back. -/
def eventGo (c : Store) : List Nat → List Nat → Nat → List HkSlot → List HkSlot
  | s :: ss, code :: cs, t, l =>
    let t' := t + 200 * hkAcq c s
    eventGo c ss cs (t' + 200) (upd l s (HkSlot.event c s code t'))
  | _, _, _, l => l

/-- EVENT_SLOT_GROUP: the event slots converted in ascending order from the group's start, back to back (R307). -/
def eventGroup (c : Store) (start : Nat) (codes : List Nat) (h : HkState) : HkState :=
  if !h.eventPending then h else
  { h with
    eventPending := false, eventUntil := start + 200 * ((hkEventSlots c).map (fun s => hkAcq c s + 1)).foldl (· + ·) 0
    slots := eventGo c (hkEventSlots c) (codes.map (min 4095)) start h.slots }

/-- The median of a list of numbers, or the mean of the middle two. -/
def medianOf (l : List Rat) : Rat :=
  let a := sortAsc l
  let n := a.length
  if n = 0 then 0 else if n % 2 = 1 then nth a (n / 2) 0 else (nth a (n / 2 - 1) 0 + nth a (n / 2) 0) / 2

/-- R310: the die temperature in use, its sensor, the median, and the sensors excluded in this round. -/
def die (h : HkState) : HkState × List Nat :=
  let use := (List.range 4).filter (fun i => !nth h.excluded i false && (h.slot i).valid)
  if use.isEmpty then (h, []) else
  let val (i : Nat) : Rat := (h.slot i).value
  let others (i : Nat) : List Rat := (use.filter (· != i)).map val
  let far (i : Nat) : Bool := !(others i).isEmpty && decide (10 < absR (val i - medianOf (others i)))
  let count := (List.range 4).map (fun i => if use.contains i && far i then nth h.dieCount i 0 + 1 else 0)
  let new := (List.range 4).filter (fun i => decide (3 ≤ nth count i 0))
  let left := use.filter (fun i => !new.contains i)
  let agree := left.filter (fun i => !far i)
  let pool := if agree.isEmpty then left else agree
  let top := pool.foldl (fun a i => if val a < val i then i else a) (nth pool 0 h.tSensor)
  ({ h with
      excluded := (List.range 4).map (fun i => nth h.excluded i false || new.contains i)
      dieCount := count.map (fun n => if 3 ≤ n then 0 else n)
      tDie := if pool.isEmpty then h.tDie else val top, tSensor := top
      tMed := if left.isEmpty then h.tMed else f32R (medianOf (left.map val)) }, new)

/-- The slope of R312, per second, when it may be evaluated. -/
def slope (x : HkSlot) : Option Rat :=
  if 9 ≤ x.hist.length then some (mkRat (nth x.hist 0 0 - nth x.hist 8 0) 64 * 125) else none

/-- R311: one evaluation. The count runs in either direction and a miss resets it. -/
def HkThreshold.step (x : HkThreshold) (up down : Bool) (c : Nat) : HkThreshold :=
  let n := if (if x.on then down else up) then x.count + 1 else 0
  if c ≤ n then { x with on := !x.on, count := 0, activations := if x.on then x.activations else inc32 x.activations }
  else { x with count := n }

/-- R311, R312: threshold n at a round boundary; one that is not enabled is inactive (log 44). -/
def threshold (c : Store) (h : HkState) (n : Nat) (x : HkThreshold) : HkThreshold :=
  let w := c.u 0xA010 (n + 1)
  let sl := h.slot (bits w 4 0)
  let lvl := c.f 0xA011 (n + 1)
  let hy := c.f 0xA012 (n + 1)
  if !bit w 31 then { x with on := false, count := 0 } else
  if !sl.valid then { x with count := 0 } else
  let v : Option Rat := if bits w 30 29 = 2 then slope sl else some sl.value
  match v with
  | none => { x with count := 0 }
  | some v =>
    if bits w 30 29 = 1 then HkThreshold.step x (decide (v < lvl)) (decide (lvl + hy < v)) (bits w 23 20 + 1)
    else HkThreshold.step x (decide (lvl < v)) (decide (v < lvl - hy)) (bits w 23 20 + 1)

/-- The ranges of Table 15-3 in steps. -/
def trimSpan (i : Nat) : Int := nth [40, 40, 60, 100] i 0

/-- The trims' Starter-set values at 25 °C, with which they start (R300). -/
def trimStart (c : Store) (h : HkState) : HkState :=
  let t (i : Nat) : Int := clampI (-(trimSpan i)) (trimSpan i) (c.pi 0xB430 (i + 1))
  { h with trims := [t 0, t 1, t 2, t 3], safeInUse := t 0 }

/-- R314, Table 15-3: each trim moves by at most one step towards its value at 25 °C plus the correction, within its range. -/
def compensate (c : Store) (h : HkState) : HkState :=
  let dt := h.tMed - 25
  let goal (i : Nat) : Int := c.pi 0xB430 (i + 1) + roundAway (c.pf 0xB431 (2 * i + 1) * dt + c.pf 0xB431 (2 * i + 2) * dt * dt)
  let aim (i : Nat) : Int :=
    let x := nth h.trims i 0
    let g := clampI (-(trimSpan i)) (trimSpan i) (goal i)
    if x < g then x + 1 else if g < x then x - 1 else x
  { h with
    trims := [aim 0, aim 1, aim 2, aim 3]
    trimLimit := (List.range 4).any (fun i => decide (trimSpan i ≤ aim i ∨ aim i ≤ -(trimSpan i))) }

/-- The operating ranges of VDD08, VDDIO, VDDA18 and VAON in V (Table 22-6). -/
def supplySpan (i : Nat) : Rat × Rat :=
  match i with
  | 0 => (76 / 100, 84 / 100)
  | 1 => (3135 / 1000, 3465 / 1000)
  | 2 => (171 / 100, 189 / 100)
  | _ => (297 / 100, 363 / 100)

/-- R315: the supply monitors outside their ranges. -/
def supplies (h : HkState) : Nat :=
  ofBits ((List.range 4).map (fun i =>
    (h.slot (4 + i)).valid && (decide ((h.slot (4 + i)).value < (supplySpan i).1) || decide ((supplySpan i).2 < (h.slot (4 + i)).value))))

/-- R316: the warning and the stop threshold, confirmed and released alike on T_die. -/
def confirm (on : Bool) (count : Nat) (up down : Bool) (c : Nat) : Bool × Nat :=
  let n := if (if on then down else up) then count + 1 else 0
  if c ≤ n then (!on, 0) else (on, n)

/-- What one round boundary reports to the rest of the device: die sensors newly excluded, thresholds that changed with ACTION 0b01, a new
warning, a new supply fault, a confirmed stop, a confirmed release, and the hard limit. -/
structure Report where
  excluded : List Nat := []
  changed : List Nat := []
  warned : Bool := false
  supply : Bool := false
  stop : Bool := false
  release : Bool := false
  hard : Bool := false
  deriving DecidableEq, Repr

/-- A round boundary (R304): publication, die temperature, thresholds, trims, supplies and the thermal decisions. -/
def round (c : Store) (now : Nat) (h : HkState) : HkState × Report :=
  let h : HkState := { h with boundary := now, rounds := inc32 h.rounds, slots := h.slots.mapIdx (fun i (x : HkSlot) => if hkEvent c i then x else x.publish) }
  let (h, new) := h.die
  let h : HkState := { h with dieHist := (((List.range 4).map (fun i => (h.slot i).value)) :: h.dieHist).take 9 }
  let th := h.thresholds.mapIdx (fun n (x : HkThreshold) => threshold c h n x)
  let changed := (List.range 16).filter (fun n =>
    bits (c.u 0xA010 (n + 1)) 28 27 == 1 && bit (c.u 0xA010 (n + 1)) 31 && (nth th n {}).on != (nth h.thresholds n {}).on)
  let h := compensate c { h with thresholds := th }
  let sup := h.supplies
  let newSup := (List.range 4).any (fun i => bit sup i && !bit h.supply i)
  let stop := c.pf 0xA004 2
  let rel := stop - c.pf 0xA004 3
  let n := c.pv 0xA004 4
  let (w, wc) := confirm h.warn h.warnCount (decide (c.pf 0xA004 1 < h.tDie)) (decide (h.tDie < rel)) n
  let (s, sc) := confirm h.hot h.hotCount (decide (stop < h.tDie)) (decide (h.tDie < rel)) n
  let hard := decide (175 ≤ h.tDie)
  ({ h with
      supply := sup, warn := w, warnCount := wc, warnings := if w && !h.warn then inc32 h.warnings else h.warnings
      hot := s, hotCount := sc },
   { excluded := new, changed := changed, warned := w && !h.warn, supply := newSup, stop := s && !h.hot, release := h.hot && !s, hard := hard })

/-- Table 15-9. -/
def status (inStop : Bool) (h : HkState) : Nat :=
  h.supply * 4096 + ofBits h.excluded * 256 + 16 * b2n h.drop + 8 * b2n inStop + 4 * b2n h.warn + 2 * b2n h.trimLimit + b2n h.running

/-- An I16 in tenths. -/
def tenths (x : Rat) : Nat := ofInt 16 (clampI (-32767) 32767 (roundAway (x * 10)))

/-- The largest die slope of the latest 8 rounds in K/s. -/
def dieSlope (h : HkState) : Rat :=
  let s (i : Nat) : Rat := (nth (nth h.dieHist 0 []) i 0 - nth (nth h.dieHist 8 []) i 0) * 125
  if h.dieHist.length < 9 then 0 else (List.range 4).foldl (fun a i => maxR a (s i)) (s 0)

/-- Table 15-5, bytes 0 to 59: the thermal record of an entry at the stop threshold. -/
def record (c : Store) (state fn now nvm sector : Nat) (h : HkState) : List Byte :=
  let t (i : Nat) : Nat :=
    if i < 4 then (if nth h.excluded i false then 0x8000 else tenths (h.slot i).value)
    else if (hkType c i == 2 || hkType c i == 3) && (h.slot i).valid then tenths (h.slot i).value else 0x8000
  toBytes 2 1 ++ [BitVec.ofNat 8 1, BitVec.ofNat 8 state] ++ toBytes 4 fn ++ toBytes 8 now
    ++ (([0, 1, 2, 3] ++ [8, 9, 10, 11, 12, 13, 14, 15]).map (fun i => toBytes 2 (t i))).flatten
    ++ toBytes 2 (tenths h.dieSlope) ++ [BitVec.ofNat 8 nvm, 0] ++ toBytes 4 sector ++ List.replicate 12 0

/-- Table 15-6: the retained register of the hard limit. -/
def retained (fn nvm sector : Nat) (h : HkState) : Nat :=
  2 * 2 ^ 60 + (nvm % 4) * 2 ^ 58 + (h.tSensor % 4) * 2 ^ 56 + (clampI 0 4095 (roundAway ((h.tDie + 40) * 10))).toNat * 2 ^ 44
    + (sector % 4096) * 2 ^ 32 + fn % 2 ^ 32

end HkState

end Sys2Proof.Machine
end

