-- ==== Sys2Proof/Machine/TypesMod.lean ====
section
/-! DEFINITION. State of the modulation engine (chapter 06): on-times in steps of 156.25 ps, periods in counts of 5 ns. -/

namespace Sys2Proof.Machine

/-- An output edge of the running period: steps after the Trough, and the level it sets. -/
structure Edge where
  at_ : Int
  level : Bool
  deriving DecidableEq, Repr

/-- The modulation of one machine: the compare shadow the vote loads, the active on-times of the two halves (d1 from the Trough,
d2 from the Crest), the running and the published next period, the period against which the shadow was computed, the gate edges of
the running period, and per half-bridge the commanded level and the turn-on times of its gates relative to the Trough. -/
structure ModMachine where
  shadow : Option (List Nat) := none
  d1 : List Nat := List.replicate 6 0
  d2 : List Nat := List.replicate 6 0
  period : Nat := 20000
  next : Nat := 20000
  computedFor : Nat := 20000
  zs : Int := 0
  zsNext : Int := 0
  mode : Nat := 0
  double : Bool := false
  edgesH : List (List Edge) := List.replicate 6 []
  edgesL : List (List Edge) := List.replicate 6 []
  level : List Bool := List.replicate 6 false
  onH : List Int := List.replicate 6 0
  onL : List Int := List.replicate 6 0
  noDuty : Bool := true
  minPulse : Bool := false
  dutyClamp : Bool := false
  ctcMiss : Bool := false
  adjustments : Nat := 0
  deriving DecidableEq, Repr

/-- One speaker bridge (R136 to R139): period, noise-shaper states, latest integer n and on-times, and its status bits. -/
structure SpkBridge where
  started : Bool := false
  ps : Nat := 10667
  filt : List Rat := [0, 0, 0, 0, 0]
  level : List Bool := [false, false]
  onH : List Int := [0, 0]
  onL : List Int := [0, 0]
  clear : Bool := false
  n : Int := 0
  dA : Nat := 0
  dB : Nat := 0
  edges : List (List Edge) := []
  shaperClip : Bool := false
  shaperOvl : Bool := false
  minPulse : Bool := false
  overloads : Nat := 0
  clips : Nat := 0
  enabled : Bool := true
  deriving DecidableEq, Repr

/-- One event source (R133): occurrences since it last fired, and the system counter of the last logged occurrence. -/
structure EventSource where
  armed : Bool := false
  count : Nat := 0
  last : Nat := 0
  deriving DecidableEq, Repr

/-- The modulation engine: both machines, both speaker bridges, the twelve event sources, the spread register (R122), the shaped
pattern index (R123), the enables in force (R131), and the last housekeeping trigger's time (R135). -/
structure ModState where
  m : List ModMachine := [{}, {}]
  spk : List SpkBridge := [{}, {}]
  events : List EventSource := List.replicate 12 {}
  lfsr : Nat := 1
  pattern : Nat := 0
  enabled : List Bool := [true, true]
  lastTrigger : Option Nat := none
  deriving DecidableEq, Repr

end Sys2Proof.Machine
end

