-- ==== Sys2Proof/Machine/Modul.lean ====
section
/-! DEFINITION. The modulation engine's arithmetic (chapter 06): clamp and ratio hold (R44, R45), snap and lengthening (R126),
edge placement (R119, R121), dead time (R127), deskew (R128), spread and shaped periods (R122, R123), speaker bridges (R136 to
R138). -/

namespace Sys2Proof.Machine

/-- The dead time and minimum pulse of a machine in steps (0x5400.02, .03; 0x5410.02, .03). -/
def deadTime (c : Store) (m : Nat) : Nat := c.u (0x5400 + 0x10 * m) 2
/-- The minimum pulse of a machine in steps. -/
def minPulse (c : Store) (m : Nat) : Nat := c.u (0x5400 + 0x10 * m) 3
/-- The nominal period of a machine in counts (0x5400.01, 0x5410.01). -/
def nominalPeriod (c : Store) (m : Nat) : Nat := c.u (0x5400 + 0x10 * m) 1
/-- The modulation mode configured for a machine. -/
def modMode (c : Store) (m : Nat) : Nat := c.u (0x5000 + 0x10 * m) 2
/-- Double update configured for a machine. -/
def doubleUpdate (c : Store) (m : Nat) : Bool := c.u (0x5000 + 0x10 * m) 3 == 1

/-- Periods per M1 period: k (R26), 1 where the periods are in no such ratio. -/
def ratioK (c : Store) : Nat :=
  let k := nominalPeriod c 1 / (max 1 (nominalPeriod c 0))
  if k = 0 then 1 else min 4 k

/-! ### A new period with old compares (R44, R45) -/

/-- R44: clamp to [minimum pulse, period − minimum pulse]; 0 stays 0 and a full on-time becomes the new period. Steps. -/
def clampCompare (tm pOld pNew d : Nat) : Nat :=
  if d = 0 then 0 else if d = 32 * pOld then 32 * pNew else clampN tm (32 * pNew - tm) d

/-- R45: scale by the ratio of the periods and round to the step. -/
def scaleCompare (pOld pNew d : Nat) : Nat := (roundAway (mkRat (d * pNew) (max 1 pOld))).toNat

/-- The on-times of one machine after R44 or R45, and whether DUTY_CLAMP is set. -/
def refit (ratioHold : Bool) (tm pOld pNew : Nat) (l : List Nat) : List Nat × Bool :=
  if pOld = pNew then (l, false)
  else if ratioHold then
    let sc := l.map (fun d => if d = 32 * pOld then 32 * pNew else scaleCompare pOld pNew d)
    let cl := sc.map (clampCompare tm pNew pNew)
    (cl, cl != sc)
  else (l.map (clampCompare tm pOld pNew), true)

/-! ### Edges -/

/-- R126: an on-time closer to 0 or to the full period than D + floor(Tm / 2) becomes 0 or full. -/
def snapOnTime (p dead tm d : Nat) : Nat :=
  let th := dead + tm / 2
  let full := 32 * p
  if 0 < d ∧ d < th then 0 else if 0 < full - d ∧ full - d < th then full else d

/-- The commanded high-side intervals of a segment of a period, in steps from the Trough: the whole period in single update, one
half in double update (R119, R121). half is 0 or 1. -/
def highIntervals (mode p : Nat) (double : Bool) (half d1 d2 : Nat) : List (Int × Int) :=
  let c : Int := 16 * p
  let first : Int × Int := (c - ((d1 + 1) / 2 : Nat), c)
  let second : Int × Int := (c, c + (d2 / 2 : Nat))
  let l : List (Int × Int) :=
    if mode = 1 then
      if double then (if half = 0 then [(0, (d1 / 2 : Nat))] else [second]) else [(0, (d1 : Int))]
    else if double then (if half = 0 then [first] else [second])
    else [(first.1, second.2)]
  l.filter (fun i => i.1 < i.2)

/-- The commanded transitions of a segment [start, stop): the level at its start, then the interval ends inside it. -/
def transitions (start stop : Int) (l : List (Int × Int)) : List (Int × Bool) :=
  let at0 := l.any (fun i => i.1 ≤ start && start < i.2)
  (start, at0) :: (l.flatMap (fun i => [(i.1, true), (i.2, false)])).filter (fun e => start < e.1 && e.1 < stop)

/-- The outputs of one half-bridge while a segment's transitions are processed: commanded level, turn-on times of GH and GL, the
edges so far, the lengthenings (R126, R127), and by how much they widen the high-side on-time. -/
structure LegRun where
  level : Bool
  onH : Int
  onL : Int
  h : List Edge := []
  l : List Edge := []
  adj : Nat := 0
  wide : Int := 0
  deriving DecidableEq, Repr

/-- One commanded transition (R127): the gate that is on turns off, no earlier than Tm after its turn-on, and its partner turns on
D later. Where the commanded level does not change, no edge occurs. -/
def LegRun.take (dead tm : Nat) (r : LegRun) (t : Int × Bool) : LegRun :=
  if t.2 == r.level then r else
  if t.2 then
    let late := decide (t.1 < r.onL + tm)
    let off := if late then r.onL + tm else t.1
    { r with
      level := true, onH := off + dead, h := r.h ++ [⟨off + dead, true⟩], l := r.l ++ [⟨off, false⟩],
      adj := r.adj + b2n late, wide := r.wide - (off - t.1) }
  else
    let late := decide (t.1 < r.onH + tm)
    let off := if late then r.onH + tm else t.1
    { r with
      level := false, onL := off + dead, h := r.h ++ [⟨off, false⟩], l := r.l ++ [⟨off + dead, true⟩],
      adj := r.adj + b2n late, wide := r.wide + (off - t.1) }

/-- Edges shifted by an output's deskew entry (R128). -/
def deskew (d : Int) (l : List Edge) : List Edge := l.map (fun e => { e with at_ := e.at_ + d })

/-- The segment of an update instant of a machine: snap, edges, dead time, lengthening and deskew for its six half-bridges (R125).
half is 0 at the Trough and 1 at the Crest. -/
def placeSegment (c : Store) (m half : Nat) (x : ModMachine) : ModMachine :=
  let dead := deadTime c m
  let tm := minPulse c m
  let p := x.period
  let start : Int := if half = 0 then 0 else 16 * p
  let stop : Int := if x.double && half = 0 then 16 * p else 32 * p
  let legs := (List.range 6).map (fun h =>
    let a := nth x.d1 h 0
    let b := nth x.d2 h 0
    let a' := snapOnTime p dead tm a
    let b' := snapOnTime p dead tm b
    let snaps := b2n (half == 0 && a != a') + b2n ((half == 1) && b != b')
    let r : LegRun := { level := nth x.level h false, onH := nth x.onH h 0, onL := nth x.onL h 0 }
    let r := (transitions start stop (highIntervals x.mode p x.double half a' b')).foldl (LegRun.take dead tm) r
    { r with adj := r.adj + snaps })
  let adj := legs.foldl (fun n r => n + r.adj) 0
  let dsk (h low : Nat) : Int := c.pi 0xB440 (1 + 12 * low + 6 * m + h)
  let eh := (List.range 6).map (fun h => deskew (dsk h 0) ((nth legs h { level := false, onH := 0, onL := 0 }).h))
  let el := (List.range 6).map (fun h => deskew (dsk h 1) ((nth legs h { level := false, onH := 0, onL := 0 }).l))
  { x with
    level := legs.map (·.level), onH := legs.map (·.onH), onL := legs.map (·.onL)
    edgesH := if half = 0 then eh else List.zipWith (· ++ ·) x.edgesH eh
    edgesL := if half = 0 then el else List.zipWith (· ++ ·) x.edgesL el
    adjustments := add32 x.adjustments adj, minPulse := x.minPulse || decide (0 < adj) }

/-- Gate turn-on times carried over a Trough: relative to the new one. -/
def rebase (p : Nat) (x : ModMachine) : ModMachine :=
  { x with onH := x.onH.map (· - 32 * p), onL := x.onL.map (· - 32 * p) }

/-- The Trough of a machine (R125, R129): the shadow becomes active in the period that begins, or, where the vote loaded nothing,
the machine has no duties. The clamp of R44 and R45 is step 1 of R125, in which the old minimum pulse tmOld still stands (R130). -/
def modTrough (c : Store) (m tmOld pNew mode : Nat) (double : Bool) (x : ModMachine) : ModMachine :=
  let x := rebase x.period x
  let x := { x with period := pNew, mode := mode, double := double }
  match x.shadow with
  | none => { x with noDuty := true, edgesH := List.replicate 6 [], edgesL := List.replicate 6 [] }
  | some d =>
    let (d, cl) := refit (c.b (0x5400 + 0x10 * m) 4) tmOld x.computedFor pNew d
    placeSegment c m 0 { x with
      d1 := d, d2 := d, shadow := none, noDuty := false, computedFor := pNew, dutyClamp := x.dutyClamp || cl }

/-- The Crest of a machine in double update (R125). -/
def modCrest (c : Store) (m : Nat) (x : ModMachine) : ModMachine :=
  if !x.double then x else
  match x.shadow with
  | none => { x with noDuty := true }
  | some d => placeSegment c m 1 { x with d2 := d, shadow := none, noDuty := false }

/-! ### Spread and shaped periods (R122, R123) -/

/-- One step of the 23-bit register with feedback x^23 + x^18 + 1. -/
def lfsrStep (r : Nat) : Nat := (r * 2) % 2 ^ 23 + (b2n (r.testBit 22) + b2n (r.testBit 17)) % 2

/-- 16 steps: one draw. -/
def lfsrDraw (r : Nat) : Nat := Nat.repeat lfsrStep 16 r

/-- The period drawn from the register: P + 2 × (r mod (B / 2 + 1)) − B. -/
def spreadPeriod (p band r : Nat) : Nat := (p + 2 * ((r % 65536) % (band / 2 + 1))) - band

/-- An entry of the shaped pattern: period and zero-vector share. -/
def shapedEntry (c : Store) (j : Nat) : Nat × Int :=
  let w := c.u 0x5401 (j + 1)
  (bits w 16 0, sext 8 (bits w 31 24))

/-! ### Speaker bridges (R136 to R138) -/

/-- A speaker's carrier period in steps (0x5420.01, .02). -/
def spkPeriod (c : Store) (n : Nat) : Nat := c.u 0x5420 (n + 1)

/-- R138: the polynomial of the noise transfer function's zeros, at 0 Hz, 11.2 kHz and 17.6 kHz, in delays 1 to 5; ps is the carrier period in steps. -/
def shaperZeros (ps : Nat) : List Rat :=
  let c (hz : Rat) : Rat := 2 * cosTurn (hz * (ps : Rat) / 6400000000)
  let sum := c 11200 + c 17600
  let mid := 2 + c 11200 * c 17600
  [-(sum + 1), mid + sum, -(mid + sum), sum + 1, -1]

/-- R138: one step of the error filter, of which the first state is the filtered error: with the zeros' polynomial B and the poles' polynomial A
(log 27) it is (A − B) / B, so that the error reaches the output through B / A. -/
def shaperStep (ps : Nat) (f : List Rat) (e : Rat) : List Rat :=
  let b := shaperZeros ps
  (List.range 5).map (fun i => nth f (i + 1) 0 + (nth (Config.shaperPoles ps) i 0 - nth b i 0) * e - nth b i 0 * nth f 0 0)

/-- R137: the high-side interval of a leg by R119, with the carrier's middle at floor(Ps / 2) (log 127); a full on-time keeps the high side on. -/
def spkInterval (ps d : Nat) : List (Int × Int) :=
  if d = 0 then [] else if d = ps then [(0, ps)] else [((ps / 2 : Nat) - ((d + 1) / 2 : Nat), (ps / 2 : Nat) + (d / 2 : Nat))]

/-- One carrier period of a speaker bridge: clip, noise shaping, placement of both legs, and the error fed back, which is that of the on-times placed
after R126. x is the stream sample from Hearth's speaker interpolator, full scale 1. -/
def spkCarrier (c : Store) (k : Nat) (x : Rat) (b : SpkBridge) : SpkBridge :=
  let ps := spkPeriod c k
  let nn := ps / 2
  let lim := mkRat (c.u 0x5420 5) 1000
  let xc := clampR (-lim) lim x
  let clipped := xc != x
  let f := if b.clear then [0, 0, 0, 0, 0] else b.filt
  let want := xc * (nn : Rat)
  let n := clampI (-(nn : Int)) nn (roundAway (want - f.headD 0))
  let dead := c.u 0x5420 3
  let tm := c.u 0x5420 4
  let snap (d : Nat) : Nat := let th := dead + tm / 2; if 0 < d ∧ d < th then 0 else if 0 < ps - d ∧ ps - d < th then ps else d
  let dA := snap ((nn : Int) + n).toNat
  let dB := snap ((nn : Int) - n).toNat
  let snaps := decide (dA ≠ ((nn : Int) + n).toNat) || decide (dB ≠ ((nn : Int) - n).toNat)
  let leg (j d : Nat) : LegRun :=
    (transitions 0 ps (spkInterval ps d)).foldl (LegRun.take dead tm)
      { level := nth b.level j false, onH := nth b.onH j 0 - b.ps, onL := nth b.onL j 0 - b.ps }
  let la := leg 0 dA
  let lb := leg 1 dB
  let e := (((dA : Int) + la.wide - (dB + lb.wide) : Int) : Rat) / 2 - want
  let f' := shaperStep ps f e
  let ovl := f'.any (fun s => decide (16 * (nn : Rat) < absR s))
  let dsk (o : Nat) (l : List Edge) := deskew (c.pi 0xB440 (25 + 4 * k + o)) l
  { b with
    ps := ps, filt := f', clear := ovl, n := n, dA := dA, dB := dB
    level := [la.level, lb.level], onH := [la.onH, lb.onH], onL := [la.onL, lb.onL]
    edges := [dsk 0 la.h, dsk 1 la.l, dsk 2 lb.h, dsk 3 lb.l]
    shaperClip := b.shaperClip || clipped, clips := if clipped then inc32 b.clips else b.clips
    shaperOvl := b.shaperOvl || ovl, overloads := if ovl then inc32 b.overloads else b.overloads
    minPulse := b.minPulse || snaps || decide (0 < la.adj + lb.adj) }

/-! ### Events (R133) -/

/-- The event configuration of a source (Table 6-4): sources 0 to 5 are M0's Trough, Crest, CP0 to CP3, 6 to 11 M1's. -/
def eventCfg (c : Store) (k : Nat) : Nat := c.u 0x5430 (k + 1)
/-- EN. -/
def eventOn (c : Store) (k : Nat) : Bool := bit (eventCfg c k) 31
/-- PRESC. -/
def eventPresc (c : Store) (k : Nat) : Nat := bits (eventCfg c k) 28 24
/-- DEST. -/
def eventDest (c : Store) (k : Nat) : Nat := bits (eventCfg c k) 23 20

/-- The count at which a compare point fires in a running period (R133). -/
def comparePoint (c : Store) (k p : Nat) : Nat := bits (eventCfg c k) 15 0 * p / 65536

/-- The count of a running period at which a source occurs: its Trough, its Crest or a compare point. -/
def eventCount (c : Store) (k p : Nat) : Nat := match k % 6 with | 0 => 0 | 1 => p / 2 | _ => comparePoint c k p

/-- One occurrence of a source (R133): answers the source and whether it fires. -/
def eventTick (presc : Nat) (e : EventSource) : EventSource × Bool :=
  if !e.armed then ({ e with armed := true, count := 0 }, true)
  else if presc ≤ e.count + 1 then ({ e with count := 0 }, true)
  else ({ e with count := e.count + 1 }, false)

/-- The modulation status word of a machine (Table 6-6). -/
def modStatus (x : ModMachine) (hiz : Bool) : Nat :=
  b2n x.dutyClamp + 2 * b2n x.minPulse + 4 * b2n x.ctcMiss + 8 * b2n hiz + 16 * b2n x.double + 32 * (x.mode % 8)

/-- The speaker status word (Table 6-7). -/
def spkStatus (b : SpkBridge) (hiz tone : Bool) : Nat :=
  b2n b.shaperClip + 2 * b2n b.shaperOvl + 4 * b2n b.minPulse + 8 * b2n hiz + 16 * b2n tone

end Sys2Proof.Machine
end

