-- ==== Sys2Proof/Machine/TypesTrip.lean ====
section
/-! DEFINITION. State of the trip logic, the safe-state unit, the discharge and the gate-driver links (chapter 07). -/

namespace Sys2Proof.Machine

/-- One output group's trip state machine (Table 7-4, codes 0 to 5). active and latched are words of source bits in the places of
Table 7-10, inhibit the latched sources whose pattern-inhibit bit is set, with bits 29 to 31 for THERMAL STOP, the hard limit and a hand-off. quiet counts the M0 Troughs since QUIET was entered. pattern
is the pattern selected (Table 7-10, PATTERN), delayFrom the start of a running safe-pattern delay, slow the consecutive Crust
cycles toward freewheel (Table 7-6). -/
structure TripGroup where
  state : Nat := 0
  active : Nat := 0
  latched : Nat := 0
  inhibit : Nat := 0
  quiet : Nat := 0
  clearTime : Nat := 0
  delayFrom : Option Nat := none
  pattern : Nat := 0
  slow : Nat := 0
  deriving DecidableEq, Repr

/-- The winding discharge of one machine (R158): V_dis in steps of 10 mV, the start, the on-times in counts, the gate edges of the running period, and
per half-bridge the commanded level and the turn-on times of its gates relative to the Trough. -/
structure Winding where
  on : Bool := false
  vdis : Nat := 0
  since : Nat := 0
  counts : List Nat := []
  edgesH : List (List Edge) := []
  edgesL : List (List Edge) := []
  level : List Bool := List.replicate 6 false
  onH : List Int := List.replicate 6 0
  onL : List Int := List.replicate 6 0
  deriving DecidableEq, Repr

/-- The discharge of the DC link (R156 to R159): the host's and Crust's demand in force, whether the discharge of this demand is
still running, the windings, DCHG and its lockout, the counts of cycles below the end voltage, and the status flags. -/
structure Discharge where
  host : Bool := false
  crust : Bool := false
  running : Bool := false
  wind : List Winding := [{}, {}]
  dchgSince : Option Nat := none
  lockUntil : Option Nat := none
  dchgWait : Bool := false
  below : Nat := 0
  timeout : Bool := false
  windFail : Bool := false
  done : Bool := false
  deriving DecidableEq, Repr

/-- One gate-driver link (R160 to R163). kind is the pass that runs: 0 none, 1 setup, 2 cyclic, 3 request. todo lists the entries
still to send, sending the entry of the transfer on the link (none: empty words), await the entry whose response that transfer
carries. fails counts each entry's consecutive failed cyclic passes. -/
structure GdlLink where
  setupDone : Bool := false
  setupFail : Bool := false
  fault : Bool := false
  overrun : Bool := false
  crcErr : Bool := false
  mismatch : Bool := false
  kind : Nat := 0
  busy : Bool := false
  todo : List Nat := []
  sending : Option Nat := none
  await : Option Nat := none
  retries : Nat := 0
  request : Option Nat := none
  rerun : Bool := false
  frames : Nat := 0
  fails : List Nat := List.replicate 64 0
  checkFailures : Nat := 0
  words : List Nat := []
  deriving DecidableEq, Repr

/-- The trip logic: GATE_M0, GATE_M1, SPK0 and SPK1, the filtered levels of FLT0 to FLT11 (pulled up, R424), the record of R148, the
discharge and both links. -/
structure TripState where
  g : List TripGroup := [{}, {}, {}, {}]
  flt : List Bool := List.replicate 12 true
  refused : Nat := 0
  trips : Nat := 0
  first : Nat := 0
  firstTime : Nat := 0
  dis : Discharge := {}
  gdl : List GdlLink := [{}, {}]
  gdlLast : Nat := 0
  deriving DecidableEq, Repr

end Sys2Proof.Machine
end

