-- ==== Sys2Proof/Machine/Trip.lean ====
section
/-! DEFINITION. Trips, safe patterns, discharge and gate-driver links (chapter 07). Times are counts of the system counter, 5 ns. -/

namespace Sys2Proof.Machine

/-! ### Sources and latching (R141, R143, R148) -/

/-- The bits of Table 7-10. -/
def srcOC : Nat := 16
/-- RIDGE. -/
def srcRidge : Nat := 17
/-- CRUST. -/
def srcCrust : Nat := 18
/-- VOTE. -/
def srcVote : Nat := 19
/-- GDL. -/
def srcGdl : Nat := 20

/-- The code of 0x5040.0A for a source bit. -/
def firstCode (b : Nat) : Nat := b

/-- Whether the safe-pattern states of Table 7-4 hold the pattern: TRIPPED, QUIET, CLEARED and LOCKED (R152). -/
def TripGroup.holds (g : TripGroup) : Bool := g.state == 1 || g.state == 2 || g.state == 3 || g.state == 5

/-- Whether the safe-state unit drives the group: a pattern is selected and no latched source inhibits it (R152). -/
def TripGroup.patternOn (g : TripGroup) : Bool := g.holds && g.pattern != 0 && g.inhibit == 0

/-- Whether the group is tripped or locked: its outputs do not follow the voted duties. -/
def TripGroup.tripped (g : TripGroup) : Bool := g.state != 0

/-- The start of the safe-pattern delay on entering TRIPPED from any state, or LOCKED (R152); a running delay or pattern continues, and the speaker
groups have none. -/
def TripGroup.startDelay (now : Nat) (traction : Bool) (g : TripGroup) : TripGroup :=
  if traction && g.delayFrom.isNone && g.pattern == 0 then { g with delayFrom := some now, slow := 0 } else g

/-- A source becomes active (R148): its bit is latched, its inhibit noted, and the group trips unless it is locked. -/
def TripGroup.activate (now : Nat) (traction : Bool) (src : Nat) (inhibit : Bool) (g : TripGroup) : TripGroup :=
  let g := { g with
    active := setBit g.active src true, latched := setBit g.latched src true,
    inhibit := if inhibit then setBit g.inhibit src true else g.inhibit }
  if g.state = 5 ∨ g.state = 1 then g
  else if g.state = 0 ∨ g.state = 4 then { g with state := 1, pattern := 0, delayFrom := none }.startDelay now traction
  else { g with state := 1 }.startDelay now traction

/-- A source becomes inactive: with none left active, TRIPPED goes to QUIET (Table 7-4). -/
def TripGroup.release (src : Nat) (g : TripGroup) : TripGroup :=
  let g := { g with active := setBit g.active src false }
  if g.state = 1 ∧ g.active = 0 then { g with state := 2, quiet := 0 } else g

namespace TripState

/-- One group. -/
def group (t : TripState) (k : Nat) : TripGroup := nth t.g k {}
/-- Replace one group. -/
def setGroup (t : TripState) (k : Nat) (f : TripGroup → TripGroup) : TripState := { t with g := upd t.g k f }

/-- A source's level for one group: an activation from ARMED is counted and recorded with its time (R148); a repeated activation adds
only its inhibit. -/
def source (now k src : Nat) (inhibit on : Bool) (t : TripState) : TripState :=
  let g := t.group k
  if on then
    if bit g.active src then
      if inhibit then t.setGroup k (fun g => { g with inhibit := setBit g.inhibit src true }) else t
    else
      let t := if g.state = 0 then { t with
        trips := inc32 t.trips, first := k * 4096 + firstCode src, firstTime := now } else t
      t.setGroup k (TripGroup.activate now (decide (k < 2)) src inhibit)
  else if bit g.active src then t.setGroup k (TripGroup.release src) else t

/-- Every FLT source from its filtered level, polarity, enable and target (R141, R143). -/
def fltSources (c : Store) (now : Nat) (t : TripState) : TripState :=
  (List.range 12).foldl (fun t n =>
    let w := c.u 0x5450 (n + 1)
    let on := bit w 31 && (nth t.flt n true == bit w 30)
    (List.range 4).foldl (fun t k => t.source now k n (bit w 19) (on && bit w (20 + k))) t) t

/-- A filtered FLT level (R142). -/
def fltInput (c : Store) (now n : Nat) (level : Bool) (t : TripState) : TripState :=
  { t with flt := upd t.flt n (fun _ => level) }.fltSources c now

/-- A Ridge trip broadcast received (R141, R380). -/
def ridgeSource (c : Store) (now : Nat) (on : Bool) (t : TripState) : TripState :=
  let w := c.u 0x5450 0xD
  (List.range 4).foldl (fun t k => t.source now k srcRidge (bit w 19) (on && bit w 31 && bit w (20 + k))) t

/-- R152: the pattern-inhibit bit in force for a source of a group; none for a source whose inhibit no setting holds. -/
def inhibitOf (c : Store) (k src : Nat) : Option Bool :=
  if src < 12 then some (bit (c.u 0x5450 (src + 1)) 19)
  else if src = srcRidge then some (bit (c.u 0x5450 0xD) 19)
  else if src = srcOC then some (c.pv (0x5050 + k) 5 == 1)
  else none

/-- R152: the inhibits of the latched sources, active or not, follow their settings. -/
def inhibits (c : Store) (t : TripState) : TripState :=
  { t with g := t.g.mapIdx (fun k g => { g with
      inhibit := (bitsSet 21 g.latched).foldl (fun w b => match inhibitOf c k b with | some on => setBit w b on | none => w) g.inhibit }) }

/-- The overcurrent source of a machine (R143). -/
def overcurrent (c : Store) (now m : Nat) (on : Bool) (t : TripState) : TripState :=
  t.source now m srcOC (c.pv (0x5050 + m) 5 == 1) on

/-- BEDROCK locks every group at once (R151); a lock by the vote latches VOTE on the traction groups. A safe pattern that runs goes on; any other group is
high impedance until its delay ends (R14, R152). -/
def lockAll (now : Nat) (byVote : Bool) (t : TripState) : TripState :=
  { t with g := t.g.mapIdx (fun k g =>
      let g := { g with state := 5, latched := if byVote && decide (k < 2) then setBit g.latched srcVote true else g.latched }
      g.startDelay now (decide (k < 2))) }

/-! ### Clearing and re-arm (R149, R150) -/

/-- Trip clear of one group: the group after it, and whether it was refused (R149). -/
def clearOne (now k : Nat) (t : TripState) : TripState × Bool :=
  let g := t.group k
  if g.state = 0 ∨ g.state = 3 ∨ g.state = 4 then (t, false)
  else if g.state = 2 ∧ 3 ≤ g.quiet then (t.setGroup k (fun g => { g with state := 3, clearTime := now }), false)
  else ({ t with refused := inc32 t.refused }, true)

/-- Trip clear of the named groups, each on its own (R149). -/
def clear (now mask : Nat) (t : TripState) : TripState × Bool :=
  (bitsSet 4 mask).foldl (fun a k => let r := clearOne now k a.1; (r.1, a.2 || r.2)) (t, false)

/-- The Trough of the groups of a set (R149, R150): RESTART ends in ARMED; CLEARED starts RESTART, which clears the latched sources
and removes the pattern. ks are the groups whose Trough this is. -/
def trough (now : Nat) (ks : List Nat) (t : TripState) : TripState :=
  ks.foldl (fun t k => t.setGroup k (fun g =>
    if g.state = 4 then { g with state := 0 }
    else if g.state = 3 ∧ g.clearTime + 200 ≤ now then
      { g with state := 4, latched := 0, inhibit := g.inhibit / 2 ^ 29 * 2 ^ 29, pattern := 0, delayFrom := none, slow := 0 }
    else g)) t

/-- An M0 Trough's count of quiet frames (R149). -/
def countQuiet (t : TripState) : TripState :=
  { t with g := t.g.map (fun g => if g.state = 2 then { g with quiet := min 3 (g.quiet + 1) } else g) }

/-! ### Safe pattern (R152, R153) -/

/-- The pattern that a mode selects when the delay ends (Table 7-6): 0 none, 1 active short circuit, 2 freewheel. -/
def patternAt (c : Store) (m : Nat) (speed : Rat) (valid : Bool) : Nat :=
  match c.pv (0x5050 + m) 1 with
  | 1 => if !valid || decide (c.pf (0x5050 + m) 2 - c.pf (0x5050 + m) 3 < absR speed) then 1 else 2
  | 2 => 2
  | 3 => 1
  | _ => 0

/-- The end of a group's safe-pattern delay; the SAFE oscillator times it within 3 % and 62.5 ns (12.5 counts). -/
def delayEnd (c : Store) (now m : Nat) (speed : Rat) (valid : Bool) (t : TripState) : TripState :=
  let g := t.group m
  match g.delayFrom with
  | none => t
  | some s =>
    if (now - s) * 100 + 1300 < c.pv (0x5050 + m) 4 * 200 * 97 then t
    else t.setGroup m (fun g => { g with delayFrom := none, slow := 0, pattern := if g.holds then patternAt c m speed valid else 0 })

/-- The evaluation of Table 7-6 in a Crust cycle, for a group whose delay has ended. -/
def patternCycle (c : Store) (m : Nat) (speed : Rat) (valid : Bool) (t : TripState) : TripState :=
  t.setGroup m (fun g =>
    if c.pv (0x5050 + m) 1 ≠ 1 ∨ g.holds = false then g else
    let nx := c.pf (0x5050 + m) 2
    if g.pattern = 2 then
      if !valid || decide (nx < absR speed) then { g with pattern := 1, slow := 0 } else { g with slow := 0 }
    else if g.pattern = 1 then
      if valid && decide (absR speed < nx - c.pf (0x5050 + m) 3) then
        if 10 ≤ g.slow + 1 then { g with pattern := 2, slow := 0 } else { g with slow := g.slow + 1 }
      else { g with slow := 0 }
    else g)

/-- Whether the safe-state unit drives the winding pattern of a machine (R131, R150, R158): on an enabled ARMED group, or in place of the group's own
pattern; none in RESTART, and none while a latched source inhibits it. -/
def windDrives (enabled : Bool) (m : Nat) (t : TripState) : Bool :=
  let g := t.group m
  (nth t.dis.wind m {}).on && ((g.state == 0 && enabled) || g.patternOn)

/-- The pattern in a group's trip status: the winding discharge, else what the unit drives (Table 7-10). -/
def patternCode (enabled : Bool) (t : TripState) (k : Nat) : Nat :=
  if k < 2 && t.windDrives enabled k then 3 else if (t.group k).patternOn then (t.group k).pattern else 0

/-- Trip status (Table 7-10); enabled is the group's output enable. -/
def status (enabled : Bool) (t : TripState) (k : Nat) : Nat :=
  let g := t.group k
  let p := t.patternCode enabled k
  g.state * 2 ^ 29 + b2n (p != 0) * 2 ^ 28 + p * 2 ^ 26 + g.latched

/-! ### Discharge (R156 to R159) -/

/-- The machines whose windings a discharge uses (R157). -/
def windMachines (c : Store) : List Nat := if c.b 0x6030 3 then [c.u 0x5060 3] else [0, 1]

/-- What the winding method asks of a machine before it starts: its output enable, its mode, Crust's speed and angle, and the safe-off readback. -/
structure WindEnv where
  enabled : Bool := false
  modeZero : Bool := false
  speed : Rat := 0
  speedOk : Bool := false
  angle : Rat := 0
  angleOk : Bool := false
  soffOn : Bool := false
  deriving DecidableEq, Repr

/-- Whether the winding method may start on a machine (R157). -/
def windStartable (c : Store) (e : WindEnv) (m : Nat) (t : TripState) : Bool :=
  let g := t.group m
  ((g.state == 0 && e.enabled && e.modeZero) || (g.patternOn && g.pattern == 2)) && e.speedOk
    && decide (absR e.speed < c.pf (0x5050 + m) 2 - c.pf (0x5050 + m) 3) && e.angleOk && e.soffOn

/-- Drive DCHG, or wait for the end of its lockout (R159). -/
def dchgStart (now : Nat) (t : TripState) : TripState :=
  if t.dis.dchgSince.isSome then t
  else if t.dis.lockUntil.isSome then { t with dis := { t.dis with dchgWait := true } }
  else { t with dis := { t.dis with dchgSince := some now, dchgWait := false } }

/-- The windings stop. -/
def windStop (t : TripState) : TripState :=
  { t with dis := { t.dis with wind := t.dis.wind.map (fun _ => {}) } }

/-- The start of a discharge (R157): the windings of each machine that may start, else DCHG under method 0 (log 32). -/
def disStart (c : Store) (now : Nat) (env : List WindEnv) (t : TripState) : TripState :=
  let method := c.u 0x5060 2
  let t := { t with dis := { t.dis with running := true, below := 0 } }
  if method = 2 then t.dchgStart now
  else if method = 3 then t
  else
    let ms := (windMachines c).filter (fun m => t.windStartable c (nth env m {}) m)
    if ms.isEmpty then (if method = 0 then t.dchgStart now else t)
    else { t with dis := { t.dis with
      wind := t.dis.wind.mapIdx (fun m w => if ms.contains m then { on := true, since := now } else w) } }

/-- The end of a discharge for want of a demand. -/
def disStop (t : TripState) : TripState :=
  let t := t.windStop
  { t with dis := { t.dis with running := false, dchgSince := none, dchgWait := false, below := 0 } }

/-- The demands in force (R156): a discharge starts when the first comes and stops when the last goes. -/
def disDemand (c : Store) (now : Nat) (env : List WindEnv) (host crust : Bool) (t : TripState) : TripState :=
  let was := t.dis.host || t.dis.crust
  let t := { t with dis := { t.dis with host := host, crust := crust } }
  if (host || crust) && !was then t.disStart c now env
  else if was && !(host || crust) then t.disStop
  else t

/-- WIND_FAIL on a machine (R157): its winding method ends, and DCHG takes over under method 0. -/
def windFail (c : Store) (now m : Nat) (t : TripState) : TripState :=
  if !(nth t.dis.wind m {}).on then t else
  let t := { t with dis := { t.dis with windFail := true, wind := upd t.dis.wind m (fun _ => {}) } }
  if c.u 0x5060 2 = 0 then t.dchgStart now else t

/-- The conditions of a Crust cycle that end the winding method: speed, angle and safe-off (R157). -/
def windCheck (c : Store) (now : Nat) (env : List WindEnv) (t : TripState) : TripState :=
  [0, 1].foldl (fun t m =>
    let e := nth env m {}
    if decide (c.pf (0x5050 + m) 2 ≤ absR e.speed) || !e.speedOk || !e.angleOk || !e.soffOn then t.windFail c now m else t) t

/-- The count of Crust cycles in which every link concerned lies below the end voltage (R159). -/
def disBelow (c : Store) (volts : List Rat) (t : TripState) : TripState :=
  if !t.dis.running then t else
  let low := volts.all (fun v => decide (v < c.f 0x5060 5))
  { t with dis := { t.dis with below := if low then min 10 (t.dis.below + 1) else 0 } }

/-- DONE (R159). -/
def disDone (t : TripState) : TripState :=
  if t.dis.running && decide (10 ≤ t.dis.below) then
    let t := t.windStop
    { t with dis := { t.dis with running := false, dchgSince := none, dchgWait := false, done := true } }
  else t

/-- The discharge time limit (R157). -/
def disTimeLimit (c : Store) (now : Nat) (t : TripState) : TripState :=
  [0, 1].foldl (fun t m =>
    let w := nth t.dis.wind m {}
    if w.on && decide (w.since + c.u 0x5060 6 * 200000 ≤ now) then t.windFail c now m else t) t

/-- DCHG maximum on-time (R159): DCHG goes low and is locked for ten times as long. -/
def dchgTimeout (c : Store) (now : Nat) (t : TripState) : TripState :=
  match t.dis.dchgSince with
  | none => t
  | some s =>
    let on := c.u 0x5060 7 * 200000
    if s + on ≤ now then
      { t with dis := { t.dis with dchgSince := none, timeout := true, lockUntil := some (now + 10 * on) } }
    else t

/-- The end of the lockout (R159); a DCHG discharge that waited for it starts. -/
def dchgLockEnd (now : Nat) (t : TripState) : TripState :=
  match t.dis.lockUntil with
  | none => t
  | some e =>
    if now < e then t else
    let t := { t with dis := { t.dis with lockUntil := none } }
    if t.dis.dchgWait && t.dis.running then t.dchgStart now else { t with dis := { t.dis with dchgWait := false } }

/-- Discharge status (Table 7-11). -/
def disStatus (t : TripState) : Nat :=
  let d := t.dis
  128 * b2n d.lockUntil.isSome + 64 * b2n d.timeout + 32 * b2n d.dchgSince.isSome + 16 * b2n d.windFail
    + 8 * b2n (d.wind.any (·.on)) + 4 * b2n d.done + 2 * b2n (d.host || d.crust)

/-- The largest phase-current magnitude of a machine in the running period, A, from the fast paths of its active paths (R158). -/
def fastPeakAmps (c : Store) (s : SenseState) (m : Nat) : Rat :=
  ((List.range 6).map (fun h =>
    let sd := s.activeSd (6 * m + h)
    let full := (c.u 0x6400 0xB) ^ (c.u 0x6400 0xA)
    mkRat (nth s.fast sd {}).peak (max 1 full) * sdGain c sd)).foldl maxR 0

/-- The on-time of one phase in counts (R158): ratio 0.5 + (V_dis / U_dc) cos(θ_e − φ), V_dis / U_dc at most 0.25. -/
def windCount (c : Store) (m h period vdis : Nat) (udc theta : Rat) : Nat :=
  let phi : Rat := mkRat (h % 3) 3
  let disp : Rat := if 3 ≤ h then (c.u (0x3010 + 0x1000 * m) 2 : Rat) * 30 / 360 else 0
  let ratio := if udc ≤ 0 then Config.ratioNoLink m h else minR (1/4) (mkRat vdis 100 / udc)
  (clampI 0 period (roundAway ((1/2 + ratio * cosTurn (theta - phi - disp)) * period))).toNat

/-- R158: the edges of the winding pattern in a period of p counts, by R119, R126 and R127 at whole counts: the dead time and the minimum pulse are rounded
up to counts, and no deskew is added (log 126). -/
def windEdges (c : Store) (m p : Nat) (w : Winding) : Winding :=
  let dead := (deadTime c m + 31) / 32
  let tm := (minPulse c m + 31) / 32
  let snap (d : Nat) : Nat := snapOnTime p (32 * dead) (32 * tm) (32 * d) / 32
  let span (d : Nat) : List (Int × Int) := if d = 0 then [] else [((p / 2 : Nat) - ((d + 1) / 2 : Nat), (p / 2 : Nat) + (d / 2 : Nat))]
  let legs := w.counts.mapIdx (fun h d =>
    (transitions 0 p (span (snap d))).foldl (LegRun.take dead tm) { level := nth w.level h false, onH := nth w.onH h 0 - p, onL := nth w.onL h 0 - p })
  let steps (l : List Edge) : List Edge := l.map (fun e => { e with at_ := 32 * e.at_ })
  { w with
    edgesH := legs.map (fun r => steps r.h), edgesL := legs.map (fun r => steps r.l)
    level := legs.map (·.level), onH := legs.map (·.onH), onL := legs.map (·.onL) }

/-- A machine's Trough of a winding discharge (R158): V_dis steps, and the on-times and the edges follow. The angle is Crust's, mechanical turns. -/
def windStep (c : Store) (m period : Nat) (amps udc angle : Rat) (t : TripState) : TripState :=
  let w := nth t.dis.wind m {}
  if !w.on then t else
  let i := c.f 0x5060 4
  let v := if amps < 9/10 * i then w.vdis + 1 else if i < amps then w.vdis - 4 else w.vdis
  let theta := (c.u (0x3010 + 0x1000 * m) 3 : Rat) * angle + mkRat (c.u (0x3010 + 0x1000 * m) 0xA) 65536
  let n := if phaseCount c m = 6 then 6 else 3
  { t with dis := { t.dis with wind := upd t.dis.wind m (fun w => windEdges c m period { w with
      vdis := v, counts := (List.range n).map (fun h => windCount c m h period v udc theta) }) } }

end TripState

/-! ### Gate-driver links (R160 to R163) -/

/-- CRC-8 with polynomial 0x2F and initial value 0xFF over a 24-bit payload, most significant bit first (R160). -/
def crc8 (payload : Nat) : Nat :=
  (List.range 24).foldl (fun r k =>
    let top := bit r 7 != bit payload (23 - k)
    let r := (r * 2) % 256
    if top then r ^^^ 0x2F else r) 0xFF

/-- An entry of a link's table (Table 7-8). -/
def gdlEntry (c : Store) (link k : Nat) : Nat := c.u (0x5480 + link) (k + 1)
/-- WHEN. -/
def gdlWhen (e : Nat) : Nat := bits e 63 62
/-- POS. -/
def gdlPos (e : Nat) : Nat := bits e 61 58

/-- The entries of a link whose WHEN is the given code, in table order, within the table length. -/
def gdlEntries (c : Store) (link when_ : Nat) : List Nat :=
  (List.range (c.u 0x5482 (link + 1))).filter (fun k => gdlWhen (gdlEntry c link k) == when_)

/-- The words of one transfer (R160). -/
def gdlWords (c : Store) (link : Nat) (k : Option Nat) : List Nat :=
  (List.range (c.u 0x5070 (link + 1))).map (fun p =>
    let tx := match k with
      | some k => if gdlPos (gdlEntry c link k) = p then bits (gdlEntry c link k) 55 32 else 0
      | none => 0
    tx * 256 + crc8 tx)

/-- Begin a transfer that sends an entry, or empty words. -/
def GdlLink.send (c : Store) (link : Nat) (k : Option Nat) (x : GdlLink) : GdlLink :=
  { x with busy := true, sending := k, words := gdlWords c link k }

/-- The end of what a link was doing: idle. -/
def GdlLink.rest (x : GdlLink) : GdlLink :=
  { x with kind := 0, busy := false, todo := [], sending := none, await := none, retries := 0, words := [] }

/-- The next transfer of the running pass. A setup or request entry is followed by a transfer of empty words, which carries its
response, before the next entry goes out (log 34); a cyclic pass sends its entries back to back and then one empty transfer. -/
def GdlLink.next (c : Store) (link : Nat) (x : GdlLink) : GdlLink :=
  if x.kind ≠ 2 ∧ x.await.isSome then x.send c link none
  else match x.todo with
    | k :: l => { x with todo := l }.send c link (some k)
    | [] => if x.await.isSome then x.send c link none else x.rest

/-- Start a setup (R161): with no setup entry it passes at once. -/
def GdlLink.startSetup (c : Store) (link : Nat) (x : GdlLink) : GdlLink :=
  let x := { x.rest with kind := 1, todo := gdlEntries c link 1, rerun := false }
  if x.todo.isEmpty then { x.rest with setupDone := true, setupFail := false } else x.next c link

/-- What waits for a free link: a setup rerun, then a request. -/
def GdlLink.startWaiting (c : Store) (link : Nat) (x : GdlLink) : GdlLink :=
  if x.kind ≠ 0 then x
  else if x.rerun then x.startSetup c link
  else match x.request with
    | some k => { x with kind := 3, todo := [k], request := none }.next c link
    | none => x

/-- The check of a response (R160): the link with its flags and counter, and whether it passed. -/
def GdlLink.check (e word : Nat) (x : GdlLink) : GdlLink × Bool :=
  let rx := word / 256 % 2 ^ 24
  let crcBad := word % 256 != crc8 rx
  let mis := (rx / 256) &&& (bits e 31 16) != bits e 15 0
  let bad := crcBad || mis
  ({ x with
      crcErr := x.crcErr || crcBad, mismatch := x.mismatch || (!crcBad && mis),
      checkFailures := if bad then inc32 x.checkFailures else x.checkFailures }, !bad)

/-- The end of one transfer on a link (R160 to R163): rx lists the words received, by position. Answers the link, whether the link's
fault of R162 begins, and the response word of a request. -/
def gdlDone (c : Store) (link : Nat) (rx : List Nat) (x : GdlLink) : GdlLink × Bool × Option Nat :=
  if !x.busy then (x, false, none) else
  let sent := x.sending
  let step (x : GdlLink) : GdlLink := { x with await := sent, sending := none, busy := false }
  match x.await with
  | none => (((step x).next c link), false, none)
  | some k =>
    let e := gdlEntry c link k
    let word := nth rx (gdlPos e) 0
    let (x, ok) := x.check e word
    if x.kind = 1 then
      if ok then
        let x := { step x with retries := 0 }
        if x.todo.isEmpty && x.await.isNone then
          ({ x.rest with setupDone := true, setupFail := false }.startWaiting c link, false, none)
        else (x.next c link, false, none)
      else if x.retries < 2 then (({ step x with retries := x.retries + 1, todo := k :: x.todo }).next c link, false, none)
      else ({ x.rest with setupFail := true, setupDone := false }.startWaiting c link, false, none)
    else if x.kind = 2 then
      let n := if ok then 0 else min 3 (nth x.fails k 0 + 1)
      let fresh := decide (n = 3) && !x.fault
      let x := { x with fails := upd x.fails k (fun _ => n), fault := x.fault || decide (n = 3) }
      let x := (step x).next c link
      (if x.kind = 0 then x.startWaiting c link else x, fresh, none)
    else
      let x := (step x).next c link
      (if x.kind = 0 then x.startWaiting c link else x, false, some word)

/-- The M0 Trough's part (R162): every GDL cycle of frames a cyclic pass starts, or is skipped with OVERRUN while one runs. -/
def gdlFrame (c : Store) (link : Nat) (x : GdlLink) : GdlLink :=
  let n := x.frames + 1
  if n < c.u 0x5070 4 then { x with frames := n }
  else
    let x := { x with frames := 0 }
    let l := gdlEntries c link 2
    if l.isEmpty then x
    else if x.kind = 0 then { x with kind := 2, todo := l, await := none }.next c link
    else { x with overrun := true }

/-- GDL status (Table 7-12). -/
def GdlLink.status (x : GdlLink) : Nat :=
  128 * b2n x.setupFail + 64 * b2n x.fault + 32 * b2n x.overrun + 16 * b2n x.crcErr + 8 * b2n x.mismatch
    + 4 * b2n x.setupDone + 2 * b2n (x.kind == 2)

end Sys2Proof.Machine
end

