-- ==== Sys2Proof/Machine/ObjRange.lean ====
section
/-! DEFINITION. The Range column of the object tables: whether a value may be written to an object (R5, R6, R324, R340), and which bits of a status
object a write clears (R4). -/

namespace Sys2Proof.Machine

/-- The number that a raw value of a type stands for; a CPAIR32 stands for its value word's (R325). -/
def objNum (ty : ObjTy) (raw : Nat) : Rat :=
  match ty with
  | .i8 => (sext 8 raw : Rat)
  | .i16 => (sext 16 raw : Rat)
  | .i32 => (sext 32 raw : Rat)
  | .f32 => f32ToRat raw
  | .pairU => ((raw / 2 ^ 32 : Nat) : Rat)
  | .pairI => (sext 32 (raw / 2 ^ 32) : Rat)
  | .pairF => f32ToRat (raw / 2 ^ 32)
  | _ => (raw : Rat)

/-- The word that a raw value of a type carries. -/
def objWord (ty : ObjTy) (raw : Nat) : Nat := if ty.isPair then raw / 2 ^ 32 else raw

/-- Whether no bit of a field is set. -/
def clear (w hi lo : Nat) : Bool := bits w hi lo == 0

/-! ### Status objects whose write only clears flags (R4) -/

/-- The bits of a status object that are not reserved; a 1 written to any other is a range error (R5). -/
def flagsDefined (key : Nat) : Nat :=
  let idx := key / 256
  match idx with
  | 0x2110 => 0xFF007FFF
  | 0x5000 => 0xFF
  | 0x5010 => 0xFB
  | 0x5020 => if key % 256 = 7 then 0x1F else 0x0F
  | 0x5060 | 0x5070 => 0xFE
  | 0x6050 => 0xFF
  | 0x7000 => 0x000FFF3F
  | 0x7100 => 0x0C33
  | 0x7104 | 0x7114 => 0xFF
  | 0x7180 => 3
  | 0x7200 | 0x7210 | 0x7220 | 0x7230 => 0x3FF
  | 0x7260 | 0x7261 => 0x1F
  | 0x8030 | 0x8031 => 0x7DF
  | 0x8032 | 0x8033 => 0x7EF
  | 0x8040 => 0x0CFF0F0F
  | 0x9000 => 0xFFF
  | 0xA000 => 0xFF1F
  | 0xD000 => 0x3FF
  | _ => 0xF

/-- The bits of a status object that a 1 written to them clears (R4). -/
def flagsClear (key : Nat) : Nat :=
  let idx := key / 256
  match idx with
  | 0x2110 => 0x4000
  | 0x5000 => 7
  | 0x5010 => 3
  | 0x5020 => 7
  | 0x5060 => 0x54
  | 0x5070 => 0x38
  | 0x6050 => 3
  | 0x7000 => 0x2E
  | 0x7100 => 0x800
  | 0x7104 | 0x7114 => 8
  | 0x7180 => 3
  | 0x7200 | 0x7210 | 0x7220 | 0x7230 => 0x2C
  | 0x7260 | 0x7261 => 0x1C
  | 0x8030 | 0x8031 | 0x8032 | 0x8033 => 0x600
  | 0x8040 => 6
  | 0x9000 => 0x80
  | 0xA000 => 0x10
  | 0xD000 => 0x108
  | _ => 8

/-! ### Ranges that read another object -/

/-- The channels of a machine's currents (Table 3-1). -/
def machineSds (m : Nat) : List Nat := (List.range 6).map (· + 6 * m) ++ (List.range 6).map (· + 12 + 6 * m)

/-- Full scale of a machine's current channels: the lowest of their gains (log 47). -/
def fullScaleOf (c : Store) (m : Nat) : Rat :=
  ((machineSds m).map (sdGain c)).foldl minR (sdGain c (6 * m))

/-- The control objects' index of a machine. -/
def ctlIdx (m idx : Nat) : Nat := idx + 0x1000 * m

/-- A machine's update rate in Hz at its nominal period. -/
def updateRate (c : Store) (m : Nat) : Rat := 200000000 * (if doubleUpdate c m then 2 else 1) / ((max 1 (nominalPeriod c m) : Nat) : Rat)

/-- The traction period of a basic frequency (R118). -/
def basicPeriod (f : Nat) : Nat := 2 * (roundAway (100000000 / ((max 1 f : Nat) : Rat))).toNat

/-- The M1 period that a basic M1 switching frequency asks for (0x5010.01): k times M0's period for the k of 1 to 4 at which the frequency is the
frequency that M0 reads back over k, to the hertz, or at which its period is k times M0's; none where no k does (log 48). -/
def m1Period (c : Store) (f : Nat) : Option Nat :=
  let p0 := nominalPeriod c 0
  let k? := [1, 2, 3, 4].find? (fun k =>
    f * k == (roundAway (200000000 / ((max 1 p0 : Nat) : Rat))).toNat || f == (roundAway (200000000 / ((max 1 (k * p0) : Nat) : Rat))).toNat
      || basicPeriod f == k * p0)
  match k? with
  | some k => if k * p0 ≤ 100000 then some (k * p0) else none
  | none => none

/-- Test-pulse timing that fits (R271). -/
def tpTimingOk (c : Store) : Bool := decide (tpWidth c + tpLag c + 255 ≤ c.pv 0x9020 1 * 250 - 100)

/-- A pair's configuration against the modes of the test sources (R271). -/
def pairCfgOk (c : Store) (w : Nat) : Bool :=
  let type := pairType w
  let src := [pairSource w false, pairSource w true]
  let mode (k : Nat) : Nat := tpMode c (k - 1)
  decide (type ≤ 4) && src.all (fun k => decide (k ≤ 4)) && clear w 21 16
    && (if type = 1 ∨ type = 2 then src.all (fun k => k == 0 || mode k != 0) else true)
    && (if type = 3 then src.all (fun k => k == 0 || mode k == 2) else true)
    && (if type = 4 then src.all (· == 0) else true)
    && (if type = 2 then pairSource w true == 0 else true)
    && (type == 4 || bits w 7 0 == 0)

/-- Every configured pair against the modes of the test sources (R271). -/
def pairsOk (c : Store) : Bool := (List.range 8).all (fun p => pairCfgOk c (pairCfg c p))

/-- The least hysteresis of a threshold (R313). -/
def leastHysteresis (c : Store) (n : Nat) : Rat :=
  let slot := bits (c.u 0xA010 (n + 1)) 4 0
  let t := hkType c slot
  if t = 4 then (c.f 0xA410 (slot + 1)).abs / 200 else if t = 5 then 1 / 50 else if 1 ≤ t ∧ t ≤ 3 then 2 else 0

/-- The subindex below which the map speeds of a generator ascend: speeds of the points in use, one raw value replaced (R169). -/
def mapAscends (c : Store) (idx : Nat) : Bool :=
  let l := (List.range (c.u idx 4)).map (fun k => c.f idx (0xD + k))
  l.all (fun x => decide (0 ≤ x)) && (l.zip (l.drop 1)).all (fun p => decide (p.1 < p.2))

/-- The objects an image may carry (R356): no BLOB, STR or WO object, and for a receive image only RW ones. -/
def imageEntryOk (recv : Bool) (w : Nat) : Bool :=
  w == 0 || (clear w 31 24 && (match findRow (bits w 23 0) with
    | some r => !r.ty.isBlob && r.acc != .wo && (!recv || r.acc == .rw)
    | none => bits w 7 0 == 0 && maxSub (bits w 23 8) != 0 && !recv))

/-- The bytes of an object named by a mapping entry. -/
def imageEntrySize (w : Nat) : Nat :=
  match findRow (bits w 23 0) with
  | some r => r.ty.size
  | none => 1

/-- The mapping entries of an image in use (R356). -/
def imageEntries (c : Store) (n : Nat) : List Nat := (List.range (min 64 (c.u 0x1069 (n + 1)))).map (fun k => c.u (0x1061 + n) (k + 1))

/-- R356 on an image as configured: its entries, and 32 bytes where CAN0 carries it. -/
def imageOk (c : Store) (n : Nat) : Bool :=
  let cfg := c.u 0x1060 (n + 1)
  let l := imageEntries c n
  l.all (imageEntryOk (!bit cfg 30)) && (!bit cfg 23 || decide ((l.map imageEntrySize).foldl (· + ·) 0 ≤ 32))

/-- The special ranges. c holds the values as last accepted, w is the word written and x its number; key names the object. -/
def specialOk (c : Store) (key w : Nat) (x : Rat) (raw : Nat) : Special → Bool
  | .commitWord => bits w 31 16 != 0 && clear w 15 14 && bits w 13 1 != 0 && !bit w 0
  | .fullScale m => decide (1 ≤ x) && decide (x ≤ fullScaleOf c m)
  | .absTax m => decide (x.abs ≤ c.f (ctlIdx m 0x3403) 2)
  | .zeroTax m => decide (0 ≤ x) && decide (x ≤ c.f (ctlIdx m 0x3403) 2)
  | .speedLim m => decide (-(c.pf (ctlIdx m 0x3012) 4) ≤ x) && decide (x ≤ c.pf (ctlIdx m 0x3012) 3)
  | .curLim m => decide (x.abs ≤ c.pf (ctlIdx m 0x3012) 5)
  | .absVb m => decide (x.abs ≤ vBase c m)
  | .ibSpan m lo amp hi => decide ((if amp then lo else lo * iBase c m) ≤ x) && decide (x ≤ hi * iBase c m)
  | .ibSpanDis lo hi => decide (lo ≤ x) && decide (x ≤ hi * iBase c (c.u 0x5060 3))
  | .updTenth m => decide (100 ≤ x) && decide (x ≤ updateRate c m / 10)
  | .nonneg => decide (0 ≤ x)
  | .positive => decide (0 < x)
  | .blobLen _ => true
  | .channelCfg =>
    let sd := key % 256 - 1
    clear w 31 12 && bits w 11 10 != 3 && bits w 9 8 != 3 && bits w 7 6 != 3 && clear w 4 2
      && (decide (sd < 24) || clear w 9 6) && (decide (sd < 12) || !bit w 5)
  | .voteTest => clear w 15 9 && clear w 7 4 && decide (bits w 3 0 ≤ 11)
  | .m0Freq => decide (2000 ≤ w) && decide (w ≤ 100000) && decide (basicPeriod w * ratioK c ≤ 100000)
  | .m1Freq => decide (500 ≤ w) && decide (w ≤ 100000) && (m1Period c w).isSome
  | .spreadRaw => w % 2 == 0 && decide (w * 5 ≤ c.u 0x5400 1)
  | .shapedEntry => clear w 23 17 && bits w 31 24 != 0x80
  | .eventCfg =>
    let n := (key % 256 - 1) % 6
    clear w 30 29 && decide (1 ≤ bits w 28 24) && decide (bits w 28 24 ≤ 16) && clear w 19 16 && (decide (2 ≤ n) || clear w 15 0)
  | .ctcCfg => clear w 30 17
  | .gdlRequest => clear w 13 6
  | .fltCfg => clear w 29 24 && clear w 18 7 && decide (bits w 6 0 ≤ 100)
  | .ridgeCfg => clear w 29 24 && clear w 18 0
  | .gdlEntry => decide (bits w 61 58 ≤ 11) && clear w 57 56
  | .inputSource =>
    clear w 11 10 && clear w 7 5 && (match bits w 15 12 with
      | 0 => clear w 4 0
      | 1 => decide (bits w 4 0 ≤ 15)
      | 2 => decide (bits w 9 8 ≤ 1) && decide (bits w 4 0 ≤ 7)
      | 3 => clear w 4 0
      | _ => false)
  | .sendTap => w == 0 || (decide (1 ≤ w) && decide (w ≤ 8)) || (decide (0x10 ≤ w) && decide (w ≤ 0x13)) || (decide (0x18 ≤ w) && decide (w ≤ 0x1B))
      || (decide (0x20 ≤ w) && decide (w ≤ 0x27))
  | .partialWord => decide (bits w 10 0 ≤ 1000)
  | .ascending => decide (0 ≤ x) && mapAscends (c.put key raw) (key / 256)
  | .chimePlay => clear w 11 5 && (bit w 4 || decide (0 < bits (c.u 0x7421 (bits w 3 0 + 1)) 16 0))
  | .clipDir => decide (bits w 31 20 ≤ 3071) && clear w 19 17 && decide (bits w 16 0 ≤ 98304)
  | .identMask => clear w 14 8 && bits w 7 0 != 0
  | .orderDef => clear w 29 16 && (!bit w 31 || (decide (256 ≤ bits w 15 0) && decide (bits w 15 0 ≤ 49152)))
  | .tapRequest =>
    clear w 15 8 && !bit w 2 && bits w 7 3 != 0 && (bit w 3 || decide (bits w 1 0 ≤ 1) || (!bit w 7 && !bit w 5 && !bit w 4))
  | .orderMon => clear w 26 16 && decide (bits w 29 27 ≤ 5) && (!bit w 31 || (decide (51 ≤ bits w 15 0) && decide (bits w 15 0 ≤ 49152)))
  | .captureSignal => decide (w ≤ 0x2B) || (decide (0x31 ≤ w) && decide (w ≤ 0x3B)) || (decide (0x40 ≤ w) && decide (w ≤ 0x47)) || w == 0x50
      || (decide (0x60 ≤ w) && decide (w ≤ 0x65))
  | .aspCfg => aspFieldsOk w && aspConfigOk w
  | .aspMask => decide (w < 2 ^ aspSlots (c.u (key / 256) 1))
  | .aspCfgStaged => aspFieldsOk w
  | .pairCfg => pairCfgOk c w
  | .tpMode => clear w 31 8 && (List.range 4).all (fun n => bits w (2 * n + 1) (2 * n) != 3) && pairsOk (c.put key raw) && tpTimingOk c
  | .loopSig =>
    decide (1000 ≤ bits w 31 16) && decide (bits w 31 16 ≤ 50000) && decide (100 ≤ bits w 15 0) && decide (bits w 15 0 + 100 ≤ bits w 31 16)
  | .reaction => bits w 28 27 != 3 && clear w 25 24 && bits w 23 22 != 3 && bits w 21 20 != 3 && clear w 19 4
  | .thresholdCfg => bits w 30 29 != 3 && decide (bits w 28 27 ≤ 1) && clear w 26 24 && clear w 19 5
  | .slotEntry =>
    let slot := key % 256 - 1
    let input := bits w 29 24
    (!bit w 30 || (decide (29 ≤ slot) && decide (bits w 19 16 ≤ 2))) && (decide (input ≤ 0xB) || input == 0x1C || input == 0x1D)
      && [0, 2, 3, 4].contains (bits w 23 20) && decide (bits w 15 13 ≤ 6) && clear w 11 0
  | .keyMask k => bits w 31 16 == k && clear w 15 14 && !bit w 12 && bits w 13 1 != 0 && !bit w 0
  | .vlanEntry => decide (w ≤ 4094) || w == 0xFFFF
  | .samplePoints => decide (60 ≤ w / 256) && decide (w / 256 ≤ 90) && decide (60 ≤ w % 256) && decide (w % 256 ≤ 90)
  | .imageCfg => clear w 28 24 && !bit w 16 && clear w 12 10 && decide (1 ≤ bits w 9 0) && decide (bits w 9 0 ≤ 1000) && !(bit w 30 && bit w 23)
  | .imageMap => imageEntryOk (!bit (c.u 0x1060 (key / 256 - 0x1060)) 30) w && imageOk (c.put key raw) (key / 256 - 0x1061)
  | .updateCtl => decide (1 ≤ w) && decide (w ≤ 5)
where
  /-- The reserved bits and codes of a port configuration (Table 12-6). SLOTS 0, the code of the reset word, stands with FORMAT 0 alone (log 103). -/
  aspFieldsOk (w : Nat) : Bool :=
    clear w 31 29 && clear w 23 22 && decide (bits w 21 20 ≤ 1) && clear w 19 18 && decide (bits w 17 16 ≤ 1) && clear w 15 10 && clear w 6 2
      && ((aspFormat w == 0 && aspSlots w == 0) || (decide (2 ≤ aspSlots w) && decide (aspSlots w ≤ 16)))

/-- Whether a raw value lies in a row's range; c holds the values as last accepted. -/
def rangeOk (c : Store) (r : ObjRow) (key raw : Nat) : Bool :=
  let w := objWord r.ty raw
  let x := objNum r.ty raw
  match r.rng with
  | .any => true
  | .nat lo hi => decide (lo ≤ w) && decide (w ≤ hi)
  | .int lo hi => decide ((lo : Rat) ≤ x) && decide (x ≤ (hi : Rat))
  | .real lo hi => decide (lo ≤ x) && decide (x ≤ hi)
  | .even lo hi => decide (lo ≤ w) && decide (w ≤ hi) && w % 2 == 0
  | .codes l => l.contains w
  | .mask m => w &&& m == w
  | .zeroOr lo hi => w == 0 || (decide (lo ≤ w) && decide (w ≤ hi))
  | .flags _ => w &&& flagsDefined key == w
  | .sp k => specialOk c key w x raw k

/-- The content of a BLOB against the range of its object: empty, or of its one length. -/
def blobRangeOk (r : ObjRow) (v : List Byte) : Bool :=
  match r.rng with
  | .sp (.blobLen n) => v.isEmpty || v.length == n
  | _ => true

/-- Ranges that several objects share, on a basic write's candidate: the test-pulse timing and width, the hysteresis of a threshold,
the map of a generator, and the thermal warning below the stop threshold (R271, R313, R169, R316). -/
def sharedRangeOk (c : Store) (key raw : Nat) : Bool :=
  let d := c.put key raw
  let idx := key / 256
  let sub := key % 256
  match idx with
  | 0x9020 => (decide (3 < sub) || tpTimingOk d) && (sub != 2 || raw / 2 ^ 32 % 100 == 0)
  | 0xA012 => decide (leastHysteresis c (sub - 1) ≤ d.f 0xA012 sub)
  | 0x7010 | 0x7011 => if sub = 4 then mapAscends d idx else true
  | 0xA004 => decide (2 < sub) || decide (d.pf 0xA004 1 < d.pf 0xA004 2)
  | _ => true

end Sys2Proof.Machine
end

