-- ==== Sys2Proof/Machine/Derive.lean ====
section
/-! DEFINITION. The expert fields that a basic object derives (R36), and the defaults that BOOT forms from the device's own values (R337). -/

namespace Sys2Proof.Machine

/-- The CPAIR32 of a single-precision value. -/
def pairF (x : Rat) : Nat := pairOf (f32OfRat x)

/-- The CPAIR32 of an integer. -/
def pairInt (x : Int) : Nat := pairOf (ofInt 32 x)

/-- A count of 5 ns rounded down to even. -/
def evenDown (x : Nat) : Nat := x / 2 * 2

/-- Nanoseconds as interpolation steps of 156.25 ps, rounded. -/
def stepsOfNs (x : Nat) : Nat := (roundAway (mkRat (x * 32) 5)).toNat

/-- The divider M of the modulator clock nearest to a frequency, ties to the lower frequency (0x6000.01). -/
def nearestDivider (f : Nat) : Nat :=
  let a := clampN 8 40 (200000000 / max 1 f)
  let b := clampN 8 40 (a + 1)
  if (mkRat 200000000 a - (f : Rat)).abs < (mkRat 200000000 b - (f : Rat)).abs then a else b

/-- Current-controller gains of a machine (R86): Kp = 2π f L and Ki·T = Kp Rs / L × T_upd, over Z_b, in Q8.24 and Q4.28. -/
def currentGains (c : Store) (m : Nat) : List (Nat × Nat) :=
  let o := 0x1000 * m
  let zb := vBase c m / iBase c m
  let f := c.f (0x3014 + o) 1
  let rs := c.f (0x3010 + o) 5
  let gain (l : Rat) (s : Nat) : List (Nat × Nat) :=
    let kp := twoPiR * f * l
    [(objKey (0x3400 + o) s, top (roundAway (kp / zb * 2 ^ 24))),
     (objKey (0x3400 + o) (s + 1), top (roundAway (kp * rs / l / updateRate c m / zb * 2 ^ 28)))]
  gain (c.f (0x3010 + o) 6) 1 ++ gain (c.f (0x3010 + o) 7) 3
where
  /-- 2π. -/
  twoPiR : Rat := 2 * piR
  /-- A gain's raw value, at most the largest I32. -/
  top (x : Int) : Nat := (clampI 0 2147483647 x).toNat

/-- Speed-controller gains of a machine (0x3014.02, .03). -/
def speedGains (c : Store) (m : Nat) : List (Nat × Nat) :=
  let o := 0x1000 * m
  let f := c.f (0x3014 + o) 2
  let kp := 2 * piR * f * c.f (0x3014 + o) 3
  [(objKey (0x3401 + o) 1, f32OfRat kp), (objKey (0x3401 + o) 2, f32OfRat (kp * (2 * piR) * (f / 4) / updateRate c m))]

/-- D_F^k of the fast paths. -/
def fastFull (c : Store) : Nat := c.u 0x6400 0xB ^ c.u 0x6400 0xA

/-- A comparator threshold in steps for a current (R54): floor(|I| / G × D^k / 2). -/
def fastThreshold (c : Store) (sd : Nat) (i : Rat) : Nat := pairInt (i.abs / sdGain c sd * (fastFull c : Rat) / 2).floor

/-- The thresholds TH1 (th = 0) or TH2 (th = 1) of a machine's channels (0x6010). -/
def machineThresholds (c : Store) (m th : Nat) : List (Nat × Nat) :=
  (machineSds m).map (fun sd => (objKey (0x6420 + 16 * th) (sd + 1), fastThreshold c sd (c.pf 0x6010 (2 * th + m + 1))))

/-- The offset of a channel's fast path in steps, from its Starter-set offset. -/
def fastOffset (c : Store) (sd : Nat) : Nat := pairInt (roundAway (sdOffset c sd * (fastFull c : Rat) / 2))

/-- Thresholds and offsets of every channel in the present fast-path scaling. -/
def fastScaling (c : Store) : List (Nat × Nat) :=
  machineThresholds c 0 0 ++ machineThresholds c 1 0 ++ machineThresholds c 0 1 ++ machineThresholds c 1 1
    ++ (List.range 24).map (fun sd => (objKey 0x6440 (sd + 1), fastOffset c sd))

/-- The spread band in counts (0x5000.06): 0.1 % of the period, rounded down to even. -/
def spreadBand (c : Store) (p : Nat) : Nat := evenDown (p * c.u 0x5000 6 / 1000)

/-- A section's coefficients b0, b1, b2, a1, a2 divided by a0 (Table 8-3). -/
def biquadType (type : Nat) (f q g : Rat) : List Rat :=
  let cs := cosSinTurn (f / 48000)
  let c := cs.1
  let al := cs.2 / (2 * q)
  let a := pow10R (g / 40)
  let be := 2 * sqrtR a * al
  let scaled (b0 b1 b2 a0 a1 a2 : Rat) : List Rat := [b0 / a0, b1 / a0, b2 / a0, a1 / a0, a2 / a0]
  match type with
  | 0 => [1, 0, 0, 0, 0]
  | 1 => scaled ((1 - c) / 2) (1 - c) ((1 - c) / 2) (1 + al) (-2 * c) (1 - al)
  | 2 => scaled ((1 + c) / 2) (-(1 + c)) ((1 + c) / 2) (1 + al) (-2 * c) (1 - al)
  | 3 => scaled al 0 (-al) (1 + al) (-2 * c) (1 - al)
  | 4 => scaled 1 (-2 * c) 1 (1 + al) (-2 * c) (1 - al)
  | 5 => scaled (1 - al) (-2 * c) (1 + al) (1 + al) (-2 * c) (1 - al)
  | 6 => scaled (1 + al * a) (-2 * c) (1 - al * a) (1 + al / a) (-2 * c) (1 - al / a)
  | 7 => scaled (a * ((a + 1) - (a - 1) * c + be)) (2 * a * ((a - 1) - (a + 1) * c)) (a * ((a + 1) - (a - 1) * c - be))
      ((a + 1) + (a - 1) * c + be) (-2 * ((a - 1) + (a + 1) * c)) ((a + 1) + (a - 1) * c - be)
  | _ => scaled (a * ((a + 1) + (a - 1) * c + be)) (-2 * a * ((a - 1) + (a + 1) * c)) (a * ((a + 1) + (a - 1) * c - be))
      ((a + 1) - (a - 1) * c + be) (2 * ((a - 1) - (a + 1) * c)) ((a + 1) - (a - 1) * c - be)

/-- The exact coefficients of a basic section: output n, section k from 1. -/
def basicSection (c : Store) (n k : Nat) : List Rat :=
  let i := 0x7030 + n
  biquadType (c.u i k) (c.f i (0xC + k)) (c.f i (0x18 + k)) (c.f i (0x24 + k))

/-- The cone coefficients of a load (R211): H(s) by the bilinear transform, prewarped at f_r. -/
def coneBasic (c : Store) (l : Nat) : List Rat :=
  let f := c.f (0x8020 + l) 1
  let q := c.f (0x8020 + l) 2
  let cs := cosSinTurn (f / 48000)
  let al := cs.2 / (2 * q)
  let b := (1 - cs.1) / 2
  [b / (1 + al), 2 * b / (1 + al), b / (1 + al), -2 * cs.1 / (1 + al), (1 - al) / (1 + al)]

/-- Coefficients in Q3.29 as objects from a subindex on. -/
def coefFields (idx sub : Nat) (l : List Rat) : List (Nat × Nat) :=
  l.mapIdx (fun (i : Nat) (x : Rat) => (objKey idx (sub + i), ofInt 32 (toQ 32 29 x)))

/-- Whether exact coefficients lie inside Q3.29. -/
def coefFit (l : List Rat) : Bool := l.all (fun x => decide (-4 ≤ x) && decide (x < 4))

/-- The temperature thresholds of a load (R207): both nodes, T_s1, T_s2, T_d1, T_d2; a speaker has no derating. -/
def loadThresholds (c : Store) (l : Nat) : List (Nat × Nat) :=
  let i := 0x8010 + l
  let der := c.pf i 0xE
  let snd := c.pf i 0xF
  let node (s : Nat) (lim : Rat) : List (Nat × Nat) :=
    let k (n : Nat) : Nat := objKey (0x8410 + l) (s + n)
    if l < 2 then [(k 0, pairF (lim - der - snd)), (k 1, pairF (lim - der)), (k 2, pairF (lim - der)), (k 3, pairF lim)]
    else [(k 0, pairF (lim - snd)), (k 1, pairF lim)]
  node 1 (c.pf i 0xC) ++ node 5 (c.pf i 0xD)

/-- The raw matrix gain of a basic one (R171), Q2.14. -/
def matrixRaw (g : Int) : Nat := if g = -1000 then 0 else ofInt 16 (clampI (-32768) 32767 (roundAway (16384 * pow10R (mkRat g 200))))

/-- The enables of an event configuration word. -/
def enableFields (c : Store) (idx from_ n word : Nat) : List (Nat × Nat) :=
  (List.range n).map (fun k => (objKey idx (from_ + k), setBit (c.u idx (from_ + k)) 31 (bit word k)))

/-- The masks of a port without the bits at and above its slot count (R239): basic objects and their staged copies. -/
def aspMasks (c : Store) (n : Nat) : List (Nat × Nat) :=
  let i := 0x7200 + 16 * n
  let s := aspSlots (c.u i 1)
  let cut (sub : Nat) : List (Nat × Nat) :=
    let v := c.u i sub % 2 ^ s
    [(objKey i sub, v), (objKey (i + 0x400) sub, v)]
  cut 2 ++ cut 3

/-- R36: the fields that a write of a basic object derives, with their raw values; c holds the basic values with the new one. -/
def deriveFields (c : Store) (key : Nat) : List (Nat × Nat) :=
  let idx := key / 256
  let sub := key % 256
  match idx with
  | 0x3012 | 0x4012 => if sub = 6 then [(objKey (idx + 0x3EE) 5, c.u idx 6)] else []
  | 0x3014 | 0x4014 =>
    let m := idx / 0x1000 - 3
    if sub = 1 then currentGains c m else if sub = 2 ∨ sub = 3 then speedGains c m else []
  | 0x5000 =>
    (match sub with
    | 1 =>
      let p0 := nominalPeriod c 0
      let p := basicPeriod (c.u 0x5000 1)
      [(objKey 0x5400 1, p), (objKey 0x5400 5, spreadBand c p), (objKey 0x5410 1, ratioK c * p)]
        ++ (List.range 4).map (fun k =>
          let w := c.u 0x5440 (k + 1)
          (objKey 0x5440 (k + 1), setField w 16 0 (min (p - 1) (roundAway (mkRat (bits w 16 0 * p : Nat) (max 1 p0))).toNat)))
    | 4 => [(objKey 0x5400 2, stepsOfNs (c.u idx 4))]
    | 5 => [(objKey 0x5400 3, stepsOfNs (c.u idx 5))]
    | 6 => [(objKey 0x5400 5, spreadBand c (nominalPeriod c 0))]
    | _ => [])
  | 0x5010 =>
    (match sub with
    | 1 => (match m1Period c (c.u 0x5010 1) with | some p => [(objKey 0x5410 1, p)] | none => [])
    | 4 => [(objKey 0x5410 2, stepsOfNs (c.u idx 4))]
    | 5 => [(objKey 0x5410 3, stepsOfNs (c.u idx 5))]
    | _ => [])
  | 0x5020 =>
    if sub ≤ 2 then [(objKey 0x5420 sub, (roundAway (6400000000 / ((max 1 (c.u idx sub) : Nat) : Rat))).toNat)]
    else if sub ≤ 4 then [(objKey 0x5420 sub, stepsOfNs (c.u idx sub))] else []
  | 0x5030 => enableFields c 0x5430 (6 * (sub - 1) + 1) 6 (c.u idx sub)
  | 0x5040 =>
    if sub = 1 then enableFields c 0x5450 1 12 (c.u idx 1)
    else (List.range 12).map (fun k => (objKey 0x5450 (k + 1), setField (c.u 0x5450 (k + 1)) 6 0 (c.u idx 2 / 10)))
  | 0x6000 =>
    (match sub with
    | 1 | 2 => [(objKey 0x6400 sub, nearestDivider (c.u idx sub))]
    | 3 | 4 | 5 => [(objKey 0x6400 (sub + 4), c.u idx sub)]
    | 8 | 9 =>
      let f : Nat × Nat := (objKey 0x6400 (sub + 2), c.u idx sub)
      f :: fastScaling (c.put f.1 f.2)
    | _ => [])
  | 0x6010 => machineThresholds c ((sub - 1) % 2) ((sub - 1) / 2)
  | 0x7002 => [(objKey 0x7402 sub, matrixRaw (c.i 16 idx sub))]
  | 0x7030 | 0x7031 | 0x7032 | 0x7033 =>
    let k := (sub - 1) % 12
    coefFields (idx + 0x400) (5 * k + 1) (basicSection c (idx - 0x7030) (k + 1))
  | 0x7200 | 0x7210 | 0x7220 | 0x7230 =>
    if sub = 1 then (objKey (idx + 0x400) 1, c.u idx 1) :: aspMasks c ((idx - 0x7200) / 16)
    else if sub ≤ 3 then [(objKey (idx + 0x400) sub, c.u idx sub)] else []
  | 0x8010 | 0x8011 | 0x8012 | 0x8013 => if 0xC ≤ sub ∧ sub ≤ 0xF then loadThresholds c (idx - 0x8010) else []
  | 0x8020 | 0x8021 | 0x8022 | 0x8023 => if sub ≤ 2 then coefFields (idx + 0x400) 1 (coneBasic c (idx - 0x8020)) else []
  | _ => []

/-- The field [hi:lo] of an expert word that a basic object derives, where the word holds other fields beside it: EN of an event or trip input, FILT
of a trip input (R144), COUNT of a converter trigger; none where the whole value is derived. -/
def derivedSpan (key expert : Nat) : Option (Nat × Nat) :=
  match expert / 256 with
  | 0x5430 => some (31, 31)
  | 0x5440 => some (16, 0)
  | 0x5450 => if key = objKey 0x5040 1 then some (31, 31) else some (6, 0)
  | _ => none

/-- An expert value with what a basic object derives of it taken from new. -/
def overlay (key expert old new : Nat) : Nat :=
  match derivedSpan key expert with
  | none => new
  | some (hi, lo) => setField old hi lo (bits new hi lo)

/-- The basic objects that derive fields, in an order in which a later one may read what an earlier one derived. -/
def derivingKeys : List Nat :=
  [objKey 0x5000 1, objKey 0x5010 1, objKey 0x5000 4, objKey 0x5000 5, objKey 0x5000 6, objKey 0x5010 4, objKey 0x5010 5]
    ++ (List.range 4).map (fun k => objKey 0x5020 (k + 1)) ++ [objKey 0x5030 1, objKey 0x5030 2, objKey 0x5040 1, objKey 0x5040 2]
    ++ [1, 2, 3, 4, 5, 8, 9].map (objKey 0x6000) ++ (List.range 4).map (fun k => objKey 0x6010 (k + 1))
    ++ [objKey 0x3012 6, objKey 0x3014 1, objKey 0x3014 2, objKey 0x4012 6, objKey 0x4014 1, objKey 0x4014 2]
    ++ (List.range 32).map (fun k => objKey 0x7002 (k + 1))
    ++ (List.range 4).flatMap (fun n => (List.range 12).map (fun k => objKey (0x7030 + n) (k + 1)))
    ++ (List.range 4).flatMap (fun n => (List.range 3).map (fun k => objKey (0x7200 + 16 * n) (k + 1)))
    ++ (List.range 4).flatMap (fun l => [objKey (0x8010 + l) 0xC, objKey (0x8020 + l) 1])

/-- The defaults that the spec gives as fractions of I_b or of full scale, or takes from another object (0x3012.05, 0x3406, 0x3407, 0x5060.04,
0x6010, 0x7003.05 and .06), as far as they need the Starter set. -/
def ratedDefaults (c : Store) : List (Nat × Nat) :=
  (List.range 2).flatMap (fun m =>
    let o := 0x1000 * m
    let ib := iBase c m
    let fs := fullScaleOf c m
    [(objKey (0x3012 + o) 5, pairF (ib / 2)), (objKey (0x3407 + o) 1, f32OfRat (ib / 50)), (objKey 0x6010 (m + 1), pairF (fs * 9 / 10)),
     (objKey 0x6010 (m + 3), pairF (fs * 4 / 5)), (objKey 0x7003 (m + 5), f32OfRat (ib / 50))])
    ++ [(objKey 0x5060 4, f32OfRat (iBase c (c.u 0x5060 3) / 10))]

/-- Values put into a store where a group is selected. -/
def putFields (p : Nat → Bool) (c : Store) (l : List (Nat × Nat)) : Store :=
  l.foldl (fun c e => if p (objGroup e.1) then c.put e.1 e.2 else c) c

/-- R337: a store whose groups outside the loaded ones take their rated and derived defaults. -/
def bootDefaults (loaded : Nat) (c : Store) : Store :=
  let p (g : Nat) : Bool := !bit loaded g
  let c := putFields p c (ratedDefaults c)
  let c := derivingKeys.foldl (fun c k => putFields p c (deriveFields c k)) c
  let diff (m : Nat) : List (Nat × Nat) :=
    let o := 0x1000 * m
    [(objKey (0x3406 + o) 1, c.u (0x3400 + o) 3), (objKey (0x3406 + o) 2, c.u (0x3400 + o) 4)]
  putFields p c (diff 0 ++ diff 1)

end Sys2Proof.Machine
end

