-- ==== Sys2Proof/Machine/TypesLane.lean ====
section
/-! DEFINITION. State of the lanes and the vote (chapters 04 and 05). Per-unit values are held as the rationals that their
formats can hold; the formats are those of Table 4-1. -/

namespace Sys2Proof.Machine

/-- One PI controller (R86): integrator, the output of its latest update, the count of updates inside its limits, and sat. -/
structure Pi where
  integ : Rat := 0
  u : Rat := 0
  inside : Nat := 0
  sat : Bool := false
  deriving DecidableEq, Repr

/-- A full lane's controller state of one machine: everything the standby lane holds for a takeover (chapter 05). piWd and piWq are the balance loop of R384. The Rise
outputs ramp1 and ramp2 are in the units of the mode's set-points; angles are in turns. -/
structure LaneM where
  piD : Pi := {}
  piQ : Pi := {}
  piDd : Pi := {}
  piDq : Pi := {}
  piSpeed : Pi := {}
  piLimit : Pi := {}
  piHold : Pi := {}
  piWd : Pi := {}
  piWq : Pi := {}
  ramp1 : Rat := 0
  ramp2 : Rat := 0
  dpsi : Rat := 0
  vMag : Rat := 0
  vd : Rat := 0
  vq : Rat := 0
  injF : Rat := 1
  cancF : Rat := 1
  injPrev : Rat := 0
  cancPrev : Rat := 0
  fade : Rat := 0
  tRef : Rat := 0
  limPos : Rat := 0
  limNeg : Rat := 0
  limFwd : Bool := false
  limRev : Bool := false
  theta : Rat := 0
  thetaHold : Rat := 0
  injPhase : Rat := 0
  mode : Nat := 0
  status : Nat := 0
  deriving DecidableEq, Repr

/-- A reference record of one machine (R98), in per unit; the references of the difference pair are 0 (R76). -/
structure LaneRecord where
  idRef : Rat := 0
  iqRef : Rat := 0
  ddRef : Rat := 0
  dqRef : Rat := 0
  v3d : Rat := 0
  v3q : Rat := 0
  intD : Rat := 0
  intQ : Rat := 0
  intDd : Rat := 0
  intDq : Rat := 0
  ffD : Rat := 0
  ffQ : Rat := 0
  deriving DecidableEq, Repr

/-- What the checker lane takes from a full lane beside its record, because it does not compute it (R99): the commanded vector of
voltage mode, the sine of R91 with the balance loop of R384, and the feedforwards of injection and canceller part that the voltage limit splits off
(R81). -/
structure LaneFeed where
  v8d : Rat := 0
  v8q : Rat := 0
  addD : Rat := 0
  addQ : Rat := 0
  injD : Rat := 0
  injQ : Rat := 0
  cancD : Rat := 0
  cancQ : Rat := 0
  deriving DecidableEq, Repr

/-- What a lane publishes for one machine in one update: the values of 0x3020, and the phase voltages of stage 10, per unit, which the back-EMF observer
takes in the next update (R90); own is its torque reference after order 3 of Table 4-4, before a partner's (R384). -/
structure LanePub where
  volts : List Rat := []
  torque : Nat := 0
  own : Nat := 0
  id : Nat := 0
  iq : Nat := 0
  vd : Nat := 0
  vq : Nat := 0
  dvd : Nat := 0
  dvq : Nat := 0
  modIndex : Nat := 0
  limit : Nat := 0
  limitSource : Nat := 0
  speed : Nat := 0
  capture : List Nat := [0, 0, 0, 0]
  satEdges : Nat := 0
  deriving DecidableEq, Repr

/-- A lane's report of one update: the on-times of the twelve half-bridges in steps, the speaker bridges' modulation inputs, the
records of both machines, the state signature, and the cause code of the first lane check of Table 5-1 that failed (0 for none:
the flag S_X). -/
structure LaneReport where
  duties : List Nat := []
  spk : List Int := []
  recs : List LaneRecord := []
  feeds : List LaneFeed := []
  sig : Nat := 0
  cause : Nat := 0
  deriving DecidableEq, Repr

/-- A full lane: its controller states, its recipe data memory, its latest results, and the report of the running update. imageBad marks a recipe
image that failed its check (R103). -/
structure FullLane where
  st : Nat := 1
  m : List LaneM := [{}, {}]
  mem : WordMem := []
  next : List LaneM := [{}, {}]
  nextMem : WordMem := []
  pub : List LanePub := [{}, {}]
  computed : Option LaneReport := none
  report : Option LaneReport := none
  ecc : Nat := 0
  readmissions : Nat := 0
  dropCause : Nat := 0
  testing : Option Nat := none
  testPassed : Bool := false
  syncDone : Bool := false
  probation : Nat := 0
  hostTest : Bool := false
  diverged : Bool := false
  imageBad : Bool := false
  deriving DecidableEq, Repr

/-- The checker lane: its state, its copies of the integrators (R101), own, the copies as its own latest PI step advanced them, its results from the records of A and of B, and its own
check result. -/
structure CheckerLane where
  st : Nat := 1
  integ : List (List Rat) := [[0, 0, 0, 0], [0, 0, 0, 0]]
  own : List (List Rat) := [[0, 0, 0, 0], [0, 0, 0, 0]]
  fromA : List Nat := []
  fromB : List Nat := []
  report : Bool := false
  cause : Nat := 0
  ecc : Nat := 0
  deviations : Nat := 0
  testing : Option Nat := none
  testPassed : Bool := false
  deriving DecidableEq, Repr

/-- The lanes and the vote (chapter 05). running marks an update between lane start and vote, startTime the counter value of the lane start, sample
that of the window centre; due is the BEDROCK cause that the next update instant (5: the next M0 Trough) brings, 0 for none (R106, R116). -/
structure LaneState where
  a : FullLane := { st := 0 }
  b : FullLane := {}
  chk : CheckerLane := {}
  active : Nat := 0
  running : Bool := false
  startTime : Nat := 0
  sample : Nat := 0
  skipBand : List Bool := [false, false]
  m1Update : Bool := true
  usedRec : List LaneRecord := [{}, {}]
  row : Nat := 0
  agree : Bool := false
  testFail : Bool := false
  due : Nat := 0
  takeovers : Nat := 0
  disagreements : Nat := 0
  deviations : Nat := 0
  resyncs : Nat := 0
  takeoverFn : Nat := 0
  lastDrop : Nat := 0
  swapPending : Option Nat := none
  voteTest : Option (Nat × Nat) := none
  testResult : Nat := 0
  recipeRefusals : Nat := 0
  deriving DecidableEq, Repr

end Sys2Proof.Machine
end

