-- ==== Sys2Proof/Machine/Control.lean ====
section
/-! DEFINITION. The lanes' datapath of one machine in one update (chapter 04): stages 1 to 11 of Table 4-1 with the reference
path, its limits, the Rise, the PI controllers and the recipe hooks. Fixed-point stages are rounded to their format at their
output (R74); single-precision quantities are rounded once each (log 25). -/

namespace Sys2Proof.Machine

/-- Rounding to Q3.29 (R74). -/
def q29 (x : Rat) : Rat := quant 32 29 x

/-- R87: the controllers whose new gains or limits apply at a Trough: d, q, difference pair, speed, speed limiter and hold loop. -/
structure ReInit where
  d : Bool := false
  q : Bool := false
  x : Bool := false
  speed : Bool := false
  limit : Bool := false
  hold : Bool := false
  deriving DecidableEq, Repr

/-- Controllers of either of two sets. -/
def ReInit.or (a b : ReInit) : ReInit :=
  ⟨a.d || b.d, a.q || b.q, a.x || b.x, a.speed || b.speed, a.limit || b.limit, a.hold || b.hold⟩

/-- What all lanes read for one machine in one update (R12, Table 4-8). enter marks the first update of a mode, restart the first after a trip or after
mode 0 (R85); pulse is the polarity pulse of R91 on the flux axis. tap, tapD and tapQ are the references of R219, per unit, tapStar the star that
they drive alone (0: the sum pair) and tapFade the fade of a spin at its end;
thermal lists the thermal derating limits of the motoring and the generating direction as complement pairs of F32 (R209; empty: none), crust is the Crust torque limit as one (R284); wide the partner's i_d, i_q (per unit) and torque reference of R384. Currents are Q3.29 per unit; angles are in
turns; speed in mechanical turns per second; tUpd in seconds; period in counts. -/
structure LaneEnv where
  m : Nat := 0
  fn : Nat := 0
  mode : Nat := 0
  enter : Bool := false
  fadeOut : Bool := false
  idle : Bool := true
  i : List Rat := []
  thetaMech : Rat := 0
  speed : Rat := 0
  udc : Rat := 0
  sp1 : Rat := 0
  sp2 : Rat := 0
  vFreq : Rat := 0
  inj : Rat := 0
  canc : Rat := 0
  thermal : List Nat := []
  crust : Option Nat := none
  held : Option Rat := none
  tUpd : Rat := 0
  period : Nat := 20000
  zs : Int := 0
  modMode : Nat := 0
  restart : Bool := false
  re : ReInit := {}
  pulse : Rat := 0
  observer : Bool := false
  injRun : Bool := false
  driven : Bool := false
  testT : Rat := 0
  testS : Rat := 0
  testD : Rat := 0
  testQ : Rat := 0
  deadSteps : Nat := 1600
  flags : Nat := 0
  tap : Bool := false
  tapD : Rat := 0
  tapQ : Rat := 0
  tapStar : Nat := 0
  tapFade : Rat := 1
  wide : Option (Rat × Rat × Rat) := none
  deriving DecidableEq, Repr

/-- The machine's parameters as the lanes use them (0x3010 to 0x3407), in SI units and per unit. -/
structure LaneParams where
  phases : Nat
  disp : Rat
  poles : Rat
  thetaOff : Rat
  rs : Rat
  ld : Rat
  lq : Rat
  psi : Rat
  ib : Rat
  vb : Rat
  zb : Rat
  margin : Rat
  iMax : Rat
  kpD : Rat
  kiD : Rat
  kpQ : Rat
  kiQ : Rat
  kpS : Rat
  kiS : Rat
  kpX : Rat
  kiX : Rat
  motor : Rat
  gener : Rat
  fwd : Rat
  rev : Rat
  slewT : Rat
  slewS : Rat
  slewI : Rat
  slewV : Rat
  kPos : Rat
  holdLim : Rat
  decoup : Bool
  comp : Bool
  compThr : Rat
  tAx : Rat
  psiLo : Rat
  psiHi : Rat
  kFw : Rat
  dpsiMin : Rat
  fInj : Rat
  aInj : Rat
  deriving DecidableEq, Repr

/-- The parameters in force. -/
def laneParams (c : Store) (m : Nat) : LaneParams :=
  let o := 0x1000 * m
  let ib := iBase c m
  let vb := vBase c m
  { phases := phaseCount c m, disp := (c.u (0x3010 + o) 2 : Rat) * 30 / 360, poles := (c.u (0x3010 + o) 3 : Rat),
    thetaOff := mkRat (c.u (0x3010 + o) 0xA) 65536, rs := c.f (0x3010 + o) 5, ld := c.f (0x3010 + o) 6,
    lq := c.f (0x3010 + o) 7, psi := c.f (0x3010 + o) 8, ib := ib, vb := vb, zb := vb / ib,
    margin := mkRat (c.u (0x3400 + o) 5) 1000, iMax := c.pf (0x3012 + o) 5 / ib,
    kpD := ofQ 24 (c.i 32 (0x3400 + o) 1), kiD := ofQ 28 (c.i 32 (0x3400 + o) 2),
    kpQ := ofQ 24 (c.i 32 (0x3400 + o) 3), kiQ := ofQ 28 (c.i 32 (0x3400 + o) 4),
    kpS := c.f (0x3401 + o) 1, kiS := c.f (0x3401 + o) 2,
    kpX := ofQ 24 (c.i 32 (0x3406 + o) 1), kiX := ofQ 28 (c.i 32 (0x3406 + o) 2),
    motor := c.pf (0x3012 + o) 1, gener := c.pf (0x3012 + o) 2, fwd := c.pf (0x3012 + o) 3, rev := c.pf (0x3012 + o) 4,
    slewT := c.f (0x3013 + o) 1, slewS := c.f (0x3013 + o) 2, slewI := c.f (0x3013 + o) 3 * 1000,
    slewV := c.f (0x3013 + o) 4 * 1000, kPos := c.f (0x3405 + o) 1, holdLim := c.f (0x3405 + o) 2,
    decoup := c.b (0x3014 + o) 4, comp := c.b (0x3014 + o) 5, compThr := c.f (0x3407 + o) 1,
    tAx := c.f (0x3403 + o) 2, psiLo := c.f (0x3403 + o) 3, psiHi := c.f (0x3403 + o) 4,
    kFw := c.f (0x3402 + o) 1, dpsiMin := c.f (0x3402 + o) 2,
    fInj := (c.u (0x3404 + o) 2 : Rat), aInj := mkRat (c.u (0x3404 + o) 3) 1000 }

/-! ### Transforms (stages 2, 3 and 10) -/

/-- Cosine and sine of θ_e as UQ0.16 turn, in Q1.30; the table's error is free within 2^−24 (Table 4-1). -/
def laneCosSin (theta : Rat) : Rat × Rat :=
  let k := ((roundAway (theta * 65536)) % 65536).toNat
  let (c, s) := cosSinTurn (mkRat k 65536)
  let err (j : Nat) := clampR (-(pow2 (-24))) (pow2 (-24)) (Config.sineError k j)
  (quant 32 30 (c + err 0), quant 32 30 (s + err 1))

/-- Clarke and Park of one star (stages 2 and 3). -/
def clarkePark (a b c : Rat) (cs : Rat × Rat) : Rat × Rat :=
  let al := q29 ((2 * a - b - c) / 3)
  let be := q29 ((b - c) / sqrtR 3)
  (q29 (al * cs.1 + be * cs.2), q29 (-al * cs.2 + be * cs.1))

/-- Inverse Park and Clarke of one star (stage 10). -/
def invParkClarke (d q : Rat) (cs : Rat × Rat) : List Rat :=
  let al := q29 (d * cs.1 - q * cs.2)
  let be := q29 (d * cs.2 + q * cs.1)
  [al, q29 (-al / 2 + be * sqrtR 3 / 2), q29 (-al / 2 - be * sqrtR 3 / 2)]

/-! ### PI step (R86, R87) -/

/-- R86. rnd is the destination format's rounding. -/
def Pi.step (rnd : Rat → Rat) (p : Pi) (kp ki e lo hi : Rat) : Pi :=
  let uu := rnd (kp * e + p.integ)
  let u := clampR lo hi uu
  let integ := if (uu ≤ hi ∨ e < 0) ∧ (lo ≤ uu ∨ 0 < e) then clampR lo hi (rnd (p.integ + ki * e)) else p.integ
  let inside := if lo ≤ uu ∧ uu ≤ hi then p.inside + 1 else 0
  { integ := integ, u := u, inside := min 2 inside, sat := if u ≠ uu then true else if 2 ≤ inside then false else p.sat }

/-- R87: integ := u_prev − kp_new × e, clamped to the new limits. -/
def Pi.reinit (rnd : Rat → Rat) (p : Pi) (kp e lo hi : Rat) : Pi := { p with integ := clampR lo hi (rnd (p.u - kp * e)) }

/-! ### Table lookup (R77, R78) -/

/-- One value of the table, Q1.15 of I_b: k = 0 for i_d, 1 for i_q. -/
def tableEntry (tab : List Byte) (x y k : Nat) : Rat :=
  let o := 4 * (64 * y + x) + 2 * k
  mkRat (sext 16 ((nth tab o 0).toNat * 256 + (nth tab (o + 1) 0).toNat)) 32768

/-- R78: the current pair for a torque reference and a flux limit. -/
def mtpaLookup (p : LaneParams) (tab : List Byte) (tRef psiLim : Rat) : Rat × Rat :=
  let x := minR 63 (absR tRef / p.tAx * 63)
  let y := minR 63 (maxR 0 ((psiLim - p.psiLo) / (p.psiHi - p.psiLo) * 63))
  let x0 := x.floor.toNat
  let y0 := y.floor.toNat
  let x1 := min (x0 + 1) 63
  let y1 := min (y0 + 1) 63
  let fx := x - x0
  let fy := y - y0
  let v (k : Nat) := f32R ((1 - fx) * (1 - fy) * tableEntry tab x0 y0 k + fx * (1 - fy) * tableEntry tab x1 y0 k
    + (1 - fx) * fy * tableEntry tab x0 y1 k + fx * fy * tableEntry tab x1 y1 k)
  (v 0, if tRef < 0 then -(v 1) else v 1)

/-! ### Limits of a vector (R80, R81) -/

/-- The square of a vector's magnitude. -/
def norm2 (v : Rat × Rat) : Rat := v.1 * v.1 + v.2 * v.2

/-- The largest s in [0, top] with |a + s b| ≤ lim, or none where no s brings the vector there: between the two roots of |a + s b| = lim it lies inside. -/
def largestScale (a b : Rat × Rat) (lim top : Rat) : Option Rat :=
  if norm2 (a.1 + top * b.1, a.2 + top * b.2) ≤ lim * lim then some top
  else
    let bb := norm2 b
    let ab := a.1 * b.1 + a.2 * b.2
    let disc := ab * ab - bb * (norm2 a - lim * lim)
    if bb = 0 ∨ disc < 0 then none else
    let hi := (sqrtR disc - ab) / bb
    if hi < 0 ∨ top < (-sqrtR disc - ab) / bb then none else some (minR top hi)

/-- A vector within a limit at the format Q3.29: rounded to nearest, or toward zero where that would take it past the limit. -/
def fitIn (lim : Rat) (v : Rat × Rat) : Rat × Rat :=
  let cut (x : Rat) : Rat := signR x * (mkRat (absR x * 2 ^ 29).floor (2 ^ 29))
  if norm2 (q29 v.1, q29 v.2) ≤ lim * lim then (q29 v.1, q29 v.2) else (cut v.1, cut v.2)

/-- Scales of injection and canceller part that bring base + canc + inj within lim, in the order of R16: the injection first,
then the canceller part; the last flag says that both are 0 and the base must yield. -/
def yieldScales (base inj canc : Rat × Rat) (lim topI topC : Rat) : Rat × Rat × Bool :=
  let bc := (base.1 + topC * canc.1, base.2 + topC * canc.2)
  match largestScale bc inj lim topI with
  | some s => (s, topC, false)
  | none =>
    match largestScale base canc lim topC with
    | some s => (0, s, false)
    | none => (0, 0, true)

/-! ### One update of one machine -/

/-- A ramp output moved toward its set-point by at most one step of the slew (R85). -/
def rampTo (r target step : Rat) : Rat := if absR (target - r) ≤ step then target else r + signR (target - r) * step

/-- Measured quantities of an update: currents in d and q of the sum and difference pairs, angle pair, torque, speeds. -/
structure Meas where
  theta : Rat
  cs1 : Rat × Rat
  cs2 : Rat × Rat
  id : Rat
  iq : Rat
  dd : Rat
  dq : Rat
  omega : Rat
  rpm : Rat
  torque : Rat
  vMax : Rat
  deriving DecidableEq, Repr

/-- T = (m / 2) p [ψ i_q + (L_d − L_q) i_d i_q], currents in per unit (R76). -/
def torqueOf (p : LaneParams) (id iq : Rat) : Rat :=
  f32R ((p.phases : Rat) / 2 * p.poles * (p.psi * (iq * p.ib) + (p.ld - p.lq) * (id * p.ib) * (iq * p.ib)))

/-- Stages 1 to 3, the angle of stage 3, the speeds and the voltage limit. -/
def measure (p : LaneParams) (e : LaneEnv) (s : LaneM) : Meas :=
  let volt := decide (e.mode = 4 ∧ e.vFreq ≠ 0)
  let th := if volt then s.theta else p.poles * e.thetaMech + p.thetaOff
  let th := mkRat ((roundAway (th * 65536)) % 65536) 65536
  let cs1 := laneCosSin th
  let cs2 := laneCosSin (th - p.disp)
  let g (k : Nat) := nth e.i k 0
  let s1 := clarkePark (g 0) (g 1) (g 2) cs1
  let s2 := if p.phases = 6 then clarkePark (g 3) (g 4) (g 5) cs2 else s1
  let id := q29 ((s1.1 + s2.1) / 2)
  let iq := q29 ((s1.2 + s2.2) / 2)
  { theta := th, cs1 := cs1, cs2 := cs2, id := id, iq := iq, dd := q29 ((s1.1 - s2.1) / 2), dq := q29 ((s1.2 - s2.2) / 2),
    omega := f32R (2 * piR * p.poles * e.speed), rpm := f32R (e.speed * 60), torque := torqueOf p id iq,
    vMax := q29 (p.margin * e.udc / sqrtR 3 / p.vb) }

/-- Whether torque of a sign is motoring (R89). -/
def motoring (x : Meas) (positive : Bool) : Bool := decide (absR x.rpm < 1) || (positive == decide (0 ≤ x.rpm))

/-- The configured torque limit of a direction (R89): the motoring or the generating one. -/
def configuredLimit (p : LaneParams) (x : Meas) (positive : Bool) : Rat := if motoring x positive then p.motor else p.gener

/-- The thermal derating limit of a direction (R209), from the value of its complement pair; the configured limit where there is none. -/
def thermalLimit (p : LaneParams) (e : LaneEnv) (x : Meas) (positive : Bool) : Rat :=
  match e.thermal with
  | [a, b] => f32ToRat ((if motoring x positive then a else b) / 2 ^ 32)
  | _ => configuredLimit p x positive

/-- Whether every complement pair that the lanes read from their input passes its check (Table 2-9). -/
def LaneEnv.pairsOk (e : LaneEnv) : Bool := e.thermal.all pairOk && e.crust.all pairOk

/-- The Crust torque limit, from the value of its complement pair (R284). -/
def crustLimit (e : LaneEnv) : Option Rat := e.crust.map (fun w => f32ToRat (w / 2 ^ 32))

/-- The torque limits in force for positive and negative torque: the lowest of the configured limit, the thermal limit (R209) and the Crust limit (R18,
R89); during the hold of R71, no higher than the held limit. A raised limit passes through the torque slew. -/
def torqueLimits (p : LaneParams) (e : LaneEnv) (x : Meas) (s : LaneM) : Rat × Rat :=
  let cap (v : Rat) (o : Option Rat) := match o with | some l => minR v l | none => v
  let lim (up : Bool) := cap (cap (minR (configuredLimit p x up) (thermalLimit p e x up)) (crustLimit e)) e.held
  let go (cur t : Rat) := if t ≤ cur then t else minR t (cur + p.slewT * e.tUpd)
  (go s.limPos (lim true), go s.limNeg (lim false))

/-- The source of the torque limit in force for a torque reference (0x3020.09): 0 configured, 1 thermal, 2 Crust. -/
def limitSource (p : LaneParams) (e : LaneEnv) (x : Meas) (tRef : Rat) : Nat :=
  let c := configuredLimit p x (decide (0 ≤ tRef))
  let t := thermalLimit p e x (decide (0 ≤ tRef))
  match crustLimit e with
  | some k => if c ≤ t ∧ c ≤ k then 0 else if t ≤ k then 1 else 2
  | none => if c ≤ t then 0 else 1

/-- The quantity from which a mode's Rise starts (Table 4-2). -/
def riseStart (p : LaneParams) (x : Meas) (s : LaneM) (mode : Nat) (fromOff : Bool) : Rat × Rat :=
  match mode with
  | 1 => (x.id * p.ib, x.iq * p.ib)
  | 2 => (x.torque, 0)
  | 3 => (x.rpm, 0)
  | 4 => if fromOff then (0, x.omega * p.psi) else (s.vd * p.vb, s.vq * p.vb)
  | 5 => (x.rpm, 0)
  | _ => (0, 0)

/-- The slew of a mode, per second (0x3013). -/
def modeSlew (p : LaneParams) (mode : Nat) : Rat :=
  match mode with
  | 1 => p.slewI
  | 2 => p.slewT
  | 4 => p.slewV
  | _ => p.slewS

/-- The results of the reference path (stage 4): the current reference, the torque reference in use and the machine's own (R384), the controllers it moved, the bounds of the torque in this update, and the
status bits it set. -/
structure RefOut where
  s : LaneM
  id : Rat
  iq : Rat
  tRef : Rat
  own : Rat
  lo : Rat
  hi : Rat
  status : Nat
  deriving DecidableEq, Repr

/-- The speed limiter of R88: while the speed lies beyond a limit, a speed controller preloaded to the torque reference at the
crossing, and re-initialised by R87, bounds the torque. Answers the lane and the bounds of the torque with whether it acts. -/
def speedLimiter (p : LaneParams) (e : LaneEnv) (x : Meas) (s : LaneM) (lo hi : Rat) : LaneM × Rat × Rat × Bool :=
  let run (acting : Bool) (limit : Rat) : Pi :=
    let er := f32R ((limit - x.rpm) * (2 * piR) / 60)
    let pi := if !acting then { s.piLimit with integ := f32R (s.tRef - p.kpS * er) }
      else if e.re.limit then s.piLimit.reinit f32R p.kpS er lo hi else s.piLimit
    pi.step f32R p.kpS p.kiS er lo hi
  if p.fwd < x.rpm then
    let pi := run s.limFwd p.fwd
    ({ s with piLimit := pi, limFwd := true, limRev := false }, lo, minR hi pi.u, true)
  else if x.rpm < -p.rev then
    let pi := run s.limRev (-p.rev)
    ({ s with piLimit := pi, limRev := true, limFwd := false }, maxR lo pi.u, hi, true)
  else ({ s with limFwd := false, limRev := false }, lo, hi, false)

/-- The speed controller of modes 3 and 5 (R86), re-initialised by R87 or preloaded by R88 where due. -/
def speedControl (p : LaneParams) (e : LaneEnv) (x : Meas) (s : LaneM) (ref lo hi : Rat) (preload : Bool) : LaneM × Rat :=
  let er := f32R ((ref - x.rpm) * (2 * piR) / 60)
  let pi := if e.re.speed then s.piSpeed.reinit f32R p.kpS er lo hi else s.piSpeed
  let pi := if preload then { pi with integ := f32R (s.tRef - p.kpS * er) } else pi
  let pi := pi.step f32R p.kpS p.kiS er lo hi
  ({ s with piSpeed := pi }, pi.u)

/-- i_q* bounded so that T*, the torque that the references give, stays within bounds at the present i_d* (R88); where the torque is zero for every
i_q*, it is not bounded. Answers i_q*, T* as bounded, and whether a bound was met. -/
def boundIq (p : LaneParams) (id iq lo hi : Rat) : Rat × Rat × Bool :=
  let g := p.psi + (p.ld - p.lq) * (id * p.ib)
  let k := (p.phases : Rat) / 2 * p.poles * g * p.ib
  let t := clampR lo hi (k * iq)
  if absR g < 1 / 1000000000 then (iq, k * iq, false) else (if t = k * iq then iq else t / k, t, decide (t ≠ k * iq) || t = hi || t = lo)

/-- The first update in which a mode's Rise starts: at entry into a mode, and at the restart after a trip (R85). -/
def LaneEnv.fresh (e : LaneEnv) : Bool := e.enter || e.restart

/-- The set-points as the lanes read them (Table 4-2): in hold mode the hold angle, latched at entry, in turns (log 112). -/
def LaneEnv.setPoints (e : LaneEnv) (s : LaneM) : Rat × Rat :=
  if e.mode = 5 then (if e.enter then e.thetaMech else s.thetaHold, 0) else (e.sp1, e.sp2)

/-- Stage 4: mode, Rise, limits and table lookup (Table 4-2, Table 4-4). sp is the set-point pair after hook H1. The difference of the hold angle and
the angle is taken as it stands, without a turn's wrap (R84, log 112). -/
def referencePath (p : LaneParams) (tab : List Byte) (e : LaneEnv) (x : Meas) (s : LaneM) (sp : Rat × Rat) : RefOut :=
  let (pos, neg) := torqueLimits p e x s
  let s := { s with limPos := pos, limNeg := neg }
  let start := riseStart p x s e.mode (s.mode == 0 || e.idle || e.restart)
  let step := modeSlew p e.mode * e.tUpd
  let goal := if e.mode = 5 then (0, 0) else if e.mode = 3 then (clampR (-p.rev) p.fwd sp.1, 0) else sp
  let held := e.idle || e.fresh
  let r1 := if held then start.1 else rampTo s.ramp1 goal.1 step
  let r2 := if held then start.2 else rampTo s.ramp2 goal.2 step
  let r1 := if e.mode = 3 then clampR (-p.rev) p.fwd r1 else r1
  let twoRamps := decide (e.mode = 1 ∨ e.mode = 4)
  let rise := decide (e.mode ≠ 0) && (decide (r1 ≠ goal.1) || (twoRamps && decide (r2 ≠ goal.2)))
  let s := { s with
    ramp1 := f32R r1, ramp2 := f32R r2
    thetaHold := if e.enter && decide (e.mode = 5) then e.thetaMech else s.thetaHold }
  let st := setBit 0 15 rise
  let psiLim := if absR x.omega < 1 then p.psiHi else f32R (x.vMax * p.vb / absR x.omega + s.dpsi)
  let finish (s : LaneM) (t lo hi : Rat) (st : Nat) : RefOut :=
    let t1 := clampR lo hi (t + e.testT)
    -- R384: of the two halves' references, that of smaller magnitude
    let t2 := match e.wide with | some (_, _, o) => if absR o < absR t1 then o else t1 | none => t1
    let st := setBit st 13 (t1 ≠ t + e.testT || t1 = hi || t1 = lo)
    let (id, iq) := mtpaLookup p tab t2 psiLim
    { s := s, id := id, iq := iq, tRef := f32R t2, own := f32R t1, lo := lo, hi := hi, status := st }
  match e.mode with
  | 1 =>
    let id := s.ramp1 / p.ib
    let iq := s.ramp2 / p.ib
    let now := boundIq p id iq (-neg) pos
    let (s, lo, hi, lim) := speedLimiter p e x { s with tRef := f32R now.2.1 } (-neg) pos
    let (iq, t, met) := boundIq p id iq lo hi
    { s := s, id := id, iq := iq, tRef := f32R t, own := f32R t, lo := lo, hi := hi, status := setBit (setBit st 14 lim) 13 met }
  | 2 =>
    let (s, lo, hi, lim) := speedLimiter p e x s (-neg) pos
    finish s s.ramp1 lo hi (setBit st 14 lim)
  | 3 =>
    let ref := clampR (-p.rev) p.fwd (s.ramp1 + e.testS)
    let lim := decide (ref = p.fwd ∨ ref = -p.rev ∨ sp.1 ≠ goal.1) || decide (p.fwd < x.rpm ∨ x.rpm < -p.rev)
    let (s, t) := speedControl p e x s ref (-neg) pos e.fresh
    finish s t (-neg) pos (setBit st 14 lim)
  | 5 =>
    let er := f32R (sp.1 - e.thetaMech)
    let h := if e.re.hold then s.piHold.reinit f32R (p.kPos * 60) er (-p.holdLim) p.holdLim else s.piHold
    let h := h.step f32R (p.kPos * 60) 0 er (-p.holdLim) p.holdLim
    let s := { s with piHold := h }
    let (s, t) := speedControl p e x s (s.ramp1 + h.u) (-neg) pos e.fresh
    finish s t (-neg) pos st
  | _ => { s := s, id := 0, iq := 0, tRef := x.torque, own := x.torque, lo := -neg, hi := pos, status := st }

/-- While the machine is tripped or off, the integrators are held (R85): the current integrators at 0, the speed controller and
limiter at the estimated torque, from which a restart preloads them (R88), the hold loop at 0 rpm. -/
def holdIntegrators (x : Meas) (s : LaneM) : LaneM :=
  let z (p : Pi) (v : Rat) : Pi := { p with integ := v, u := v }
  { s with
    piD := z s.piD 0, piQ := z s.piQ 0, piDd := z s.piDd 0, piDq := z s.piDq 0, piWd := z s.piWd 0, piWq := z s.piWq 0
    piSpeed := z s.piSpeed x.torque, piLimit := z s.piLimit x.torque, piHold := z s.piHold 0, tRef := x.torque }

/-- Stage 6 (R80): the injection and canceller scales allowed by R82, then the base vector. -/
def currentLimit (p : LaneParams) (e : LaneEnv) (s : LaneM) (id iq : Rat) : Rat × Rat × Rat × Rat × Bool :=
  let up := e.tUpd / (1 / 100)
  let topI := minR 1 (s.injF + up)
  let topC := minR 1 (s.cancF + up)
  let inj := (e.inj * s.fade, (0 : Rat))
  let canc := ((0 : Rat), e.canc * s.fade)
  let (sI, sC, cut) := yieldScales (id, iq) inj canc p.iMax topI topC
  let v := if !cut then (id + sI * inj.1, iq + sC * canc.2)
    else if p.iMax < absR id then (signR id * p.iMax, 0)
    else (id, signR iq * minR (absR iq) (sqrtR (p.iMax * p.iMax - id * id)))
  let v := fitIn p.iMax v
  (v.1, v.2, sI, sC, cut)

/-- Stages 7 to 9 from a reference record (R86, R75, R81): the voltages of the sum pair after the voltage limit, those of the
difference pair, the controllers, the |stage-9 input|, the scales, and whether the clamp acted. It is the part of the datapath
that the checker lane repeats (R99). -/
structure VoltOut where
  piD : Pi
  piQ : Pi
  piDd : Pi
  piDq : Pi
  vd : Rat
  vq : Rat
  dvd : Rat
  dvq : Rat
  vMag : Rat
  sI : Rat
  sC : Rat
  vlim : Bool
  deriving DecidableEq, Repr

/-- R86: the q controller's limit before its feedforward, from the d-axis voltage of the same update. -/
def qLimit (x : Meas) (vd : Rat) : Rat := sqrtR (x.vMax * x.vMax - vd * vd)

/-- Stage 7: the current controllers with the record's integrators and the limits of R86; those of the difference pair are ±V_max (log 113). -/
def currentControl (p : LaneParams) (x : Meas) (r : LaneRecord) (d q dd dq : Pi) : Pi × Pi × Pi × Pi :=
  let d := { d with integ := r.intD }.step q29 p.kpD p.kiD (r.idRef - x.id) (-x.vMax - r.ffD) (x.vMax - r.ffD)
  let lq := qLimit x (d.u + r.ffD)
  let q := { q with integ := r.intQ }.step q29 p.kpQ p.kiQ (r.iqRef - x.iq) (-lq - r.ffQ) (lq - r.ffQ)
  if p.phases = 6 then
    (d, q, { dd with integ := r.intDd }.step q29 p.kpX p.kiX (r.ddRef - x.dd) (-x.vMax) x.vMax,
      { dq with integ := r.intDq }.step q29 p.kpX p.kiX (r.dqRef - x.dq) (-x.vMax) x.vMax)
  else (d, q, dd, dq)

/-- Stage 9 on a stage-9 input with its injection and canceller feedforward (R81). -/
def voltageLimit (x : Meas) (six : Bool) (v vInj vCanc dv : Rat × Rat) (topI topC : Rat) :
    (Rat × Rat) × (Rat × Rat) × Rat × Rat × Bool :=
  let base := (v.1 - vInj.1 - vCanc.1, v.2 - vInj.2 - vCanc.2)
  let n2 (w : Rat × Rat) := w.1 * w.1 + w.2 * w.2
  let star (sg : Rat) : Rat × Rat := if six then (base.1 + sg * dv.1, base.2 + sg * dv.2) else base
  let full (w : Rat × Rat) := n2 (w.1 + vInj.1 + vCanc.1, w.2 + vInj.2 + vCanc.2)
  let worst := if full (star 1) < full (star (-1)) then star (-1) else star 1
  let (sI, sC, cut) := yieldScales worst vInj vCanc x.vMax topI topC
  let kd := if cut && decide (x.vMax < absR worst.1) then x.vMax / absR worst.1 else 1
  let lq := if cut then sqrtR (x.vMax * x.vMax - (kd * worst.1) * (kd * worst.1)) else 0
  let kq := if cut && decide (lq < absR worst.2) then lq / absR worst.2 else 1
  let add (w : Rat × Rat) : Rat × Rat := (q29 (kd * w.1 + sI * vInj.1 + sC * vCanc.1), q29 (kq * w.2 + sI * vInj.2 + sC * vCanc.2))
  let s1 := add (star 1)
  let s2 := add (star (-1))
  (((s1.1 + s2.1) / 2, (s1.2 + s2.2) / 2), ((s1.1 - s2.1) / 2, (s1.2 - s2.2) / 2), sI, sC, cut)

/-- Decoupling feedforward of stage 8 in per unit of V_b, applied only with decoupling set and never in voltage mode (R75). -/
def feedforward (p : LaneParams) (e : LaneEnv) (x : Meas) (idRef iqRef : Rat) : Rat × Rat :=
  if p.decoup && decide (e.mode ≠ 4) then
    (q29 (p.rs / p.zb * idRef - x.omega * p.lq / p.zb * x.iq),
      q29 (p.rs / p.zb * iqRef + x.omega * (p.ld / p.zb * x.id + p.psi / p.vb)))
  else (0, 0)

/-! ### Stage 11 -/

/-- The zero sequence of a mode for one star, in V (Table 6-1). -/
def zeroSequence (mode : Nat) (udc : Rat) (v : List Rat) : Rat :=
  let hi := v.foldl maxR (v.headD 0)
  let lo := v.foldl minR (v.headD 0)
  match mode with
  | 2 => -udc / 2 - lo
  | 3 => udc / 2 - hi
  | 4 =>
    let big := v.foldl (fun a x => if absR a < absR x then x else a) (v.headD 0)
    if 0 < big then udc / 2 - big else -udc / 2 - big
  | _ => -(hi + lo) / 2

/-- The on-time ratios of one star after zero sequence and shaped share (R123). -/
def starRatios (mode : Nat) (udc : Rat) (zs : Int) (m hb0 : Nat) (v : List Rat) : List Rat :=
  let z := zeroSequence mode udc v
  let r := if udc ≤ 0 then (List.range v.length).map (fun k => clampR 0 1 (Config.ratioNoLink m (hb0 + k)))
    else v.map (fun x => 1 / 2 + (x + z) / udc)
  if mode ≠ 6 then r else
  let hi := r.foldl maxR (r.headD 0)
  let lo := r.foldl minR (r.headD 0)
  let k := (zs : Rat) / 127
  r.map (fun d => if 0 ≤ zs then d + k * (1 - hi) else d + k * lo)

/-- On-times in steps from the phase voltages of the machine's half-bridges (stage 11): dead-time compensation by R75, times the
period, rounded to the step and kept within 0 to 32 × P. -/
def onTimes (p : LaneParams) (e : LaneEnv) (v : List Rat) : List Nat :=
  let volts := v.map (fun x => x * p.vb)
  let r := starRatios e.modMode e.udc e.zs e.m 0 (volts.take 3) ++ starRatios e.modMode e.udc e.zs e.m 3 (volts.drop 3)
  let full : Rat := (32 * e.period : Nat)
  let td := (e.deadSteps : Rat) / full
  (List.range 6).map (fun k =>
    let d := nth r k 0
    let i := nth e.i k 0 * p.ib
    let c := if !p.comp then 0 else if p.compThr < absR i then signR i * td
      else if p.compThr = 0 then 0 else i / p.compThr * td
    if k < p.phases then (clampI 0 (32 * e.period : Nat) (roundAway ((d + c) * full))).toNat else 0)

/-- Stage 10 from the voltages of both pairs: the phase voltages. -/
def phaseVolts (p : LaneParams) (x : Meas) (v dv : Rat × Rat) : List Rat :=
  invParkClarke (v.1 + dv.1) (v.2 + dv.2) x.cs1 ++ (if p.phases = 6 then invParkClarke (v.1 - dv.1) (v.2 - dv.2) x.cs2 else [])

/-- Stages 10 and 11 from the voltages of both pairs. -/
def dutiesOf (p : LaneParams) (e : LaneEnv) (x : Meas) (v dv : Rat × Rat) : List Nat := onTimes p e (phaseVolts p x v dv)

/-- Whether a per-unit value enters stage 11 at its format limit (Table 5-1, Range). -/
def voltsSaturated (l : List Rat) : Bool := l.any (fun v => decide (v ≤ -4) || decide (4 - pow2 (-29) ≤ v))

end Sys2Proof.Machine
end

