-- ==== Sys2Proof/Machine/LaneRun.lean ====
section
/-! DEFINITION. One update of a full lane and of the checker lane (chapters 04 and 05): the recipe hooks around the datapath, the
reference record of R98, the state signature of R102, and the checker lane's duties of R99. -/

namespace Sys2Proof.Machine

/-- A Q3.29 value as a word. -/
def w29 (x : Rat) : Nat := ofInt 32 (toQ 32 29 x)

/-- A word as a Q3.29 value. -/
def r29 (w : Nat) : Rat := ofQ 29 (sext 32 w)

/-- The recipe loaded into the lanes: its instruction words, its header, and the parameter window. -/
structure LaneRecipe where
  loaded : Bool := false
  code : List Nat := []
  entries : List Nat := []
  params : List Nat := []
  worst : List Nat := []
  deriving DecidableEq, Repr

/-- The recipe in force (0xC400, 0xC410, 0xC411): a length of 0 unloads it (R97). -/
def laneRecipe (c : Store) : LaneRecipe :=
  let img := imageWords (c.blob (objKey 0xC400 1))
  if c.u 0xC400 2 = 0 then {} else
  { loaded := true, code := recipeCode img, entries := (img.drop 3).take 8,
    params := (List.range 128).map (fun k => c.u 0xC410 (k + 1)) ++ (List.range 128).map (fun k => c.u 0xC411 (k + 1)),
    worst := rWorst (recipeCode img) }

/-- The worst-case cycles of the four hooks of a machine (R96). -/
def recipeCycles (r : LaneRecipe) (m : Nat) : Nat :=
  ((List.range 4).map (fun k =>
    let e := nth r.entries (4 * m + k) 0xFFFFFFFF
    if e = 0xFFFFFFFF then 0 else nth r.worst e 0)).foldl (· + ·) 0

/-- Run one hook (R95): k is 0 to 3 for H1 to H4. -/
def runHook (r : LaneRecipe) (m k : Nat) (mem : WordMem) (reads : List (Nat × List Nat)) (writes : List Nat) : Vm :=
  let e := nth r.entries (4 * m + k) 0xFFFFFFFF
  if !r.loaded || e = 0xFFFFFFFF then { mem := mem }
  else rRun { hook := k, reads := reads, writes := writes, params := r.params, floats := [5] } (r.code.length + 1) (r.code.drop e) { mem := mem }

/-- What a hook wrote to a port. -/
def Vm.out? (v : Vm) (port : Nat) : Option (List Nat) := (v.outs.find? (fun o => o.1 == port)).map (·.2)

/-- One machine's results of a lane's update. -/
structure MachineOut where
  s : LaneM
  mem : WordMem
  written : List Nat
  duties : List Nat
  rec_ : LaneRecord
  pub : LanePub
  feed : LaneFeed
  cause : Nat
  refused : Nat
  deriving DecidableEq, Repr

/-- The lane check that the recipe's failures make: 0x06 or 0x07 (Table 5-1), 0 for none. -/
def vmCause (l : List Vm) : Nat := if l.any (·.access) then 6 else if l.any (·.nan) then 7 else 0

/-- One update of one machine in a full lane: the datapath of Table 4-1 with hooks H1 to H4 (R95). The capture port holds what the last hook that wrote
it wrote, zeros where none did (log 109); ports 9 and 10 show the torque limit and the status of the previous update (log 110). In voltage mode |i| of a
six-phase machine is that of the sum pair (log 111). A controller that an update does not step keeps its sat (log 114). -/
def laneMachine (c : Store) (r : LaneRecipe) (e : LaneEnv) (s0 : LaneM) (mem0 : WordMem) : MachineOut :=
  let p := laneParams c e.m
  let volt := decide (e.mode = 4)
  let s := if e.enter && volt then { s0 with theta := p.poles * e.thetaMech + p.thetaOff } else s0
  let x := measure p e s
  let fstep := e.tUpd / (1 / 100)
  let fade0 := if e.enter then 0 else s.fade
  let s := { s with
    fade := if e.mode = 0 then 0 else if e.fadeOut then maxR 0 (fade0 - fstep) else minR 1 (fade0 + fstep)
    dpsi := f32R (clampR p.dpsiMin 0 (s.dpsi - p.kFw * (s.vMag - x.vMax))) }
  -- ports every hook reads
  let base : List (Nat × List Nat) :=
    [(0, [e.fn, e.m, if e.tap then 0 else e.mode, e.flags]), (1, [w29 x.id, w29 x.iq, w29 x.dd, w29 x.dq]),
     (2, [w29 (nth e.i 0 0), w29 (nth e.i 1 0), w29 (nth e.i 2 0), 0]),
     (3, [w29 (nth e.i 3 0), w29 (nth e.i 4 0), w29 (nth e.i 5 0), 0]),
     (4, [(roundAway (x.theta * 65536)).toNat % 65536, f32OfRat x.omega, f32OfRat x.rpm, f32OfRat e.udc]),
     (9, [f32OfRat x.torque, f32OfRat (if s.tRef < 0 then s.limNeg else s.limPos), w29 e.inj, w29 e.canc]),
     (10, [s.status, 0, 0, 0])]
  let p5 (sp : Rat × Rat) := (5, [f32OfRat sp.1, f32OfRat sp.2, 0, 0])
  -- H1: set-point
  let sp0 := e.setPoints s
  let h1 := runHook r e.m 0 mem0 (p5 sp0 :: base) [5, 11]
  let sp := match h1.out? 5 with | some w => (f32ToRat (nth w 0 0), f32ToRat (nth w 1 0)) | none => sp0
  let ro := referencePath p (c.blob (objKey (0x3403 + 0x1000 * e.m) 1)) e x s sp
  -- H2: reference, with a test signal's current (R233) and the polarity pulse (R91) in the base reference; the torque bounds act on what they gave
  let p6 (d q : Rat) := (6, [w29 d, w29 q, 0, 0])
  let h2 := runHook r e.m 1 h1.mem (p6 ro.id ro.iq :: p5 sp :: base) [6, 11]
  let h2v := match h2.out? 6 with | some w => (r29 (nth w 0 0), r29 (nth w 1 0)) | none => (q29 ro.id, q29 ro.iq)
  let loops := decide (e.mode ≠ 0) && !volt
  let h2v := if loops then (h2v.1 + e.testD / p.ib + e.pulse, h2v.2 + e.testQ / p.ib) else h2v
  let altered := (h2.out? 6).isSome || decide (e.testD ≠ 0 ∨ e.testQ ≠ 0 ∨ e.pulse ≠ 0)
  let h2b := boundIq p h2v.1 h2v.2 ro.lo ro.hi
  let iq2 := if loops && altered then h2b.1 else h2v.2
  -- R219: the tap-test references in place of stage 5; a spin's speed controller with i_d* = 0 (R225)
  let spinQ := ro.tRef / ((p.phases : Rat) / 2 * p.poles * p.psi * p.ib)
  let idq := if e.tap then (if e.mode = 3 then (0, q29 (spinQ * e.tapFade)) else (q29 e.tapD, q29 e.tapQ)) else (h2v.1, iq2)
  let (idRef, iqRef, sI, sC, ilim) := currentLimit p e ro.s idq.1 idq.2
  -- a reference of one star alone (R223): half in the sum pair, and half in the difference pair
  let lone (v inj : Rat) : Rat := if e.tap && e.tapStar ≠ 0 then q29 ((v - inj) / 2) else 0
  let oneD := lone idRef (sI * (e.inj * ro.s.fade))
  let oneQ := lone iqRef (sC * (e.canc * ro.s.fade))
  let (idRef, iqRef) := (idRef - oneD, iqRef - oneQ)
  let (ddRef, dqRef) := if e.tapStar = 2 then (-oneD, -oneQ) else (oneD, oneQ)
  let ff := feedforward p e x idRef iqRef
  -- R87 and R88: re-initialisation and preload of the current controllers, the q limits from this update's d controller
  let ed := idRef - x.id
  let eq := iqRef - x.iq
  let fromV := e.enter && decide (s0.mode = 4) && !volt
  let start (re : Bool) (pi : Pi) (kp er lo hi vPrev : Rat) : Pi :=
    let pi := if re then pi.reinit q29 kp er lo hi else pi
    if fromV then { pi with integ := q29 (vPrev - kp * er) } else pi
  let piD := start e.re.d ro.s.piD p.kpD ed (-x.vMax - ff.1) (x.vMax - ff.1) (s0.vd - ff.1)
  let lq := qLimit x ((piD.step q29 p.kpD p.kiD ed (-x.vMax - ff.1) (x.vMax - ff.1)).u + ff.1)
  let piQ := start e.re.q ro.s.piQ p.kpQ eq (-lq - ff.2) (lq - ff.2) (s0.vq - ff.2)
  let piDd := start e.re.x ro.s.piDd p.kpX (ddRef - x.dd) (-x.vMax) x.vMax 0
  let piDq := start e.re.x ro.s.piDq p.kpX (dqRef - x.dq) (-x.vMax) x.vMax 0
  let rec0 : LaneRecord := {
    idRef := idRef, iqRef := iqRef, ddRef := ddRef, dqRef := dqRef, intD := piD.integ, intQ := piQ.integ,
    intDd := piDd.integ, intDq := piDq.integ, ffD := ff.1, ffQ := ff.2 }
  let (cd, cq, cdd, cdq) := if volt then (ro.s.piD, ro.s.piQ, ro.s.piDd, ro.s.piDq) else currentControl p x rec0 piD piQ piDd piDq
  -- voltage mode: the commanded vector after its Rise and its pull-back (R84)
  let excess := decide (p.iMax * p.iMax < x.id * x.id + x.iq * x.iq)
  let overT := decide (ro.s.limPos < x.torque ∨ x.torque < -ro.s.limNeg)
  let pull := volt && (excess || overT)
  let s : LaneM := ro.s
  let s : LaneM := if pull then { s with
    ramp1 := f32R (s.ramp1 - s.ramp1 / 16), ramp2 := f32R (s.ramp2 + (x.omega * p.psi - s.ramp2) / 16) } else s
  -- the injection observer's sine on v_d (R91)
  let wave := if e.injRun then q29 (p.aInj * sinTurn s.injPhase) else 0
  let s : LaneM := { s with injPhase := if e.injRun then
      let ph := s.injPhase + p.fInj * e.tUpd
      ph - (ph.floor : Rat)
    else 0 }
  let v8 := if volt then (q29 (s.ramp1 / p.vb), q29 (s.ramp2 / p.vb)) else (q29 (cd.u + ff.1), q29 (cq.u + ff.2))
  -- H3: voltage
  let h3 := runHook r e.m 2 h2.mem ((7, [0, 0, 0, 0]) :: p6 idRef iqRef :: p5 sp :: base) [7, 11]
  let v3 : Rat × Rat := match h3.out? 7 with | some w => (r29 (nth w 0 0), r29 (nth w 1 0)) | none => (0, 0)
  -- R384: the balance loop of a widened machine, with the difference pair's gains
  let bal (pi : Pi) (own other : Rat) : Pi := pi.step q29 p.kpX p.kiX (-(q29 ((own - other) / 2))) (-x.vMax) x.vMax
  let (wd, wq) := match e.wide with
    | some (od, oq, _) => if volt then (s.piWd, s.piWq) else (bal s.piWd x.id od, bal s.piWq x.iq oq)
    | none => ({ s.piWd with integ := 0, u := 0 }, { s.piWq with integ := 0, u := 0 })
  let add := if volt then (wave, 0) else (q29 (wave + wd.u), wq.u)
  let v9 := (q29 (v8.1 + v3.1 + add.1), q29 (v8.2 + v3.2 + add.2))
  -- stage 9
  let iInj := sI * (e.inj * s.fade)
  let iCan := sC * (e.canc * s.fade)
  let perT (l d : Rat) := if e.tUpd = 0 then 0 else l / p.zb * d / e.tUpd
  let vInj := if volt then (0, 0) else (p.rs / p.zb * iInj + perT p.ld (iInj - s.injPrev), x.omega * p.ld / p.zb * iInj)
  let vCan := if volt then (0, 0) else (-(x.omega * p.lq / p.zb * iCan), p.rs / p.zb * iCan + perT p.lq (iCan - s.cancPrev))
  let up := e.tUpd / (1 / 100)
  let (v, dv, s9I, s9C, vlim) := voltageLimit x (p.phases == 6) v9 vInj vCan (if volt then (0, 0) else (cdd.u, cdq.u)) 1 1
  let injF := minR (minR 1 (s.injF + up)) (sI * s9I)
  let cancF := minR (minR 1 (s.cancF + up)) (sC * s9C)
  -- R81: the injection terms of the current reference as stage 9 scaled them; the record, published before stage 9, holds stage 6's (log 105)
  let iq9 := if volt then (idRef, iqRef) else (q29 (idRef - (1 - s9I) * iInj), q29 (iqRef - (1 - s9C) * iCan))
  let duties := dutiesOf p e x v dv
  let src := limitSource p e x ro.tRef
  let st := setBit (setBit ro.status 12 (src == 1)) 11 (src == 2)
  let st := setBit st 10 (ilim || (pull && excess))
  let st := setBit st 13 (bit st 13 || (pull && overT) || (loops && altered && h2b.2.2))
  let st := setBit (setBit st 9 vlim) 8 (decide (s.dpsi < 0))
  let st := setBit (setBit st 7 (decide (injF < 1))) 6 (decide (cancF < 1))
  let st := setBit (setBit st 5 cd.sat) 4 cq.sat
  let st := setBit st 3 (s.piSpeed.sat || s.piHold.sat || s.piLimit.sat)
  let st := setBit st 2 e.observer
  let st := setBit st 1 (decide (s.fade ≠ (if e.mode = 0 then 0 else if e.fadeOut then 0 else 1)))
  let st := setBit st 0 e.driven
  let s := { s with
    piD := cd, piQ := cq, piDd := cdd, piDq := cdq, piWd := wd, piWq := wq, vMag := f32R (sqrtR (v9.1 * v9.1 + v9.2 * v9.2)), vd := v.1, vq := v.2
    injF := injF, cancF := cancF, injPrev := s9I * iInj, cancPrev := s9C * iCan, tRef := ro.tRef, mode := e.mode
    theta := (let t := s.theta + (if volt then e.vFreq * e.tUpd else 0); t - (t.floor : Rat)), status := st }
  let s := if e.idle then holdIntegrators x s else s
  -- H4: tail
  let h4 := runHook r e.m 3 h3.mem ((8, [w29 v.1, w29 v.2, w29 dv.1, w29 dv.2]) :: (7, [w29 v3.1, w29 v3.2, 0, 0])
    :: p6 iq9.1 iq9.2 :: p5 sp :: base) [11]
  let hooks := [h1, h2, h3, h4]
  let cap := (hooks.filterMap (·.out? 11)).getLastD [0, 0, 0, 0]
  let edges := ([(s0.piD.sat, cd.sat), (s0.piQ.sat, cq.sat), (s0.piDd.sat, cdd.sat), (s0.piDq.sat, cdq.sat),
    (s0.piSpeed.sat, s.piSpeed.sat), (s0.piLimit.sat, s.piLimit.sat), (s0.piHold.sat, s.piHold.sat)].filter
      (fun q => !q.1 && q.2)).length
  let mi := if e.udc ≤ 0 then 0 else
    clampN 0 1000 (roundAway (sqrtR (v.1 * v.1 + v.2 * v.2) * p.vb / (e.udc / sqrtR 3) * 1000)).toNat
  { s := s, mem := h4.mem, written := hooks.flatMap (·.written), duties := duties,
    rec_ := { rec0 with v3d := v3.1, v3q := v3.2 },
    feed := { v8d := v8.1, v8q := v8.2, addD := add.1, addQ := add.2, injD := vInj.1, injQ := vInj.2, cancD := vCan.1, cancQ := vCan.2 },
    pub := {
      volts := phaseVolts p x v dv
      torque := f32OfRat x.torque, own := f32OfRat ro.own, id := f32OfRat (x.id * p.ib), iq := f32OfRat (x.iq * p.ib),
      vd := f32OfRat (v.1 * p.vb), vq := f32OfRat (v.2 * p.vb), dvd := f32OfRat (dv.1 * p.vb), dvq := f32OfRat (dv.2 * p.vb), modIndex := mi,
      limit := f32OfRat (if ro.tRef < 0 then s.limNeg else s.limPos), limitSource := src,
      speed := f32OfRat x.rpm, capture := cap, satEdges := edges },
    cause := if vmCause hooks ≠ 0 then vmCause hooks else if voltsSaturated (phaseVolts p x v dv) then 3 else 0
    refused := hooks.foldl (fun a h => a + h.refused) 0 }

/-- The state words of a machine, in the order in which the lane writes them (R102, log 116). -/
def stateWords (s : LaneM) : List Nat :=
  let pi (p : Pi) : List Nat := [w29 p.integ, w29 p.u, p.inside, b2n p.sat]
  let pf (p : Pi) : List Nat := [f32OfRat p.integ, f32OfRat p.u, p.inside, b2n p.sat]
  pi s.piD ++ pi s.piQ ++ pi s.piDd ++ pi s.piDq ++ pi s.piWd ++ pi s.piWq ++ pf s.piSpeed ++ pf s.piLimit ++ pf s.piHold
    ++ [f32OfRat s.ramp1, f32OfRat s.ramp2, f32OfRat s.dpsi, f32OfRat s.vMag, w29 s.vd, w29 s.vq, w29 s.injF, w29 s.cancF,
        w29 s.injPrev, w29 s.cancPrev, w29 s.injPhase, w29 s.fade, f32OfRat s.tRef, f32OfRat s.limPos, f32OfRat s.limNeg,
        b2n s.limFwd, b2n s.limRev, w29 s.theta, w29 s.thetaHold, s.mode, s.status]

/-! ### CRC-32 (R435) -/

/-- One bit of the reflected polynomial 0x04C1_1DB7. -/
def crcBit (r : Nat) : Nat := if r % 2 = 1 then (r / 2) ^^^ 0xEDB88320 else r / 2

/-- One byte, least significant bit first. -/
def crcByte (r : Nat) (b : Byte) : Nat := (crcBit ∘ crcBit ∘ crcBit ∘ crcBit ∘ crcBit ∘ crcBit ∘ crcBit ∘ crcBit) (r ^^^ b.toNat)

/-- The CRC-32 of R435 over bytes. -/
def crc32 (l : List Byte) : Nat := (l.foldl crcByte 0xFFFFFFFF) ^^^ 0xFFFFFFFF

/-- The CRC-32 over words, each most significant byte first. -/
def crc32Words (l : List Nat) : Nat := crc32 (l.flatMap (toBytes 4))

/-- The whole update of a full lane over both machines. keepM1 says that the update is an M1 update instant; otherwise M1's new
states are discarded, but enter the signature (R28). -/
def laneUpdate (c : Store) (r : LaneRecipe) (e0 e1 : LaneEnv) (keepM1 : Bool) (spk : List Int) (l : FullLane) :
    FullLane × Nat :=
  let o0 := laneMachine c r e0 (nth l.m 0 {}) l.mem
  let o1 := laneMachine c r e1 (nth l.m 1 {}) o0.mem
  let rep : LaneReport :=
    { duties := o0.duties ++ o1.duties, spk := spk, recs := [o0.rec_, o1.rec_], feeds := [o0.feed, o1.feed],
      sig := crc32Words (stateWords o0.s ++ o0.written ++ stateWords o1.s ++ o1.written),
      cause := if o0.cause ≠ 0 then o0.cause else o1.cause }
  ({ l with
      next := [o0.s, if keepM1 then o1.s else nth l.m 1 {}]
      nextMem := if keepM1 then o1.mem else o0.mem
      pub := [o0.pub, if keepM1 then o1.pub else nth l.pub 1 {}]
      computed := some rep, report := none }, o0.refused + (if keepM1 then o1.refused else 0))

/-! ### The checker lane (R99) -/

/-- The checker lane's duties of one machine from a record, in whole counts: the current-loop core repeated from the record, with
a deviation that is free within 0.1 % of the period. A period of R118 is at least 2000 counts, so that whole counts lie within that bound. -/
def checkerDuties (c : Store) (e : LaneEnv) (s : LaneM) (r : LaneRecord) (f : LaneFeed) : List Nat :=
  let p := laneParams c e.m
  let x := measure p e s
  let (cd, cq, cdd, cdq) := currentControl p x r s.piD s.piQ s.piDd s.piDq
  let v8 := if e.mode = 4 then (f.v8d, f.v8q) else (cd.u + r.ffD, cq.u + r.ffQ)
  let (v, dv, _, _, _) := voltageLimit x (p.phases == 6) (v8.1 + r.v3d + f.addD, v8.2 + r.v3q + f.addQ) (f.injD, f.injQ) (f.cancD, f.cancQ)
    (if e.mode = 4 then (0, 0) else (cdd.u, cdq.u)) 1 1
  let d := dutiesOf p e x v dv
  let bound : Rat := (e.period : Rat) / 1000
  (List.range 6).map (fun k =>
    let y : Rat := (nth d k 0 : Nat) / 32
    (clampI (max (0 : Int) (y - bound).ceil) (min (e.period : Int) (y + bound).floor) (roundAway (y + Config.checkerError e.m k (nth d k 0)))).toNat)

/-- The checker lane's integrators after its own PI step from a record (R101). -/
def checkerStep (c : Store) (e : LaneEnv) (s : LaneM) (r : LaneRecord) : List Rat :=
  let p := laneParams c e.m
  let x := measure p e s
  let (cd, cq, cdd, cdq) := currentControl p x r s.piD s.piQ s.piDd s.piDq
  [cd.integ, cq.integ, cdd.integ, cdq.integ]

end Sys2Proof.Machine
end

