-- ==== Sys2Proof/Machine/TypesCanc.lean ====
section
/-! DEFINITION. State of the order canceller, the accelerometer ports and the identification (chapter 09). Phases are in turns. -/

namespace Sys2Proof.Machine

/-- A complex number. -/
structure Cx where
  re : Rat := 0
  im : Rat := 0
  deriving DecidableEq, Repr

/-- One order slot (R187 to R199). st is Table 9-1's code; conv whether the order has converged; wOut the weight its output still
carries; fade its fade gain in 1/32; phase its accumulator at the latest Hearth sample; hist the weights in force in the latest blocks, newest first;
locked a third divergence within 60 s that stands. -/
structure Order where
  st : Nat := 0
  conv : Bool := false
  def_ : Nat := 0
  w : Cx := {}
  wOut : Cx := {}
  phase : Rat := 0
  fade : Nat := 0
  freq : Rat := 0
  hist : List Cx := []
  started : Bool := false
  pE : Rat := 0
  pD : Rat := 0
  pMin : Rat := 0
  atten : Rat := 0
  ePrev : Cx := {}
  low : Nat := 0
  high : Nat := 0
  level : Nat := 0
  scores : List Bool := []
  divTimes : List Nat := []
  hold : Nat := 0
  locked : Bool := false
  sensor : Bool := false
  totalLimit : Bool := false
  wLimit : Bool := false
  divSeen : Bool := false
  deriving DecidableEq, Repr

/-- A set that a machine publishes at an update instant (R188): angle in turns, speed in turns per second, sample instant, and the counter value at which
it was published. -/
structure AngleSet where
  theta : Rat := 0
  omega : Rat := 0
  time : Nat := 0
  at_ : Nat := 0
  deriving DecidableEq, Repr

/-- The canceller of one machine (R188): the latest published set, those before it since the latest block boundary, newest first, the angle at the latest
Hearth sample, the latest Hearth samples as (time, angle step), newest first, the factor of the total limit for the running block, and its orders. -/
structure Canceller where
  latest : AngleSet := {}
  earlier : List AngleSet := []
  thetaAt : Rat := 0
  past : List (Rat × Rat) := []
  scale : Rat := 1
  orders : List Order := List.replicate 8 {}
  deriving DecidableEq, Repr

/-- One accelerometer port (R191, R192): a read in progress since its start time, the command byte that it shifts out first, the reads since the latest block boundary, the latest
sample, consecutive reads of one value, blocks without a read, and consecutive valid blocks. -/
structure AccPort where
  reading : Option Nat := none
  command : Nat := 0
  samples : List (Nat × List Int) := []
  latest : List Int := [0, 0, 0]
  same : Nat := 0
  silent : Nat := 0
  lostFlag : Bool := false
  lost : Bool := false
  valid : Nat := 64
  deriving DecidableEq, Repr

/-- A running identification (R197): machine, mask, order and point in progress, blocks of the point so far, the block values, the
entries taken (none: the point failed), the orders passed and failed, a complete table (machine, order, bytes) that the next block boundary writes,
and the time at which the tone began to fade at its end. queued is a request with its time. -/
structure Ident where
  running : Bool := false
  machine : Nat := 0
  mask : Nat := 0
  order : Nat := 0
  point : Nat := 0
  blocks : Nat := 0
  values : List Cx := []
  entries : List (Option Cx) := []
  passed : Nat := 0
  failed : Nat := 0
  queued : Option (Nat × Nat) := none
  table : Option (Nat × Nat × List Byte) := none
  failFlag : Bool := false
  ending : Option Nat := none
  deriving DecidableEq, Repr

/-- The cancellers of M0 and M1, the accelerometers, microphone losses with their consecutive valid blocks, the losses (MIC0 to MIC7, ACC0, ACC1)
as of the latest block boundary, and the identification. -/
structure CancState where
  m : List Canceller := [{}, {}]
  acc : List AccPort := [{}, {}]
  skips : Nat := 0
  micLost : List Bool := List.replicate 8 false
  micValid : List Nat := List.replicate 8 64
  known : List Bool := List.replicate 10 false
  ident : Ident := {}
  divergences : Nat := 0
  deriving DecidableEq, Repr

end Sys2Proof.Machine
end

