-- ==== Sys2Proof/Machine/Canceller.lean ====
section
/-! DEFINITION. The order canceller (chapter 09). Values that the spec gives no format are held in single precision (log 25). -/

namespace Sys2Proof.Machine

namespace Cx

/-- Sum. -/
def add (a b : Cx) : Cx := ⟨a.re + b.re, a.im + b.im⟩
/-- Difference. -/
def sub (a b : Cx) : Cx := ⟨a.re - b.re, a.im - b.im⟩
/-- Product. -/
def mul (a b : Cx) : Cx := ⟨a.re * b.re - a.im * b.im, a.re * b.im + a.im * b.re⟩
/-- A real multiple. -/
def smul (k : Rat) (a : Cx) : Cx := ⟨k * a.re, k * a.im⟩
/-- The conjugate. -/
def conj (a : Cx) : Cx := ⟨a.re, -a.im⟩
/-- The squared magnitude. -/
def sq (a : Cx) : Rat := a.re * a.re + a.im * a.im
/-- The magnitude. -/
def abs (a : Cx) : Rat := sqrtR a.sq
/-- The quotient; 0 by 0. -/
def div (a b : Cx) : Cx := if b.sq = 0 then {} else (a.mul b.conj).smul (1 / b.sq)
/-- cexp(x): cos 2πx + i sin 2πx. -/
def cexp (x : Rat) : Cx := let r := cosSinTurn x; ⟨r.1, r.2⟩
/-- Both parts in single precision. -/
def f32 (a : Cx) : Cx := ⟨f32R a.re, f32R a.im⟩
/-- A sum. -/
def sum (l : List Cx) : Cx := l.foldl add {}

end Cx

/-! ### Order definitions and tables -/

/-- EN (Table 9-4). -/
def orderOn (w : Nat) : Bool := bit w 31
/-- AXIS: set for the torque axis. -/
def orderTorque (w : Nat) : Bool := bit w 30
/-- ORDER. -/
def orderOf (w : Nat) : Rat := mkRat (bits w 15 0) 512
/-- A machine's order definition. -/
def orderDef (c : Store) (m k : Nat) : Nat := c.u (0x7103 + 0x10 * m) (k + 1)
/-- F_lo and F_hi of an order's table. -/
def orderRange (c : Store) (m k : Nat) : Rat × Rat :=
  (c.f (0x7501 + 0x10 * m) (2 * k + 1), c.f (0x7501 + 0x10 * m) (2 * k + 2))
/-- The table's bytes. -/
def orderTable (c : Store) (m k : Nat) : List Byte := c.blob (objKey (0x7500 + 0x10 * m) (k + 1))

/-- Entry j of a table (R196). -/
def tableG (tab : List Byte) (j : Nat) : Cx :=
  let w := imageWords ((tab.drop (8 * j)).take 8)
  ⟨f32ToRat (nth w 0 0), f32ToRat (nth w 1 0)⟩

/-- The table at a frequency: linear interpolation between the bracketing entries (R196). -/
def tableAt (c : Store) (m k : Nat) (f : Rat) : Cx :=
  let (lo, hi) := orderRange c m k
  let tab := orderTable c m k
  let x := clampR 0 63 (if hi ≤ lo then 0 else (f - lo) * 63 / (hi - lo))
  let j := min 62 x.floor.toNat
  let w := x - (j : Rat)
  ((tableG tab j).smul (1 - w)).add ((tableG tab (j + 1)).smul w)

/-- Sample rate of an accelerometer's rate code (R191); off and event-paced count as 0 (R189). -/
def accRate (code : Nat) : Nat := match code with | 1 => 1000 | 2 => 2000 | 3 => 4000 | 4 => 8000 | _ => 0

/-- Sensor weights of a machine: 0 to 7 microphones, 8 to 10 ACC0, 11 to 13 ACC1 (R190). -/
def sensorWeight (c : Store) (m s : Nat) : Rat := (c.i 16 (0x7102 + 0x10 * m) (s + 1) : Rat) / 1000

/-- The accelerometers with a nonzero weight in a machine's error signal. -/
def weightedAcc (c : Store) (m : Nat) : List Nat :=
  [0, 1].filter (fun a => [0, 1, 2].any (fun x => sensorWeight c m (8 + 3 * a + x) != 0))

/-- What a machine gives the canceller at a block boundary. -/
structure CancEnv where
  rpm : Rat := 0
  enabled : Bool := false
  outOn : Bool := false
  outFading : Bool := false
  limited : Bool := false
  fadeBit : Bool := false
  injScaled : Bool := false
  cancScaled : Bool := false
  injRun : Bool := false
  fH : Rat := 0
  fc : Nat := 10000
  deriving DecidableEq, Repr

/-- The band of an order (R189). -/
def orderBand (c : Store) (m k : Nat) (e : CancEnv) : Rat × Rat :=
  let (lo, hi) := orderRange c m k
  let r := (weightedAcc c m).foldl (fun a x => minR a (45/100 * (accRate (c.u 0x7180 (x + 1)) : Rat))) (minR hi e.fc)
  (maxR lo 20, r)

/-! ### Sensors (R190 to R192) -/

/-- The samples of one sensor since the previous boundary: (acoustic time in ticks, value). -/
abbrev SensorBlock := List (Rat × Rat)

/-- The demodulated error at a phase law: c_s (2 / N_s) Σ e cexp(−φ), over the sensors of nonzero weight (R193). -/
def demodulate (weights : List Rat) (blocks : List SensorBlock) (phase : Rat → Rat) : Cx :=
  Cx.f32 (Cx.sum ((List.range 14).map (fun s =>
    let c := nth weights s 0
    let b := nth blocks s []
    if c = 0 ∨ b.isEmpty then {} else
    (Cx.sum (b.map (fun x => (Cx.cexp (-(phase x.1))).smul x.2))).smul (c * 2 / (b.length : Rat)))))

/-- The sensor blocks at a boundary: microphone samples of the block that began at cairn c with step d, less the microphone group
delay; accelerometer samples at the start of their reads, less their group delay. -/
def sensorBlocks (c : Store) (cairn : Nat) (d : Rat) (mics : List (List Int)) (acc : List AccPort) : List SensorBlock :=
  let mic (k : Nat) : SensorBlock :=
    (nth mics k []).mapIdx (fun i x => ((cairn : Rat) + d * (i : Rat) - 671875/10, ofQ 23 x))
  let accel (a x : Nat) : SensorBlock :=
    (nth acc a {}).samples.map (fun s => ((s.1 : Rat) - (c.u 0x7180 (7 + a) : Rat) / 5, ofQ 15 (nth s.2 x 0)))
  (List.range 8).map mic ++ (List.range 3).map (accel 0) ++ (List.range 3).map (accel 1)

/-- A read that ends (R191, R192): six data bytes in the port's byte order. -/
def AccPort.done (lowFirst : Bool) (b : List Nat) (p : AccPort) : AccPort :=
  match p.reading with
  | none => p
  | some t =>
    let w (k : Nat) : Int :=
      let x := nth b (2 * k) 0
      let y := nth b (2 * k + 1) 0
      sext 16 (if lowFirst then y * 256 + x else x * 256 + y)
    let v := [w 0, w 1, w 2]
    let flat := b.all (· == 0) || b.all (· == 255)
    let same := if flat then min 8 (p.same + 1) else 0
    let lost := decide (same = 8)
    { p with
      reading := none, samples := p.samples ++ [(t, v)], latest := v, same := same
      lost := p.lost || lost, lostFlag := p.lostFlag || lost }

/-- A read that starts by shifting the command byte out, or is skipped because the previous one has not ended (R191). -/
def AccPort.begin_ (now command : Nat) (p : AccPort) : AccPort × Bool :=
  if p.reading.isSome then (p, true) else ({ p with reading := some now, command := command }, false)

/-- A block boundary of a port: losses, and the consecutive valid blocks that end one. A port with rate code 1 to 4 that delivers
nothing for three blocks has stopped delivering (log 40). -/
def AccPort.boundary (rate : Nat) (p : AccPort) : AccPort :=
  let silent := if p.samples.isEmpty then min 3 (p.silent + 1) else 0
  let stop := decide (accRate rate ≠ 0) && decide (silent = 3)
  let bad := stop || decide (p.same = 8)
  let valid := if bad then 0 else if p.samples.isEmpty && decide (accRate rate = 0) then p.valid else min 64 (p.valid + 1)
  { p with
    samples := [], silent := silent, valid := valid, lost := if bad then true else p.lost && decide (valid < 64)
    lostFlag := p.lostFlag || bad }

/-- A block boundary of the microphones: bad lists the channels with STUCK or CLIP in the block (R192), came those that delivered one. -/
def CancState.micBoundary (bad came : List Bool) (s : CancState) : CancState :=
  let valid := (List.range 8).map (fun k => if nth bad k false || !nth came k false then 0 else min 64 (nth s.micValid k 0 + 1))
  { s with
    micValid := valid
    micLost := (List.range 8).map (fun k => nth bad k false || (nth s.micLost k false && decide (nth valid k 0 < 64))) }

/-- Whether a weighted sensor of a machine is lost, or is an accelerometer that is off or event-paced (Table 9-7, SENSOR). -/
def CancState.sensorLost (c : Store) (m : Nat) (s : CancState) : Bool :=
  (List.range 8).any (fun k => sensorWeight c m k != 0 && nth s.micLost k false)
    || (weightedAcc c m).any (fun a => (nth s.acc a {}).lost || accRate (c.u 0x7180 (a + 1)) == 0)

/-! ### One order at a block boundary (R189, R193, R198, R199) -/

/-- Whether an order's state synthesises (Table 9-1). -/
def Order.synth (o : Order) : Bool := o.st == 2 || o.st == 3 || o.st == 4

/-- Whether an order is held (Table 9-1, HELD): the band's hysteresis is that of its state (R189). -/
def orderHeld (c : Store) (m k : Nat) (e : CancEnv) (lost : Bool) (o : Order) : Bool :=
  let f := absR o.freq
  let (lo, hi) := orderBand c m k e
  let inBand := if o.synth then decide (lo ≤ f) && decide (f ≤ hi) else decide (101/100 * lo ≤ f) && decide (f ≤ 99/100 * hi)
  !inBand || !e.enabled || !e.outOn || (orderTable c m k).isEmpty || lost
    || (e.injRun && decide (absR (f - e.fH) ≤ 12/100 * e.fH))

/-- Whether an order is frozen (R193). -/
def orderFrozen (e : CancEnv) (o : Order) : Bool :=
  e.limited || e.outFading || e.fadeBit || (if orderTorque o.def_ then e.cancScaled else e.injScaled) || o.totalLimit

/-- A divergence (R199): the output fades out, the weight is cleared, and the third within 60 s locks the order out. -/
def Order.diverge (now : Nat) (o : Order) : Order :=
  let t := (now :: o.divTimes).filter (fun x => decide (now < x + 12000000000))
  let lock := decide (3 ≤ t.length)
  { o with
    st := if lock then 6 else 5, locked := lock, w := {}, conv := false, started := false, divSeen := true, hold := if lock then 0 else 1500
    divTimes := t, level := 0, scores := [], low := 0, high := 0 }

/-- Enter ADAPTING or HELD (R189). -/
def Order.enter (held : Bool) (o : Order) : Order :=
  let fresh := o.st == 0
  let o := if held then { o with st := 1 } else { o with
    st := 2, started := false, conv := false, low := 0, high := 0, level := 0, scores := [], phase := if fresh then 0 else o.phase }
  o

/-- A weight limited in magnitude. -/
def Cx.limit (lim : Rat) (w : Cx) : Cx := if lim * lim < w.sq then w.smul (lim / w.abs) else w

/-- L_ord of a machine (R193). -/
def orderLimit (c : Store) (m : Nat) : Rat := mkRat (c.u (0x7101 + 0x10 * m) 4) 1000

/-- The adaptation of R193 with the powers of R198 and the tests of R199. g is the table's value with the sign of f_k. -/
def orderAdapt (c : Store) (m k now : Nat) (frozen : Bool) (g e : Cx) (o : Order) : Order × Bool :=
  let idx := 0x7101 + 0x10 * m
  let mu : Rat := mkRat (c.u idx 2) 10000
  let leak : Rat := mkRat (c.u idx 3) 1000000
  let lim := orderLimit c m
  let target : Rat := mkRat (c.u idx 6) 10
  let w0 := o.w
  let w1 := if frozen then w0 else (w0.smul (1 - leak)).sub ((g.conj.mul e).smul (mu / (g.sq + pow2 (-20))))
  let excess := !frozen && decide (lim * lim < w1.sq)
  let w2 := Cx.f32 (if frozen then w1 else w1.limit lim)
  let h3 := nth o.hist 2 {}
  let h4 := nth o.hist 3 {}
  let d := e.sub (g.mul h3)
  let pE := f32R (if o.started then o.pE + (e.sq - o.pE) / 64 else e.sq)
  let pD := f32R (if o.started then o.pD + (d.sq - o.pD) / 64 else d.sq)
  let pMin := if o.started then minR o.pMin pE else pE
  let a := f32R (if pE ≤ 0 ∨ pD ≤ 0 then Config.attenuationOpen m k now else 10 * log10R (pE / pD))
  let low := if a ≤ -target then min 32 (o.low + 1) else 0
  let high := if 3 - target < a then min 32 (o.high + 1) else 0
  let conv := if o.conv then decide (high < 32) else decide (32 ≤ low)
  let level := if 4 * pMin < pE ∧ (lim / 2) * (lim / 2) ≤ w2.sq then o.level + 1 else 0
  let dw := h3.sub h4
  let scored := o.started && decide ((lim / 1000) * (lim / 1000) ≤ dw.sq)
  let neg := decide ((((g.mul dw).conj).mul (e.sub o.ePrev)).re < 0)
  let scores := if scored then (neg :: o.scores).take 64 else o.scores
  let o := { o with
    w := w2, wOut := w2, wLimit := if frozen then o.wLimit else excess, started := true, pE := pE, pD := pD
    pMin := pMin, atten := a, ePrev := e, low := low, high := high, conv := conv, level := level, scores := scores
    st := if frozen then 4 else if conv then 3 else 2 }
  if 64 ≤ level ∨ 48 ≤ (scores.filter id).length then (o.diverge now, true) else (o, false)

/-- The state of one order at a block boundary, and its adaptation (Table 9-1, R189, R192, R197). lost says a weighted sensor is lost, lostNow that it is
since this boundary; ident that its machine is being identified; back the machine's angle at a time against the latest Hearth sample. -/
def orderState (c : Store) (m k now : Nat) (env : CancEnv) (lost lostNow ident : Bool) (weights : List Rat) (blocks : List SensorBlock)
    (back : Rat → Rat) (o : Order) : Order × Bool :=
  let d := orderDef c m k
  let changed := d % 2 ^ 31 != o.def_ % 2 ^ 31
  let off := !orderOn d || !c.b (0x7101 + 0x10 * m) 1
  let o := { o with
    def_ := d, freq := f32R (orderOf d * env.rpm / 60), sensor := lost, hold := o.hold - 1, locked := o.locked && orderOn d && !changed
    w := if changed || lostNow || off then {} else o.w }
  let rest : Order := { o with started := false, conv := false }
  if ident && !lost then ({ rest with st := 7 }, false)
  else if off then ({ rest with st := 0, fade := 0, wLimit := false }, false)
  else if o.locked then ({ rest with st := 6 }, false)
  else if 0 < o.hold || o.st == 5 then ({ rest with st := 5 }, false)
  else if orderHeld c m k env lost o then ({ rest with st := 1 }, false)
  else
    let o := if o.synth then o else o.enter false
    let e := demodulate weights blocks (fun t => o.phase + orderOf d * back t)
    let g := tableAt c m k (absR o.freq)
    orderAdapt c m k now (orderFrozen env o) (if o.freq < 0 then g.conj else g) e o

/-- One order at a block boundary, before its synthesis: its state, its output weight within L_ord (R195), and the weight in force among those of the
latest blocks, 0 while the order is not synthesised (R198; log 128). Answers the order and whether it diverged. -/
def orderBoundary (c : Store) (m k now : Nat) (env : CancEnv) (lost lostNow ident : Bool) (weights : List Rat) (blocks : List SensorBlock)
    (back : Rat → Rat) (o : Order) : Order × Bool :=
  let r := orderState c m k now env lost lostNow ident weights blocks back o
  let w := r.1.wOut.limit (orderLimit c m)
  ({ r.1 with wOut := w, hist := ((if r.1.synth then w else {}) :: r.1.hist).take 4 }, r.2)

/-- A machine's angle at a time by a published set (R188), turns. -/
def AngleSet.angle (a : AngleSet) (t : Rat) : Rat := a.theta + a.omega * (t - (a.time : Rat)) / 200000000

/-- A machine publishes a set at a counter value (R188). -/
def Canceller.publish (now : Nat) (a : AngleSet) (x : Canceller) : Canceller :=
  { x with latest := { a with at_ := now }, earlier := (x.latest :: x.earlier).take 256 }

/-- The latest set published by a time. -/
def Canceller.setAt (x : Canceller) (t : Rat) : AngleSet :=
  let l := x.latest :: x.earlier
  (l.find? (fun a => decide ((a.at_ : Rat) ≤ t))).getD (l.getLastD {})

/-- A turn reduced to −0.5 to +0.5. -/
def halfTurn (x : Rat) : Rat := x - ((x + 1/2).floor : Rat)

/-- The angle steps and speeds of a block's samples, each by the latest set published at it, and the angle at the last (R188). -/
def Canceller.steps (x : Canceller) (cairn : Nat) (d : Rat) : List (Rat × Rat) × Rat :=
  (List.range 32).foldl (fun (r : List (Rat × Rat) × Rat) (i : Nat) =>
    let t := (cairn : Rat) + d * (i : Rat)
    let a := x.setAt t
    (r.1 ++ [(halfTurn (a.angle t - r.2), a.omega)], a.angle t)) ([], x.thetaAt)

/-- The machine's angle at a time against the latest Hearth sample: by the steps to the sample nearest to the time, and the speed from there (R188). -/
def angleBack (omega t : Rat) : List (Rat × Rat) → Rat → Rat
  | [], acc => acc
  | [e], acc => acc + omega * (t - e.1) / 200000000
  | e :: f :: l, acc =>
    if absR (t - e.1) ≤ absR (t - f.1) then acc + omega * (t - e.1) / 200000000 else angleBack omega t (f :: l) (acc - e.2)

/-- The angle law of a machine around its latest Hearth samples. -/
def Canceller.back (x : Canceller) (t : Rat) : Rat := angleBack x.latest.omega t x.past 0

/-- One block of an order's output, before the total limit, and the order with its phase and fade after the block (R194). -/
def orderBlock (steps : List (Rat × Rat)) (d : Rat) (o : Order) : Order × List Rat :=
  let r := orderOf o.def_
  let up := o.synth
  steps.foldl (fun (a : Order × List Rat) s =>
    let ph := let p := a.1.phase + r * s.1; p - (p.floor : Rat)
    let fd := if up then min 32 (a.1.fade + 1) else a.1.fade - 1
    let y := if fd = 0 then 0 else mkRat fd 32 * ((a.1.wOut.mul (Cx.cexp (ph + r * s.2 * (96 * d) / 200000000))).re)
    ({ a.1 with phase := ph, fade := fd }, a.2 ++ [y])) (o, [])

/-- The block that ended, of cairn and step: the flux and torque parts that the machine's orders gave in it, and the canceller with its phases and its
latest samples (R188, R194). -/
def cancEnd (cairn : Nat) (d : Rat) (x : Canceller) : Canceller × List Rat × List Rat :=
  let steps := x.steps cairn d
  let out := x.orders.map (orderBlock steps.1 d)
  let part (torque : Bool) : List Rat := (List.range 32).map (fun i =>
    x.scale * sumR (out.map (fun o => if orderTorque o.1.def_ == torque then nth o.2 i 0 else 0)))
  let new := (steps.1.mapIdx (fun i s => ((cairn : Rat) + d * ((i : Nat) : Rat), s.1))).reverse
  ({ x with orders := out.map (·.1), thetaAt := steps.2, earlier := [], past := (new ++ x.past).take 256 }, part false, part true)

/-- The block that begins (R193, R195): every order's state and weight, and the factor by which the total limit scales the outputs that are not zero.
Answers the canceller and how many orders diverged. -/
def cancBegin (c : Store) (m now : Nat) (env : CancEnv) (s : CancState) (lostNow : Bool) (blocks : List SensorBlock) (x : Canceller) : Canceller × Nat :=
  let weights := (List.range 14).map (sensorWeight c m)
  let ident := s.ident.running && s.ident.machine == m
  let r := x.orders.mapIdx (fun k o => orderBoundary c m k now env (s.sensorLost c m) lostNow ident weights blocks x.back o)
  let sum := sumR (r.map (fun o => if o.1.synth || decide (0 < o.1.fade) then o.1.wOut.abs else 0))
  let tot : Rat := mkRat (c.u (0x7101 + 0x10 * m) 5) 1000
  ({ x with orders := r.map (fun o => { o.1 with totalLimit := decide (tot < sum) }), scale := if tot < sum then tot / sum else 1 },
    (r.filter (·.2)).length)

/-- The end of a diverged order's hold (R199). -/
def holdEnd (c : Store) (m k : Nat) (env : CancEnv) (lost : Bool) (o : Order) : Order :=
  if o.st = 5 ∧ o.hold = 0 then { o with st := 1 }.enter (orderHeld c m k env lost { o with st := 1 }) else o

/-- Order status (Table 9-7). -/
def Order.status (noModel : Bool) (o : Order) : Nat :=
  128 * b2n noModel + 64 * b2n o.sensor + 32 * b2n o.totalLimit + 16 * b2n o.wLimit + 8 * b2n o.divSeen + o.st

/-- Canceller status (Table 9-6). -/
def CancState.status (s : CancState) : Nat :=
  let any (m : Nat) (p : Order → Bool) : Bool := (nth s.m m {}).orders.any p
  2048 * b2n s.ident.failFlag + 1024 * b2n s.ident.running + 32 * b2n (any 1 (fun o => o.st == 4)) + 16 * b2n (any 0 (fun o => o.st == 4))
    + 2 * b2n (any 1 (fun o => decide (0 < o.fade))) + b2n (any 0 (fun o => decide (0 < o.fade)))

/-! ### Identification (R197) -/

/-- The slots of a mask from one on. -/
def nextSlot (mask from_ : Nat) : Option Nat := ((List.range 8).filter (fun k => decide (from_ ≤ k) && bit mask k)).head?

/-- Start an identification: torque-axis orders are skipped and marked failed in SERVICE and PROOFING. -/
def Ident.start (c : Store) (inRun : Bool) (req : Nat) (i : Ident) : Ident :=
  let m := bits req 15 15
  let skip := if inRun then 0 else ofBits ((List.range 8).map (fun k => bit req k && orderTorque (orderDef c m k)))
  let mask := bits req 7 0 - skip
  { i with
    running := decide (mask ≠ 0), ending := none, machine := m, mask := mask, order := (nextSlot mask 0).getD 0, point := 0, blocks := 0, values := [],
    entries := [], passed := 0, failed := skip, failFlag := i.failFlag || decide (skip ≠ 0) }

/-- The frequency of a point (R196). -/
def identFreq (c : Store) (i : Ident) : Rat :=
  let (lo, hi) := orderRange c i.machine i.order
  lo + (i.point : Rat) * (hi - lo) / 63

/-- The identification amplitude in units of the injection full scale (R197, R218). -/
def identAmp (c : Store) (inRun : Bool) : Rat := mkRat (c.u 0x7100 4) (if inRun then 4000 else 1000)

/-- How far the tone is in: 1 while the identification runs, then a fade over 32 samples (R219). -/
def Ident.level (t : Nat) (i : Ident) : Rat :=
  if i.running then 1 else match i.ending with
    | some e => maxR 0 (1 - mkRat ((t : Int) - e) 133333)
    | none => 0

/-- The tone at an update instant, per unit of the full scale. -/
def Ident.tone (c : Store) (inRun : Bool) (tu : Nat) (i : Ident) : Rat :=
  let l := i.level tu
  if l = 0 then 0 else identAmp c inRun * l * cosTurn (identFreq c i * (tu : Rat) / 200000000)

/-- The identification ends, and its tone fades. -/
def Ident.stop (now : Nat) (i : Ident) : Ident :=
  { i with
    running := false, blocks := 0, values := [], entries := [], queued := none, table := none, ending := if i.running then some now else i.ending }

/-- A block boundary of a running identification: after 8 settling blocks the error is demodulated at the tone's phase. -/
def Ident.boundary (c : Store) (blocks : List SensorBlock) (i : Ident) : Ident :=
  if !i.running then i else
  let f := identFreq c i
  let weights := (List.range 14).map (sensorWeight c i.machine)
  if 8 ≤ i.blocks ∧ i.blocks < 40 then
    { i with blocks := i.blocks + 1, values := i.values ++ [demodulate weights blocks (fun t => f * t / 200000000)] }
  else { i with blocks := min 40 (i.blocks + 1) }

/-- A tone of amplitude 1 over a block, at the times at which its samples reach the load. -/
def toneBlock (f : Rat) (cairn : Nat) (d : Rat) : List Rat :=
  (List.range 32).map (fun (i : Nat) => cosTurn (f * ((cairn : Rat) + d * ((i : Rat) + 96)) / 200000000))

/-- The mean of the block values, and whether the 20 dB test of R197 passes. -/
def pointResult (l : List Cx) : Cx × Bool :=
  let n : Rat := (l.length : Rat)
  let mean := (Cx.sum l).smul (1 / maxR 1 n)
  let var := sumR (l.map (fun x => (x.sub mean).sq)) / maxR 1 n
  (mean, decide (100 * (var / maxR 1 n) < mean.sq))

/-- Failed points replaced: linear interpolation between passing neighbours, the nearest passing value at the ends (R197). -/
def fillEntries (l : List (Option Cx)) : List Cx :=
  (List.range l.length).map (fun j =>
    match nth l j none with
    | some g => g
    | none =>
      let before : Option (Nat × Cx) := ((l.take j).reverse.findIdx? Option.isSome).map (fun (d : Nat) => ((d + 1 : Nat), (nth (l.take j).reverse d none).getD {}))
      let after : Option (Nat × Cx) := ((l.drop (j + 1)).findIdx? Option.isSome).map (fun (d : Nat) => ((d + 1 : Nat), (nth (l.drop (j + 1)) d none).getD {}))
      match before, after with
      | some (a, x), some (b, y) =>
        (x.smul (mkRat b (a + b))).add (y.smul (mkRat a (a + b)))
      | some (_, x), none => x
      | none, some (_, y) => y
      | none, none => {})

/-- Whether an order of 64 points passes: at most 8 failed, and no two adjacent (R197). -/
def entriesPass (l : List (Option Cx)) : Bool :=
  decide ((l.filter Option.isNone).length ≤ 8)
    && (List.range (l.length - 1)).all (fun j => (nth l j none).isSome || (nth l (j + 1) none).isSome)

/-- The bytes of a table. -/
def tableBytes (l : List Cx) : List Byte := l.flatMap (fun g => toBytes 4 (f32OfRat g.re) ++ toBytes 4 (f32OfRat g.im))

/-- The end of a point (R197): amp is the tone's amplitude. Answers the identification and, where an order's table is complete and
passes, (order, bytes). -/
def Ident.pointDone (amp : Rat) (i : Ident) : Ident × Option (Nat × List Byte) :=
  if !i.running ∨ i.blocks < 40 then (i, none) else
  let (mean, ok) := pointResult i.values
  let e := i.entries ++ [if ok && decide (amp ≠ 0) then some (Cx.f32 (mean.smul (1 / amp))) else none]
  if i.point < 63 then ({ i with point := i.point + 1, blocks := 0, values := [], entries := e }, none)
  else
    let pass := entriesPass e
    let k := i.order
    let i := { i with
      passed := if pass then setBit i.passed k true else i.passed, failed := if pass then i.failed else setBit i.failed k true
      failFlag := i.failFlag || !pass, point := 0, blocks := 0, values := [], entries := [] }
    let i := match nextSlot i.mask (k + 1) with
      | some n => { i with order := n }
      | none => { i with running := false }
    (i, if pass then some (k, tableBytes (fillEntries e)) else none)

/-- Identification status (0x7100.03). -/
def Ident.status (i : Ident) : Nat :=
  i.passed * 2 ^ 24 + i.failed * 2 ^ 16 + b2n i.running * 2048 + i.machine * 1024 + i.order * 64 + i.point

end Sys2Proof.Machine
end

