-- ==== Sys2Proof/Machine/TypesHearth.lean ====
section
/-! DEFINITION. State of Hearth's sound chain (chapter 08). Samples are raw Q4.28 integers; a Hearth sample number is 32 × block + index
on the grid of R165. -/

namespace Sys2Proof.Machine

/-- An input S0 to S7: its source word (Table 8-2), the source it leaves, and its ramp position 0 to 64 (R167). -/
structure HInput where
  src : Nat := 0
  old : Nat := 0
  pos : Nat := 64
  deriving DecidableEq, Repr

/-- A biquad section: b0, b1, b2, a1, a2 in Q3.29 and its delay elements (R172). -/
structure Biquad where
  c : List Int := [2 ^ 29, 0, 0, 0, 0]
  x1 : Int := 0
  x2 : Int := 0
  y1 : Int := 0
  y2 : Int := 0
  deriving DecidableEq, Repr

/-- A pedestrian-alert generator: the phases of its eight partials in turns, and its pitch in Hz and level in dB (R169). -/
structure Generator where
  phases : List Rat := [0, 0, 0, 0, 0, 0, 0, 0]
  f0 : Rat := 0
  lvl : Rat := -100
  deriving DecidableEq, Repr

/-- A chime player: the clip, its position in samples, the plays left, whether the play repeats until stopped, and the rest of a clip
that fades out (R170). -/
structure Chime where
  playing : Bool := false
  clip : Nat := 0
  pos : Nat := 0
  left : Nat := 0
  endless : Bool := false
  tail : List Int := []
  deriving DecidableEq, Repr

/-- A block between its boundary and its completion (R186): number, cairn, step, the settings in force at its boundary, the
generators' samples, the canceller's flux and torque parts of both machines, the tones added to O2 and O3, the microphone
blocks, and whether a recipe applies at its boundary (R173). -/
structure HearthJob where
  n : Nat := 0
  cairn : Nat := 0
  delta : Rat := 0
  cfg : Store := {}
  gens : List (List Int) := []
  flux : List (List Rat) := []
  torq : List (List Rat) := []
  tones : List (List Rat) := []
  mics : List (List Int) := []
  newRecipe : Bool := false
  deriving DecidableEq, Repr

/-- Hearth. n, cairn and delta are those of the block that runs, cairnPrev and deltaPrev of the one before. out lists, newest first, the latest 256 samples of O0, O1, Q0, Q1, O2, O3 on their way to the interpolators, of which the
newest has the number top; gainPrev the limiter gains of the block before the latest; plays the waiting writes of Play (player, word, time of acceptance); pre the latest 64 samples of O0, O1, Q0, Q1 before the band limiter; taps the latest 128 samples of the
send taps; ifs the injection full scale of each machine at the start and end of the latest 8 blocks, newest first. -/
structure HearthState where
  running : Bool := false
  grid : Bool := false
  n : Nat := 0
  cairn : Nat := 0
  delta : Rat := 12500 / 3
  cairnPrev : Nat := 0
  deltaPrev : Rat := 12500 / 3
  blocks : Nat := 0
  overruns : Nat := 0
  clips : Nat := 0
  recipeFaults : Nat := 0
  shifts : Nat := 0
  recipeFault : Bool := false
  alignShift : Bool := false
  overrun : Bool := false
  clip : Bool := false
  inputs : List HInput := List.replicate 8 {}
  gains : List Int := List.replicate 32 0
  sections : List (List Biquad) := List.replicate 4 (List.replicate 12 {})
  recipeSt : Nat := 0
  mem : WordMem := []
  portRefusals : Nat := 0
  gen : List Generator := [{}, {}]
  chime : List Chime := [{}, {}]
  enable : List Nat := [0, 0, 0, 0]
  fallback : List Nat := [0, 0]
  factor : List Rat := [1, 1]
  gain : List Rat := [1, 1, 1, 1]
  ceil : List Nat := [0, 0]
  pre : List (List Int) := [[], [], [], []]
  out : List (List Int) := [[], [], [], [], [], []]
  top : Int := -1
  taps : List (List Int) := List.replicate 8 []
  ifs : List (List (Rat × Rat)) := [[], []]
  gainPrev : List Rat := [1, 1, 1, 1]
  plays : List (Nat × Nat × Nat) := []
  jobs : List HearthJob := []
  completed : Nat := 0
  deriving DecidableEq, Repr

end Sys2Proof.Machine
end

