-- ==== Sys2Proof/Machine/Hearth.lean ====
section
/-! DEFINITION. Hearth's sound chain (chapter 08): inputs, generators, matrix, biquads, recipe, limiter, fades, and the way onto the
machines and the speakers. -/

namespace Sys2Proof.Machine

/-- The linear ramp r(i) = (i + 1) / 32 across a block. -/
def ramp32 (i : Nat) : Rat := mkRat (i + 1) 32

/-- A value that moves from a to b across a block. -/
def across (a b : Rat) (i : Nat) : Rat := a + (b - a) * ramp32 i

/-- The time t(n, i) of sample i of a block (R165). -/
def hearthTime (c : Nat) (d : Rat) (i : Nat) : Rat := (c : Rat) + d * (i : Rat)

/-! ### Generators (R169) -/

/-- Linear interpolation between the map points that bracket a speed; the end points hold outside (R169). pts lists
(speed, value). -/
def mapAt : List (Rat × Rat) → Rat → Rat
  | [], _ => 0
  | [p], _ => p.2
  | p :: q :: l, v =>
    if v ≤ p.1 then p.2
    else if v ≤ q.1 then p.2 + (q.2 - p.2) * (v - p.1) / (q.1 - p.1)
    else mapAt (q :: l) v

/-- A generator's pitch and level at a speed: idx is 0x7010 or 0x7011. -/
def genTarget (c : Store) (idx : Nat) (v : Rat) : Rat × Rat :=
  let n := c.u idx 4
  let sp (k : Nat) := c.f idx (0xD + k)
  (f32R (mapAt ((List.range n).map (fun k => (sp k, c.f idx (0x15 + k)))) v),
    f32R (mapAt ((List.range n).map (fun k => (sp k, (c.i 16 idx (0x1D + k) : Rat) / 10))) v))

/-- One block of a generator: 32 samples; phases stay continuous, pitch and level move linearly across the block. -/
def genBlock (c : Store) (idx : Nat) (v : Rat) (g : Generator) : Generator × List Int :=
  if !c.b idx 1 then ({}, List.replicate 32 0) else
  let (f1, l1) := genTarget c idx v
  let part (k : Nat) : Nat × Rat := let w := c.u idx (5 + k); (bits w 15 11, (bits w 10 0 : Rat) / 10)
  let step (a : Generator × List Int) (i : Nat) : Generator × List Int :=
    let f := across g.f0 f1 i
    let l := across g.lvl l1 i
    let ph := (List.range 8).map (fun k =>
      let x := nth a.1.phases k 0 + ((part k).1 : Rat) * f / 48000
      x - (x.floor : Rat))
    let y : Rat := if l ≤ -100 then 0 else
      dbGain l * sumR ((List.range 8).map (fun k =>
        let (h, at_) := part k
        if h = 0 ∨ 20000 < (h : Rat) * f1 then 0 else dbGain (-at_) * sinTurn (nth ph k 0)))
    ({ a.1 with phases := ph }, a.2 ++ [q28 y])
  let r := (List.range 32).foldl step (g, [])
  ({ r.1 with f0 := f1, lvl := l1 }, r.2)

/-! ### Chimes (R170) -/

/-- LENGTH of a clip (Table 8-10). -/
def clipLen (c : Store) (k : Nat) : Nat := bits (c.u 0x7421 (k + 1)) 16 0

/-- One sample of a clip at a level in 0.1 dB. -/
def clipSample (c : Store) (clip pos : Nat) (lvl : Int) : Int :=
  let w := c.u 0x7421 (clip + 1)
  let b := (c.blob (objKey 0x7420 1)).drop (2 * (32 * bits w 31 20 + pos))
  let x := match b with | hi :: lo :: _ => sext 16 (hi.toNat * 256 + lo.toNat) | _ => 0
  if lvl ≤ -1000 then 0 else q28 (mkRat x 32768 * dbGain (mkRat lvl 10))

/-- The next samples of a player without its tail: positions advance, plays count down. -/
def chimeRun (c : Store) (lvl : Int) : Nat → Chime → Chime × List Int
  | 0, p => (p, [])
  | n + 1, p =>
    if !p.playing then (p, List.replicate (n + 1) 0) else
    let x := clipSample c p.clip p.pos lvl
    let p' := if p.pos + 1 < clipLen c p.clip then { p with pos := p.pos + 1 }
      else if p.endless then { p with pos := 0 }
      else if 1 < p.left then { p with pos := 0, left := p.left - 1 }
      else { p with playing := false, pos := 0, left := 0 }
    let r := chimeRun c lvl n p'
    (r.1, x :: r.2)

/-- What fades out of the clip in progress, over 32 samples. -/
def chimeTail (c : Store) (lvl : Int) (p : Chime) : List Int :=
  if !p.playing then [] else ((chimeRun c lvl 32 p).2).mapIdx (fun i x => scale28 x (31 - i) 32)

/-- A stop, or a change of the store or the directory: the clip in progress fades out. -/
def chimeStop (c : Store) (lvl : Int) (p : Chime) : Chime :=
  { p with playing := false, left := 0, endless := false, pos := 0, tail := if p.playing then chimeTail c lvl p else p.tail }

/-- A play (Table 8-7): the clip starts at the first sample of the block, while one already playing fades out. -/
def chimePlay (c : Store) (lvl : Int) (w : Nat) (p : Chime) : Chime :=
  let p := chimeStop c lvl p
  { p with playing := true, clip := bits w 3 0, pos := 0, left := bits w 15 12, endless := bits w 15 12 == 0 }

/-- One block of a chime player; idx is 0x7020 or 0x7021. -/
def chimeBlock (c : Store) (idx : Nat) (p : Chime) : Chime × List Int :=
  let lvl := c.i 16 idx 3
  let r := chimeRun c lvl 32 { p with tail := [] }
  (r.1, r.2.mapIdx (fun i x => clampI (-(2 ^ 31)) (2 ^ 31 - 1) (x + nth p.tail i 0)))

/-- Player status (0x7020.02). -/
def Chime.status (p : Chime) : Nat := (if p.endless then 0 else p.left) * 4096 + 16 * b2n p.playing + p.clip

/-! ### Inputs (R167, R168) -/

/-- A source's sample (Table 8-2) at sample i of a job. -/
def sourceSample (a : AudioState) (j : HearthJob) (w i : Nat) : Int :=
  let h : Int := 32 * (j.n : Int) + i
  match bits w 15 12 with
  | 1 => (nth a.asp (bits w 9 8) {}).stream.value (bits w 4 0) h
  | 2 => (nth a.lis (bits w 9 8) {}).stream.value (bits w 4 0) h
  | 3 => nth (nth j.gens (bits w 9 8) []) i 0
  | _ => 0

/-- One block of an input, with the crossing ramps of a source change. -/
def inputBlock (a : AudioState) (j : HearthJob) (src : Nat) (x : HInput) : HInput × List Int :=
  let x := if src = x.src then x else { src := src, old := x.src, pos := 0 }
  let l := (List.range 32).map (fun i =>
    let r := min 64 (x.pos + i + 1)
    if r = 64 then sourceSample a j x.src i
    else q28 (v28 (sourceSample a j x.src i) * mkRat r 64 + v28 (sourceSample a j x.old i) * mkRat (64 - r) 64))
  ({ x with pos := min 64 (x.pos + 32) }, l)

/-! ### Matrix, biquads and recipe (R171 to R175) -/

/-- Step 2: output n from the inputs, each gain moving from its old to its new value. -/
def matrixBlock (c : Store) (old : List Int) (s : List (List Int)) (n : Nat) : List Int :=
  (List.range 32).map (fun i =>
    q28 (sumR ((List.range 8).map (fun m =>
      let g1 := c.i 16 0x7402 (8 * n + m + 1)
      v28 (nth (nth s m []) i 0) * across (mkRat (nth old (8 * n + m) 0) 16384) (mkRat g1 16384) i))))

/-- One sample of a section. -/
def Biquad.step (b : Biquad) (x : Int) : Biquad × Int :=
  let k (n : Nat) : Rat := ofQ 29 (nth b.c n 0)
  let y := q28 (k 0 * v28 x + k 1 * v28 b.x1 + k 2 * v28 b.x2 - k 3 * v28 b.y1 - k 4 * v28 b.y2)
  ({ b with x1 := x, x2 := b.x1, y1 := y, y2 := b.y1 }, y)

/-- One block of a section. -/
def Biquad.run (b : Biquad) : List Int → Biquad × List Int
  | [] => (b, [])
  | x :: l => let r := b.step x; let q := r.1.run l; (q.1, r.2 :: q.2)

/-- A linear crossfade across a block. -/
def crossfade (a b : List Int) : List Int :=
  (List.range 32).map (fun i => q28 (v28 (nth a i 0) * (1 - ramp32 i) + v28 (nth b i 0) * ramp32 i))

/-- One block of a section under the coefficients now in force: a change runs old and new on the same input and crossfades. -/
def sectionBlock (coef : List Int) (b : Biquad) (x : List Int) : Biquad × List Int :=
  let r := b.run x
  if coef == b.c then r else
  let q := ({ c := coef } : Biquad).run x
  (q.1, crossfade r.2 q.2)

/-- The coefficients of a section in force. -/
def biquadCoef (c : Store) (n k : Nat) : List Int := (List.range 5).map (fun j => c.i 32 (0x7430 + n) (5 * k + j + 1))

/-- Step 3: the chain of an output. -/
def chainBlock (c : Store) (n : Nat) (secs : List Biquad) (x : List Int) : List Biquad × List Int :=
  (List.range 12).foldl (fun a k =>
    let r := sectionBlock (biquadCoef c n k) (nth secs k {}) a.2
    (a.1 ++ [r.1], r.2)) ([], x)

/-- What the Hearth recipe reads beside the signals: both machines' speeds in use (F32) and modes in use. -/
structure RecipeEnv where
  sp0 : Nat := 0
  sp1 : Nat := 0
  mode0 : Nat := 0
  mode1 : Nat := 0
  deriving DecidableEq, Repr

/-- One sample of the recipe (R173, Table 8-4): registers cleared, memory kept. Answers the memory, the four outputs, the refused
writes and whether it faulted. -/
def recipeSample (c : Store) (img : List Nat) (blocks : Nat) (gain : List Rat) (e : RecipeEnv) (mem : WordMem)
    (i : Nat) (s mx bq g : List Int) : WordMem × List Int × Nat × Bool :=
  let w (l : List Int) : List Nat := l.map (ofInt 32)
  let replace := nth img 4 0 == 1
  let base := if replace then [0, 0, 0, 0] else bq
  let reads : List (Nat × List Nat) :=
    [(0, [i, blocks, b2n replace, 0]), (1, w (s.take 4)), (2, w (s.drop 4)), (3, w (if replace then [0, 0, 0, 0] else mx)),
     (4, w base), (5, w base), (6, [e.sp0, e.sp1, e.mode0, e.mode1]), (7, gain.map (fun x => ofInt 32 (q28 x))), (8, w g)]
  let params := (List.range 128).map (fun k => c.u 0xC510 (k + 1)) ++ (List.range 128).map (fun k => c.u 0xC511 (k + 1))
  let code := recipeCode img
  let v := rRun { hook := 4, reads := reads, writes := [5], params := params } (code.length + 1) (code.drop (nth img 3 0)) { mem := mem }
  let bad := v.access || v.nan
  let y := match v.outs.find? (fun o => o.1 == 5) with
    | some o => o.2.map (sext 32)
    | none => base
  (v.mem, if bad then [0, 0, 0, 0] else y, v.refused, bad)

/-! ### Ceilings and interpolation (R179 to R183) -/

/-- A machine's lowest update rate in Hz (R179). -/
def lowestUpdate (c : Store) (m : Nat) : Rat :=
  let mode := modMode c 0
  let p0 := nominalPeriod c 0
  let top := if mode = 5 then p0 + c.u 0x5400 5
    else if mode = 6 then ((List.range (c.u 0x5400 7)).map (fun j => (shapedEntry c j).1)).foldl max 0
    else p0
  let p := if m = 0 then top else if mode = 5 ∨ mode = 6 then top * ratioK c else nominalPeriod c 1
  200000000 * (if doubleUpdate c m then 2 else 1) / (max 1 p : Nat)

/-- Motor sound ceiling, Hz, rounded down (R179). -/
def motorCeiling (c : Store) (m : Nat) : Nat := (minR (35/100 * lowestUpdate c m) 10000).floor.toNat

/-- The Hearth stream position of a time (R181): n, cairn and step are those of the latest block. -/
def HearthState.pos (h : HearthState) (t : Nat) : Rat := 32 * (h.n : Rat) + (((t : Int) - h.cairn : Int) : Rat) / h.delta

/-- The polyphase interpolator at a position: linear interpolation between adjacent phases, over the samples around the position that there are
(R181; log 37), in units of full scale. -/
def polyphaseAt (p : Rat) (sample : Int → Option Int) : Rat :=
  let b := p.floor
  let ph := (p - (b : Rat)) * 256
  let a := ph.floor.toNat
  let w := ph - (a : Rat)
  let win := (List.range 64).map (fun (i : Nat) => (sample (b - 31 + i)).getD 0)
  ((1 - w) * firR (Config.polyphase a) win + w * firR (Config.polyphase (a + 1)) win) * pow2 (-28)

/-- A stream evaluated at a position, from the samples that blocks have delivered, up to the newest (R181, R186). -/
def HearthState.evalAt (h : HearthState) (k : Nat) (p : Rat) : Rat :=
  let l := nth h.out k []
  polyphaseAt p (fun i => if h.top < i then none else some (nth l (h.top - i).toNat 0))

/-- The injection full scale of a machine at a stream position (R178): ramped across the block of a change. -/
def HearthState.fullScale (h : HearthState) (m : Nat) (p : Rat) : Rat :=
  let b := (h.top + 1) / 32 - 1 - (p / 32).floor
  let l := nth h.ifs m []
  let e := nth l b.toNat (l.headD (0, 0))
  let i := p.floor - 32 * (p / 32).floor
  across e.1 e.2 i.toNat

/-- What the lanes latch for an update instant t_u of a machine: the flux and torque parts, in per unit of I_b (R178, R181). -/
def HearthState.motor (h : HearthState) (m : Nat) (ib : Rat) (t : Nat) : Rat × Rat :=
  let p := h.pos t - 96
  let fs := h.fullScale m p / ib
  (h.evalAt m p * fs, h.evalAt (2 + m) p * fs)

/-- A speaker's stream value for the pulse centred at a time: that of 96 samples before, one carrier period of them from its sample point (R139, R183;
log 124). -/
def HearthState.speaker (h : HearthState) (k : Nat) (t : Nat) : Rat := h.evalAt (4 + k) (h.pos t - 96)

/-! ### A block (R166) -/

/-- Step 8's fade levels of an output across a block, in 1/480, and its level at the end (R177). -/
def fadeLevel (on : Bool) (lvl i : Nat) : Nat := if on then min 480 (lvl + i + 1) else lvl - (i + 1)

/-- What a block needs from the rest of the device: the recipe's readings, ENABLED of both machines (Table 4-10), and the speaker
supply factors of R184. -/
structure BlockEnv where
  rec_ : RecipeEnv := {}
  enabled : List Bool := [false, false]
  factor : List Rat := [1, 1]
  deriving DecidableEq, Repr

/-- Steps 1 to 6 of Table 8-1: the inputs of step 7, O0 to O3 and Q0, Q1. -/
structure StageOut where
  s : List (List Int)
  o : List (List Int)
  q : List (List Int)
  deriving DecidableEq, Repr

/-- Steps 1 to 4: inputs, matrix, biquads, recipe. -/
def hearthFront (a : AudioState) (j : HearthJob) (e : RecipeEnv) (h : HearthState) : HearthState × List (List Int) × List (List Int) :=
  let c := j.cfg
  let ins := (List.range 8).map (fun k => inputBlock a j (c.u 0x7001 (k + 1)) (nth h.inputs k {}))
  let s := ins.map (·.2)
  let img := imageWords (c.blob (objKey 0xC500 1))
  let loaded := decide (c.u 0xC500 2 ≠ 0)
  let st := if loaded then h.recipeSt else 0
  let live := st == 1 || st == 2
  let replace := live && nth img 4 0 == 1 && st == 1
  let mx := (List.range 4).map (matrixBlock c h.gains s)
  let ch := (List.range 4).map (fun n => chainBlock c n (nth h.sections n []) (nth mx n []))
  let bq := ch.map (·.2)
  let h : HearthState := { h with
    inputs := ins.map (·.1), recipeSt := st,
    gains := if replace then h.gains else (List.range 32).map (fun k => c.i 16 0x7402 (k + 1)),
    sections := if replace then h.sections else ch.map (·.1) }
  if !live then (h, s, bq) else
  let col (l : List (List Int)) (i : Nat) : List Int := l.map (fun x => nth x i 0)
  let r := (List.range 32).foldl (fun (acc : WordMem × List (List Int) × Nat × Nat) i =>
    let (mem, y, ref, bad) := recipeSample c img h.blocks h.gain e acc.1 i (col s i) (col mx i) (col bq i) (col j.gens i)
    (mem, acc.2.1 ++ [y], acc.2.2.1 + ref, acc.2.2.2 + b2n bad)) (h.mem, [], 0, 0)
  let y := (List.range 4).map (fun n => r.2.1.map (fun v => nth v n 0))
  let bad := r.2.2.2
  let h : HearthState := { h with
    mem := r.1, portRefusals := add32 h.portRefusals r.2.2.1, recipeFaults := add32 h.recipeFaults bad,
    recipeFault := h.recipeFault || decide (0 < bad),
    recipeSt := if st = 2 then 3 else if 0 < bad then 2 else 1 }
  (h, s, if st = 2 then List.zipWith crossfade y bq else y)

/-- Steps 5 and 6: the canceller's parts, the fallback and the tones, and the supply factor. -/
def hearthSums (j : HearthJob) (e : BlockEnv) (o : List (List Int)) (h : HearthState) :
    HearthState × List (List Int) × List (List Int) :=
  let add (x : List Int) (f : Nat → Rat) : List Int := (List.range 32).map (fun i => q28 (v28 (nth x i 0) + f i))
  let o01 := (List.range 2).map (fun m => add (nth o m []) (fun i => nth (nth j.flux m []) i 0))
  let q := (List.range 2).map (fun m => (List.range 32).map (fun i => q28 (nth (nth j.torq m []) i 0)))
  let spk := (List.range 2).map (fun k =>
    let fb := j.cfg.u 0x7003 (0xB + k)
    let m := fb - 1
    let up := decide (fb ≠ 0) && !nth e.enabled m false
    let lvl := nth h.fallback k 0
    let y := add (nth o (2 + k) []) (fun i =>
      (if fb = 0 then 0 else v28 (nth (nth o m []) i 0) * mkRat (fadeLevel up lvl i) 480) + nth (nth j.tones k []) i 0)
    let f := nth e.factor k 1
    (fadeLevel up lvl 31, y.map (fun x => q28 (v28 x * f))))
  ({ h with fallback := spk.map (·.1), factor := e.factor }, o01 ++ spk.map (·.2), q)

/-- Clip to ±1.0: the samples and how many were clipped (R177). -/
def clipBlock (l : List Int) : List Int × Nat :=
  (l.map (fun x => clampI (-one28) one28 x), (l.filter (fun x => decide (one28 < x ∨ x < -one28))).length)

/-- Step 9 on one stream: the samples after the band limiter, and its history; a new ceiling crossfades (R180). -/
def bandBlock (old new : Nat) (hist x : List Int) : List Int × List Int :=
  let r := x.foldl (fun (a : List Int × List Int × Nat) v =>
    let hs := (v :: a.2.1).take 64
    let y1 := firR (Config.bandLimit new) hs * pow2 (-28)
    let y := if old = new then y1 else firR (Config.bandLimit old) hs * pow2 (-28) * (1 - ramp32 a.2.2) + y1 * ramp32 a.2.2
    (a.1 ++ [q28 y], hs, a.2.2 + 1)) ([], hist, 0)
  (r.1, r.2.1)

/-- Steps 7 to 9, and the result handed to the interpolators and the send taps. g lists the new limiter gains of O0 to O3; tapSrc gives
the source of a send tap (0x7005). ceil lists the ceilings now in force. -/
def hearthBack (j : HearthJob) (s o q : List (List Int)) (g : List Rat) (ceil : List Nat) (h : HearthState) : HearthState :=
  let c := j.cfg
  let lim (k : Nat) (x : List Int) : List Int :=
    x.mapIdx (fun i v => q28 (v28 v * across (nth h.gain k 1) (nth g k 1) i))
  let fade (k : Nat) (x : List Int) : List Int :=
    x.mapIdx (fun i v => q28 (v28 v * mkRat (fadeLevel (c.b 0x7003 (k + 1)) (nth h.enable k 0) i) 480))
  let o8 := (List.range 4).map (fun k => clipBlock (fade k (lim k (nth o k []))))
  let q8 := (List.range 2).map (fun k => clipBlock (fade k (lim k (nth q k []))))
  let clips := ((o8 ++ q8).map (·.2)).foldl (· + ·) 0
  let oc := o8.map (·.1)
  let b := (List.range 4).map (fun k =>
    let m := k % 2
    let old := nth h.ceil m 0
    let new := nth ceil m 0
    bandBlock (if old = 0 then new else old) new (nth h.pre k []) (if k < 2 then nth oc k [] else nth (q8.map (·.1)) m []))
  let streams := b.map (·.1) ++ [nth oc 2 [], nth oc 3 []]
  let tap (w : Nat) : List Int :=
    if w = 0 then List.replicate 32 0
    else if w ≤ 8 then nth s (w - 1) []
    else if 0x10 ≤ w ∧ w ≤ 0x13 then nth o (w - 0x10) []
    else if 0x18 ≤ w ∧ w ≤ 0x1B then nth oc (w - 0x18) []
    else if 0x20 ≤ w ∧ w ≤ 0x27 then (nth j.mics (w - 0x20) []).map (fun x => x * 32)
    else List.replicate 32 0
  { h with
    gain := g, gainPrev := h.gain, ceil := ceil
    enable := (List.range 4).map (fun k => fadeLevel (c.b 0x7003 (k + 1)) (nth h.enable k 0) 31)
    clips := add32 h.clips clips, clip := h.clip || decide (0 < clips)
    pre := b.map (·.2)
    out := (List.range 6).map (fun k => ((nth streams k []).reverse ++ nth h.out k []).take 256)
    top := 32 * (j.n : Int) + 31
    taps := (List.range 8).map (fun k => ((tap (c.u 0x7005 (k + 1))).reverse ++ nth h.taps k []).take 128)
    ifs := (List.range 2).map (fun m =>
      let v := c.f 0x7003 (5 + m)
      let l := nth h.ifs m []
      (((l.headD (v, v)).2, v) :: l).take 8)
    completed := inc32 h.completed }

/-- A send tap's sample at a Hearth sample number; past the newest, the newest. -/
def HearthState.tapAt (h : HearthState) (k : Nat) (i : Int) : Int := nth (nth h.taps k []) (h.top - i).toNat 0

/-- A recipe applies: its data memory is initialised from the image (R173). -/
def HearthState.initRecipe (c : Store) (h : HearthState) : HearthState := { h with recipeSt := 1, mem := recipeMem (imageWords (c.blob (objKey 0xC500 1))) }

/-- A block that was not complete (R186): the oldest block that waits is replaced by a linear fade from the last sample delivered to zero. -/
def HearthState.overrunBlock (h : HearthState) : HearthState :=
  let fade (l : List Int) : List Int := let x := l.headD 0; (List.range 32).map (fun i => scale28 x i 32)
  let h : HearthState := { h with overruns := inc32 h.overruns, overrun := true }
  match h.jobs with
  | [] => h
  | j :: l =>
    let h : HearthState := if j.newRecipe then h.initRecipe j.cfg else h
    { h with
      jobs := l, top := 32 * (j.n : Int) + 31
      out := h.out.map (fun x => (fade x ++ x).take 256), taps := h.taps.map (fun x => (fade x ++ x).take 128)
      ifs := h.ifs.map (fun x => (((x.headD (0, 0)).2, (x.headD (0, 0)).2) :: x).take 8) }

/-- The next boundary of the grid (R165): its number, cairn and step. -/
def HearthState.nextBlock (now : Nat) (h : HearthState) : HearthState :=
  let h : HearthState := { h with cairnPrev := h.cairn, deltaPrev := h.delta }
  if !h.grid then { h with grid := true, n := 0, cairn := now, jobs := [] }
  else
    let d : Rat := (((now - h.cairn) * 2048 : Nat) : Rat)
    { h with n := h.n + 1, delta := ((d + 1/2).floor : Rat) / 65536, cairn := now }

/-- Hearth status (Table 8-6). -/
def HearthState.status (c : Store) (h : HearthState) : Nat :=
  let on (k : Nat) := c.b 0x7003 (k + 1)
  let lvl (k : Nat) := nth h.enable k 0
  2 ^ 16 * ofBits ((List.range 4).map (fun k => on k && lvl k == 480))
    + 2 ^ 12 * ofBits ((List.range 4).map (fun k => if on k then lvl k != 480 else lvl k != 0))
    + 2 ^ 8 * ofBits (h.gain.map (fun g => decide (g < 1)))
    + 32 * b2n h.recipeFault + 16 * b2n (h.recipeSt == 1) + 8 * b2n h.alignShift + 4 * b2n h.overrun + 2 * b2n h.clip
    + b2n h.running

end Sys2Proof.Machine
end

