-- ==== Sys2Proof/Machine/TypesLoad.lean ====
section
/-! DEFINITION. State of the coil and cone models of M0, M1, SPK0 and SPK1 (chapter 10). -/

namespace Sys2Proof.Machine

/-- The state of a second-order low-pass filter (R204). -/
structure LowPass where
  x1 : Rat := 0
  x2 : Rat := 0
  y1 : Rat := 0
  y2 : Rat := 0
  time : Nat := 0
  deriving DecidableEq, Repr

/-- One load's models. sqSum and sqN hold the sums of squared currents since the latest step and the count of results; altSum and altN
the same of the voltage that R214 falls back on; x1 to y2 are the cone biquad's delay elements; idSum and idN sum a machine's measured d current since the latest block
boundary, and idMean is its mean over the block before (R210). lowI and lowV are a speaker's two tracking filters, each two inputs and two outputs back,
with the counter value of the latest sample; trackVi, trackIi and trackN the sums of v_f i_f and i_f² and their count since trackFrom (R204). -/
structure LoadModel where
  running : Bool := false
  t1 : Rat := 0
  t2 : Rat := 0
  tRef : Rat := 0
  loss : Rat := 0
  estimate : Nat := 0
  lastTrack : Nat := 0
  sqSum : List Rat := [0, 0, 0, 0, 0, 0]
  sqN : Nat := 0
  altSum : Rat := 0
  altN : Nat := 0
  gCoil : Rat := 1
  fTh : Rat := 1
  x1 : Rat := 0
  x2 : Rat := 0
  y1 : Rat := 0
  y2 : Rat := 0
  holdLeft : Nat := 0
  gPrev : Rat := 1
  coneGain : Rat := 1
  dPeak : Rat := 0
  aPeak : Rat := 0
  attacks : Nat := 0
  overshoots : Nat := 0
  overshoot : Bool := false
  trackReject : Bool := false
  trackOff : Bool := false
  sensorLost : Bool := false
  refLost : Bool := false
  senseLost : Bool := false
  idSum : Rat := 0
  idN : Nat := 0
  idMean : Rat := 0
  lowI : LowPass := {}
  lowV : LowPass := {}
  trackVi : Rat := 0
  trackIi : Rat := 0
  trackN : Nat := 0
  trackFrom : Nat := 0
  deriving DecidableEq, Repr

end Sys2Proof.Machine
end

