-- ==== Sys2Proof/Machine/LoadModels.lean ====
section
/-! DEFINITION. The coil and cone models (chapter 10). A load is 0 to 3: M0, M1, SPK0, SPK1. -/

namespace Sys2Proof.Machine

/-- A model value: 32 fractional bits (log 41). -/
def q32 (x : Rat) : Rat := quant 64 32 x

/-- Whether a load is a machine. -/
def loadMachine (l : Nat) : Bool := decide (l < 2)

/-- R(T) = R_0 (1 + α (T − T_0)). -/
def coilR (c : Store) (l : Nat) (t : Rat) : Rat :=
  c.f (0x8010 + l) 4 * (1 + c.f (0x8010 + l) 6 * (t - c.f (0x8010 + l) 5))

/-- The exact step of the two-node network over 1 ms (R202). -/
def coilNetwork (c : Store) (l : Nat) (p tRef t1 t2 : Rat) : Rat × Rat :=
  let o := 0x8010 + l
  let r12 := c.f o 9
  let r2a := c.f o 0xA
  let beta : Rat := mkRat (c.u o 0xB) 1000
  let a := 1 / (c.f o 7 * r12)
  let b := 1 / (c.f o 8 * r12)
  let d := 1 / (c.f o 8 * r2a)
  let e2 := tRef + r2a * p
  let e1 := e2 + r12 * (1 - beta) * p
  let s := -(a + b + d) / 2
  let q := sqrtR (s * s - a * d)
  let dt : Rat := 1 / 1000
  let up := expR ((s + q) * dt)
  let dn := expR ((s - q) * dt)
  let ch := (up + dn) / 2
  let sh := if q = 0 then dt * up else (up - dn) / 2 / q
  let u := t1 - e1
  let v := t2 - e2
  (e1 + ch * u + sh * ((-a - s) * u + a * v), e2 + ch * v + sh * (b * u + (-(b + d) - s) * v))

/-- The reference temperature in use, and whether REF_LOST is set (R205): slot is the named slot's value where it is configured and
valid. -/
def loadRef (c : Store) (l : Nat) (slot : Option Rat) : Rat × Bool :=
  match slot with
  | some t => (t, false)
  | none => (c.f (0x8010 + l) 2, true)

/-- g_coil of R208. -/
def coilGain (c : Store) (l : Nat) (t1 t2 : Rat) : Rat :=
  let g (k : Nat) (t : Rat) : Rat :=
    let s1 := c.pf (0x8410 + l) k
    let s2 := c.pf (0x8410 + l) (k + 1)
    if s2 ≤ s1 then (if t < s2 then 1 else 0) else clampR 0 1 ((s2 - t) / (s2 - s1))
  minR (g 1 t1) (g 5 t2)

/-- f_th of R209; 1 for a speaker. -/
def thermalFactor (c : Store) (l : Nat) (t1 t2 : Rat) : Rat :=
  if !loadMachine l then 1 else
  let fl : Rat := mkRat (c.pv (0x8010 + l) 0x10) 1000
  let f (k : Nat) (t : Rat) : Rat :=
    let d1 := c.pf (0x8410 + l) k
    let d2 := c.pf (0x8410 + l) (k + 1)
    1 - (1 - fl) * (if d2 ≤ d1 then (if t < d1 then 0 else 1) else clampR 0 1 ((t - d1) / (d2 - d1)))
  minR (f 3 t1) (f 7 t2)

/-- One sample of a tracking filter (R204): a second-order section at the tracking corner, whose coefficients b0, b1, b2, a1 and a2 the spec does not
give (log 129). -/
def LowPass.take (corner : Rat) (t : Nat) (x : Rat) (f : LowPass) : LowPass :=
  let k := Config.trackingFilter corner (t - f.time)
  let y := nth k 0 0 * x + nth k 1 0 * f.x1 + nth k 2 0 * f.x2 - nth k 3 0 * f.y1 - nth k 4 0 * f.y2
  { x1 := x, x2 := f.x1, y1 := q32 y, y2 := f.y1, time := t }

namespace LoadModel

/-- The loss of the step (R203, R214). -/
def stepLoss (c : Store) (l : Nat) (x : LoadModel) : Rat :=
  let r := coilR c l x.t1
  if x.senseLost then (if x.altN = 0 ∨ r = 0 then 0 else x.altSum / (x.altN : Rat) / r)
  else if x.sqN = 0 then 0 else r * sumR x.sqSum / (x.sqN : Rat)

/-- The start at READY (R206): ts is the node 2 sensor's value where one is configured and valid. -/
def start (c : Store) (l : Nat) (slot ts : Option Rat) (now : Nat) (x : LoadModel) : LoadModel :=
  let (tr, lost) := loadRef c l slot
  let off := c.f (0x8010 + l) 3
  let t2 := ts.getD (tr + off)
  { attacks := x.attacks, overshoots := x.overshoots, overshoot := x.overshoot, trackReject := x.trackReject,
    running := true, t1 := t2 + off, t2 := t2, tRef := tr, refLost := lost, lastTrack := now, trackFrom := now
    gCoil := coilGain c l (t2 + off) t2, fTh := thermalFactor c l (t2 + off) t2 }

/-- One 1 ms step (R202, R203, R205, R208, R209). slot and ts are the reference and node 2 sensor slots' values where configured and
valid; sensorSet says that a node 2 sensor is configured. -/
def step (c : Store) (l : Nat) (slot ts : Option Rat) (sensorSet : Bool) (now : Nat) (x : LoadModel) : LoadModel :=
  if !x.running then x else
  let p := x.stepLoss c l
  let (tr, lost) := loadRef c l slot
  let (a, b) := coilNetwork c l p tr x.t1 x.t2
  let b := match ts with
    | some t => b + mkRat (c.u (0x8010 + l) 0x13) 1000 * (t - b)
    | none => b
  let t1 := q32 a
  let t2 := q32 b
  { x with
    t1 := t1, t2 := t2, tRef := tr, loss := q32 p, refLost := lost, sensorLost := sensorSet && ts.isNone
    sqSum := [0, 0, 0, 0, 0, 0], sqN := 0, altSum := 0, altN := 0
    trackOff := decide (x.lastTrack + 2000000000 ≤ now)
    gCoil := q32 (coilGain c l t1 t2), fTh := q32 (thermalFactor c l t1 t2) }

/-- A speaker's current sample through its tracking filter (R204). -/
def trackCurrent (c : Store) (l t : Nat) (i : Rat) (x : LoadModel) : LoadModel :=
  if x.running then { x with lowI := x.lowI.take (c.f (0x8010 + l) 0x14) t i } else x

/-- A speaker's voltage sample through its tracking filter, and the sums of the two filters' outputs (R204). -/
def trackVoltage (c : Store) (l t : Nat) (v : Rat) (x : LoadModel) : LoadModel :=
  if !x.running then x else
  let f := x.lowV.take (c.f (0x8010 + l) 0x14) t v
  { x with lowV := f, trackVi := x.trackVi + f.y1 * x.lowI.y1, trackIi := x.trackIi + x.lowI.y1 * x.lowI.y1, trackN := x.trackN + 1 }

/-- The sums start anew at a time. -/
def trackAnew (now : Nat) (x : LoadModel) : LoadModel := { x with trackVi := 0, trackIi := 0, trackN := 0, trackFrom := now }

/-- A valid resistance estimate (R204). -/
def track (c : Store) (l now : Nat) (rm : Rat) (x : LoadModel) : LoadModel :=
  if !x.running then x else
  let r0 := c.f (0x8010 + l) 4
  let tr := c.f (0x8010 + l) 5 + (rm / r0 - 1) / c.f (0x8010 + l) 6
  let x := { x with estimate := f32OfRat rm, lastTrack := now, trackOff := false }
  if absR (tr - x.t1) ≤ 40 then { x with t1 := q32 (x.t1 + mkRat (c.u (0x8010 + l) 0x12) 1000 * (tr - x.t1)) }
  else { x with trackReject := true }

/-- Squared phase currents of one update of a machine (R203). -/
def addCurrents (i : List Rat) (x : LoadModel) : LoadModel :=
  if !x.running then x else
  { x with sqSum := (List.range 6).map (fun k => q32 (nth x.sqSum k 0 + nth i k 0 * nth i k 0)), sqN := x.sqN + 1 }

end LoadModel

/-! ### The cone model (R210 to R212) -/

/-- The delay elements of a cone biquad. -/
structure ConeSt where
  x1 : Rat := 0
  x2 : Rat := 0
  y1 : Rat := 0
  y2 : Rat := 0
  deriving DecidableEq, Repr

/-- One sample: the response of H, then displacement K y and its second difference in m/s² (R211). -/
def coneStep (k : List Rat) (gain : Rat) (s : ConeSt) (u : Rat) : ConeSt × (Rat × Rat) :=
  let y := nth k 0 0 * u + nth k 1 0 * s.x1 + nth k 2 0 * s.x2 - nth k 3 0 * s.y1 - nth k 4 0 * s.y2
  let a := gain * (y - 2 * s.y1 + s.y2) * 48000 * 48000 / 1000000
  (⟨u, s.x1, y, s.y1⟩, (gain * y, a))

/-- A block of samples. -/
def coneRun (k : List Rat) (gain : Rat) (s : ConeSt) (u : List Rat) : ConeSt × List (Rat × Rat) :=
  u.foldl (fun a x => let r := coneStep k gain a.1 x; (r.1, a.2 ++ [r.2])) (s, [])

/-- The bound on the gain while the samples are scanned: b absent is +∞, lo absent is +∞. -/
structure ConeBound where
  b : Option Rat := none
  lo : Option Rat := some 0
  deriving DecidableEq, Repr

/-- One sample of one output (R212). -/
def ConeBound.take (y c w2 : Rat) (x : ConeBound) : ConeBound :=
  let mn (v : Rat) : Option Rat := some (match x.b with | none => v | some b => minR b v)
  let mx (v : Rat) : Option Rat := x.lo.map (maxR v)
  if 0 < w2 then ⟨mn ((y - c) / w2), mx ((-y - c) / w2)⟩
  else if w2 < 0 then ⟨mn ((-y - c) / w2), mx ((y - c) / w2)⟩
  else if y < absR c then { x with lo := none }
  else x

/-- The cone coefficients b0, b1, b2, a1, a2 in force. -/
def coneCoef (c : Store) (l : Nat) : List Rat := (List.range 5).map (fun j => ofQ 29 (c.i 32 (0x8420 + l) (j + 1)))

/-- g_sense of R214. -/
def senseGain (c : Store) (l : Nat) (x : LoadModel) : Rat :=
  if !x.senseLost then 1 else
  let g := c.i 16 (0x8010 + l) 0x16
  if g ≤ -1000 then 0 else dbGain (mkRat g 10)

/-- R212: the bounds on the gain of one load and block, from its 32 inputs u: the least upper and the greatest lower bound of every sample's
excursion and acceleration. -/
def coneBounds (c : Store) (l : Nat) (u : List Rat) (x : LoadModel) : ConeBound :=
  let gain := c.f (0x8020 + l) 3
  let k := coneCoef c l
  let st : ConeSt := ⟨x.x1, x.x2, x.y1, x.y2⟩
  let r (i : Nat) : Rat := mkRat (i + 1) 32
  let z := (coneRun k gain st (List.replicate 32 0)).2
  let w1 := (coneRun k gain {} (u.mapIdx (fun i v => v * (1 - r i)))).2
  let w2 := (coneRun k gain {} (u.mapIdx (fun i v => v * r i))).2
  let scan (y : Rat) (f : Rat × Rat → Rat) (b : ConeBound) : ConeBound :=
    if y ≤ 0 ∨ gain = 0 then b else
    (List.range 32).foldl (fun b i =>
      b.take y (f (nth z i (0, 0)) + x.gPrev * f (nth w1 i (0, 0))) (f (nth w2 i (0, 0)))) b
  scan (c.f (0x8020 + l) 5) (·.2) (scan (c.f (0x8020 + l) 4) (·.1) {})

/-- R212 for one load and block: u lists the 32 inputs before the limiter. Answers the model, whose gPrev is the new gain. -/
def coneLimit (c : Store) (l : Nat) (u : List Rat) (x : LoadModel) : LoadModel :=
  let rel : Rat := mkRat (c.u (0x8020 + l) 6) 1000
  let hold : Nat := (c.u (0x8020 + l) 7 * 3 + 1) / 2
  let cap0 : Rat := if 0 < x.holdLeft then x.gPrev else x.gPrev + 32 / (48000 * rel)
  let cap : Rat := minR (minR 1 cap0) (minR x.gCoil (senseGain c l x))
  let b : ConeBound := coneBounds c l u x
  let top : Rat := match b.b with | none => cap | some v => minR cap v
  let ok : Bool := match b.lo with | none => false | some v => decide (v ≤ top)
  let g : Rat := if ok then q32 top else 0
  let attack : Bool := match b.b with | none => false | some v => decide (v < cap)
  let out := coneRun (coneCoef c l) (c.f (0x8020 + l) 3) ⟨x.x1, x.x2, x.y1, x.y2⟩
    (u.mapIdx (fun i v => v * (x.gPrev + (g - x.gPrev) * mkRat (i + 1) 32)))
  let pk (f : Rat × Rat → Rat) : Rat := (out.2.map (fun p => absR (f p))).foldl maxR 0
  { x with
    x1 := q32 out.1.x1, x2 := q32 out.1.x2, y1 := q32 out.1.y1, y2 := q32 out.1.y2
    gPrev := g, coneGain := (match b.b with | none => 1 | some v => minR 1 v)
    holdLeft := if attack then hold else x.holdLeft - 1
    attacks := if attack then inc32 x.attacks else x.attacks
    overshoots := if ok then x.overshoots else inc32 x.overshoots, overshoot := x.overshoot || !ok
    dPeak := f32R (pk (·.1)), aPeak := f32R (pk (·.2)) }

/-- A fraction as thousandths, 0 to 1000. -/
def milli (x : Rat) : Nat := (clampI 0 1000 (roundAway (x * 1000))).toNat

/-- Model status (Table 10-4). -/
def LoadModel.status (l : Nat) (x : LoadModel) : Nat :=
  1024 * b2n x.overshoot + 512 * b2n x.trackReject + 256 * b2n x.trackOff + 128 * b2n x.sensorLost + 64 * b2n x.refLost
    + 32 * b2n x.senseLost + 16 * b2n (loadMachine l && decide (x.fTh < 1)) + 8 * b2n (decide (0 < x.holdLeft))
    + 4 * b2n (decide (x.coneGain < 1)) + 2 * b2n (decide (x.gCoil < 1)) + b2n x.running

end Sys2Proof.Machine
end

