-- ==== Sys2Proof/Machine/TypesDiag.lean ====
section
/-! DEFINITION. State of the tap-test engine, the passive monitors, the test signal and the capture (chapter 11). -/

namespace Sys2Proof.Machine

/-- One step of a tap test: its code (Table 11-6, STEP) and index within the code; kind 0 check, 1 d-axis level, 2 tone, 3 spin; axis 0 d, 1 q,
2 phase idx; frequency; multiple of the tap amplitude; blocks to settle and to average; blocks of the ramp that follows. -/
structure TapStep where
  code : Nat := 0
  idx : Nat := 0
  kind : Nat := 0
  axis : Nat := 0
  freq : Rat := 0
  mult : Int := 1
  settle : Nat := 0
  avg : Nat := 1
  tail : Nat := 0
  deriving DecidableEq, Repr

/-- What a finished step measured: its code and index, the voltage and current values averaged, half the difference of the two stars' currents along the
step's axis, and whether it passed. -/
structure TapResult where
  code : Nat := 0
  idx : Nat := 0
  v : Cx := {}
  i : Cx := {}
  x : Cx := {}
  pass : Bool := false
  deriving DecidableEq, Repr

/-- Results of a machine (0x8050, 0x8051); rsHeld is the Rs of the latest STANDSTILL that passed (R225). -/
structure MachResult where
  status : Nat := 0
  rs : Nat := 0
  rsHeld : Option Nat := none
  ld : Nat := 0
  lq : Nat := 0
  psi : Nat := 0
  temp : Nat := 0
  time : Nat := 0
  r : List Nat := [0, 0, 0, 0, 0, 0]
  l : List Nat := [0, 0, 0, 0, 0, 0]
  rImb : Nat := 0
  lImb : Nat := 0
  deriving DecidableEq, Repr

/-- Results of a speaker (0x8052, 0x8053). -/
structure SpkResult where
  status : Nat := 0
  re : Nat := 0
  le : Nat := 0
  fs : Nat := 0
  q : Nat := 0
  qms : Nat := 0
  qes : Nat := 0
  res : Nat := 0
  temp : Nat := 0
  time : Nat := 0
  deriving DecidableEq, Repr

/-- The tap-test engine (R217 to R228). kinds holds bits 7 to 4 of the request; sumV, sumI, sumX the running block's sums of voltage, current and half
the stars' current difference, n and nI their numbers of voltage and current samples; vs, is_ and xs the block values of the step; stopAt the counter value
at which the latest test ended, and fade the blocks of its 32-sample fade left; held marks the machines whose outputs the engine holds up to the next Trough
after its end (R219); queue the requests that wait for a block boundary, with the time of each (from 65536 on: an identification of PROOFING). -/
structure TapState where
  running : Bool := false
  load : Nat := 0
  kinds : Nat := 0
  cur : TapStep := {}
  plan : List TapStep := []
  blocks : Nat := 0
  sumV : Cx := {}
  sumI : Cx := {}
  sumX : Cx := {}
  n : Nat := 0
  nI : Nat := 0
  vs : List Cx := []
  is_ : List Cx := []
  xs : List Cx := []
  satSeen : Bool := false
  posOk : Bool := false
  angle : Rat := 0
  atSpeed : Bool := false
  openBits : Nat := 0
  results : List TapResult := []
  result : Nat := 0
  aborted : Bool := false
  done : Bool := false
  fade : Nat := 0
  stopAt : Nat := 0
  completed : Nat := 0
  abortedCount : Nat := 0
  held : List Bool := [false, false]
  queue : List (Nat × Nat) := []
  mach : List MachResult := [{}, {}]
  spk : List SpkResult := [{}, {}]
  sweep : List (List Nat) := List.replicate 4 (List.replicate 64 0)
  deriving DecidableEq, Repr

/-- The drift window of a machine (R229) and its imbalance window (R230): sums since the window began, whether every update was valid,
and the consecutive windows above and below the limit. -/
structure PassiveMon where
  ok : Bool := true
  n : Nat := 0
  sumV : Rat := 0
  sumId : Rat := 0
  speeds : List Rat := []
  valid : Nat := 0
  imbN : Nat := 0
  imbSq : List Rat := [0, 0, 0, 0, 0, 0]
  imbalance : Nat := 0
  above : Nat := 0
  below : Nat := 0
  imbal : Bool := false
  deriving DecidableEq, Repr

/-- One order monitor (R232). -/
structure OrderMon where
  def_ : Nat := 0
  phase : Rat := 0
  amp : Rat := 0
  above : Nat := 0
  below : Nat := 0
  alert : Bool := false
  invalid : Bool := false
  deriving DecidableEq, Repr

/-- The test signal (R233): a start waits for its Trough (due: the frame number, or the time of the request, whose first Trough starts it), a stop
for the next one (dueStop);
endCause is the code of 0xE010.0A. -/
structure TestSignal where
  running : Bool := false
  dueFn : Option Nat := none
  dueTime : Option Nat := none
  dueStop : Option Nat := none
  target : Nat := 0
  wave : Nat := 0
  amp : Rat := 0
  startFn : Nat := 0
  startTime : Nat := 0
  lfsr : Nat := 1
  updates : Nat := 0
  mode : Nat := 0
  value : Rat := 0
  endCause : Nat := 0
  deriving DecidableEq, Repr

/-- The capture (R234, R235): records are lists of words, oldest first; pre counts the pretrigger records held, after those taken since
the trigger; request is a start (1), stop (2) or discard (3) waiting
for the next M0 Trough, with its time; tripSeen and testSeen mark a first trip latch and a
test-signal start since the latest record; lostAll counts the records dropped since BOOT (R345). -/
structure Capture where
  running : Bool := false
  triggered : Bool := false
  full : Bool := false
  drop : Bool := false
  request : Option (Nat × Nat) := none
  records : List (List Nat) := []
  after : Nat := 0
  dropped : Nat := 0
  lostAll : Nat := 0
  tick : Nat := 0
  prev : Option Rat := none
  tripSeen : Bool := false
  testSeen : Bool := false
  deriving DecidableEq, Repr

/-- Load diagnosis. -/
structure DiagState where
  tap : TapState := {}
  mon : List PassiveMon := [{}, {}]
  orders : List OrderMon := List.replicate 16 {}
  sig : TestSignal := {}
  cap : Capture := {}
  deriving DecidableEq, Repr

end Sys2Proof.Machine
end

