-- ==== Sys2Proof/Machine/Diag.lean ====
section
/-! DEFINITION. Load diagnosis: the tap-test engine, the passive monitors, the test signal and the capture (chapter 11). -/

namespace Sys2Proof.Machine

/-! ### The tap-test plan (Table 11-2) -/

/-- A tone step: 8 blocks to settle, 32 to average (R222). -/
def toneStep (code idx axis : Nat) (f : Rat) : TapStep := { code := code, idx := idx, kind := 2, axis := axis, freq := f, settle := 8, avg := 32 }

/-- The tones of a load (0x8041 to 0x8044). -/
def toneSet (c : Store) (l : Nat) : List Rat := (List.range (c.u (0x8041 + l) 1)).map (fun j => c.f (0x8041 + l) (j + 2))

/-- The steps of a request: kinds holds its bits 7 to 4 (SPIN, SWEEP, STANDSTILL, PHASE) as bits 3 to 0. -/
def tapPlan (c : Store) (l kinds : Nat) : List TapStep :=
  let fl := c.f 0x8040 6
  if 2 ≤ l then (toneSet c l).mapIdx (fun j f => toneStep 0x0F j 0 f) else
  let still := bit kinds 1
  let phase := bit kinds 0
  (if still || phase then [{ code := 1, avg := 1 }] else [])
    ++ (if still then
          [{ code := 2, kind := 1, settle := 16, avg := 64 }, { code := 3, kind := 1, mult := 2, settle := 16, avg := 64, tail := 16 },
           toneStep 4 0 0 fl, toneStep 5 0 1 fl] else [])
    ++ (if phase then (List.range (if phaseCount c l = 6 then 6 else 3)).map (fun x => toneStep (6 + x) x 2 fl) else [])
    ++ (if bit kinds 2 then (toneSet c l).mapIdx (fun j f => toneStep 0x0C j 0 f) else [])
    ++ (if bit kinds 3 then
          [{ code := 0x0D, kind := 3, avg := 1500 }, { code := 0x0E, kind := 3, mult := -1, avg := 1500 }] else [])

/-- The blocks of a step. -/
def TapStep.total (s : TapStep) : Nat := s.settle + s.avg + s.tail

/-- The axis of phase x of a machine, in turns: 0, 1/3 or 2/3 per star, the second star shifted by the star displacement (R158). -/
def phaseAxis (c : Store) (m x : Nat) : Rat :=
  mkRat (x % 3) 3 + (if 3 ≤ x then (c.u (0x3010 + 0x1000 * m) 2 : Rat) * 30 / 360 else 0)

namespace TapState

/-- Begin the next step of the plan. -/
def nextStep (t : TapState) : TapState :=
  match t.plan with
  | [] => t
  | s :: l => { t with cur := s, plan := l, blocks := 0, sumV := {}, sumI := {}, sumX := {}, n := 0, nI := 0, vs := [], is_ := [], xs := [], satSeen := false, atSpeed := false }

/-- Start a test; posOk says that the d axis is known (step 1 of a standstill test judges it again). -/
def start (c : Store) (l kinds : Nat) (posOk : Bool) (t : TapState) : TapState :=
  { t with
    running := true, load := l, kinds := kinds, plan := tapPlan c l kinds, results := [], openBits := 0, result := 0, posOk := posOk,
    fade := 0 }.nextStep

/-- The axis angle of the current step in the lanes' d-q frame, in turns: 0 for d, a quarter for q, the phase axis less θ_e for a phase. Without
a valid position, the axis of the first half-bridge stands for the d axis (Table 11-2). -/
def stepAngle (c : Store) (theta : Rat) (t : TapState) : Rat :=
  if t.cur.axis = 1 then 1/4 else if t.cur.axis = 2 then phaseAxis c t.load t.cur.idx - theta else if t.posOk then 0 else -theta

/-- The star that the current step drives alone: 1 or 2 in a phase's step of a six-phase machine, 0 where it drives them alike (R223). -/
def star (c : Store) (t : TapState) : Nat := if t.cur.axis = 2 ∧ phaseCount c t.load = 6 then t.cur.idx / 3 + 1 else 0

/-- The fade over 32 samples after a test's end (R219, R221). -/
def fadeFactor (time : Nat) (t : TapState) : Rat :=
  if t.running then 1 else if t.fade = 0 then 0 else maxR 0 (1 - mkRat ((time : Int) - t.stopAt) 133333)

/-- Whether the engine's output into a load is not over. -/
def drives (l : Nat) (t : TapState) : Bool := (t.running || decide (0 < t.fade)) && t.load == l

/-- The reference that the engine drives into a machine, or into the one star that the step names, for an update at time t_u: (i_d*, i_q*) in per unit
(R219, R222). amp is A_M; fade-outs and the ramp of step 3 are linear over their blocks. -/
def machineRef (c : Store) (amp theta : Rat) (tu : Nat) (t : TapState) : Rat × Rat :=
  let s := t.cur
  let amp := amp * t.fadeFactor tu
  let lvl : Rat :=
    if s.kind = 1 then
      if t.blocks < s.settle + s.avg then amp * (s.mult : Rat)
      else amp * (s.mult : Rat) * mkRat (s.total - t.blocks) (max 1 s.tail)
    else if s.kind = 2 then amp * cosTurn (s.freq * (tu : Rat) / 200000000)
    else 0
  let cs := cosSinTurn (t.stepAngle c theta)
  (lvl * cs.1, lvl * cs.2)

/-- What a sample with a time stamp contributes to a block's sum (R222): demodulated in a tone, as it is in a step. -/
def weigh (time : Nat) (v : Rat) (t : TapState) : Cx :=
  if t.cur.kind = 2 then (Cx.cexp (-(t.cur.freq * (time : Rat) / 200000000))).smul (2 * v) else ⟨v, 0⟩

/-- One voltage sample of the running step (R222). -/
def sampleV (time : Nat) (v : Rat) (t : TapState) : TapState :=
  if !t.running then t else { t with sumV := t.sumV.add (t.weigh time v), n := t.n + 1 }

/-- One current sample of the running step (R222), with half the difference of the stars' currents. -/
def sampleI (time : Nat) (i x : Rat) (t : TapState) : TapState :=
  if !t.running then t else { t with sumI := t.sumI.add (t.weigh time i), sumX := t.sumX.add (t.weigh time x), nI := t.nI + 1 }

/-- A block boundary of the engine: the block's values are formed while the step averages. -/
def boundary (t : TapState) : TapState :=
  if !t.running then { t with fade := t.fade - 1, cur := if t.fade ≤ 1 then {} else t.cur } else
  let take := decide (t.cur.settle ≤ t.blocks ∧ t.blocks < t.cur.settle + t.cur.avg) && (t.cur.kind != 3 || t.atSpeed)
  let d : Rat := 1 / (max 1 t.n : Nat)
  let e : Rat := 1 / (max 1 t.nI : Nat)
  let add (l : List Cx) (v : Cx) : List Cx := if take then l ++ [Cx.f32 v] else l
  { t with
    vs := add t.vs (t.sumV.smul d), is_ := add t.is_ (t.sumI.smul e), xs := add t.xs (t.sumX.smul e)
    sumV := {}, sumI := {}, sumX := {}, n := 0, nI := 0, blocks := min 20000 (t.blocks + 1) }

/-- The 20 dB test on a list of block values (R222). -/
def tonePass (l : List Cx) : Bool := (pointResult l).2

/-- The result of the current step. -/
def measured (t : TapState) : TapResult :=
  let v := (pointResult t.vs).1
  let i := (pointResult t.is_).1
  { code := t.cur.code, idx := t.cur.idx, v := v, i := i, x := (pointResult t.xs).1
    pass := if t.cur.kind = 2 then tonePass t.vs && tonePass t.is_ && i.sq != 0 else true }

/-- A step's result by code and index. -/
def get (t : TapState) (code idx : Nat) : Option TapResult := t.results.find? (fun r => r.code == code && r.idx == idx)

/-- Z of a passing result. -/
def impedance (t : TapState) (code idx : Nat) : Option Cx :=
  match t.get code idx with
  | some r => if r.pass then some (r.v.div r.i) else none
  | none => none

end TapState

/-- 2π. -/
def twoPi : Rat := 2 * piR

/-! ### Machine results (R223 to R225) -/

/-- Per-phase impedances of a star from its three tones: Z_x = 2 M_x − (M_a + M_b + M_c) / 3 (R223). -/
def phaseImpedances (m : List Cx) : List Cx :=
  let s := (Cx.sum m).smul (1/3)
  m.map (fun x => (x.smul 2).sub s)

/-- The mean of a list. -/
def meanR (l : List Rat) : Rat := if l.isEmpty then 0 else sumR l / (l.length : Rat)

/-- The largest deviation from the mean, as a fraction of it. -/
def spreadOf (l : List Rat) : Rat :=
  let m := meanR l
  if m = 0 then 0 else (l.map (fun x => absR (x - m) / absR m)).foldl maxR 0

/-- A fraction in 0.1 %, saturated to 16 bits. -/
def permille (x : Rat) : Nat := (clampI 0 65535 (roundAway (x * 1000))).toNat

/-- The results a machine's test writes when it ends. temp is the temperature of R228 where one is available. -/
def machineResult (c : Store) (now : Nat) (temp : Option Rat) (t : TapState) (old : MachResult) : MachResult × Bool :=
  let l := t.load
  let fl := c.f 0x8040 6
  let lim : Rat := mkRat (c.u 0x8045 1) 1000
  let still := bit t.kinds 1 && t.posOk
  let rs : Option Rat := match t.get 2 0, t.get 3 0 with
    | some a, some b => if still && b.i.re != a.i.re then some ((b.v.re - a.v.re) / (b.i.re - a.i.re)) else none
    | _, _ => none
  let ld := if still then (t.impedance 4 0).map (fun z => z.im / (twoPi * fl)) else none
  let lq := if still then (t.impedance 5 0).map (fun z => z.im / (twoPi * fl)) else none
  let n := if phaseCount c l = 6 then 6 else 3
  let stars := if n = 6 then [0, 3] else [0]
  let star (s : Nat) : Option (List Cx) :=
    let m := [0, 1, 2].filterMap (fun x => t.impedance (6 + s + x) (s + x))
    if m.length = 3 then some (phaseImpedances m) else none
  let zs : List (Nat × Cx) := stars.flatMap (fun s => ((star s).getD []).mapIdx (fun x z => (s + x, z)))
  let phaseDone := bit t.kinds 0 && decide (zs.length = n)
  let short := zs.filter (fun z =>
    let peers := (zs.filter (fun y => y.1 / 3 == z.1 / 3)).map (fun y => y.2.abs)
    decide (z.2.abs < mkRat (c.u 0x8045 2) 1000 * meanR peers))
  let rI := (stars.map (fun s => spreadOf ((zs.filter (fun z => z.1 / 3 == s / 3)).map (fun z => z.2.re)))).foldl maxR 0
  -- Ld and Lq of this test, else of the latest that passed, else the parameters (log 130)
  let par (v : Option Rat) (held sub : Nat) : Rat := v.getD (if bit old.status 5 then f32ToRat held else c.f (0x3010 + 0x1000 * l) sub)
  let d := par ld old.ld 6
  let q := par lq old.lq 7
  let lI : Option Rat := if !t.posOk || !phaseDone || d + q = 0 then none else
    some ((zs.map (fun z =>
      let ex := (d + q) / 2 + (d - q) * cosTurn (2 * (t.angle - phaseAxis c l z.1))
      absR (z.2.im / (twoPi * fl) - ex) / ((d + q) / 2))).foldl maxR 0)
  let sweepOk := bit t.kinds 2 && t.results.any (fun r => r.code == 0x0C && r.pass)
  let psi : Option Rat := match t.get 0x0D 0, t.get 0x0E 0 with
    | some a, some b =>
      -- v carries (v_q, ω_e) and i carries (i_q, 0), averaged over each hold
      let r := match rs, old.rsHeld with
        | some r, _ => r
        | none, some w => f32ToRat w
        | none, none => c.f (0x3010 + 0x1000 * l) 5
      let w := (a.v.im - b.v.im) / 2
      if w = 0 then none else some (((a.v.re - r * a.i.re) - (b.v.re - r * b.i.re)) / (2 * w))
    | _, _ => none
  let rBad := phaseDone && decide (lim < rI)
  let lBad := match lI with | some x => decide (lim < x) | none => false
  let set (v : Option Rat) (k : Nat) : Nat := match v with | some x => f32OfRat x | none => k
  let ran := bit t.kinds 1
  let shortBits := ofBits ((List.range 6).map (fun k => short.any (fun z => z.1 == k)))
  let old4 (b : Nat) : Bool := bit old.status b
  let ph := bit t.kinds 0
  let st := (if ph then shortBits else bits old.status 25 20) * 2 ^ 20 + (if ph || ran then t.openBits else bits old.status 19 14) * 2 ^ 14
    + b2n (if ph then lBad else old4 9) * 512 + b2n (if ph then rBad else old4 8) * 256 + b2n temp.isSome * 128
    + b2n (if bit t.kinds 3 then psi.isSome else old4 6) * 64 + b2n (if ran then ld.isSome && lq.isSome else old4 5) * 32
    + b2n (if ran then rs.isSome else old4 4) * 16 + b2n (if ph then phaseDone else old4 3) * 8
    + b2n (if bit t.kinds 2 then sweepOk else old4 2) * 4
  ({ status := st, rs := set rs old.rs, rsHeld := match rs with | some x => some (f32OfRat x) | none => old.rsHeld, ld := set ld old.ld, lq := set lq old.lq, psi := set psi old.psi,
     temp := set temp old.temp, time := now,
     r := if phaseDone then (List.range 6).map (fun k => ((zs.find? (fun z => z.1 == k)).map (fun z => f32OfRat z.2.re)).getD 0) else old.r
     l := if phaseDone then (List.range 6).map (fun k =>
       ((zs.find? (fun z => z.1 == k)).map (fun z => f32OfRat (z.2.im / (twoPi * fl)))).getD 0) else old.l
     rImb := if phaseDone then permille rI else old.rImb, lImb := match lI with | some x => permille x | none => old.lImb },
   rBad || lBad || !short.isEmpty || decide (t.openBits ≠ 0))

/-! ### Speaker results (R226, R227) -/

/-- Linear interpolation in log f of the zero of g between consecutive tones where it turns from positive to not positive; answers the
frequency and the position between the tones. -/
def crossing (g : Rat × Cx → Rat) : List (Rat × Cx) → Option (Rat × Rat × (Rat × Cx) × (Rat × Cx))
  | a :: b :: l =>
    let x := g a
    let y := g b
    if 0 < x ∧ y ≤ 0 then
      let w := x / (x - y)
      some (expR (lnR a.1 + w * (lnR b.1 - lnR a.1)), w, a, b)
    else crossing g (b :: l)
  | _ => none

/-- The results of a speaker sweep. tones lists the passing tones (frequency, Z) in ascending order of frequency. -/
def speakerResult (c : Store) (now : Nat) (temp : Option Rat) (tones : List (Rat × Cx)) (old : SpkResult) : SpkResult × Bool :=
  let isOpen := tones.isEmpty || tones.all (fun t => decide (c.f 0x8045 3 < t.2.abs))
  let re := (tones.map (fun t => t.2.re)).foldl minR ((tones.headD (0, {})).2.re)
  let hi := tones.getLastD (1, {})
  let le := if hi.1 = 0 then 0 else hi.2.im / (twoPi * hi.1)
  let short := !tones.isEmpty && decide (re < c.f 0x8045 4)
  let zm := tones.map (fun t => (t.1, (⟨t.2.re - re, t.2.im - twoPi * t.1 * le⟩ : Cx)))
  let ang (x : Rat × Cx) : Rat := atan2R x.2.im x.2.re
  let fs := crossing (fun x => x.2.im) zm
  let tb : Nat := 128 * b2n temp.isSome
  let base : SpkResult := { old with temp := match temp with | some x => f32OfRat x | none => old.temp, time := now }
  match fs with
  | none =>
    ({ base with
        re := f32OfRat re, le := f32OfRat le,
        status := tb + 64 * b2n isOpen + 32 * b2n short + 8 * b2n (!isOpen && !short && !tones.isEmpty) + 4 * b2n (!tones.isEmpty) },
      isOpen || short)
  | some (f0, w, a, b) =>
    let res := a.2.re + w * (b.2.re - a.2.re)
    let f1 := crossing (fun x => ang x - piR / 4) (zm.filter (fun x => decide (x.1 ≤ b.1)))
    let f2 := crossing (fun x => ang x + piR / 4) (zm.filter (fun x => decide (a.1 ≤ x.1)))
    let ok := f1.isSome && f2.isSome && !isOpen && !short && decide (res ≠ 0)
    let bw := (f2.map (·.1)).getD 0 - (f1.map (·.1)).getD 0
    let qms := if bw = 0 then 0 else f0 / bw
    let qes := if res = 0 then 0 else qms * re / res
    let q := if qms + qes = 0 then 0 else qms * qes / (qms + qes)
    ({ base with
        re := f32OfRat re, le := f32OfRat le, fs := if ok then f32OfRat f0 else old.fs, q := if ok then f32OfRat q else old.q
        qms := if ok then f32OfRat qms else old.qms, qes := if ok then f32OfRat qes else old.qes
        res := if ok then f32OfRat res else old.res
        status := tb + 64 * b2n isOpen + 32 * b2n short + 16 * b2n ok + 8 * b2n (!isOpen && !short) + 4 },
      isOpen || short)

/-- The sweep impedances of a load (0x8060 to 0x8063): Re(Z) of tones 1 to 32, then Im(Z); NaN for a failed tone. -/
def sweepWords (code count : Nat) (t : TapState) : List Nat :=
  let z (j : Nat) : Option Cx := t.impedance code j
  let w (f : Cx → Rat) (j : Nat) : Nat := if count ≤ j then 0 else match z j with | some x => f32OfRat (f x) | none => F32op.qnan
  (List.range 32).map (w (·.re)) ++ (List.range 32).map (w (·.im))

namespace TapState

/-- An abort (R221): cause is the code of Table 11-6. -/
def abort (now cause : Nat) (t : TapState) : TapState :=
  if !t.running then t else
  { t with running := false, plan := [], aborted := true, result := cause, fade := 2, stopAt := now, abortedCount := inc32 t.abortedCount }

/-- The end of a test: its results are written (R221, R228). -/
def finish (c : Store) (now : Nat) (temp : Option Rat) (cause : Option Nat) (t : TapState) : TapState :=
  let l := t.load
  let (t, flagged) :=
    if l < 2 then
      let r := machineResult c now temp t (nth t.mach l {})
      ({ t with mach := upd t.mach l (fun _ => r.1) }, r.2)
    else
      let tones := (toneSet c l).mapIdx (fun j f => (t.impedance 0x0F j).map (fun z => (f, z)))
      let sorted := (sortAsc ((tones.filterMap id).map (·.1))).filterMap (fun f => (tones.filterMap id).find? (fun x => x.1 == f))
      let r := speakerResult c now temp sorted (nth t.spk (l - 2) {})
      ({ t with spk := upd t.spk (l - 2) (fun _ => r.1) }, r.2)
  let code := if l < 2 then 0x0C else 0x0F
  let t := if l < 2 ∧ bit t.kinds 2 = false then t else
    { t with sweep := upd t.sweep l (fun _ => sweepWords code (toneSet c l).length t) }
  let failed := t.results.any (fun r => !r.pass)
  { t with
    running := false, plan := [], done := true, fade := 2, stopAt := now, completed := inc32 t.completed
    result := cause.getD (if flagged then 2 else if failed then 3 else 1) }

/-- A machine's Trough (R219): the engine no longer holds the outputs of one that it has left. ident says that an identification on it is not over. -/
def trough (m : Nat) (ident : Bool) (t : TapState) : TapState :=
  if t.drives m || ident then t else { t with held := upd t.held m (fun _ => false) }

/-- The end of a step (R222 to R225). amp is the tap amplitude in the unit of the currents, still says that Crust's speed lies below the
standstill limit, posOk that the position source is valid, angle the electrical angle in turns, ceil the motor sound ceiling. -/
def stepDone (c : Store) (now : Nat) (amp : Rat) (still posOk : Bool) (angle : Rat) (ceil : Nat) (temp : Option Rat) (t : TapState) : TapState :=
  if !t.running then t else
  let s := t.cur
  if s.kind = 3 then
    if !t.atSpeed then (if 7500 ≤ t.blocks then t.finish c now temp (some 8) else t)
    else if t.vs.length < s.avg then t
    else
      let t := { t with results := t.results ++ [t.measured] }
      if t.plan.isEmpty then t.finish c now temp none else t.nextStep
  else if t.blocks < s.total then t
  else if s.kind = 0 then
    if !still then t.abort now 7
    else
      -- without a valid position steps 2 to 5 are skipped
      let t := { t with posOk := posOk, angle := angle, plan := if posOk then t.plan else t.plan.filter (fun x => decide (6 ≤ x.code)) }
      if t.plan.isEmpty then t.finish c now temp none else t.nextStep
  else
    let r := t.measured
    let high := decide (t.load < 2) && s.code == 0x0C && decide ((ceil : Rat) < s.freq)
    let r := { r with pass := r.pass && !high }
    -- OPEN (R224): the currents of the stars that the step drives, along a phase or along the d axis (log 130)
    let weak (i : Cx) : Bool := decide (i.abs < absR (amp * (s.mult : Rat)) / 10)
    let six := phaseCount c t.load == 6
    let stars : List (Nat × Nat) :=
      if 2 ≤ t.load || !t.satSeen || s.axis = 1 then []
      else if s.axis = 2 then (if weak r.i then [(s.idx / 3, 2 ^ s.idx)] else [])
      else (if weak (r.i.add r.x) then [(0, 7)] else []) ++ (if six && weak (r.i.sub r.x) then [(1, 56)] else [])
    let openBits := stars.foldl (fun b x => b ||| x.2) t.openBits
    let gone (k : Nat) : Bool := bits openBits (3 * k + 2) (3 * k) != 0
    let ended := gone 0 && (!six || gone 1)
    let t := { t with
      results := t.results ++ [r], openBits := openBits, angle := if s.axis = 2 then angle else t.angle
      plan := if stars.isEmpty then t.plan else t.plan.filter (fun x => if x.axis = 2 then !gone (x.idx / 3) else !ended || x.kind == 3) }
    if t.plan.isEmpty then t.finish c now temp none else t.nextStep

/-- Tap-test status (Table 11-6). -/
def status (queued : Bool) (ident : Bool) (t : TapState) : Nat :=
  t.load * 2 ^ 26 + (if t.running then t.cur.code else if ident then 0x10 else 0) * 2 ^ 16 + t.result * 256 + 8 * b2n queued + 4 * b2n t.aborted
    + 2 * b2n t.done + b2n t.running

end TapState

/-! ### Passive monitors (R229, R230) -/

/-- One update of a machine in RUN: the values that the monitors watch. -/
structure MonSample where
  id : Rat
  iq : Rat
  vd : Rat
  omega : Rat
  speed : Rat
  limited : Bool
  amps : List Rat
  deriving DecidableEq, Repr

/-- One update of the monitors of a machine (electrical speed in radians per second). -/
def PassiveMon.sample (c : Store) (m : Nat) (ib : Rat) (o : MonSample) (x : PassiveMon) : PassiveMon :=
  let ok := decide (mkRat (c.u 0x8070 2) 1000 * ib ≤ absR o.id) && decide (absR o.omega / twoPi ≤ c.f 0x8070 3) && !o.limited
  { x with
    ok := x.ok && ok, n := x.n + 1, sumV := q32 (x.sumV + o.vd + o.omega * c.f (0x3010 + 0x1000 * m) 7 * o.iq), sumId := q32 (x.sumId + o.id)
    speeds := match x.speeds with
      | [lo, hi, s] => [minR lo o.speed, maxR hi o.speed, q32 (s + o.speed)]
      | _ => [o.speed, o.speed, o.speed]
    imbN := x.imbN + 1, imbSq := (List.range 6).map (fun k => q32 (nth x.imbSq k 0 + nth o.amps k 0 * nth o.amps k 0)) }

/-- The end of a 100 ms drift window (R229): the monitor and, where the window is valid, its estimate. -/
def PassiveMon.driftEnd (c : Store) (m : Nat) (x : PassiveMon) : PassiveMon × Option Rat :=
  let steady := match x.speeds with
    | [lo, hi, s] => let mean := s / (max 1 x.n : Nat); decide (absR (hi - mean) ≤ absR mean / 50) && decide (absR (lo - mean) ≤ absR mean / 50)
    | _ => false
  let good := bit (c.u 0x8070 1) m && x.ok && decide (0 < x.n) && steady && decide (x.sumId ≠ 0)
  ({ x with ok := true, n := 0, sumV := 0, sumId := 0, speeds := [], valid := if good then inc32 x.valid else x.valid },
    if good then some (x.sumV / x.sumId) else none)

/-- The end of a 100 ms imbalance window (R230). -/
def PassiveMon.imbalanceEnd (c : Store) (n : Nat) (ib : Rat) (x : PassiveMon) : PassiveMon :=
  let rms := x.imbSq.map (fun s => sqrtR (s / (max 1 x.imbN : Nat)))
  let star (s : Nat) : Option Rat :=
    let l := (rms.drop s).take 3
    let mean := meanR l
    if mean < ib / 20 ∨ x.imbN = 0 then none
    else some (((l.foldl maxR (l.headD 0)) - (l.foldl minR (l.headD 0))) / mean)
  let vals := (if n = 6 then [0, 3] else [0]).filterMap star
  let x := { x with imbN := 0, imbSq := [0, 0, 0, 0, 0, 0] }
  match vals with
  | [] => x
  | v :: l =>
    let p := permille (l.foldl maxR v)
    let lim := c.u 0x8070 4
    let above := if lim < p then min 10 (x.above + 1) else 0
    let below := if p + 10 < lim then min 10 (x.below + 1) else 0
    { x with
      imbalance := p, above := above, below := below,
      imbal := if x.imbal then decide (below < 10) else decide (10 ≤ above) }

/-! ### Order monitors (R232) -/

/-- One block of an order monitor that ended: x is the machine's canceller at its end, which holds the angle law (R188); lost says that the monitor's
accelerometer is lost. -/
def OrderMon.boundary (c : Store) (k : Nat) (rpm : Rat) (x : Canceller) (rate : Nat) (lost : Bool) (blk : SensorBlock) (o : OrderMon) : OrderMon :=
  let d := c.u 0x8080 (k + 1)
  if !bit d 31 then { def_ := d } else
  let r := mkRat (bits d 15 0) 512
  let f := absR (r * rpm / 60)
  let bad := decide (f < 1) || decide (45/100 * (accRate rate : Rat) < f) || lost
  let ph := o.phase + r * sumR ((x.past.take 32).map (·.2))
  let e := demodulate [1] [blk] (fun t => ph + r * x.back t)
  let o := { o with def_ := d, phase := ph - (ph.floor : Rat), invalid := bad }
  if bad then o else
  let amp := f32R (o.amp + (e.abs - o.amp) / 256)
  let th : Rat := mkRat (c.u 0x8081 (k + 1)) 10000
  let above := if th < amp then min 1500 (o.above + 1) else 0
  let below := if amp < 8/10 * th then min 1500 (o.below + 1) else 0
  { o with amp := amp, above := above, below := below, alert := if o.alert then decide (below < 1500) else decide (1500 ≤ above) }

/-! ### Test signal (R233) -/

/-- One step of the 15-bit register with feedback x^15 + x^14 + 1. -/
def prbsStep (r : Nat) : Nat := (r * 2) % 2 ^ 15 + (b2n (r.testBit 14) + b2n (r.testBit 13)) % 2

/-- The value of a running signal at a time; t is in seconds from the start Trough. -/
def TestSignal.wave_ (c : Store) (t dur : Rat) (s : TestSignal) : Rat :=
  let f1 := c.f 0xE010 4
  let f2 := c.f 0xE010 5
  match s.wave with
  | 1 => s.amp
  | 2 => if (f1 * t - ((f1 * t).floor : Rat)) < 1/2 then s.amp else -s.amp
  | 3 => s.amp * sinTurn (f1 * t)
  | 4 => s.amp * sinTurn (f1 * t + (if dur = 0 then 0 else (f2 - f1) * t * t / (2 * dur)))
  | 5 => if bit s.lfsr 14 then s.amp else -s.amp
  | _ => 0

/-- The update of a running signal at an update instant of its machine: its value, and the register every bit length of updates. -/
def TestSignal.update (c : Store) (now : Nat) (dur : Rat) (s : TestSignal) : TestSignal :=
  if !s.running then s else
  let n := s.updates
  let len := c.u 0xE010 6
  let s := if s.wave = 5 ∧ 0 < n ∧ n % len = 0 then { s with lfsr := prbsStep s.lfsr } else s
  let t : Rat := ((now - s.startTime : Nat) : Rat) / 200000000
  { s with updates := n + 1, value := f32R (s.wave_ c t dur) }

/-- The end of a test signal: its value becomes 0 at once. -/
def TestSignal.stop (cause : Nat) (s : TestSignal) : TestSignal :=
  if s.running then { s with running := false, value := 0, endCause := cause, dueStop := none }
  else { s with dueFn := none, dueTime := none, dueStop := none }

/-- Whether a target agrees with a mode in use (R233). -/
def testModeOk (target mode : Nat) : Bool :=
  match target % 4 with
  | 0 => mode == 2 || mode == 3
  | 1 => mode == 3
  | _ => mode == 1 || mode == 2 || mode == 3 || mode == 5

/-- The start Trough. -/
def TestSignal.begin_ (c : Store) (fn now mode : Nat) : TestSignal :=
  { running := true, target := c.u 0xE010 1, wave := c.u 0xE010 2, amp := c.pf 0xE010 3, startFn := fn, startTime := now, mode := mode }

/-- Test-signal status (0xE010.0A). -/
def TestSignal.status (s : TestSignal) : Nat := b2n s.running + 2 * s.endCause

/-! ### Capture (R234, R235) -/

/-- The capacity for N signals. -/
def captureCapacity (n : Nat) : Nat := 65536 / (n + 2)

namespace Capture

/-- The requests of 0xE000.01 at the M0 Trough. -/
def request_ (r : Nat) (x : Capture) : Capture :=
  match r with
  | 1 => { running := true, dropped := x.dropped, drop := x.drop, lostAll := x.lostAll }
  | 2 => { x with running := false, request := none }
  | _ => { x with records := [], full := false, triggered := false, after := 0, dropped := 0, request := none }

/-- Whether the trigger occurs at a record (Table 11-9, 0xE000.08). sig is signal 1; events tells whether a first trip latch or a
test-signal start has come since the last record. -/
def trigger (c : Store) (fn : Nat) (sig : Rat) (trip test : Bool) (x : Capture) : Bool :=
  let lvl := c.f 0xE000 0xA
  match c.u 0xE000 8 with
  | 0 => true
  | 1 => fn == c.u 0xE000 9 || fnAhead fn (c.u 0xE000 9)
  | 2 => match x.prev with | some p => decide (p ≤ lvl ∧ lvl < sig) | none => false
  | 3 => match x.prev with | some p => decide (lvl ≤ p ∧ sig < lvl) | none => false
  | 4 => trip
  | _ => test

/-- One record (R234, R235). -/
def record (c : Store) (fn : Nat) (sig : Rat) (trip test : Bool) (words : List Nat) (x : Capture) : Capture :=
  if !x.running then x else
  let cap := captureCapacity (c.u 0xE000 3)
  let cnt := c.u 0xE000 6
  let stream := c.u 0xE000 7 == 1
  let trig := x.triggered || x.trigger c fn sig trip test
  let x := { x with prev := some sig, triggered := trig }
  if stream then
    if !trig then x
    else if cap ≤ x.records.length then { x with dropped := inc32 x.dropped, lostAll := inc32 x.lostAll, drop := true }
    else
      let x := { x with records := x.records ++ [words], after := x.after + 1 }
      if 0 < cnt ∧ cnt ≤ x.after then { x with running := false, full := true } else x
  else if cnt = 0 then
    { x with records := (x.records ++ [words]).drop (x.records.length + 1 - cap) }
  else if !trig then
    let p := c.u 0xE000 0xB
    { x with records := if p = 0 then [] else (x.records ++ [words]).drop (x.records.length + 1 - p) }
  else
    let x := { x with records := x.records ++ [words], after := x.after + 1 }
    if cnt ≤ x.after then { x with running := false, full := true } else x

/-- Capture status (0xE000.02). -/
def status (x : Capture) : Nat := 8 * b2n x.drop + 4 * b2n x.triggered + 2 * b2n x.full + b2n x.running

end Capture

end Sys2Proof.Machine
end

