-- ==== Sys2Proof/Machine/TypesFault.lean ====
section
/-! DEFINITION. State of the fault records and of BEDROCK (chapter 14). -/

namespace Sys2Proof.Machine

/-- Fault records (Table 14-7); hardLimit marks the hard-limit states of R298, frameCount and frameTime the status frame of R299. -/
structure FaultState where
  standing : Nat := 0
  single : Nat := 0
  last : Nat := 0
  lastFn : Nat := 0
  lastTime : Nat := 0
  cause : Nat := 0
  causeFn : Nat := 0
  causeTime : Nat := 0
  counters : List Nat := List.replicate 25 0
  hardLimit : Bool := false
  frameCount : Nat := 0
  frameTime : Nat := 0
  deriving DecidableEq, Repr

end Sys2Proof.Machine
end

