-- ==== Sys2Proof/Machine/Fault.lean ====
section
/-! DEFINITION. Single faults, standing faults and the second-fault rule (chapter 14). -/

namespace Sys2Proof.Machine

/-- Codes whose group is "—" in Table 14-1 stand in no group; the lanes (0x20) stand in none either, Table 5-2 alone deciding (R293). -/
def faultStands (group : Nat) : Bool := decide (group ≠ 0 ∧ group ≤ 24)

/-- The groups that R293 leaves out of the second-fault rule: the lanes, NETWORK (20) and CHAIN (21). -/
def faultCounts (group : Nat) : Bool := faultStands group && group != 20 && group != 21

/-- The detail of Last fault (0x2300.03): the codes for which the table names one, and code 0x12, whose detail R394 names. -/
def faultDetail (code detail : Nat) : Nat :=
  if code ≤ 0x0B && code != 0x03 || [0x0D, 0x0F, 0x12, 0x13, 0x16].contains code then detail % 65536 else 0

namespace FaultState

/-- Whether a group's bit stands. -/
def stands (s : FaultState) (group : Nat) : Bool := faultStands group && bit s.standing (group - 1)

/-- R293: whether a single fault detected now is a second fault: its group stands, or it is a path fault while SIFTER stands; code 0x08
with a valid backup slot, which alone is reported under that code, never is. -/
def isSecond (s : FaultState) (code group : Nat) : Bool :=
  faultCounts group && code != 0x08 && (s.stands group || ((code == 0x04 || code == 0x07) && s.stands 16))

/-- R301: the code's counter, and, for every code but 0x10, Last fault with its FN and counter value; R292: the group stands. -/
def record (s : FaultState) (code group detail fn now : Nat) : FaultState :=
  let s := { s with counters := upd s.counters (code - 1) inc32 }
  if code = 0x10 then s else
  { s with
    single := inc32 s.single, last := code * 2 ^ 24 + group * 2 ^ 16 + faultDetail code detail, lastFn := fn, lastTime := now
    standing := if faultStands group then setBit s.standing (group - 1) true else s.standing }

/-- R292: a group's redundancy is restored. -/
def restore (s : FaultState) (b : Nat) : FaultState := { s with standing := setBit s.standing b false }

/-- R296: the cause is written at entry; the second-fault group stands in its low byte. -/
def setCause (s : FaultState) (cause group fn now : Nat) : FaultState :=
  { s with cause := cause * 256 + group, causeFn := fn, causeTime := now, frameTime := now }

/-- Table 14-4: the Bedrock status frame from the trip status words, the higher DC-link voltage in V and the discharge status. -/
def frame (s : FaultState) (m0Trip m1Trip volts dis : Nat) : List Byte :=
  [BitVec.ofNat 8 (s.cause / 256), BitVec.ofNat 8 s.cause, BitVec.ofNat 8 (m0Trip / 2 ^ 24), BitVec.ofNat 8 (m1Trip / 2 ^ 24)]
    ++ toBytes 2 (min volts 65535) ++ [BitVec.ofNat 8 dis, BitVec.ofNat 8 s.frameCount]

end FaultState

end Sys2Proof.Machine
end

