-- ==== Sys2Proof/Machine/TypesFlash.lean ====
section
/-! DEFINITION. State of the flash: the Starter set's records, the firmware banks, the event log and the operation queue (chapter 20). -/

namespace Sys2Proof.Machine

/-- The stored record of a Starter set entry (R389, R393, R394): the stored pair, its origin (true: user) and write count, whether the record
passes its check, the previous pair, origin and count that the journal holds, and the info bits. -/
structure StarterRec where
  pair : Nat
  user : Bool := false
  count : Nat := 0
  ok : Bool := true
  prev : Option (Nat × Bool × Nat) := none
  restored : Bool := false
  lost : Bool := false
  deriving DecidableEq, Repr

/-- The bank record (R396, R397): activation sequence, trial state (0 none, 1 TRIAL, 2 CONFIRMED, 3 demoted) and trial count. -/
structure BankRecord where
  seq : Nat
  trial : Nat
  count : Nat
  deriving DecidableEq, Repr

/-- A firmware bank: the bytes programmed into it, by address, an erased byte reading 0xFF; whether it passed verification; its record;
whether an interrupted action left it unverified. -/
structure FlashBank where
  image : List Host.Cell := []
  passes : Bool := false
  record : Option BankRecord := none
  deriving DecidableEq, Repr

/-- What a waiting flash operation belongs to (R388). -/
inductive FlashKind where
  /-- The thermal record (R320). -/ | thermal (record : List Byte)
  /-- An event-log record. -/ | event (record : List Byte)
  /-- The erase-ahead of the event-log ring. -/ | logErase
  /-- A Starter set record (R393): the entry, the new pair, origin and count; the phases BEGIN, entry and DONE take 4 words each. -/
  | starter (entry pair : Nat) (user : Bool) (count : Nat) (restore : Bool)
  /-- A key slot. -/ | keySlot (k : Nat)
  /-- An erase mark for the next BOOT. -/ | mark (sector : Nat)
  /-- The firmware update's staged image bytes: 8 of them a word. -/ | update
  deriving DecidableEq, Repr

/-- A flash operation sequence: what it is for and the word programs or erases left. -/
structure FlashJob where
  kind : FlashKind
  left : Nat
  deriving DecidableEq, Repr

/-- The firmware update (R398, Table 20-8): staging holds the bytes not yet programmed, received the image bytes taken so far. -/
structure UpdateState where
  action : Nat := 0
  result : Nat := 0
  running : Option Nat := none
  activated : Bool := false
  verified : Bool := false
  erased : Bool := false
  staging : List Byte := []
  received : Nat := 0
  programmed : Nat := 0
  ended : Bool := false
  deriving DecidableEq, Repr

/-- The flash. entries are the 130 Starter set records in entry order; ring the event-log records, oldest first, and writePos the slot of the
next one; jobs holds the records of Q45 with the other waiting operations; marked the sectors that the journal marks for erase and check at the
next BOOT; importUser the origins (true: user) that an import gives the entries it staged (R392). -/
structure FlashState where
  entries : List StarterRec := []
  starterOk : Bool := false
  anyRestored : Bool := false
  restores : Nat := 0
  bankA : FlashBank := {}
  bankB : FlashBank := {}
  runningB : Bool := false
  epoch : Nat := 0
  update : UpdateState := {}
  ring : List (List Byte) := []
  writePos : Nat := 0
  logDropped : Nat := 0
  logWritten : Nat := 0
  bootCount : Nat := 0
  jobs : List FlashJob := []
  current : Option FlashJob := none
  marked : List Nat := []
  importUser : List (Nat × Bool) := []
  nvmOp : Nat := 0
  nvmSector : Nat := 0
  deriving DecidableEq, Repr

end Sys2Proof.Machine
end

