-- ==== Sys2Proof/Machine/Flash.lean ====
section
/-! DEFINITION. The flash (chapter 20): byte memories of the banks, the operation queue of R388, the event log, the Starter set's records and
journal, and the firmware banks. -/

namespace Sys2Proof.Machine

/-! ### Byte memories -/

/-- A byte of a bank; an address that nothing has programmed reads the erased value 0xFF (R396, R399). -/
def flashRead (m : List Host.Cell) (a : Nat) : Byte := (lookupKey m a).getD 0xFF

/-- The bank with one byte programmed; an erased value is not listed. -/
def flashWrite (m : List Host.Cell) (a : Nat) (v : Byte) : List Host.Cell := if v = 0xFF then eraseKey m a else insertKey a v m

/-- The bank with bytes programmed from an address on. -/
def flashProgram (m : List Host.Cell) : Nat → List Byte → List Host.Cell
  | _, [] => m
  | a, b :: l => flashProgram (flashWrite m a b) (a + 1) l

/-- The canonical form of a bank: addresses strictly rising, no erased byte listed. -/
def flashWf (m : List Host.Cell) : Bool := ascendingKeys m && m.all (fun e => e.2 != 0xFF)

/-- Bytes of a bank from an address on. -/
def flashBytes (m : List Host.Cell) (a n : Nat) : List Byte := (List.range n).map (fun k => flashRead m (a + k))

/-- Whether a range of a bank is erased. -/
def flashErased (m : List Host.Cell) (a n : Nat) : Bool := m.all (fun e => decide (e.1 < a ∨ a + n ≤ e.1))

/-! ### Firmware banks -/

/-- The header fields of Table 20-6: whether mark, format, reserved fields and length are valid. -/
def imageHeaderOk (m : List Host.Cell) : Bool :=
  let n (a k : Nat) : Nat := ofBytes (flashBytes m a k)
  n 0 4 == 0x59465730 && n 4 2 == 1 && n 6 2 == 0 && n 12 4 % 8 == 0 && decide (n 12 4 ≤ 2092736)
    && (flashBytes m 22 234).all (· == 0)

/-- The version field of an image. -/
def imageVersion (m : List Host.Cell) : Nat := ofBytes (flashBytes m 8 4)
/-- The epoch field. -/
def imageEpoch (m : List Host.Cell) : Nat := ofBytes (flashBytes m 16 4)
/-- The minimum silicon revision. -/
def imageMinRev (m : List Host.Cell) : Nat := ofBytes (flashBytes m 20 2)

/-- The whole signed image with its signature. -/
def imageBytes (m : List Host.Cell) : List Byte := flashBytes m 0 (320 + ofBytes (flashBytes m 12 4))

/-- R396: 1 where the bank passes, else the result code of Table 20-8 for what fails; ecc says that the image holds an uncorrectable ECC error. A
header that is not valid counts as a failed signature. -/
def bankCheck (epoch : Nat) (ecc : Bool) (m : List Host.Cell) : Nat :=
  if !imageHeaderOk m || ecc then 2 else
  if imageMinRev m > 0x4101 then 4 else
  if imageEpoch m < epoch then 3 else
  if Config.signatureOk (imageBytes m) then 1 else 2

/-- A bank's rank by R397: the activation sequence of a bank with a record, below every one without. -/
def FlashBank.rank (b : FlashBank) : Int :=
  match b.record with
  | none => -1
  | some r => (r.seq : Int)

/-- Whether a bank in TRIAL has used its three starts (R397). -/
def FlashBank.spent (b : FlashBank) : Bool :=
  match b.record with
  | some r => r.trial == 1 && decide (3 ≤ r.count)
  | none => false

namespace FlashState

/-- A bank. -/
def bank (f : FlashState) (b : Bool) : FlashBank := if b then f.bankB else f.bankA

/-- Replace a bank. -/
def setBank (f : FlashState) (b : Bool) (g : FlashBank → FlashBank) : FlashState :=
  if b then { f with bankB := g f.bankB } else { f with bankA := g f.bankA }

/-- The newer passing bank (R397): none where neither passes. -/
def newer (f : FlashState) : Option Bool :=
  match f.bankA.passes, f.bankB.passes with
  | false, false => none
  | true, false => some false
  | false, true => some true
  | true, true =>
    if f.bankA.spent && !f.bankB.spent then some true
    else if f.bankB.spent && !f.bankA.spent then some false
    else some (decide (f.bankA.rank < f.bankB.rank))

/-- The bank that a BOOTSEL code starts (Table 18-6, R369). -/
def admitted (f : FlashState) (bootsel : Nat) : Option Bool :=
  match bootsel with
  | 1 => if f.bankA.passes then some false else none
  | 2 => if f.bankB.passes then some true else none
  | _ => f.newer

/-- The start of a bank: a trial counts, and a spent trial bank is demoted (R397). -/
def startBank (f : FlashState) (b : Bool) : FlashState :=
  let f := f.setBank (!b) (fun x => if x.spent then { x with record := x.record.map (fun r => { r with trial := 3 }) } else x)
  let f := f.setBank b (fun x => { x with record := x.record.map (fun r => if r.trial = 1 then { r with count := r.count + 1 } else r) })
  { f with runningB := b }

/-- Whether the running bank is in TRIAL. -/
def inTrial (f : FlashState) : Bool := match (f.bank f.runningB).record with | some r => r.trial == 1 | none => false

/-- Bank status (0xB100.01). -/
def bankStatus (f : FlashState) : Nat := b2n f.bankA.passes + 2 * b2n f.bankB.passes + 4 * b2n f.runningB + 8 * b2n f.inTrial

/-- A bank's version, 0 where it fails. -/
def bankVersion (f : FlashState) (b : Bool) : Nat := if (f.bank b).passes then imageVersion (f.bank b).image else 0

/-- Update status (Table 20-8). -/
def updateStatus (f : FlashState) : Nat :=
  let u := f.update
  let trials := match (f.bank f.runningB).record with | some r => if r.trial = 1 then min 7 r.count else 0 | none => 0
  u.action * 2 ^ 24 + u.result * 2 ^ 16 + 128 * b2n f.inTrial + 16 * trials + 8 * b2n u.activated + 4 * b2n u.verified + 2 * b2n u.erased
    + b2n (u.running.isSome || !u.staging.isEmpty)

/-! ### The operation queue (R388) -/

/-- The class of an operation, first served first. -/
def classOf : FlashKind → Nat
  | .thermal _ => 1
  | .event _ | .logErase => 2
  | .starter _ _ _ _ _ => 3
  | .keySlot _ | .mark _ => 4
  | .update => 6

/-- Word programs or erases of a sequence: a record of 64 bytes is 8 words; a Starter set entry is three records of 4 words. -/
def opsOf : FlashKind → Nat
  | .thermal _ | .event _ => 8
  | .logErase => 1
  | .starter _ _ _ _ _ => 12
  | .keySlot _ => 3
  | .mark _ => 1
  | .update => 1

/-- Whether an operation is a sector erase. -/
def isErase : FlashKind → Bool
  | .logErase => true
  | _ => false

/-- A Starter set record whose entry program starts fails its check until it is complete. -/
def begun (j : FlashJob) (f : FlashState) : FlashState :=
  match j.kind with
  | .starter e _ _ _ _ => if j.left = 8 then { f with entries := upd f.entries (e - 1) (fun x => { x with ok := false }) } else f
  | _ => f

/-- The next operation starts: the first of the lowest class; only the thermal record while stopped says so (R320). -/
def startNext (stopped : Bool) (f : FlashState) : FlashState :=
  if f.current.isSome then f else
  let ready := if stopped then f.jobs.filter (fun j => classOf j.kind == 1) else f.jobs
  match ready with
  | [] => f
  | j0 :: l =>
    let best := l.foldl (fun a j => if classOf j.kind < classOf a.kind then j else a) j0
    begun best { f with current := some best, jobs := f.jobs.erase best }

/-- An operation sequence is queued. -/
def push (stopped : Bool) (k : FlashKind) (f : FlashState) : FlashState :=
  startNext stopped { f with jobs := f.jobs ++ [⟨k, opsOf k⟩] }

/-- Event records waiting in Q45. -/
def waitingEvents (f : FlashState) : Nat := (f.jobs.filter (fun j => match j.kind with | .event _ => true | _ => false)).length

/-- R399: an event record is queued, or dropped and counted where Q45 is full. -/
def logRecord (stopped : Bool) (r : List Byte) (f : FlashState) : FlashState :=
  if 64 ≤ f.waitingEvents then { f with logDropped := inc32 f.logDropped } else push stopped (.event r) f

/-- R399: a record written at the write position; one that fills a sector whose successor is the only erased one asks for the erase of the oldest
sector. -/
def store (r : List Byte) (f : FlashState) : FlashState :=
  let pos := (f.writePos + 1) % 4096
  let f : FlashState := { f with ring := f.ring ++ [r], writePos := pos, logWritten := inc32 f.logWritten }
  if pos % 64 = 0 && decide (4032 ≤ f.ring.length) then { f with jobs := ⟨.logErase, 1⟩ :: f.jobs } else f

/-- The completed program of a Starter set record by R393: BEGIN with the previous pair, the entry, DONE. -/
def starterPhase (e pair : Nat) (user : Bool) (count left : Nat) (restore : Bool) (f : FlashState) : FlashState :=
  if left = 8 then
    { f with entries := upd f.entries (e - 1) (fun x => { x with prev := if restore then x.prev else some (x.pair, x.user, x.count) }) }
  else if left = 4 then
    { f with entries := upd f.entries (e - 1) (fun x => { x with pair := pair, user := user, count := count, ok := true, lost := false }) }
  else if left = 0 then
    { f with starterOk := !f.entries.any (·.lost) }
  else f

/-- What the completed word or erase of a sequence does; left is what remains of it. -/
def completed (k : FlashKind) (left : Nat) (f : FlashState) : FlashState :=
  match k with
  | .thermal r | .event r => if left = 0 then f.store r else f
  | .logErase => { f with ring := f.ring.drop 64 }
  | .starter e pair user count restore => f.starterPhase e pair user count left restore
  | .keySlot _ => f
  | .mark sec => { f with marked := if f.marked.contains sec then f.marked else f.marked ++ [sec] }
  | .update =>
    let w := f.update.staging.take 8
    let a := f.update.programmed
    let f := f.setBank (!f.runningB) (fun b => { b with image := flashProgram b.image a w })
    { f with update := { f.update with staging := f.update.staging.drop 8, programmed := a + w.length } }

/-- FLASH_OPERATION_DONE: the running word program or erase ends and the next operation starts. A failed program of the update sets its result
0x06 (Table 20-8); a failed program of any other sequence ends that sequence. -/
def operationDone (stopped ok : Bool) (f : FlashState) : FlashState :=
  match f.current with
  | none => f
  | some j =>
    let f : FlashState := { f with current := none }
    if !ok then
      startNext stopped (match j.kind with
        | .update => { f with update := { f.update with result := 6, staging := [], running := none } }
        | _ => f)
    else
      let left := j.left - 1
      let f := f.completed j.kind left
      let more := match j.kind with | .update => !f.update.staging.isEmpty | _ => decide (0 < left)
      let f : FlashState := if more then { f with jobs := ⟨j.kind, match j.kind with | .update => 1 | _ => left⟩ :: f.jobs } else f
      startNext stopped f

/-- Bytes of the update image held in the staging buffer are programmed behind it (R398). -/
def wantUpdate (stopped : Bool) (f : FlashState) : FlashState :=
  let has := (f.jobs.any (fun j => j.kind == .update)) || (match f.current with | some j => j.kind == .update | none => false)
  if f.update.staging.isEmpty || has then f else push stopped .update f

/-- R395: the Starter set records that have not started are abandoned. -/
def abandonStarter (f : FlashState) : FlashState :=
  { f with jobs := f.jobs.filter (fun j => match j.kind with | .starter _ _ _ _ _ => decide (j.left ≠ 12) | _ => true) }

/-- Whether Starter set records wait or run (STORING). -/
def storing (f : FlashState) : Bool :=
  f.jobs.any (fun j => classOf j.kind == 3) || (match f.current with | some j => classOf j.kind == 3 | none => false)

/-- The update stops with its bank left unverified (R320, R371, R398). -/
def stopUpdate (f : FlashState) : FlashState :=
  let u := f.update
  if u.running.isNone && u.staging.isEmpty && u.received = 0 then f else
  { f with
    update := { u with running := none, staging := [], received := 0, programmed := 0, ended := false, verified := false, erased := false
                       result := if u.running.isSome then 5 else u.result }
    jobs := f.jobs.filter (fun j => j.kind != .update) }

/-- The NVM operation in progress when a stop comes: its code of Table 15-5 and its sector. An erase is aborted and marked; abortWord says that a
word program is aborted too (R319). -/
def cut (abortWord : Bool) (f : FlashState) : FlashState :=
  let updErase := f.update.running == some 1
  let base := if f.runningB then 0 else 512
  match f.current with
  | some j =>
    if isErase j.kind then
      let sec := 1408 + f.writePos / 64
      { f with nvmOp := 2, nvmSector := sec, current := none, marked := if f.marked.contains sec then f.marked else f.marked ++ [sec] }
    else if abortWord then { f with nvmOp := 3, nvmSector := 1476, current := none }
    else { f with nvmOp := 1, nvmSector := 1476 }
  | none =>
    if updErase then { f with nvmOp := 2, nvmSector := base, marked := if f.marked.contains base then f.marked else f.marked ++ [base] }
    else { f with nvmOp := 0, nvmSector := 0 }

/-! ### Starter set -/

/-- An entry's info word (0xB010). -/
def info (x : StarterRec) : Nat := 32768 * b2n x.user + 16384 * b2n x.restored + 8192 * b2n x.lost + min 255 x.count

/-- Starter set status (0xB000.01). -/
def starterStatus (f : FlashState) : Nat :=
  b2n f.starterOk + 2 * b2n (f.entries.any (·.lost)) + 4 * b2n f.anyRestored + 8 * b2n f.storing

/-- R389: the CRC over the 130 value words in entry order. -/
def starterCrc (pairs : List Nat) : Nat := crc32Words (pairs.map (· / 2 ^ 32))

/-- R390, R393: an entry changed by a commit is queued for the journal; host says that the host wrote it. -/
def writeEntry (stopped : Bool) (e pair : Nat) (user : Bool) (f : FlashState) : FlashState :=
  let x := nth f.entries (e - 1) { pair := 0 }
  push stopped (.starter e pair user (min 255 (x.count + 1)) false) f

/-- R394, Table 20-4 at BOOT: one entry checked and restored; answers the flash and whether the entry was restored. -/
def checkEntry (e : Nat) (f : FlashState) : FlashState × Bool :=
  let x := nth f.entries (e - 1) { pair := 0 }
  if x.ok && pairOk x.pair then (f, false) else
  match x.prev with
  | some (p, u, n) =>
    let f : FlashState := { f with
      entries := upd f.entries (e - 1) (fun x => { x with pair := p, user := u, count := n, ok := true, restored := true, lost := false })
      restores := inc32 f.restores, anyRestored := true }
    (push false (.starter e p u n true) f, true)
  | none => ({ f with entries := upd f.entries (e - 1) (fun x => { x with lost := true }) }, false)

/-- R391, Table 20-3: the export of the Starter set; pairs are the active copies. -/
def exportBytes (uid boot : Nat) (version : Nat) (pairs : List Nat) (f : FlashState) : List Byte :=
  let head := toBytes 2 1 ++ toBytes 2 130 ++ toBytes 8 uid ++ toBytes 2 0x4101 ++ toBytes 2 0 ++ toBytes 4 version ++ toBytes 4 boot ++ toBytes 8 0
  let body := (List.range 130).flatMap (fun i =>
    let x := nth f.entries i { pair := 0 }
    toBytes 2 (i + 1) ++ [BitVec.ofNat 8 (b2n x.user), BitVec.ofNat 8 (min 255 x.count)] ++ toBytes 8 (nth pairs i 0) ++ toBytes 4 0)
  let l := head ++ body
  l ++ toBytes 4 (crc32 l)

/-- R392: the checks of an imported set; answers each entry's pair, origin and write count. inRange decides an entry's value. -/
def importSet (uid : Nat) (inRange : Nat → Nat → Bool) (l : List Byte) : Option (List (Nat × Bool × Nat)) :=
  let n (a k : Nat) : Nat := ofBytes ((l.drop a).take k)
  let rec_ (i : Nat) : Nat × Bool × Nat := (n (32 + 16 * i + 4) 8, n (32 + 16 * i + 2) 1 == 1, n (32 + 16 * i + 3) 1)
  if l.length = 2116 && n 0 2 == 1 && n 2 2 == 130 && n 4 8 == uid && n 2112 4 == crc32 (l.take 2112)
      && (List.range 130).all (fun i => pairOk (rec_ i).1 && inRange i (rec_ i).1 && n (32 + 16 * i) 2 == i + 1) then
    some ((List.range 130).map rec_)
  else none

/-! ### Event records (R400) -/

/-- A record of a kind: FN, counter, boot count and payload, with its CRC-32. -/
def eventBytes (kind fn now boot : Nat) (payload : List Byte) : List Byte :=
  let p := payload.take 40
  let l := toBytes 2 kind ++ toBytes 2 0 ++ toBytes 4 fn ++ toBytes 8 now ++ toBytes 4 boot ++ p ++ List.replicate (40 - p.length) 0
  l ++ toBytes 4 (crc32 l)

end FlashState

end Sys2Proof.Machine
end

