-- ==== Sys2Proof/Machine/TypesBench.lean ====
section
/-! DEFINITION. State of the Bench port (chapter 18). -/

namespace Sys2Proof.Machine

/-- A request in Q47: its CMD and DATA words, and its result (code and data) once it is executed (R366). -/
structure BenchReq where
  cmd : Nat
  data : Nat
  result : Option (Nat × Nat) := none
  deriving DecidableEq, Repr

/-- The Bench port. miso is the frame that the latest transaction shifted out; recovery the running recovery action (action, bank, chunk);
imports the three chunks of an imported Starter set; lockUntil the end of the unlock lockout. -/
structure BenchState where
  queue : List BenchReq := []
  lost : Bool := false
  miso : Nat := 0
  crcErr : Nat := 0
  frameErr : Nat := 0
  hold : Bool := false
  verifying : Bool := true
  recovery : Option (Nat × Nat × Nat) := none
  recCode : Nat := 0
  recResult : Nat := 0
  buffer : List Nat := List.replicate 256 0
  imports : List (List Byte) := [[], [], []]
  unlockHi : Option Nat := none
  unlocked : Bool := false
  lockUntil : Option Nat := none
  ctcCode : Nat := 0
  persistOk : Bool := false
  key0Ok : Bool := false
  deriving DecidableEq, Repr

end Sys2Proof.Machine
end

