-- ==== Sys2Proof/Machine/TypesChain.lean ====
section
/-! DEFINITION. State of the Ridge chain (chapter 19). -/

namespace Sys2Proof.Machine

/-- One Ridge link: up, and the trip broadcast received from it. -/
structure RidgeLink where
  up : Bool := false
  rx : Bool := false
  deriving DecidableEq, Repr

/-- A machine's part in a chain (R384 to R386): twin state of 0xD000.0B; the partner's latest record (the half's sum-pair currents i_d, i_q,
its torque reference), and whether it came for the running update; WIDE_ALONE and its count of delivered updates; whether the
twins agreed in the latest update; whether a partner of the same use has shown itself by a record; a hand-off received that waits for its Trough;
and a swap that this standby twin has asked of the active one. -/
structure ChainMachine where
  twin : Nat := 0
  id : Rat := 0
  iq : Rat := 0
  torque : Rat := 0
  fresh : Bool := false
  wideAlone : Bool := false
  wideCount : Nat := 0
  agree : Bool := false
  partner : Bool := false
  handoff : Bool := false
  asked : Bool := false
  deriving DecidableEq, Repr

/-- The chain. role is 0xD000.01; placement the calibrated lead of the Trough on the received mark in interpolation steps, without Skew trim;
markSeen whether the mark of the present Trough has arrived, markPeriod the M0 period that it announces for the next
frame; upSummit whether the upstream neighbour is the Summit (R381); firstMark marks a new Summit by succession whose first own mark is still to be sent. -/
structure ChainState where
  role : Nat := 0
  position : Nat := 0
  strapErr : Bool := false
  calFail : Bool := false
  calibrated : Bool := false
  devices : Nat := 0
  hop : Nat := 0
  placement : Int := 0
  offset : Nat := 0
  up : RidgeLink := {}
  dn : RidgeLink := {}
  markSeen : Bool := false
  markPeriod : Nat := 0
  upSummit : Bool := false
  firstMark : Bool := false
  holdover : Bool := false
  timebaseLoss : Bool := false
  succeeded : Bool := false
  mismatch : Bool := false
  successions : Nat := 0
  losses : Nat := 0
  mismatches : Nat := 0
  takeovers : Nat := 0
  m : List ChainMachine := List.replicate 2 {}
  deriving DecidableEq, Repr

end Sys2Proof.Machine
end

