-- ==== Sys2Proof/Machine/TypesCtl.lean ====
section
/-! DEFINITION. State of a machine's control outside the lanes (chapter 04): the mode in use and what the next update takes. -/

namespace Sys2Proof.Machine

/-- A machine's control. mode is the mode in use (0x3000.02); fadeFrom the counter value of the Trough at which the 10 ms fade before mode 0
started (R88); enter marks that the next update is the first in a new mode, re the controllers whose new gains or limits apply (R87); env is what the
lanes latched at the latest lane start (R12), instant the latest update instant, satEvents the saturation events of 0x3020.0B. -/
structure MachCtl where
  mode : Nat := 0
  fadeFrom : Option Nat := none
  enter : Bool := false
  re : ReInit := {}
  env : LaneEnv := {}
  instant : Nat := 0
  satEvents : Nat := 0
  deriving DecidableEq, Repr

end Sys2Proof.Machine
end

