-- ==== Sys2Proof/Machine/TypesDev.lean ====
section
/-! DEFINITION. State of the device as a whole: states, clocks, resets and supplies (chapter 21). -/

namespace Sys2Proof.Machine

/-- A pending host request for a state (R412, R413): the code, the counter value of the request and the session. -/
structure StateRequest where
  code : Nat
  time : Nat
  session : Nat
  deriving DecidableEq, Repr

/-- The device. state is the code of Table 21-4; counter the system counter of 5 ns ticks (R30); npor, nrst and vaon the levels of the reset
inputs and of VAON; straps the latched word of Table 18-6. exitFade is the counter value at which the fade of R414 started; resetFrom the state in
force when nRST went low; retained the AON register of R420 and shutdown its copy read at BOOT; wakeAt the counter value of PWR_REQ high while
a wake waits for nPOR; stepBad marks a tap test or identification of PROOFING that did not pass;
wakeEnable and tapDepth the persisted values loaded at BOOT of 0x2000.08 and 0x8040.03 (R327); coresReset marks the reset service cores (code 0x14). -/
structure DevState where
  state : Nat := 2
  counter : Nat := 0
  counting : Bool := true
  timebase : Bool := false
  npor : Bool := true
  nrst : Bool := true
  vaon : Bool := true
  straps : Nat := 0
  strapsHeld : Bool := true
  request : Option StateRequest := none
  exitFade : Option Nat := none
  fadeOver : Bool := false
  transition : Nat := 0
  refusal : Nat := 0
  serviceSession : Option Nat := none
  step : Nat := 0
  stepDone : Nat := 0
  stepFailed : Nat := 0
  stepBad : Bool := false
  offsetSkipped : Bool := false
  shutdown : Nat := 0
  retained : Nat := 0
  bootFrom : Nat := 0
  resetFrom : Nat := 0
  wakeAt : Option Nat := none
  pwrReq : Bool := true
  failedWakes : Nat := 0
  histogram : List Nat := List.replicate 6 0
  lastHold : Nat := 0
  refOk : Bool := true
  refLost : Bool := false
  backup : Bool := false
  slewing : Bool := false
  toRef : Bool := false
  ethHold : Bool := false
  refLosses : Nat := 0
  backupDev : Int := 0
  coresReset : Bool := false
  bankStarted : Bool := false
  wakeEnable : Nat := 1
  tapDepth : Nat := 11
  deriving DecidableEq, Repr

end Sys2Proof.Machine
end

