-- ==== Sys2Proof/Machine/TypesNet.lean ====
section
/-! DEFINITION. State of YOAP, the networks and the cyclic images (chapter 17). -/

namespace Sys2Proof.Machine

/-- The answer to one item: the session, the opcode, the object, the abort code (0: none) and the data. -/
structure Answer where
  session : Nat
  opcode : Nat
  key : Nat
  abort : Nat
  last : Bool := false
  data : List Byte := []
  deriving DecidableEq, Repr

/-- An item of a request (Table 17-4): opcode, LAST, index, subindex and data. -/
structure YItem where
  opcode : Nat
  last : Bool := false
  idx : Nat
  sub : Nat := 0
  data : List Byte := []
  deriving DecidableEq, Repr

/-- An accepted request frame whose items are being answered (R354): its SEQ, the interface and address of its sender, whether it carries a cyclic
image, the items not yet answered, the answers so far, and those of its items that came beyond the 128th in flight. -/
structure Request where
  seq : Nat
  iface : Nat
  source : Nat
  image : Bool := false
  items : List YItem
  resp : List Answer := []
  tail : List Answer := []
  deriving DecidableEq, Repr

/-- A session (R349 to R351). key is the session key as byte values; queue holds the accepted frames whose items are not all answered, oldest first;
recent holds, for the accepted sequence numbers from H − 63 to H, the number, its arrival time and its interface; ownSeq counts the
frames sent; viewActive is Read view (0x2100.09); imgSeq the highest image SEQ; source
the interface and address of the latest frame; opened orders the sessions by their opening. -/
structure Session where
  level : Nat
  slot : Nat
  key : List Nat
  iface : Nat
  last : Nat
  h : Nat := 0
  recent : List (Nat × Nat × Nat) := []
  ownSeq : Nat := 0
  queue : List Request := []
  viewActive : Nat := 0
  imgSeq : Nat := 0
  source : Nat × Nat := (0, 0)
  opened : Nat := 0
  deriving DecidableEq, Repr

/-- A key slot (R353): level 0 disables it. -/
structure KeySlot where
  level : Nat := 0
  writes : Nat := 0
  key : List Nat := List.replicate 16 0
  deriving DecidableEq, Repr

/-- A cyclic image's run-time state (R357 to R360): status bits, the ports that delivered in the latest period, per port ETH0, ETH1, T1S, CAN0
the time of its latest delivery, the count of consecutive periods in which it delivered and whether its loss is recorded, and the time of the
latest transmission. -/
structure ImageState where
  active : Bool := false
  timeout : Bool := false
  noGptp : Bool := false
  noSession : Bool := false
  delivered : Nat := 0
  times : List Nat := [0, 0, 0, 0]
  good : List Nat := [0, 0, 0, 0]
  lost : Nat := 0
  rejects : Nat := 0
  since : Nat := 0
  cycle : Nat := 0
  deriving DecidableEq, Repr

/-- A frame that the device or its switch hands over: the interface (0 ETH0, 1 ETH1, 2 T1S, 3 to 6 CAN0 to CAN3, 7 the switch's internal port), the PCP
or CAN identifier, its bytes, the peer that it goes to (as a packet's sender), its VLAN tag, and the UDP checksum of a datagram (0: no UDP). -/
structure TxFrame where
  iface : Nat
  prio : Nat
  bytes : List Byte
  peer : Nat := 0
  vlan : Option Nat := none
  checksum : Nat := 0
  deriving DecidableEq, Repr

/-- One entry of the switch's learning table (R343). -/
structure Learned where
  mac : Nat
  port : Nat
  time : Nat
  deriving DecidableEq, Repr

/-- gPTP (R361): present, the consecutive Syncs within ±1 µs, the time of the latest Sync, its interval in ticks, the measured link delay in ns. -/
structure GptpState where
  present : Bool := false
  good : Nat := 0
  lastSync : Option Nat := none
  interval : Nat := 0
  linkDelay : Nat := 0
  losses : Nat := 0
  deriving DecidableEq, Repr

/-- An OPEN item that waits to be served (R349): the interface and sender of its frame, its SEQ, the key slot that it names, and its DATA. -/
structure Opening where
  iface : Nat
  source : Nat
  seq : Nat
  slot : Nat
  data : List Byte
  deriving DecidableEq, Repr

/-- The network side of the device. opening holds the OPEN items that wait, oldest first; answers and sent hold what the latest command answered and sent; errTimes the sources answered with a
frame abort and when (R352); draws counts the nonces drawn (R349). -/
structure NetState where
  sessions : List (Option Session) := List.replicate 16 none
  slots : List KeySlot := List.replicate 8 {}
  images : List ImageState := List.replicate 8 {}
  links : Nat := 0
  received : Nat := 0
  unsupported : Nat := 0
  oversize : Nat := 0
  malformed : Nat := 0
  drops : List Nat := List.replicate 48 0
  learned : List Learned := []
  canBusOff : List Bool := [false, false, false, false]
  busOffs : List Nat := [0, 0, 0, 0]
  gptp : GptpState := {}
  authFails : Nat := 0
  replays : Nat := 0
  duplicates : Nat := 0
  errTimes : List (Nat × Nat) := []
  draws : Nat := 0
  opens : Nat := 0
  opening : List Opening := []
  answers : List Answer := []
  sent : List TxFrame := []
  deriving DecidableEq, Repr

end Sys2Proof.Machine
end

