-- ==== Sys2Proof/Machine/TypesTable.lean ====
section
/-! DEFINITION. State of the control frame, the commit machinery and the object table (chapters 02 and 16). -/

namespace Sys2Proof.Machine

/-- The control frame and its time objects (Table 2-1). troughTime is the counter value of the latest M0 Trough, m1Count the M0 Troughs since
the latest M1 Trough, m1Time the counter value of that one. started marks that FN 0 has been placed (R31). -/
structure FrameState where
  fn : Nat := 0
  started : Bool := false
  troughTime : Nat := 0
  m1Count : Nat := 0
  m1Time : Nat := 0
  gptpOffset : Nat := 0
  rateTrim : Int := 0
  deriving DecidableEq, Repr

/-- An accepted commit that waits for its boundary (R38): mask, target FN (0: first qualifying boundary), counter value of acceptance. -/
structure PendCommit where
  mask : Nat
  target : Nat
  accepted : Nat
  deriving DecidableEq, Repr

/-- A part of an accepted basic write that waits for its boundary (R35): the object and its new value, the counter value of the write, the
groups whose boundary it needs, whether the object itself belongs to the part, and the groups that were pending at acceptance (R36). -/
structure PendWrite where
  key : Nat
  raw : Nat
  accepted : Nat
  groups : Nat
  own : Bool
  late : Nat
  deriving DecidableEq, Repr

/-- A commit whose consistency checks run (R38): the mask, whether its token matched, the target FN that the attempt consumed, and where it came
from: a session, or the Bench port. -/
structure Checking where
  mask : Nat
  tokenOk : Bool
  target : Nat
  session : Option Nat
  deriving DecidableEq, Repr

/-- The commit objects of Table 2-5. -/
structure CommitState where
  token : Nat := 1
  lastCode : Nat := 0
  rejGroup : Nat := 0
  rejObject : Nat := 0
  lastFn : Nat := 0
  lastTime : Nat := 0
  target : Nat := 0
  applied : Nat := 0
  rejected : Nat := 0
  checking : Option Checking := none
  pending : List PendCommit := []
  writes : List PendWrite := []
  deriving DecidableEq, Repr

/-- One stored copy of a settings group in flash (R337): its sequence, whether it passes its CRC, and its objects. -/
structure SavedCopy where
  seq : Nat
  ok : Bool
  vals : List (Nat × Nat)
  blobs : List (Nat × List Byte)
  deriving DecidableEq, Repr

/-- The persisted set (R336 to R338). copies holds the two stored copies of groups 0 to 13; running is the running save: the groups not yet
written, and the snapshot. -/
structure PersistState where
  copies : List (Option SavedCopy × Option SavedCopy) := List.replicate 14 (none, none)
  running : Option (Nat × Store) := none
  result : Nat := 0
  done : Bool := false
  loaded : Nat := 0
  dropped : Nat := 0
  completed : Nat := 0
  deriving DecidableEq, Repr

/-- An open BLOB transfer (R332): its object, session, bytes received and the counter value of its latest segment. -/
structure Transfer where
  key : Nat
  session : Nat
  bytes : List Byte
  time : Nat
  deriving DecidableEq, Repr

/-- The answers of the object table: the last abort (0x2120), the open BLOB transfers, and the snapshots of read-only BLOBs that
are being served, each under its object's key times 16 plus its session (R391). -/
structure TableState where
  lastAbort : Nat := 0
  aborts : Nat := 0
  transfers : List Transfer := []
  snaps : List (Nat × List Byte) := []
  deriving DecidableEq, Repr

end Sys2Proof.Machine
end

