-- ==== Sys2Proof/Machine/State.lean ====
section
/-! DEFINITION. The state of the YV6420: what every chapter gives the device, with the queue of waiting commands, and its value right after reset. -/

namespace Sys2Proof.Machine

/-- The device. active and active2 are the two copies of the active object store (code 0x11 of Table 14-1), passed the
values of its pairs that last passed their complement check (R43), staged the staged copies (R37). Each
other field is the state of one chapter, described in its own Types file. pending is the queue of waiting commands, first in, first out. -/
structure State where
  pending : List Instr := []
  dev : DevState := {}
  frame : FrameState := {}
  active : Store := {}
  active2 : Store := {}
  passed : Store := {}
  staged : Store := {}
  commit : CommitState := {}
  persist : PersistState := {}
  table : TableState := {}
  sense : SenseState := {}
  ctl : List MachCtl := [{}, {}]
  lanes : LaneState := {}
  mod : ModState := {}
  trip : TripState := {}
  hearth : HearthState := {}
  canc : CancState := {}
  loads : List LoadModel := [{}, {}, {}, {}]
  diag : DiagState := {}
  audio : AudioState := {}
  crust : CrustState := {}
  fault : FaultState := {}
  hk : HkState := {}
  net : NetState := {}
  bench : BenchState := {}
  chain : ChainState := {}
  flash : FlashState := {}
  deriving DecidableEq, Repr

/-- Reasons for which a step could stop with a fault. No command of this block raises one: where the spec names a fault, the device records it and
goes on (R290). The one constructor keeps the type inhabited; nothing raises it (safe). -/
inductive Fault where
  /-- Raised by no command (safe). -/
  | none
  deriving DecidableEq, Repr

/-- Reasons for which a command has no meaning. -/
inductive Refusal where
  /-- A command without a meaning yet, by its mnemonic; raised by the dispatch alone (safe). -/
  | notModelled (mnemonic : String)
  deriving DecidableEq, Repr

/-- The outcome of a command. -/
abbrev Out := Host.Outcome State Fault Refusal

/-- The Starter set's 130 objects in entry order (Table 20-2). -/
def starterKeys : List Nat :=
  [(0xB410, 24), (0xB411, 24), (0xB412, 8), (0xB413, 8), (0xB420, 3), (0xB421, 3), (0xB430, 4), (0xB431, 8), (0xB432, 12), (0xB433, 4), (0xB440, 32)].flatMap
    (fun p => (List.range p.2).map (fun k => objKey p.1 (k + 1)))

/-- The machine right after reset: the device as the nPOR rising edge leaves it, in BOOT with the system counter at zero (R406, R412), every store at
its defaults, no flash content but the factory's, and no command waiting. -/
def State.reset : State :=
  { net := { slots := { level := 3, writes := 0, key := (toBytes 16 Config.deliveryKey).map (·.toNat) } :: List.replicate 7 {} }
    flash := { entries := starterKeys.map (fun k => { pair := objDefault k }) }
    dev := { transition := 0x02010000, straps := 1 }
    chain := { role := 1 } }

end Sys2Proof.Machine
end

