-- ==== Sys2Proof/Machine/Vote.lean ====
section
/-! DEFINITION. The vote (chapter 05): agreement, the checker band, plausibility, the rows of Table 5-2, and the lane states that
follow (R103 to R112). -/

namespace Sys2Proof.Machine

/-- What a row of Table 5-2 decides: the row, the lane whose duties are used (none: no duties), the full lane dropped with its
cause, whether the standby lane is DIVERGED, the checker's failure cause (0 for none), and whether the row ends in BEDROCK with
its cause. -/
structure VoteOut where
  row : Nat
  used : Option Nat
  drop : Option (Nat × Nat) := none
  diverged : Bool := false
  chkFail : Nat := 0
  bedrock : Nat := 0
  deriving DecidableEq, Repr

/-- The flags a vote takes (chapter 05, "The vote"). availX: lane X is ACTIVE or STANDBY. causeX: the lane check that failed, 0
where S_X is set. chkPresent: the checker is neither FAILED nor TESTING. kX, pX: K_X and P_X. -/
structure VoteIn where
  active : Nat
  availA : Bool
  availB : Bool
  causeA : Nat
  causeB : Nat
  agree : Bool
  chkPresent : Bool
  causeC : Nat
  kA : Bool
  kB : Bool
  pA : Bool
  pB : Bool
  prevRow : Nat
  voteTest : Bool
  deriving DecidableEq, Repr

/-- Table 5-2, first row whose conditions hold (R105); rows 0x06 and 0x0C in a second consecutive update load nothing and end in
BEDROCK; row 0x0C then fails the checker with its cause (Table 5-4). With no full lane available row 0x0A applies (R115). -/
def voteDecide (i : VoteIn) : VoteOut :=
  let sA := i.causeA == 0
  let sB := i.causeB == 0
  let sC := i.causeC == 0
  let outvoted := if i.voteTest then 0x0C else 0x09
  if i.availA && i.availB then
    if sA && sB then
      if i.agree then
        if !i.chkPresent then ⟨0x00, some i.active, none, false, 0, 0⟩
        else if !sC then ⟨0x09, some i.active, none, false, i.causeC, 0⟩
        else if (if i.active = 0 then i.kA else i.kB) then ⟨0x00, some i.active, none, false, 0, 0⟩
        else ⟨0x01, some i.active, none, false, if i.prevRow = 0x01 then 0x0D else 0, 0⟩
      else if !(i.chkPresent && sC) then ⟨0x07, none, none, false, 0, 0x04⟩
      else match i.kA, i.kB with
        | false, true => ⟨0x02, some 1, some (0, outvoted), false, 0, 0⟩
        | true, false => ⟨0x03, some 0, some (1, outvoted), false, 0, 0⟩
        | true, true =>
          if i.pA == i.pB then ⟨0x05, some i.active, none, true, 0, 0⟩
          else if i.pA then ⟨0x04, some 0, some (1, 0x0A), false, 0, 0⟩
          else ⟨0x04, some 1, some (0, 0x0A), false, 0, 0⟩
        | false, false =>
          if i.prevRow = 0x06 then ⟨0x06, none, none, true, 0, 0x04⟩ else ⟨0x06, some i.active, none, true, 0, 0⟩
    else if sA then ⟨0x08, some 0, some (1, i.causeB), false, 0, 0⟩
    else if sB then ⟨0x08, some 1, some (0, i.causeA), false, 0, 0⟩
    else ⟨0x0A, none, none, false, 0, 0x03⟩
  else if i.availA || i.availB then
    let x := if i.availA then 0 else 1
    let s := if i.availA then sA else sB
    let k := if i.availA then i.kA else i.kB
    if !s then ⟨0x0D, none, none, false, 0, 0x03⟩
    else if !i.chkPresent then ⟨0x0B, some x, none, false, 0, 0⟩
    else if !sC then ⟨0x0E, some x, none, false, i.causeC, 0⟩
    else if k then ⟨0x0B, some x, none, false, 0, 0⟩
    else if i.prevRow = 0x0C then ⟨0x0C, none, none, false, 0x0D, 0x04⟩
    else ⟨0x0C, some x, none, false, 0, 0⟩
  else ⟨0x0A, none, none, false, 0, 0x03⟩

/-- Whether a lane's duties lie within the checker band (R104): |d_X − d_C| ≤ floor(0.005 P), d_X rounded to whole counts. -/
def withinBand (periods : List Nat) (duties chk : List Nat) : Bool :=
  (List.range 12).all (fun h =>
    let p := nth periods (h / 6) 0
    let d := (roundAway (((nth duties h 0 : Nat) : Rat) / 32)).natAbs
    let k := nth chk h 0
    decide ((if d ≤ k then k - d else d - k) ≤ p * 5 / 1000))

/-- R101: a record's start integrators against the checker's copy; skipped per machine in the updates R101 names. -/
def integratorsOk (c : Store) (skip : List Bool) (copy : List (List Rat)) (recs : List LaneRecord) : Bool :=
  let tol : Rat := mkRat (c.u 0x2600 2) 1000
  [0, 1].all (fun m =>
    let r := nth recs m {}
    let k := nth copy m []
    nth skip m false || (List.range 4).all (fun j =>
      decide (absR (nth [r.intD, r.intQ, r.intDd, r.intDq] j 0 - nth k j 0) ≤ tol)))

/-- P_X: each machine's reference within the current limit in force and within one step tolerance of the record used in the
previous update. -/
def plausible (c : Store) (used recs : List LaneRecord) : Bool :=
  let tol : Rat := mkRat (c.u 0x2600 1) 1000
  [0, 1].all (fun m =>
    let r := nth recs m {}
    let u := nth used m {}
    let lim := c.pf (0x3012 + 0x1000 * m) 5 / iBase c m
    decide (r.idRef * r.idRef + r.iqRef * r.iqRef ≤ lim * lim)
      && decide ((r.idRef - u.idRef) * (r.idRef - u.idRef) + (r.iqRef - u.iqRef) * (r.iqRef - u.iqRef) ≤ tol * tol))

/-- Agreement of two reports: duties, speaker inputs, records and signature bit-identical (R102). -/
def reportsAgree (a b : LaneReport) : Bool :=
  a.duties == b.duties && a.spk == b.spk && a.recs == b.recs && a.sig == b.sig

/-- R109: where a dropped full lane goes. -/
def dropTarget (c : Store) (l : FullLane) (cause : Nat) : Nat :=
  if cause = 0x0C then 2
  else if !c.b 0x2200 0x12 || decide (3 ≤ l.readmissions) || cause == 0x01 || cause == 0x0B then 5
  else 2

/-- Drop a full lane with a cause (R109): it reads the state it will enter, and its self-test starts at the next M0 Trough. -/
def dropLane (c : Store) (cause : Nat) (l : FullLane) : FullLane :=
  { l with
    st := dropTarget c l cause, dropCause := cause, testing := none, testPassed := false, syncDone := false, probation := 0,
    hostTest := false, diverged := false }

namespace LaneState

/-- The lane of a number. -/
def lane (s : LaneState) (x : Nat) : FullLane := if x = 0 then s.a else s.b

/-- Whether a lane's part in the running update is over: it has reported, or the deadline has passed it (R32, cause 0x04). -/
def reported (s : LaneState) (x : Nat) : Bool := if x < 2 then (s.lane x).report.isSome else s.chk.report || s.chk.cause == 4

/-- Replace a lane. -/
def setLane (s : LaneState) (x : Nat) (f : FullLane → FullLane) : LaneState :=
  if x = 0 then { s with a := f s.a } else { s with b := f s.b }

/-- Available: ACTIVE or STANDBY. -/
def avail (s : LaneState) (x : Nat) : Bool := decide ((s.lane x).st ≤ 1)

/-- R115: no full lane is available, and one is under a host's test. -/
def underTest (s : LaneState) : Bool :=
  let tests (f : FullLane) : Bool := f.st == 2 && f.hostTest
  !s.avail 0 && !s.avail 1 && (tests s.a || tests s.b)

/-- Record a drop: the lane's state and Last drop cause (0x2200.0E). -/
def drop (c : Store) (s : LaneState) (x cause : Nat) : LaneState :=
  { s.setLane x (dropLane c cause) with lastDrop := x * 4096 + cause }

/-- Make a lane active; the other, where it was ACTIVE, becomes STANDBY. -/
def makeActive (s : LaneState) (x : Nat) : LaneState :=
  let s := s.setLane (1 - x) (fun l => if l.st = 0 then { l with st := 1 } else l)
  { s.setLane x (fun l => { l with st := 0 }) with active := x }

/-- Vote status (Table 5-8). -/
def voteStatus (s : LaneState) : Nat :=
  let has (n : Nat) : Bool := s.a.st == n || s.b.st == n
  b2n s.agree + 2 * b2n (s.a.diverged || s.b.diverged) + 4 * b2n (has 2 || s.chk.st == 2) + 8 * b2n (has 4) + 16 * b2n (has 3)
    + 32 * b2n (s.chk.st == 5) + 64 * b2n (s.avail 0 != s.avail 1) + 128 * b2n s.testFail + 256 * s.row

/-- A full lane that starts from the initial state that PROOFING gives (R115). -/
def restart (c : Store) (l : FullLane) : FullLane :=
  { l with
    st := 1, testing := none, testPassed := false, hostTest := false, diverged := false
    m := [{}, {}], next := [{}, {}], mem := recipeMem (imageWords (c.blob (objKey 0xC400 1))), nextMem := recipeMem (imageWords (c.blob (objKey 0xC400 1))) }

/-- The M0 Trough's part of a full lane's state (R109 to R112, R115): its test starts, a passed test leads to SYNCING or, with no lane to copy from, to a
restart, a finished transfer to PROBATION, a finished probation to STANDBY, and a diverged standby lane to SYNCING. o is the other full lane as the
Trough finds it. -/
def troughLane (c : Store) (now x : Nat) (o : FullLane) (s : LaneState) : LaneState :=
  let l := s.lane x
  if l.st = 2 then
    match l.testing with
    | none => s.setLane x (fun l => { l with testing := some now })
    | some _ =>
      if !l.testPassed then s
      else if o.st ≤ 1 then s.setLane x (fun l => { l with st := 3, testPassed := false, syncDone := false, testing := none })
      else if o.st = 2 && o.testing.isSome && !o.testPassed then s
      else s.setLane x (restart c)
  else if l.st = 3 then
    if l.syncDone then
      s.setLane x (fun l => { l with st := 4, syncDone := false, probation := 0, m := o.m, mem := o.mem, next := o.next, nextMem := o.nextMem })
    else s
  else if l.st = 4 then
    if l.testPassed then
      let counts := !(l.hostTest || l.diverged || l.dropCause == 0x0C)
      s.setLane x (fun l => { l with
        st := 1, testPassed := false, diverged := false, hostTest := false
        readmissions := if counts then l.readmissions + 1 else l.readmissions })
    else s
  else if l.st = 1 && l.diverged then { s.setLane x (fun l => { l with st := 3, syncDone := false }) with resyncs := inc32 s.resyncs }
  else s

/-- R115: the lane that was active stays active while it is available; else Lane A, else Lane B. -/
def chooseActive (s : LaneState) : LaneState :=
  if s.active ≤ 1 ∧ s.avail s.active then s.setLane s.active (fun l => { l with st := 0 })
  else if s.avail 0 then s.makeActive 0
  else if s.avail 1 then s.makeActive 1
  else s

/-- R114: the roles exchange at the first M0 Trough at least 1 µs (200 ticks) after the write. -/
def troughSwap (s : LaneState) (now : Nat) : LaneState :=
  match s.swapPending with
  | none => s
  | some t =>
    if t + 200 ≤ now then
      let s := { s with swapPending := none }
      if s.avail 0 && s.avail 1 then s.makeActive (1 - s.active) else s
    else s

end LaneState

/-- The checker's part of an update (R99, R100): its duties of each machine from each record, once, from Lane A's, where the records are bit-identical. -/
def checkerRun (c : Store) (envs : List LaneEnv) (act : FullLane) (ra rb : Option LaneReport) (k : CheckerLane) : CheckerLane :=
  let rec_ (o : Option LaneReport) (m : Nat) : Option (LaneRecord × LaneFeed) := o.map (fun r => (nth r.recs m {}, nth r.feeds m {}))
  let same (m : Nat) : Bool := (rec_ ra m).isSome && (rec_ ra m).map (·.1) == (rec_ rb m).map (·.1)
  let of (o : Option LaneReport) : List Nat := [0, 1].flatMap (fun m =>
    match if same m then rec_ ra m else rec_ o m with
    | some r => checkerDuties c (nth envs m {}) (nth act.m m {}) r.1 r.2
    | none => [])
  { k with fromA := of ra, fromB := of rb }

end Sys2Proof.Machine
end

