-- ==== Sys2Proof/Machine/Ops.lean ====
section
/-! DEFINITION. The operations over the whole state that the commands share: the configuration in force, event-log records, changes of the device
state, fault reports, BEDROCK and THERMAL STOP (chapters 14, 15 and 21). -/

namespace Sys2Proof.Machine

/-! ### Stops of single blocks -/

/-- Hearth and its block grid stopped (R164, R165): its signals are gone; its counters, latched status bits and the recipe with its data memory stay (R173).
A recipe that a dropped block was to start starts with the first block after the stop. -/
def HearthState.halt (h : HearthState) : HearthState :=
  { blocks := h.blocks, overruns := h.overruns, clips := h.clips, recipeFaults := h.recipeFaults, shifts := h.shifts
    recipeFault := h.recipeFault, alignShift := h.alignShift, overrun := h.overrun, clip := h.clip, recipeSt := if h.jobs.any (fun j => j.newRecipe) then 0 else h.recipeSt, mem := h.mem
    portRefusals := h.portRefusals, completed := h.completed }

/-- A port stopped: its run-time state is gone; its counters and latched status bits stay. -/
def AspPort.halt (p : AspPort) : AspPort :=
  { loss := p.loss, rateErr := p.rateErr, glitch := p.glitch, slip := p.slip, underruns := p.underruns, overruns := p.overruns
    glitched := p.glitched, losses := p.losses, rateErrors := p.rateErrors, frames := p.frames, rxCairn := p.rxCairn, txCairn := p.txCairn }

/-- A listener stopped. -/
def Listener.halt (l : Listener) : Listener :=
  { late := l.late, seqGap := l.seqGap, formatErr := l.formatErr, latePdus := l.latePdus, gaps := l.gaps, formatErrors := l.formatErrors, cairn := l.cairn }

/-- The audio ports and network streams stopped (R296, R418); the audio clock runs on. -/
def AudioState.halt (a : AudioState) : AudioState :=
  { a with
    asp := a.asp.map AspPort.halt
    lis := a.lis.map Listener.halt
    tal := a.tal.map (fun (t : Talker) => { t with sending := false, sent := [], held := [], count := 0 })
    micOn := a.micOn.map (fun _ => false), micWake := a.micWake.map (fun _ => none) }

/-- A machine's canceller without its orders' signals: every order OFF with no weight. -/
def Canceller.halt (x : Canceller) : Canceller := { latest := x.latest }

/-- The cancellers, the accelerometer reads and the identification stopped with Hearth. -/
def CancState.halt (s : CancState) : CancState :=
  { s with
    acc := s.acc.map (fun (p : AccPort) => { p with reading := none })
    m := s.m.map Canceller.halt, ident := { passed := s.ident.passed, failed := s.ident.failed, failFlag := s.ident.failFlag, mask := s.ident.mask, machine := s.ident.machine } }

/-- The abort of an identification as of a tap test (R197, R221). -/
def TapState.identAborted (cause : Nat) (t : TapState) : TapState :=
  { t with aborted := true, result := cause, abortedCount := inc32 t.abortedCount }

/-- A change of state ends a running tap test, an identification and a test signal (R221, R233). -/
def DiagState.leave (now : Nat) (ident : Bool) (d : DiagState) : DiagState :=
  let t : TapState := { d.tap.abort now 5 with queue := [] }
  { d with tap := if ident then t.identAborted 5 else t, sig := if d.sig.running || d.sig.dueFn.isSome || d.sig.dueTime.isSome then d.sig.stop 5 else d.sig }

/-- The identification ends with its state (R197, R221). -/
def CancState.leave (now : Nat) (s : CancState) : CancState := { s with ident := s.ident.stop now }

/-- Every weight is 0 at an entry into READY (R189). -/
def CancState.clearWeights (s : CancState) : CancState :=
  { s with m := s.m.map (fun (x : Canceller) => { x with orders := x.orders.map (fun (o : Order) => { o with w := {}, started := false }) }) }

/-- The capture stops at once (R235). -/
def Capture.halt (x : Capture) : Capture := { x with running := false, request := none }

/-- Lane A, Lane B and the checker lane stopped: Active lane reads 2 (R296). -/
def LaneState.halt (l : LaneState) : LaneState := { l with active := 2, running := false, swapPending := none, voteTest := none }

/-- Both control modes set to 0 with no fade (R317). -/
def MachCtl.off (x : MachCtl) : MachCtl := { x with mode := 0, fadeFrom := none, enter := decide (x.mode ≠ 0) }

/-- The gate-driver links stopped: a pass under way and what waits for the link are dropped (Table 22-3). -/
def TripState.cutLinks (t : TripState) : TripState :=
  { t with gdl := t.gdl.map (fun (x : GdlLink) => { x.rest with request := none, rerun := false }) }

/-- A running save abandoned with a result of Table 16-11. -/
def PersistState.abandon (result : Nat) (p : PersistState) : PersistState :=
  if p.running.isSome then { p with running := none, result := result } else p

/-- The staged copies set equal to the active copies, every pending commit discarded, and the parts of basic writes that still wait made to
rewrite both copies when they apply (R41). -/
def CommitState.discard (c : CommitState) : CommitState :=
  { c with pending := [], writes := c.writes.map (fun (w : PendWrite) => { w with late := 0x3FFF }) }

/-- A session's end: its transfers and the snapshots that it reads are dropped with it (R332, R350). -/
def TableState.dropSession (k : Nat) (t : TableState) : TableState :=
  { t with transfers := t.transfers.filter (fun x => x.session != k), snaps := t.snaps.filter (fun e => e.1 % 16 != k) }

/-! ### The store in force -/

/-- A store with each of its pairs that fails its complement check given another raw value. -/
def Store.mend (v : Nat → Nat → Nat) (a : Store) : Store :=
  a.vals.foldl (fun c e =>
    match findRow e.1 with
    | some r => if r.ty.isPair && !pairOk e.2 then c.put e.1 (v e.1 e.2) else c
    | none => c) a

/-- Code 0x11: a pair that fails its complement check is rewritten from the copy that passes; one that fails in both copies stays. -/
def Store.heal (a b : Store) : Store := a.mend (fun key raw => if pairOk (b.raw key) then b.raw key else raw)

/-- R43: what a consumer uses: of a pair that fails its complement check the copy that passes, and where both fail the last value that passed. -/
def Store.inForce (a b passed : Store) : Store := a.mend (fun key _ => if pairOk (b.raw key) then b.raw key else passed.raw key)

/-- Whether a pair of the store fails its complement check. -/
def Store.damaged (a : Store) : Bool :=
  a.vals.any (fun e => match findRow e.1 with | some r => r.ty.isPair && !pairOk e.2 | none => false)

namespace State

/-- The key of a machine's control mode (0x3000.01, 0x4000.01). -/
def modeKey (m : Nat) : Nat := objKey (0x3000 + 0x1000 * m) 1

/-- The system counter (R30). -/
def now (s : State) : Nat := s.dev.counter

/-- The configuration that the consumers use: the active copies, with the offsets of the zero check in the active scaling (R417), and with both control
modes 0 outside RUN (R83, R317). -/
def cfg (s : State) : Store :=
  let c := s.active.inForce s.active2 s.passed
  let c := if s.dev.state = 5 then c else (c.put (modeKey 0) 0).put (modeKey 1) 0
  s.sense.zeros.foldl (fun c e => c.put e.1 e.2) c

/-- The states in which the object table is live (Table 21-4). -/
def live (s : State) : Bool := s.dev.state == 4 || s.dev.state == 5 || s.dev.state == 6 || s.dev.state == 8 || s.dev.state == 7

/-- READY, RUN and SERVICE. -/
def working (s : State) : Bool := s.dev.state == 4 || s.dev.state == 5 || s.dev.state == 6

/-- The device runs: supplied, out of reset and started, in PROOFING or a later state. -/
def up (s : State) : Bool := s.dev.npor && s.dev.nrst && decide (3 ≤ s.dev.state)

/-- The device runs and is not in BEDROCK, which keeps only the functions of Table 14-3 (R297). -/
def full (s : State) : Bool := s.up && s.dev.state != 7

/-- THERMAL STOP, in which no flash operation but the thermal record starts (R320). -/
def stopped (s : State) : Bool := s.dev.state == 8

/-- An operation on the active values: on both copies of the active store, and on the values that last passed. -/
def onActive (f : Store → Store) (s : State) : State := { s with active := f s.active, active2 := f s.active2, passed := f s.passed }

/-- An object's active value. -/
def putActive (key raw : Nat) (s : State) : State := s.onActive (fun c => c.put key raw)

/-- R83: outside RUN both control modes stand at 0. -/
def zeroModes (s : State) : State := if s.dev.state = 5 then s else (s.putActive (modeKey 0) 0).putActive (modeKey 1) 0

/-- R326: the commit token moves, from 0x0001 to 0xFFFF and back to 0x0001. -/
def moveToken (s : State) : State :=
  { s with commit := { s.commit with token := if s.commit.token = 65535 then 1 else s.commit.token + 1 } }

/-- R400: an event-log record of a kind with its payload. -/
def logEvent (kind : Nat) (payload : List Byte) (s : State) : State :=
  { s with flash := s.flash.logRecord s.stopped (FlashState.eventBytes kind s.frame.fn s.now s.flash.bootCount payload) }

/-- A session closed (R350); a SERVICE session's close asks for READY (Table 21-5). -/
def closeSession (k : Nat) (s : State) : State :=
  { s with
    net := { s.net with sessions := s.net.sessions.set k none }
    table := s.table.dropSession k
    dev := if s.dev.state = 6 && s.dev.serviceSession == some k && s.dev.request.isNone then
        { s.dev with request := some { code := 1, time := s.dev.counter, session := 16 }, serviceSession := none } else s.dev }

/-- Every session that p selects is closed. -/
def closeSessions (p : Session → Bool) (s : State) : State :=
  (List.range 16).foldl (fun s k => match nth s.net.sessions k none with | some x => if p x then s.closeSession k else s | none => s) s

/-- R228: a tap test that ended or was aborted since an earlier state leaves one event-log record; in PROOFING one that did not pass fails its step
(R416). -/
def tapLog (before s : State) : State :=
  let t := s.diag.tap
  if t.completed == before.diag.tap.completed && t.abortedCount == before.diag.tap.abortedCount then s else
  let temp := if t.load < 2 then (nth t.mach t.load {}).temp else (nth t.spk (t.load - 2) {}).temp
  let s : State := { s with dev := { s.dev with stepBad := s.dev.stepBad || (before.dev.state == 3 && t.result != 1) } }
  s.logEvent 4 (toBytes 4 (t.status s.canc.ident.queued.isSome s.canc.ident.running) ++ toBytes 4 temp)

/-! ### Changes of state (R411 to R415) -/

/-- The temperature reference and node 2 sensor of a load (R205, R206): its slot's value where one is configured and valid. -/
def loadSlot (c : Store) (s : State) (l sub : Nat) : Option Rat :=
  let w := c.u (0x8010 + l) sub
  if w = 0 then none else s.hk.slotValid (w - 1)

/-- The load models at a change of state (R201, R206): their temperatures start at each entry into READY, the rest of their state at one from a state in
which they stood; they stop outside READY, RUN and SERVICE. -/
def loadsFor (dst : Nat) (s : State) : List LoadModel :=
  let start (l : Nat) (x : LoadModel) : LoadModel := x.start s.cfg l (loadSlot s.cfg s l 1) (loadSlot s.cfg s l 0x11) s.now
  if dst = 4 && !s.working then s.loads.mapIdx start
  else if dst = 4 then
    s.loads.mapIdx (fun l (x : LoadModel) =>
      let y := start l x
      { x with t1 := y.t1, t2 := y.t2, tRef := y.tRef, refLost := y.refLost, gCoil := y.gCoil, fTh := y.fTh })
  else if dst = 4 || dst = 5 || dst = 6 then s.loads
  else s.loads.map (fun (x : LoadModel) => { attacks := x.attacks, overshoots := x.overshoots, overshoot := x.overshoot, trackReject := x.trackReject })

/-- Hearth and its grid at a change of state (R164, R165): the grid that PROOFING started goes on at READY entry; from another state the grid starts
at its first boundary. -/
def hearthFor (dst : Nat) (s : State) : HearthState :=
  let on := dst == 4 || dst == 5 || dst == 6
  if on then (if s.hearth.running then s.hearth else { s.hearth with running := true, blocks := 0 }) else s.hearth.halt

/-- A transition of Table 21-5 with its cause code. own says that it is the pending request's own; any other discards the request (R415). -/
def goState (dst cause : Nat) (own : Bool) (s : State) : State :=
  tapLog s { s with
    dev := { s.dev with
      state := dst, transition := s.dev.state * 2 ^ 28 + dst * 2 ^ 24 + cause * 2 ^ 16, request := none, exitFade := none, fadeOver := false, step := 0
      refusal := if s.dev.request.isSome && !own then 9 else s.dev.refusal
      serviceSession := if dst = 6 then s.dev.serviceSession else none }
    hearth := s.hearthFor dst
    crust := if dst = 4 || dst = 7 then
        { s.crust.arm s.dev.counter with hearthAt := if dst = 4 && !s.working then some s.dev.counter else s.crust.hearthAt } else s.crust
    loads := s.loadsFor dst
    audio := if dst = 4 || dst = 5 || dst = 6 then s.audio else s.audio.halt
    canc := if dst = 4 then (s.canc.leave s.now).clearWeights else if dst = 5 || dst = 6 then s.canc.leave s.now else s.canc.halt
    diag := s.diag.leave s.now s.canc.ident.running }

/-! ### BEDROCK (R296 to R300) -/

/-- R420: the retained register at BEDROCK entry; a thermal record is not overwritten. -/
def retainBedrock (word : Nat) (s : State) : State :=
  if bits s.dev.retained 63 60 = 2 || bits s.dev.retained 63 60 = 3 then s else
  { s with dev := { s.dev with retained := 2 ^ 60 + 2 ^ 59 + (word % 65536) * 2 ^ 40 + s.frame.fn % 2 ^ 32 } }

/-- R298: the hard-limit states of BEDROCK: no pattern, no discharge, no tone, SOFF_H and SOFF_L low. -/
def hardStates (s : State) : State :=
  { s with
    fault := { s.fault with hardLimit := true }
    trip := { s.trip with
      g := s.trip.g.map (fun (g : TripGroup) => { g with inhibit := setBit g.inhibit 30 true, delayFrom := none })
      dis := { lockUntil := s.trip.dis.lockUntil, timeout := s.trip.dis.timeout, windFail := s.trip.dis.windFail, done := s.trip.dis.done } }
    crust := { s.crust with toneOn := false, toneFade := 0, soff := s.crust.soff.command s.crust.usec false false } }

/-- The chain use of a machine: 0 alone, 1 widen, 2 deepen. -/
def chainUse (m : Nat) (s : State) : Nat := s.cfg.u 0xD000 (7 + m)

/-- Whether this device is the twin or half at the lower position. -/
def lowerHalf (m : Nat) (s : State) : Bool := decide (s.chain.position < s.cfg.u 0xD000 (9 + m))

/-- Whether the link to a machine's partner is up: RIDGE_DN toward a higher position, RIDGE_UP toward a lower one (R374). -/
def partnerLink (m : Nat) (s : State) : Bool := if s.lowerHalf m then s.chain.dn.up else s.chain.up.up

/-- R386: the active twin sends a hand-off; it stands by from then on. -/
def handOffTo (m : Nat) (s : State) : State :=
  { s with chain := { s.chain with m := upd s.chain.m m (fun x => { x with twin := 2, handoff := false, asked := false }) } }

/-- R386 at BEDROCK entry: an active twin with its twin standing by over a link that is up hands its machine off and locks the group with no pattern. -/
def twinHandOff (m : Nat) (s : State) : State :=
  if (nth s.chain.m m {}).twin = 1 && s.partnerLink m then
    let s := s.handOffTo m
    { s with trip := s.trip.setGroup m (fun g => { g with inhibit := setBit g.inhibit 31 true, delayFrom := none }) }
  else s

/-- R386 at THERMAL STOP entry. -/
def twinLeave (m : Nat) (s : State) : State :=
  if (nth s.chain.m m {}).twin = 1 && s.partnerLink m then s.handOffTo m else s

/-- R296: what stops and what is kept when BEDROCK is entered. -/
def bedrockStops (byVote : Bool) (s : State) : State :=
  { s with
    trip := (s.trip.lockAll s.now byVote).cutLinks
    commit := s.commit.discard
    staged := s.active
    lanes := s.lanes.halt
    audio := s.audio.halt
    ctl := s.ctl.map MachCtl.off
    diag := { s.diag with cap := s.diag.cap.halt, tap := { s.diag.tap with queue := [] } }
    crust := { s.crust with hostReq := 0, voteBedrock := s.crust.voteBedrock || byVote }
    flash := { s.flash.stopUpdate.abandonStarter with importUser := [] }
    persist := s.persist.abandon 4 }

/-- R296, R415: a BEDROCK cause. In BEDROCK it is logged and changes nothing else; in a state without a transition to BEDROCK it has no effect. group
is the group of a second fault, byVote marks a row of the vote. -/
def enterBedrock (cause group : Nat) (byVote : Bool) (s : State) : State :=
  let word := cause * 256 + group
  if s.dev.state = 7 then s.logEvent 3 (toBytes 2 word ++ [2]) else
  if s.up = false then s else
  let hard := s.dev.state == 8 && (s.hk.stopAt == 2 || s.hk.hardSeen)
  let s := s.bedrockStops byVote
  let s : State := { s with trip := { s.trip with g := s.trip.g.map (fun (g : TripGroup) => { g with inhibit := setBit g.inhibit 29 false }) } }
  let s := (s.twinHandOff 0).twinHandOff 1
  let s := s.goState 7 7 false
  let s : State := { s with fault := s.fault.setCause cause group s.frame.fn s.now }
  let s := (s.retainBedrock word).closeSessions (fun x => x.iface != 3)
  let s := s.logEvent 3 (toBytes 2 word ++ [1])
  if hard then s.hardStates else s

/-! ### Fault reports (R290 to R294, R301) -/

/-- R290, R301: a single fault is recorded and logged, and R293 decides whether it is a second fault. -/
def singleFault (code group detail : Nat) (s : State) : State :=
  let second := s.fault.isSecond code group
  let s : State := { s with fault := s.fault.record code group detail s.frame.fn s.now }
  let s := if code = 0x10 then s else s.logEvent 2 (toBytes 4 s.fault.last ++ toBytes 4 s.fault.standing)
  if second then s.enterBedrock 1 group false else s

/-- A report of one block. -/
def raise (g : Signal) (s : State) : State :=
  match g with
  | .fault code group detail => s.singleFault code group detail
  | .second group => s.enterBedrock 1 group false
  | .bedrock cause => s.enterBedrock cause 0 false
  | .restored b => { s with fault := s.fault.restore b }

/-- Reports in order. -/
def raiseAll (l : List Signal) (s : State) : State := l.foldl (fun s g => s.raise g) s

/-! ### THERMAL STOP (R317 to R320) -/

/-- R317: every output high impedance, no pattern, modes 0, Hearth, models, tests and capture stopped; NVM by R320, or by R319 where hard. -/
def thermalStop (hard : Bool) (s : State) : State :=
  let from_ := s.dev.state
  let f := (s.flash.cut hard).stopUpdate.abandonStarter
  let rec_ := HkState.record s.cfg from_ s.frame.fn s.now f.nvmOp f.nvmSector s.hk
  let s : State := { s with
    ctl := s.ctl.map MachCtl.off
    trip := { s.trip.cutLinks with g := s.trip.g.map (fun (g : TripGroup) => { g with inhibit := setBit g.inhibit 29 true }) }
    diag := { s.diag with cap := s.diag.cap.halt, tap := { s.diag.tap with queue := [] } }
    persist := s.persist.abandon 3
    flash := f
    hk := { s.hk with stops := inc32 s.hk.stops, stopAt := if hard then 2 else 1, hardSeen := hard } }
  let s := ((s.twinLeave 0).twinLeave 1).goState 8 8 false
  if hard then
    { s with dev := { s.dev with retained := HkState.retained s.frame.fn (if s.flash.nvmOp = 3 then 1 else if s.flash.nvmOp = 2 then 2 else 0) s.flash.nvmSector s.hk } }
  else { s with flash := s.flash.push true (.thermal (rec_ ++ toBytes 4 (crc32 rec_))) }

/-- R319: the hard limit during a thermal stop governs from then on. -/
def hardenStop (s : State) : State :=
  let f := s.flash.cut true
  { s with
    hk := { s.hk with stopAt := 2, hardSeen := true, stops := s.hk.stops }
    flash := { f with jobs := f.jobs.filter (fun j => classOf j.kind != 1) }
    dev := { s.dev with retained := HkState.retained s.frame.fn (if f.nvmOp = 3 then 1 else if f.nvmOp = 2 then 2 else 0) f.nvmSector s.hk } }
where
  /-- The class of an operation. -/
  classOf (k : FlashKind) : Nat := FlashState.classOf k

/-- R318: the release of a THERMAL STOP entered at the stop threshold. -/
def thermalRelease (s : State) : State :=
  let s : State := { s with
    trip := { s.trip with g := s.trip.g.map (fun (g : TripGroup) => { g with inhibit := setBit g.inhibit 29 false }) }
    hk := { s.hk with stopAt := 0, hardSeen := false } }
  let s := s.goState 4 9 false
  { s with flash := s.flash.startNext false }

/-! ### Trip sources from inside the device (R141, R143) -/

/-- New trip logic takes effect (R148): where it latches a new source on a group, a tap test and an identification on that load are aborted (R221), a
test signal on that machine ends (R233), a winding discharge on it fails (R157), and a first latch from ARMED can trigger the capture. A trip of a machine ends a running fade out
of RUN (R414). -/
def tripTo (t : TripState) (s : State) : State :=
  let new (k : Nat) : Bool := (bitsSet 32 (t.group k).latched).any (fun b => !bit (s.trip.group k).latched b)
  let first := t.trips != s.trip.trips
  let t := (if new 1 then t.windFail s.cfg s.now 1 else t)
  let t := (if new 0 then t.windFail s.cfg s.now 0 else t)
  let d := s.diag
  let sig := if d.sig.running && new (d.sig.target / 128) then d.sig.stop 4 else d.sig
  let tap := if new d.tap.load then d.tap.abort s.now 4 else d.tap
  let ident := s.canc.ident.running && new s.canc.ident.machine
  let tripped (k : Nat) : Bool := (t.group k).tripped && !(s.trip.group k).tripped
  tapLog s { s with
    trip := t
    dev := { s.dev with fadeOver := s.dev.fadeOver || (s.dev.exitFade.isSome && (tripped 0 || tripped 1)) }
    diag := { d with tap := if ident then tap.identAborted 4 else tap, sig := sig, cap := { d.cap with tripSeen := d.cap.tripSeen || first } }
    canc := if ident then s.canc.leave s.now else s.canc }

/-- The vote source of a traction group. -/
def voteSource (m : Nat) (on : Bool) (s : State) : State := s.tripTo (s.trip.source s.now m srcVote false on)

/-- R380: whether the device sends a broadcast of its own: SEND set and any source but RIDGE active on any group. -/
def broadcasting (s : State) : Bool :=
  bit (s.cfg.u 0x5450 0xD) 30 && bit (s.cfg.u 0x5450 0xD) 31 && s.trip.g.any (fun g => setBit g.active srcRidge false != 0)

end State

end Sys2Proof.Machine
end

