-- ==== Sys2Proof/Machine/Pins.lean ====
section
/-! DEFINITION. What the device drives at its outputs, formed from the state (R13, R14, R129, R131, R140, R155, R423): no ball has a state of its
own. -/

namespace Sys2Proof.Machine

/-- What an output does: high impedance, a level, the voted duties, the safe pattern (1 active short circuit, 2 freewheel), the winding discharge, a
speaker's modulation, or the Bedrock tone. -/
inductive Drive where
  | z
  | low
  | high
  | duties
  | pattern (k : Nat)
  | winding
  | modulated
  | tone
  deriving DecidableEq, Repr

namespace State

/-- R219: whether the tap-test engine drives a machine through the lanes: from the start of a tap test or an identification in PROOFING or SERVICE to
the machine's next Trough after its fade, which a change to READY does not cut off (R221). -/
def engineDrives (m : Nat) (s : State) : Bool :=
  (s.dev.state == 3 || s.dev.state == 4 || s.dev.state == 6) && nth s.diag.tap.held m false

/-- Both switches read back on (R219). -/
def safeOffOn (s : State) : Bool := s.crust.soff.rbh && s.crust.soff.rbl

/-- What drives the gate balls of a machine (R13, R14, R129, R131, R155). The voted duties need RUN or the engine with both switches read back on, an ARMED group, the output enable,
a loaded vote, a mode in use, and a machine that this twin holds; a standby twin drives no pattern, and a machine of a chain use whose partner has not
shown itself stays high impedance (chapter 19), and during the readback test both are high impedance (R286). -/
def traction (m : Nat) (s : State) : Drive :=
  if s.up = false || s.dev.state = 8 then .z else
  let g := s.trip.group m
  let x := nth s.mod.m m {}
  let on := (s.dev.state == 5 && (nth s.ctl m {}).mode != 0) || (s.engineDrives m && s.safeOffOn)
  let q := nth s.chain.m m {}
  if s.crust.soff.test.isSome || q.twin = 2 || (s.chainUse m != 0 && !q.partner) then .z
  else if s.trip.windDrives (nth s.mod.enabled m false) m then .winding
  else if g.patternOn then .pattern g.pattern
  else if s.dev.state != 7 && on && !g.tripped && nth s.mod.enabled m false && !x.noDuty then .duties
  else .z

/-- What drives the balls of a speaker (R131, R140, R220): its carrier while it is enabled, ARMED and started; in BEDROCK SPK0 carries the tone
while no source is active on it (R288). -/
def speaker (k : Nat) (s : State) : Drive :=
  if s.up = false || s.dev.state = 8 then .z else
  if s.dev.state = 7 then (if k = 0 && decide (0 < s.crust.toneFade) && (s.trip.group 2).active == 0 then .tone else .z) else
  let b := nth s.mod.spk k {}
  let here := s.working || (s.dev.state == 3 && s.diag.tap.drives (k + 2))
  if here && b.started && b.enabled && !(s.trip.group (k + 2)).tripped then .modulated else .z

/-- What Crust drives into SPK0 in BEDROCK (R288), in a carrier period of 64 SAFE clocks: the modulation in steps of 64 to the period, positive where
half-bridge A leads, of the sine at the frequency that sounds, at a time in µs of the SAFE clock. -/
def bedrockTone (t : Nat) (s : State) : Int :=
  let c := s.cfg
  let x := s.crust
  let f := if x.toneHi && c.pv 0x9060 3 != 0 then c.pv 0x9060 3 else c.pv 0x9060 2
  roundAway (64 * mkRat (c.pv 0x9060 5) 1000 * mkRat x.toneFade 100 * sinTurn (mkRat (f * (t - x.toneFrom)) 1000000))

/-- A test-pulse source's ball at the present Crust sample (R269, Table 13-10): high, low during its pulse, or the signature of its loop. -/
def testPulsePin (n : Nat) (s : State) : Drive :=
  if !s.dev.npor || !s.dev.nrst || s.dev.state = 0 || s.dev.state = 1 then .z
  else if s.dev.state = 2 then .low else
  let c := s.cfg
  let x := s.crust
  match tpMode c n with
  | 1 => match nth x.tpFrom n none with | some t => if x.usec < t + tpWidth c then .low else .high | none => .high
  | 2 => if (x.usec - x.tpOrigin) % (loopSig c n).1 < (loopSig c n).2 then .high else .low
  | _ => .high

/-- A group's output enable in force (R131): M0, M1, SPK0, SPK1. -/
def groupEnabled (k : Nat) (s : State) : Bool := if k < 2 then nth s.mod.enabled k false else (nth s.mod.spk (k - 2) {}).enabled

/-- Trip status of a group (Table 7-10). -/
def tripStatus (k : Nat) (s : State) : Nat := s.trip.status (s.groupEnabled k) k

/-- The safe-off switches' balls (R285, R298). -/
def safeOffPin (hi : Bool) (s : State) : Drive :=
  if !s.dev.npor || !s.dev.nrst || s.dev.state = 0 || s.dev.state = 1 || s.dev.state = 8 then .z
  else if s.dev.state = 2 then .low
  else if (if hi then s.crust.soff.hCmd else s.crust.soff.lCmd) then .high else .low

/-- The discharge ball (R159, R298). -/
def dchgPin (s : State) : Drive :=
  if !s.dev.npor || !s.dev.nrst || s.dev.state = 0 || s.dev.state = 1 || s.dev.state = 8 then .z
  else if s.dev.state = 7 && s.fault.hardLimit then .z
  else if s.trip.dis.dchgSince.isSome then .high else .low

/-- Whether SDCLKn has a rising edge at a counter value, while the clocks run (R47): every t_mod from the edge placed on the first M0 Trough. -/
def sdClockEdge (n t : Nat) (s : State) : Bool :=
  s.up && s.dev.state != 8 && decide (((t : Int) - (if n < 3 then s.sense.iEdge else s.sense.vEdge)) % (sdDivider s.cfg (if n < 3 then 0 else 24) : Nat) = 0)

/-- The excitation that a resolver front end drives (R65): its frequency in Hz and its amplitude in mVpp, corrected for temperature (Table 15-3). -/
def excitation (n : Nat) (s : State) : Option (Nat × Rat) :=
  if s.up then some (s.cfg.u (0x6100 + 16 * n) 1, (s.cfg.u (0x6100 + 16 * n) 2 : Rat) * (1 + mkRat (nth s.hk.trims 3 0) 1000)) else none

/-! ### The other outputs of Table 22-3 (R423) -/

/-- An output ball, or a group of alike balls, of Table 22-3. -/
inductive Ball where
  | sdclk (n : Nat)
  | excitation (n : Nat)
  | encClk (n : Nat)
  | gdlSclk (n : Nat)
  | gdlSdo (n : Nat)
  | gdlCs (n : Nat)
  | accCs (n : Nat)
  | accSclk (n : Nat)
  | accMosi (n : Nat)
  | pdmClk (n : Nat)
  | aspDout (n : Nat)
  | canTx (n : Nat)
  | tp (n : Nat)
  | ridgeTx (upper : Bool)
  | benchMiso
  | pwrReq
  | trace
  deriving DecidableEq, Repr

/-- What Table 22-3 gives an output: high impedance, an internal pull alone, a level, both lines at common mode, a recessive bus, Ridge fill symbols, or
the signal of the unit that owns the port. -/
inductive Level where
  | z
  | pull (hi : Bool)
  | low
  | high
  | commonMode
  | recessive
  | fill
  | unit
  deriving DecidableEq, Repr

/-- The conditions that the columns of Table 22-3 name. -/
inductive PinColumn where
  | unpowered | reset | boot | proofing | idle | run | bedrock | thermal
  deriving DecidableEq, Repr

/-- The column in force; vddio says that VDDIO lies within its range. -/
def pinColumn (vddio : Bool) (s : State) : PinColumn :=
  if !vddio then .unpowered
  else if !s.dev.npor || !s.dev.nrst || decide (s.dev.state ≤ 1) then .reset
  else match s.dev.state with
    | 2 => .boot
    | 3 => .proofing
    | 5 => .run
    | 7 => .bedrock
    | 8 => .thermal
    | _ => .idle

/-- What the port's own unit holds on a ball while it works: a select ball is low, and a clock runs, only in a transfer. -/
def ownLevel (b : Ball) (s : State) : Level :=
  match b with
  | .encClk n => if s.cfg.u (0x6200 + 0x10 * n) 1 = 2 && (nth s.sense.enc n {}).ssiSince.isSome then .unit else .high
  | .gdlSclk n | .gdlSdo n => if (nth s.trip.gdl n {}).busy then .unit else .low
  | .gdlCs n => if (nth s.trip.gdl n {}).busy then .low else .high
  | .accCs n => if (nth s.canc.acc n {}).reading.isSome then .low else .high
  | .accSclk n | .accMosi n => if (nth s.canc.acc n {}).reading.isSome then .unit else .high
  | .pdmClk n => if s.hearth.running && (nth s.audio.micOn (2 * n) false || nth s.audio.micOn (2 * n + 1) false) then .unit else .low
  | _ => .unit

/-- R423: the level of an output ball beside the gates, the speakers, the safe-off switches and DCHG, which traction, speaker, safeOffPin and dchgPin
give. -/
def ballLevel (vddio : Bool) (b : Ball) (s : State) : Level :=
  let col := s.pinColumn vddio
  let live := col == .idle || col == .run
  match b with
  | .pwrReq => if s.dev.pwrReq then .high else .low
  | .sdclk _ => (match col with
    | .unpowered => .z | .reset => .pull false | .boot | .thermal => .low | _ => .unit)
  | .excitation _ => (match col with
    | .unpowered | .reset => .z | .boot => .commonMode | _ => .unit)
  | .encClk _ => (match col with
    | .unpowered => .z | .reset => .pull true | .boot | .bedrock | .thermal => .high | _ => s.ownLevel b)
  | .gdlSclk _ | .gdlSdo _ => (match col with
    | .unpowered => .z | .reset => .pull false | .boot | .bedrock | .thermal => .low | _ => s.ownLevel b)
  | .gdlCs _ | .accCs _ => (match col with
    | .unpowered => .z | .reset => .pull true | .boot | .bedrock | .thermal => .high | _ => s.ownLevel b)
  | .accSclk _ | .accMosi _ => (match col with
    | .unpowered => .z | .reset => .pull true | _ => if live then s.ownLevel b else .high)
  | .pdmClk _ => (match col with
    | .unpowered => .z | .reset => .pull false | _ => if live then s.ownLevel b else .low)
  | .aspDout n => if live && (nth s.audio.asp n {}).dout.any Option.isSome then .unit else .z
  | .canTx n => (match col with
    | .unpowered => .z | .reset => .pull true | .boot | .proofing => .recessive | .bedrock => if n = 0 then .unit else .recessive | _ => .unit)
  | .tp n => (match col with
    | .unpowered => .z | .reset => .pull false | .boot => .low
    | _ => match s.testPulsePin n with | .high => .high | _ => .low)
  | .ridgeTx _ => (match col with | .unpowered | .reset => .z | .boot => .fill | _ => .unit)
  | .benchMiso => (match col with | .unpowered | .reset => .z | _ => .unit)
  | .trace => (match col with | .unpowered => .z | .reset => .pull false | _ => .low)

/-- The trip broadcast sent on RIDGE_UP or RIDGE_DN (R380): the device's own, and one received on the other link. -/
def ridgeTripOut (upper : Bool) (s : State) : Bool := s.broadcasting || (if upper then s.chain.dn.rx else s.chain.up.rx)

end State

end Sys2Proof.Machine
end

