-- ==== Sys2Proof/Machine/Reads.lean ====
section
/-! DEFINITION. The value of every object that the device itself forms: RO objects and status objects whose write only clears flags, from the state
(the object tables of chapters 00 to 22). RW, RWS and RWP objects read from the stores. -/

namespace Sys2Proof.Machine

/-- A status bit word of Commit status (Table 2-7): whether any RWS object's staged value differs from its active one. -/
def stagedDiffers (active staged : Store) : Bool :=
  let rws (k : Nat) : Bool := match findRow k with | some r => r.acc == .rws | none => false
  active.vals.any (fun e => rws e.1 && staged.raw e.1 != e.2) || staged.vals.any (fun e => rws e.1 && active.raw e.1 != e.2)
    || active.blobs.any (fun e => rws e.1 && staged.blob e.1 != e.2) || staged.blobs.any (fun e => rws e.1 && active.blob e.1 != e.2)

/-- The groups that are accepted and not yet applied, as a mask (R39). -/
def CommitState.pendingMask (c : CommitState) : Nat := c.pending.foldl (fun a p => a ||| p.mask) 0

/-- Cycle budget of the lane recipe (R96) at a store's settings. -/
def cycleBudget (c : Store) : Nat := min 2000 ((20000000 * c.u 0x5400 1) / (200000000 * (if doubleUpdate c 0 then 2 else 1)))

/-- An F32 value of a speed in turns per second, rpm. -/
def rpmWord (x : Rat) : Nat := f32OfRat (x * 60)

/-- A value in 0.1 dB, 16 bits. -/
def decibelWord (x : Rat) : Nat := ofInt 16 (clampI (-32768) 32767 (roundAway (x * 10)))

namespace State

/-- The store of the RW values as last accepted (R331): the active copies with the waiting basic writes over them. -/
def accepted (s : State) (key : Nat) : Nat :=
  match (s.commit.writes.filter (fun w => w.own && w.key == key)).reverse with
  | w :: _ => w.raw
  | [] => s.active.raw key

/-! ### Readings per block of the index map -/

/-- Blocks 0x1000: identity and communication. -/
def read1 (s : State) (idx sub : Nat) : Nat :=
  let n := s.net
  match idx with
  | 0x1000 => (match sub with
    | 4 => Config.uniqueNumber % 2 ^ 64
    | 5 => s.flash.bankVersion s.flash.runningB
    | _ => objDefault (objKey idx sub))
  | 0x1010 => if sub = 1 then Config.macEthernet % 2 ^ 48 else if sub = 2 then Config.macT1s % 2 ^ 48 else 0
  | 0x1011 => (match sub with
    | 1 => n.links % 4 + 4 * b2n (bit (s.cfg.u 0x1010 6) 2) + 8 * b2n n.gptp.present
    | 2 => n.received
    | 3 => n.unsupported
    | 4 => n.oversize
    | _ => n.malformed)
  | 0x1013 => if sub = 0x2D then s.diag.cap.lostAll else if sub = 0x2E then s.flash.logDropped else nth n.drops (sub - 1) 0
  | 0x1020 => nth n.busOffs (sub - 9) 0
  | 0x1040 => n.gptp.losses
  | 0x1050 => (match sub with
    | 1 => ofBits (n.sessions.map Option.isSome)
    | 3 => (n.sessions.map (fun x => match x with | some x => (x.queue.map (fun r => r.items.length)).foldl (· + ·) 0 | none => 0)).foldl (· + ·) 0
    | 4 => n.authFails
    | 5 => n.replays
    | _ => n.duplicates)
  | 0x106C =>
    let i := nth n.images (sub - 1) {}
    b2n i.active + 2 * b2n i.timeout + 4 * b2n i.noGptp + 8 * b2n i.noSession + 16 * (i.delivered % 16)
  | 0x106D => (nth n.images (sub - 1) {}).rejects
  | 0x1411 => let k := nth n.slots (sub - 1) {}; k.level * 256 + min 255 k.writes
  | _ => 0

/-- Block 0x2000: states, time, commit, persistence, lanes and faults. -/
def read2 (s : State) (idx sub : Nat) : Nat :=
  let d := s.dev
  match idx with
  | 0x2000 => (match sub with
    | 1 => d.state
    | 3 => d.transition
    | 4 => d.refusal
    | 5 => d.step * 2 ^ 28 + b2n d.offsetSkipped * 65536 + d.stepFailed * 256 + d.stepDone
    | 6 => d.shutdown
    | _ => d.failedWakes)
  | 0x2010 => if sub = 7 then d.lastHold else nth d.histogram (sub - 1) 0
  | 0x2030 => (match sub with
    | 1 => 16 * b2n d.ethHold + 8 * b2n d.slewing + 4 * b2n d.backup + 2 * b2n d.refLost + b2n d.refOk
    | 2 => d.refLosses
    | _ => ofInt 32 d.backupDev)
  | 0x2040 => (match sub with
    | 1 => d.counter
    | 2 => s.frame.fn
    | 3 => s.frame.troughTime
    | 4 => if s.net.gptp.present then s.frame.gptpOffset else 0
    | _ => ofInt 32 s.frame.rateTrim)
  | 0x2100 => (match sub with
    | 2 => s.commit.token
    | 4 => s.commit.lastCode * 2 ^ 24 + s.commit.rejGroup * 65536 + s.commit.pendingMask + b2n (stagedDiffers s.active s.staged)
    | 5 => s.commit.lastFn
    | 6 => s.commit.lastTime
    | 7 => s.commit.rejObject
    | 8 => s.commit.target
    | 0xA => s.commit.applied
    | _ => s.commit.rejected)
  | 0x2110 => (match sub with
    | 2 => s.persist.result * 2 ^ 24 + b2n s.persist.done * 2 ^ 14
        + (match s.persist.running with | some (m, _) => m + 1 | none => 0)
    | 4 => s.persist.loaded
    | 5 => s.persist.dropped
    | _ => s.persist.completed)
  | 0x2120 => if sub = 1 then s.table.lastAbort else s.table.aborts
  | 0x2200 => (match sub with
    | 1 => s.lanes.a.st
    | 2 => s.lanes.b.st
    | 3 => s.lanes.chk.st
    | 4 => s.lanes.active
    | 5 => s.lanes.voteStatus
    | 6 => s.lanes.takeovers
    | 7 => s.lanes.disagreements
    | 8 => s.lanes.deviations
    | 9 => s.lanes.resyncs
    | 0xA => s.lanes.a.ecc
    | 0xB => s.lanes.b.ecc
    | 0xC => s.lanes.chk.ecc
    | 0xD => s.lanes.takeoverFn
    | 0xE => s.lanes.lastDrop
    | 0xF => s.lanes.a.readmissions
    | 0x10 => s.lanes.b.readmissions
    | 0x11 => max s.lanes.a.probation s.lanes.b.probation
    | _ => s.lanes.testResult)
  | 0x2300 => (match sub with
    | 1 => s.fault.standing
    | 2 => s.fault.single
    | 3 => s.fault.last
    | 4 => s.fault.lastFn
    | 5 => s.fault.lastTime
    | 6 => s.fault.cause
    | 7 => s.fault.causeFn
    | _ => s.fault.causeTime)
  | 0x2301 => nth s.fault.counters (sub - 1) 0
  | _ => 0

/-- The lane whose results the device publishes: the active one, Lane A where none is. -/
def pubLane (s : State) : FullLane := s.lanes.lane (if s.lanes.active = 1 then 1 else 0)

/-- Blocks 0x3000 and 0x4000: control of a machine. -/
def read3 (s : State) (m idx sub : Nat) : Nat :=
  let x := nth s.ctl m {}
  let p := nth s.pubLane.pub m {}
  match idx % 0x1000 with
  | 0x000 => if s.engineDrives m then 0 else x.mode
  | _ => (match sub with
    | 1 => (nth s.pubLane.m m {}).status
    | 2 => p.torque
    | 3 => p.id
    | 4 => p.iq
    | 5 => p.vd
    | 6 => p.vq
    | 7 => p.modIndex
    | 8 => p.limit
    | 9 => p.limitSource
    | 0xA => p.speed
    | _ => x.satEvents)

/-- Block 0x5000: modulation, trips, discharge and gate-driver links. -/
def read5 (s : State) (idx sub : Nat) : Nat :=
  match idx with
  | 0x5000 | 0x5010 =>
    let m := if idx = 0x5000 then 0 else 1
    let x := nth s.mod.m m {}
    (match sub with
    | 8 => modStatus x (s.traction m == .z)
    | 9 => x.period
    | _ => x.adjustments)
  | 0x5020 =>
    if sub = 7 ∨ sub = 8 then spkStatus (nth s.mod.spk (sub - 7) {}) (s.speaker (sub - 7) == .z) (sub == 7 && s.speaker 0 == .tone)
    else (nth s.mod.spk (sub - 9) {}).overloads
  | 0x5031 => (nth s.mod.events (sub - 1) {}).last
  | 0x5040 => (match sub with
    | 3 | 4 | 5 | 6 => s.tripStatus (sub - 3)
    | 8 => s.trip.refused
    | 9 => s.trip.trips
    | 0xA => s.trip.first
    | _ => s.trip.firstTime)
  | 0x5060 => s.trip.disStatus
  | 0x5070 => (match sub with
    | 6 | 7 => (nth s.trip.gdl (sub - 6) {}).status
    | 8 => s.trip.gdlLast
    | _ => (nth s.trip.gdl (sub - 9) {}).checkFailures)
  | _ => 0

/-- Block 0x6000: the Sifter and the position front ends. -/
def read6 (s : State) (idx sub : Nat) : Nat :=
  let c := s.cfg
  match idx with
  | 0x6020 => if sub = 3 then s.sense.activeWord else if sub = 4 then s.sense.failedWord else s.sense.switches
  | 0x6030 => (nth s.sense.dc (sub - 1) {}).volts
  | 0x6040 => f32OfRat (sdPhys c (sub - 1) (s.sense.path (sub - 1)).r)
  | 0x6041 => f32OfRat (sdPhys c (sub + 23) (s.sense.path (sub + 23)).r)
  | 0x6050 => if sub ≤ 32 then s.sense.sdStatus (sub - 1)
      else 4 * b2n (nth s.sense.micStuck (sub - 33) false) + 8 * b2n (nth s.sense.micClip (sub - 33) false)
  | 0x6100 | 0x6110 =>
    let n := if idx = 0x6100 then 0 else 1
    let x := nth s.sense.res n {}
    (match sub with
    | 5 => x.angle % 65536
    | 6 => rpmWord (x.speed / (c.u idx 4 : Rat))
    | 7 => x.status
    | _ => min 65535 x.amplitude)
  | 0x6200 | 0x6210 =>
    let n := if idx = 0x6200 then 0 else 1
    let x := nth s.sense.enc n {}
    (match sub with
    | 8 => if c.u idx 1 = 2 then x.ssiPos else x.count
    | 9 => rpmWord x.speed
    | _ => x.status)
  | 0x6300 => (nth s.sense.pos (sub - 4) {}).inUse
  | _ => objDefault (objKey idx sub)

/-- The stream that an input's source word names, if it is a port or a listener (Table 8-2). -/
def inputStream (s : State) (w : Nat) : Option RxStream :=
  match bits w 15 12 with
  | 1 => some (nth s.audio.asp (bits w 9 8) {}).stream
  | 2 => some (nth s.audio.lis (bits w 9 8) {}).stream
  | _ => none

/-- Block 0x7000: Hearth, the canceller, accelerometers, ports and streams. -/
def read7 (s : State) (idx sub : Nat) : Nat :=
  let c := s.cfg
  let h := s.hearth
  match idx with
  | 0x7000 => (match sub with
    | 1 => h.status c
    | 3 => h.cairn
    | 4 => h.blocks
    | 5 => h.overruns
    | 6 => h.clips
    | 7 => h.recipeFaults
    | 8 => h.shifts
    | _ => objDefault (objKey idx sub))
  | 0x7001 => (match s.inputStream (nth h.inputs (sub - 9) {}).src with
    | some x => ofInt 16 (clampI (-32768) 32767 (roundAway (x.resid * 1000000000 / 48000)))
    | none => 0)
  | 0x7003 => if sub ≤ 0xE then motorCeiling c (sub - 0xD) else milli (nth h.gain (sub - 0xF) 1)
  | 0x7010 | 0x7011 =>
    let g := nth h.gen (idx - 0x7010) {}
    if sub = 0x25 then f32OfRat g.f0 else decibelWord g.lvl
  | 0x7020 | 0x7021 => (nth h.chime (idx - 0x7020) {}).status
  | 0x7100 => (match sub with
    | 1 => s.canc.status
    | 3 => s.canc.ident.status
    | _ => s.canc.divergences)
  | 0x7104 | 0x7114 =>
    let m := (idx - 0x7104) / 16
    (nth (nth s.canc.m m {}).orders (sub - 1) {}).status (orderTable c m (sub - 1)).isEmpty
  | 0x7105 | 0x7115 => f32OfRat (nth (nth s.canc.m ((idx - 0x7105) / 16) {}).orders (sub - 1) {}).freq
  | 0x7106 | 0x7116 =>
    (roundAway ((nth (nth s.canc.m ((idx - 0x7106) / 16) {}).orders (sub - 1) {}).w.abs * 1000)).toNat % 65536
  | 0x7107 | 0x7117 => decibelWord (nth (nth s.canc.m ((idx - 0x7107) / 16) {}).orders (sub - 1) {}).atten
  | 0x7180 =>
    if sub = 0xA then s.canc.skips
    else b2n (nth s.canc.acc 0 {}).lostFlag + 2 * b2n (nth s.canc.acc 1 {}).lostFlag
  | 0x7181 => ofInt 16 (nth (nth s.canc.acc ((sub - 1) / 3) {}).latest ((sub - 1) % 3) 0)
  | 0x7200 | 0x7210 | 0x7220 | 0x7230 =>
    let p := nth s.audio.asp ((idx - 0x7200) / 16) {}
    (match sub with
    | 4 => p.status
    | 5 => p.underruns
    | 6 => p.overruns
    | 7 => p.glitched
    | 8 => p.losses
    | 9 => p.rateErrors
    | 0xA => p.rate
    | 0xB => p.rxCairn
    | _ => p.txCairn)
  | 0x7240 => if sub = 2 then ofInt 32 s.audio.aud.trim else s.audio.aud.status
  | 0x7260 | 0x7261 =>
    let l := nth s.audio.lis (idx - 0x7260) {}
    (match sub with
    | 5 => l.status (c.b idx 1 && !s.net.gptp.present)
    | 6 => l.latePdus
    | 7 => l.gaps
    | 8 => l.formatErrors
    | _ => l.cairn)
  | 0x7270 | 0x7271 =>
    let t := nth s.audio.tal (idx - 0x7270) {}
    if sub = 0x12 then b2n t.sending + 2 * b2n (c.b idx 1 && !s.net.gptp.present) else t.count
  | 0x7280 => ofBits ((List.range 4).map (fun k => nth s.audio.micOn (2 * k) false || nth s.audio.micOn (2 * k + 1) false))
  | _ => objDefault (objKey idx sub)

/-- Block 0x8000: load models and diagnosis. -/
def read8 (s : State) (idx sub : Nat) : Nat :=
  match idx with
  | 0x8030 | 0x8031 | 0x8032 | 0x8033 =>
    let l := idx - 0x8030
    let x := nth s.loads l {}
    (match sub with
    | 1 => x.status l
    | 2 => f32OfRat x.t1
    | 3 => f32OfRat x.t2
    | 4 => f32OfRat x.tRef
    | 5 => x.estimate
    | 6 => f32OfRat x.loss
    | 7 => milli x.gCoil
    | 8 => milli x.coneGain
    | 9 => f32OfRat x.dPeak
    | 0xA => f32OfRat x.aPeak
    | 0xB => milli x.fTh
    | 0xC => x.attacks
    | _ => x.overshoots)
  | 0x8040 => (match sub with
    | 2 => s.diag.tap.status (s.canc.ident.queued.isSome && (s.diag.tap.running || decide (0 < s.diag.tap.fade))) s.canc.ident.running
    | 9 => s.diag.tap.completed
    | _ => s.diag.tap.abortedCount)
  | 0x8050 | 0x8051 =>
    let r := nth s.diag.tap.mach (idx - 0x8050) {}
    (match sub with
    | 1 => r.status
    | 2 => r.rs
    | 3 => r.ld
    | 4 => r.lq
    | 5 => r.psi
    | 6 => r.temp
    | 7 => r.time
    | 0x14 => r.rImb
    | 0x15 => r.lImb
    | _ => if sub ≤ 0xD then nth r.r (sub - 8) 0 else nth r.l (sub - 0xE) 0)
  | 0x8052 | 0x8053 =>
    let r := nth s.diag.tap.spk (idx - 0x8052) {}
    (match sub with
    | 1 => r.status
    | 2 => r.re
    | 3 => r.le
    | 4 => r.fs
    | 5 => r.q
    | 6 => r.qms
    | 7 => r.qes
    | 8 => r.res
    | 9 => r.temp
    | _ => r.time)
  | 0x8060 | 0x8061 | 0x8062 | 0x8063 => nth (nth s.diag.tap.sweep (idx - 0x8060) []) (sub - 1) 0
  | 0x8071 | 0x8072 =>
    let x := nth s.diag.mon (idx - 0x8071) {}
    if sub = 1 then x.valid else if sub = 2 then x.imbalance else b2n x.imbal
  | 0x8082 => let o := nth s.diag.orders (sub - 1) {}; clampN 0 65535 (roundAway (o.amp * 10000)).toNat
  | 0x8083 => ofBits (s.diag.orders.map (·.invalid)) + 65536 * ofBits (s.diag.orders.map (·.alert))
  | _ => 0

/-- Block 0x9000: Crust. -/
def read9 (s : State) (idx sub : Nat) : Nat :=
  let x := s.crust
  match idx with
  | 0x9000 => (match sub with
    | 1 => x.status s.cfg s.now s.trip.dis.crust
    | 2 => x.demand
    | 3 => x.latched
    | 4 => x.input % 2 ^ 64
    | 5 => x.refusedResets
    | 7 => b2n x.srst.level + 2 * b2n x.srst.stuck
    | 8 => x.srst.accepted
    | 9 => x.srst.short
    | 0xA => x.srst.stuckCount
    | 0xB => x.srst.lastHigh
    | 0xC => x.laneExpiries
    | _ => x.hearthExpiries)
  | 0x9012 => (nth x.pairs (sub - 1) {}).status
  | 0x9013 => (nth x.pairs (sub - 1) {}).faults
  | 0x9030 => if sub = 1 then x.soff.status else x.soff.pulses
  | 0x9052 =>
    if sub ≤ 2 then f32OfRat (nth x.axis (sub - 1) {}).speed
    else if sub ≤ 4 then (nth x.axis (sub - 3) {}).angle % 65536
    else ofBits (x.axis.map (·.valid))
  | _ => 0

/-- Block 0xA000: housekeeping. -/
def readA (s : State) (idx sub : Nat) : Nat :=
  let h := s.hk
  match idx with
  | 0xA000 => (match sub with
    | 1 => h.status s.stopped
    | 2 => h.rounds
    | 3 => h.dropped
    | 4 => f32OfRat h.tDie
    | _ => f32OfRat h.tMed)
  | 0xA001 => f32OfRat (h.slot (sub - 1)).value
  | 0xA002 => (h.slot (sub - 1)).time
  | 0xA003 => let x := h.slot (sub - 1); b2n x.invalid + 2 * b2n x.converted
  | 0xA004 => if sub = 5 then h.warnings else h.stops
  | 0xA013 => ofBits (h.thresholds.map (·.on))
  | 0xA014 => (nth h.thresholds (sub - 1) {}).activations
  | 0xA020 => ofInt 16 (nth h.trims (sub - 1) 0)
  | _ => 0

/-- The active pairs of the Starter set in entry order. -/
def starterPairs (s : State) : List Nat := starterKeys.map (fun k => s.cfg.raw k)

/-- Blocks 0xB000 and 0xC000: Starter set, firmware, event log, recipes. -/
def readB (s : State) (idx sub : Nat) : Nat :=
  let f := s.flash
  match idx with
  | 0xB000 => (match sub with
    | 1 => f.starterStatus
    | 2 => FlashState.starterCrc s.starterPairs
    | 3 => (f.entries.filter (·.user)).length
    | _ => f.restores)
  | 0xB010 => FlashState.info (nth f.entries (sub - 1) { pair := 0 })
  | 0xB100 => (match sub with
    | 1 => f.bankStatus
    | 2 => f.bankVersion false
    | 3 => f.bankVersion true
    | _ => f.epoch)
  | 0xB200 => (match sub with
    | 2 => f.ring.length
    | 3 => f.logDropped
    | 4 => f.logWritten
    | _ => f.bootCount)
  | 0xB500 => f.updateStatus
  | 0xC000 =>
    let r := laneRecipe s.cfg
    (match sub with
    | 1 => recipeCycles r 0
    | 2 => recipeCycles r 1
    | 3 => cycleBudget s.cfg
    | 4 => b2n r.loaded
    | _ => s.lanes.recipeRefusals)
  | 0xC001 =>
    let img := imageWords (s.cfg.blob (objKey 0xC500 1))
    let on := decide (s.cfg.u 0xC500 2 ≠ 0)
    (match sub with
    | 1 => if on then nth (rWorst (recipeCode img)) (nth img 3 0) 0 else 0
    | 2 => b2n on
    | _ => s.hearth.portRefusals)
  | 0xC002 => if sub = 1 then s.cfg.u 0xC600 2 else b2n (decide (s.cfg.u 0xC600 2 ≠ 0))
  | _ => 0

/-- Blocks 0xD000 and 0xE000: the chain, capture and test signal. -/
def readD (s : State) (idx sub : Nat) : Nat :=
  let x := s.chain
  match idx with
  | 0xD000 => (match sub with
    | 1 => x.role
    | 2 => x.position
    | 3 => 512 * b2n (x.m.any (·.wideAlone)) + 256 * b2n x.mismatch + 128 * b2n x.calFail + 64 * b2n x.strapErr + 32 * b2n x.dn.up
        + 16 * b2n x.up.up + 8 * b2n x.timebaseLoss + 4 * b2n x.succeeded + 2 * b2n x.holdover + b2n x.calibrated
    | 4 => x.devices
    | 5 => x.hop
    | 6 => x.offset
    | 0xB => (nth x.m 0 {}).twin + 4 * (nth x.m 1 {}).twin
    | 0xD => x.successions
    | 0xE => x.losses
    | 0xF => x.mismatches
    | _ => x.takeovers)
  | 0xE000 => (match sub with
    | 2 => s.diag.cap.status
    | 0xC => s.diag.cap.records.length
    | 0xD => s.diag.cap.dropped
    | _ => captureCapacity (s.cfg.u 0xE000 3))
  | 0xE010 => s.diag.sig.status
  | _ => 0

/-- The present value of an object that the device forms. -/
def reading (s : State) (key : Nat) : Nat :=
  let idx := key / 256
  let sub := key % 256
  if sub = 0 then maxSub idx else
  match idx / 0x1000 with
  | 1 => s.read1 idx sub
  | 2 => s.read2 idx sub
  | 3 => s.read3 0 idx sub
  | 4 => s.read3 1 idx sub
  | 5 => s.read5 idx sub
  | 6 => s.read6 idx sub
  | 7 => s.read7 idx sub
  | 8 => s.read8 idx sub
  | 9 => s.read9 idx sub
  | 0xA => s.readA idx sub
  | 0xB | 0xC => s.readB idx sub
  | 0xD | 0xE => s.readD idx sub
  | _ => 0

/-- R331: what an object that reads back the value in use returns: the last accepted value after rounding to what the hardware can realise (R118,
R136, R47), and for the FLT views what is in force (R144). -/
def readBack (s : State) (key : Nat) : Nat :=
  let c := s.cfg
  let per (n d : Nat) : Nat := (roundAway (mkRat n (max 1 d))).toNat
  let own := (s.commit.writes.filter (fun w => w.own && w.key == key)).getLast?
  let inUse (f : Nat → Nat) (active : Nat) : Nat := match own with | some w => f w.raw | none => active
  let traction (f : Nat) : Nat := 2 * per 100000000 f
  if key = objKey 0x5000 1 then per 200000000 (inUse traction (c.u 0x5400 1))
  else if key = objKey 0x5010 1 then per 200000000 (inUse traction (c.u 0x5410 1))
  else if key = objKey 0x5020 1 then per 6400000000 (inUse (per 6400000000) (c.u 0x5420 1))
  else if key = objKey 0x5020 2 then per 6400000000 (inUse (per 6400000000) (c.u 0x5420 2))
  else if key = objKey 0x6000 1 then per 200000000 (inUse nearestDivider (c.u 0x6400 1))
  else if key = objKey 0x6000 2 then per 200000000 (inUse nearestDivider (c.u 0x6400 2))
  else if key = objKey 0x5040 1 then ofBits ((List.range 12).map (fun n => bit (c.u 0x5450 (n + 1)) 31))
  else if key = objKey 0x5040 2 then
    (List.range 12).foldl (fun a n => let w := c.u 0x5450 (n + 1); if bit w 31 then max a (10 * bits w 6 0) else a) 0
  else s.accepted key

/-- R329, R331, R33: the value that a read of an object with a value returns; view says that the session reads active copies (0x2100.09). -/
def value (s : State) (view : Bool) (key : Nat) : Nat :=
  if key = objKey 0x2100 8 then s.commit.target else
  if key = objKey 0x2100 9 then b2n view else
  match findRow key with
  | none => s.reading key
  | some r => (match r.acc, r.rng with
    | .ro, _ | _, .flags _ => s.reading key
    | .rws, _ => if view then s.active.raw key else s.staged.raw key
    | _, _ => s.readBack key)

/-- The bytes that a read of a BLOB returns. The event log is its ring, oldest record first (R399); the export is R391's; capture data are the words
of the records. -/
def blobValue (s : State) (view : Bool) (key : Nat) : List Byte :=
  if key = objKey 0xB200 1 then s.flash.ring.flatten
  else if key = objKey 0xB400 1 then
    FlashState.exportBytes (Config.uniqueNumber % 2 ^ 64) s.flash.bootCount (s.flash.bankVersion s.flash.runningB) s.starterPairs s.flash
  else if key = objKey 0xE002 1 then s.diag.cap.records.flatMap (fun r => r.flatMap (toBytes 4))
  else if view then s.active.blob key else s.staged.blob key

end State

end Sys2Proof.Machine
end

