-- ==== Sys2Proof/Machine/Actions.lean ====
section
/-! DEFINITION. What the writes do that act at their group's boundary and store no value: the flags that a write to a status object clears (R4, R33),
and Restore paths (R61). -/

namespace Sys2Proof.Machine

namespace State

/-! ### Flags (R4) -/

/-- A write to a status object clears the flags of a mask (R4, R331). -/
def clearFlags (key w : Nat) (s : State) : State :=
  let idx := key / 256
  let sub := key % 256
  let keep (n : Nat) (b : Bool) : Bool := b && !bit w n
  match key / 256 with
  | 0x2110 => { s with persist := { s.persist with done := keep 14 s.persist.done } }
  | 0x5000 | 0x5010 =>
    { s with mod := { s.mod with m := upd s.mod.m (if idx = 0x5000 then 0 else 1) (fun (x : ModMachine) =>
        { x with dutyClamp := keep 0 x.dutyClamp, minPulse := keep 1 x.minPulse, ctcMiss := keep 2 x.ctcMiss }) } }
  | 0x5020 =>
    { s with mod := { s.mod with spk := upd s.mod.spk (sub - 7) (fun (x : SpkBridge) =>
        { x with shaperClip := keep 0 x.shaperClip, shaperOvl := keep 1 x.shaperOvl, minPulse := keep 2 x.minPulse }) } }
  | 0x5060 =>
    let d := s.trip.dis
    { s with trip := { s.trip with dis := { d with done := keep 2 d.done, windFail := keep 4 d.windFail, timeout := keep 6 d.timeout } } }
  | 0x5070 =>
    { s with trip := { s.trip with gdl := upd s.trip.gdl (sub - 6) (fun (x : GdlLink) =>
        { x with mismatch := keep 3 x.mismatch, crcErr := keep 4 x.crcErr, overrun := keep 5 x.overrun }) } }
  | 0x6050 =>
    if sub ≤ 32 then
      { s with sense := s.sense.setPath (sub - 1) (fun (x : SdPath) => { x with th1 := keep 0 x.th1, th2 := keep 1 x.th2 }) }
    else s
  | 0x7000 =>
    let h := s.hearth
    { s with hearth := { h with clip := keep 1 h.clip, overrun := keep 2 h.overrun, alignShift := keep 3 h.alignShift, recipeFault := keep 5 h.recipeFault } }
  | 0x7100 => { s with canc := { s.canc with ident := { s.canc.ident with failFlag := keep 11 s.canc.ident.failFlag } } }
  | 0x7104 | 0x7114 =>
    { s with canc := { s.canc with m := upd s.canc.m ((idx - 0x7104) / 16) (fun (x : Canceller) =>
        { x with orders := upd x.orders (sub - 1) (fun (o : Order) => { o with divSeen := keep 3 o.divSeen }) }) } }
  | 0x7180 => { s with canc := { s.canc with acc := s.canc.acc.mapIdx (fun n (p : AccPort) => { p with lostFlag := keep n p.lostFlag }) } }
  | 0x7200 | 0x7210 | 0x7220 | 0x7230 =>
    { s with audio := { s.audio with asp := upd s.audio.asp ((idx - 0x7200) / 16) (fun (p : AspPort) =>
        { p with slip := keep 2 p.slip, glitch := keep 3 p.glitch, rateErr := keep 5 p.rateErr }) } }
  | 0x7260 | 0x7261 =>
    { s with audio := { s.audio with lis := upd s.audio.lis (idx - 0x7260) (fun (l : Listener) =>
        { l with late := keep 2 l.late, seqGap := keep 3 l.seqGap, formatErr := keep 4 l.formatErr }) } }
  | 0x8030 | 0x8031 | 0x8032 | 0x8033 =>
    { s with loads := upd s.loads (idx - 0x8030) (fun (x : LoadModel) => { x with trackReject := keep 9 x.trackReject, overshoot := keep 10 x.overshoot }) }
  | 0x8040 => { s with diag := { s.diag with tap := { s.diag.tap with done := keep 1 s.diag.tap.done, aborted := keep 2 s.diag.tap.aborted } } }
  | 0x9000 => { s with crust := { s.crust with hearthFlag := keep 7 s.crust.hearthFlag } }
  | 0xA000 => { s with hk := { s.hk with drop := keep 4 s.hk.drop } }
  | 0xD000 => { s with chain := { s.chain with timebaseLoss := keep 3 s.chain.timebaseLoss, mismatch := keep 8 s.chain.mismatch } }
  | 0xE000 => { s with diag := { s.diag with cap := { s.diag.cap with drop := keep 3 s.diag.cap.drop } } }
  | _ => s

/-! ### Restore paths (R61) -/

/-- R61: Restore paths; the named failed paths start to count. -/
def restorePaths (mask : Nat) (s : State) : State :=
  { s with sense := (bitsSet 28 mask).foldl (fun (x : SenseState) sd =>
      x.setPath sd (fun p => if p.failed then { p with failed := false, restoring := some 0, diff := 0 } else p)) s.sense }

/-- Whether a write to an object stores no value: it clears flags, or restores paths, at its group's boundary (R33). -/
def actsAtBoundary (key : Nat) : Bool :=
  key == objKey 0x6020 7 || (match findRow key with | some r => (match r.rng with | .flags _ => true | _ => false) | none => false)

/-- Such a write at its boundary: raw is the mask of the flags it clears, or of the paths it restores. -/
def actAtBoundary (key raw : Nat) (s : State) : State := if key = objKey 0x6020 7 then s.restorePaths raw else s.clearFlags key raw

end State

end Sys2Proof.Machine
end

