-- ==== Sys2Proof/Machine/Commit.lean ====
section
/-! DEFINITION. Settings groups, consistency checks, and what applies at a boundary (chapters 02 and 16). -/

namespace Sys2Proof.Machine

/-! ### Groups (Table 2-4) -/

/-- The groups of the Trough kind (R34), as a mask: DEV, M0, M1, CHAIN and STARTER. -/
def troughKind : Nat := 0x180E

/-- Whether every group of a mask is of one boundary kind (R34). -/
def oneKind (mask : Nat) : Bool := mask &&& troughKind == mask || (mask &&& troughKind == 0 && popCount 16 mask == 1)

/-- Whether a change of a group is accepted in a state (Table 2-4). -/
def groupState (g state : Nat) : Bool :=
  match g with
  | 10 | 11 | 13 => state == 4 || state == 6
  | 12 => state == 6
  | _ => state == 4 || state == 5 || state == 6

/-! ### Consistency checks (Tables 2-8 and 16-7) -/

/-- A check that failed: its code, the object at fault, and the groups that the check reads, as a mask. -/
structure CheckFail where
  code : Nat
  key : Nat
  groups : Nat
  deriving DecidableEq, Repr

/-- A check that fails where its condition does not hold. -/
def check (ok : Bool) (code groups idx sub : Nat) : List CheckFail := if ok then [] else [⟨code, objKey idx sub, groups⟩]

/-- R118: a traction period. -/
def periodOk (p : Nat) : Bool := decide (2000 ≤ p) && decide (p ≤ 100000) && p % 2 == 0

/-- The update interval of a machine in counts. -/
def updateCounts (c : Store) (m : Nat) : Nat := if doubleUpdate c m then nominalPeriod c m / 2 else nominalPeriod c m

/-- The stability test of R172: both roots of z² + a1 z + a2 within radius 0.9999. -/
def rootsInside (a1 a2 : Rat) : Bool :=
  let r : Rat := mkRat 9999 10000
  let p := a1 / r
  let q := a2 / (r * r)
  decide (q ≤ 1) && decide (-1 ≤ q) && decide (p.abs ≤ 1 + q)

/-- The first of the five coefficients at fault of a section in a row of coefficients. -/
def sectionCheck (c : Store) (idx from_ : Nat) : List CheckFail :=
  check (rootsInside (ofQ 29 (c.i 32 idx (from_ + 3))) (ofQ 29 (c.i 32 idx (from_ + 4)))) 0x0A 0x10 idx (from_ + 3)

/-- A recipe's stored length and signature against its image (R97, R174, R280); a length of 0 unloads it. -/
def recipeCheck (c : Store) (idx groups size : Nat) : List CheckFail :=
  let img := c.blob (objKey idx 1)
  let len := c.u idx 2
  if len = 0 then [] else
  check (nth (imageWords img) 1 0 == len && decide (size ≤ img.length)) 0x0B groups idx 2
    ++ check (crc32 (toBytes 4 len ++ img) == c.u idx 3) 0x0B groups idx 3

/-- The lane recipe's cycle budget of a machine (R96, R383). -/
def recipeBudget (c : Store) (m : Nat) : Int :=
  min 2000 (20000000 / updateRate c 0).floor - (if c.u 0xD000 (7 + m) = 0 then 0 else 200)

/-- The periods between which a machine's spread or shaped mode runs. -/
def modePeriods (c : Store) : Nat × Nat :=
  let p := nominalPeriod c 0
  match modMode c 0 with
  | 5 => let b := c.u 0x5400 5; (p - b, p + b)
  | 6 =>
    let l := (List.range (c.u 0x5400 7)).map (fun j => (shapedEntry c j).1)
    (l.foldl min 100001, l.foldl max 0)
  | _ => (p, p)

/-- The checks on periods (0x05). -/
def periodChecks (c : Store) : List CheckFail :=
  let p := nominalPeriod c 0
  let b := c.u 0x5400 5
  check (periodOk p) 5 4 0x5400 1 ++ check (periodOk (nominalPeriod c 1)) 5 8 0x5410 1
    ++ check (decide (2000 + b ≤ p) && decide (p + b ≤ 100000)) 5 4 0x5400 5
    ++ (List.range (min 64 (c.u 0x5400 7))).flatMap (fun j => check (periodOk (shapedEntry c j).1) 5 4 0x5401 (j + 1))
    ++ (List.range 2).flatMap (fun k => check (decide (5333 ≤ c.u 0x5420 (k + 1)) && decide (c.u 0x5420 (k + 1) ≤ 21333)) 5 2 0x5420 (k + 1))

/-- The entries of a gate-driver link, in use or not, with a POS at or above the driver count (R161). -/
def gdlChecks (c : Store) (link : Nat) : List CheckFail :=
  (List.range 64).flatMap (fun k =>
    let e := c.u (0x5480 + link) (k + 1)
    check (decide (bits e 61 58 < c.u 0x5070 (link + 1))) 6 2 (0x5480 + link) (k + 1))

/-- The checks on compares, windows, positions and clips (0x06). -/
def compareChecks (c : Store) : List CheckFail :=
  let p := nominalPeriod c 0
  (List.range 4).flatMap (fun k => check (decide (bits (c.u 0x5440 (k + 1)) 16 0 < p)) 6 6 0x5440 (k + 1))
    ++ gdlChecks c 0 ++ gdlChecks c 1
    ++ (List.range 2).flatMap (fun m =>
      check (decide (3 * c.u 0x6400 7 * c.u 0x6400 1 ≤ updateCounts c m) && c.u 0x6400 7 % 2 == 0) 6 (2 + 4 * 2 ^ m) 0x6400 7
        ++ check (decide (3 * c.u 0x6400 8 * c.u 0x6400 2 ≤ updateCounts c m) && c.u 0x6400 8 % 2 == 0) 6 (2 + 4 * 2 ^ m) 0x6400 8)
    ++ (List.range 16).flatMap (fun k =>
      let w := c.u 0x7421 (k + 1)
      check (bits w 16 0 == 0 || decide (2 * (32 * bits w 31 20 + bits w 16 0) ≤ (c.blob (objKey 0x7420 1)).length)) 6 16 0x7421 (k + 1))

/-- The checks on the period ratio, M1's update instants and dead times (0x07 to 0x09). -/
def ratioChecks (c : Store) : List CheckFail :=
  let p0 := nominalPeriod c 0
  let p1 := nominalPeriod c 1
  let k := p1 / max 1 p0
  check ([1, 2, 3, 4].contains k && p1 == k * p0) 7 12 0x5410 1
    ++ check (!(doubleUpdate c 1 && (k == 1 || k == 3) && !doubleUpdate c 0)) 8 12 0x5010 3
    ++ check (decide (2 * (deadTime c 0 + minPulse c 0) ≤ 32 * min p0 (modePeriods c).1)) 9 4 0x5400 2
    ++ check (decide (2 * (deadTime c 1 + minPulse c 1) ≤ 32 * (k * min p0 (modePeriods c).1))) 9 8 0x5410 2
    ++ check (decide (2 * (c.u 0x5420 3 + c.u 0x5420 4) ≤ min (c.u 0x5420 1) (c.u 0x5420 2))) 9 2 0x5420 3

/-- The checks on biquads and cone coefficients (0x0A). -/
def biquadChecks (c : Store) : List CheckFail :=
  (List.range 4).flatMap (fun n => (List.range 12).flatMap (fun k => sectionCheck c (0x7430 + n) (5 * k + 1)))
    ++ (List.range 4).flatMap (fun l => sectionCheck c (0x8420 + l) 1)

/-- The checks on recipes (0x0B, 0x0C). -/
def recipeChecks (c : Store) : List CheckFail :=
  let r := laneRecipe c
  recipeCheck c 0xC400 2 64 ++ recipeCheck c 0xC500 16 64 ++ recipeCheck c 0xC600 0x400 16
    ++ (List.range 2).flatMap (fun m =>
      check (decide ((recipeCycles r m : Int) ≤ recipeBudget c m)) 0x0C (6 + (if c.u 0xD000 (7 + m) = 0 then 0 else 0x800)) 0xC400 1)

/-- Ascending thresholds of a node (R207). -/
def nodeOk (c : Store) (l from_ : Nat) : Bool :=
  let t (k : Nat) : Rat := c.pf (0x8410 + l) (from_ + k)
  decide (t 0 < t 1) && (decide (2 ≤ l) || (decide (t 1 ≤ t 2) && decide (t 2 < t 3)))

/-- The checks on limits (0x0E). -/
def limitChecks (c : Store) : List CheckFail :=
  (List.range 2).flatMap (fun m =>
    let o := 0x1000 * m
    let g := 4 * 2 ^ m
    let tax := c.f (0x3403 + o) 2
    check (decide (c.pf (0x3012 + o) 1 ≤ tax)) 0x0E g (0x3012 + o) 1 ++ check (decide (c.pf (0x3012 + o) 2 ≤ tax)) 0x0E g (0x3012 + o) 2
      ++ check (decide (c.f (0x3403 + o) 3 < c.f (0x3403 + o) 4)) 0x0E g (0x3403 + o) 3
      ++ check (decide ((8 * c.u (0x3404 + o) 2 : Nat) ≤ updateRate c m)) 0x0E g (0x3404 + o) 2
      ++ check (decide (c.pf (0x5050 + m) 3 < c.pf (0x5050 + m) 2)) 0x0E g (0x5050 + m) 3)
    ++ (List.range 24).flatMap (fun sd =>
      let lim : Int := (fastFull c : Int) / 2
      check (decide (c.pi 0x6420 (sd + 1) ≤ lim)) 0x0E 2 0x6420 (sd + 1) ++ check (decide (c.pi 0x6430 (sd + 1) ≤ lim)) 0x0E 2 0x6430 (sd + 1))
    ++ (List.range 2).flatMap (fun m => (List.range 8).flatMap (fun k =>
      let i := 0x7501 + 16 * m
      check (decide (20 ≤ c.f i (2 * k + 1)) && decide (c.f i (2 * k + 2) ≤ 10000) && decide (c.f i (2 * k + 1) < c.f i (2 * k + 2))) 0x0E 16 i (2 * k + 1)))
    ++ (List.range 4).flatMap (fun l => check (nodeOk c l 1) 0x0E 16 (0x8410 + l) 1 ++ check (nodeOk c l 5) 0x0E 16 (0x8410 + l) 5)

/-- The checks on ports and modes (0x0F, 0x11). -/
def portChecks (c : Store) : List CheckFail :=
  (List.range 4).flatMap (fun n =>
    let i := 0x7600 + 16 * n
    let w := c.u i 1
    let fits (sub : Nat) : Bool := decide (c.u i sub < 2 ^ aspSlots w)
    check (aspConfigOk w) 0x0F (32 * 2 ^ n) i 1 ++ check (fits 2) 0x0F (32 * 2 ^ n) i 2 ++ check (fits 3) 0x0F (32 * 2 ^ n) i 3)
    ++ check (decide (modMode c 1 < 5) || modMode c 1 == modMode c 0) 0x11 12 0x5010 2

/-- Every failing check of a store, apart from complements and the target. -/
def commitFails (c : Store) : List CheckFail :=
  periodChecks c ++ compareChecks c ++ ratioChecks c ++ biquadChecks c ++ recipeChecks c ++ limitChecks c ++ portChecks c

/-- The staged pairs of a mask's groups that fail their complement check (0x0D). -/
def complementFails (mask : Nat) (staged : Store) : List CheckFail :=
  staged.vals.flatMap (fun e =>
    match findRow e.1 with
    | some r => if bit mask r.grp && r.acc == .rws && r.ty.isPair && !pairOk e.2 then [⟨0x0D, e.1, 2 ^ r.grp⟩] else []
    | none => [])

/-- Whether a key belongs to an RWS object of a mask's groups. -/
def stagedKey (mask key : Nat) : Bool :=
  match findRow key with
  | some r => r.acc == .rws && bit mask r.grp
  | none => false

/-- The first failure by Table 2-8 among failing checks: the lowest code, the lowest named group that reads it, and the first object at fault. -/
def firstFail (mask : Nat) (l : List CheckFail) : Option (Nat × Nat × Nat) :=
  let l := l.filter (fun f => f.groups &&& mask != 0)
  match l with
  | [] => none
  | f0 :: _ =>
    let code := l.foldl (fun a f => min a f.code) f0.code
    let l := l.filter (fun f => f.code == code)
    let key := l.foldl (fun a f => min a f.key) 0xFFFFFF
    let groups := l.foldl (fun a f => a ||| f.groups) 0
    some (code, ((bitsSet 14 (groups &&& mask)).head?).getD 0, key)

/-! ### Basic writes (R35, R36) -/

/-- The groups of a write's parts: those of the Trough kind together, each other group by itself. -/
def writeParts (own : Nat) (derived : List Nat) : List (Nat × Bool) :=
  let groups := own :: derived
  let trough := groups.foldl (fun a g => if bit troughKind g then a ||| 2 ^ g else a) 0
  let others := ((groups.filter (fun g => !bit troughKind g)).eraseDups)
  (if trough = 0 then [] else [(trough, bit troughKind own)]) ++ others.map (fun g => (2 ^ g, g == own))

namespace State

/-- A basic value in a store, with the fields that it derives (R36). -/
def withDerived (key raw : Nat) (c : Store) : Store := ((deriveFields (c.put key raw) key).foldl (fun (d : Store) e => d.put e.1 e.2) c).put key raw

/-- R35: of several waiting parts of writes to one object the last stands, in the place of its arrival. -/
def lastWrites : List PendWrite → List PendWrite
  | [] => []
  | w :: l => if l.any (fun v => v.key == w.key && v.groups == w.groups) then lastWrites l else w :: lastWrites l

/-- A store with waiting writes over it, each with the fields that it derives. -/
def overWrites (l : List PendWrite) (c : Store) : Store :=
  (lastWrites l).foldl (fun c w => if w.own && !actsAtBoundary w.key then withDerived w.key w.raw c else c) c

/-- The values as last accepted (R331): the active copies with the waiting basic writes over them. -/
def acceptedStore (s : State) : Store := overWrites s.commit.writes s.cfg

/-- The staged copies with the derived fields of a basic write, of those objects that p selects (R36): of a word that holds other fields beside the
derived one, only that field is rewritten. -/
def stageDerived (p : Nat → Bool) (key : Nat) (fields : List (Nat × Nat)) (st : Store) : Store :=
  fields.foldl (fun st e => if p e.1 then st.put e.1 (overlay key e.1 (st.raw e.1) e.2) else st) st

/-- The parts of a write that waits for its boundaries (R35): fields are those that it derives. -/
def waitingParts (key raw : Nat) (fields : List (Nat × Nat)) (s : State) : List PendWrite :=
  (writeParts (objGroup key) (fields.map (fun e => objGroup e.1))).map (fun p =>
    { key := key, raw := raw, accepted := s.now, groups := p.1, own := p.2, late := s.commit.pendingMask &&& p.1 })

/-- A basic write accepted (R35, R36): its parts wait for their boundaries, the staged copies of what it derives follow at once where their group is
not pending, and the token moves. -/
def acceptWrite (key raw : Nat) (s : State) : State :=
  let others := overWrites (s.commit.writes.filter (fun w => w.key != key)) s.cfg
  let fields := deriveFields (others.put key raw) key
  let pend := s.commit.pendingMask
  moveToken { s with
    staged := stageDerived (fun k => stagedKey 0xFFFF k && !bit pend (objGroup k)) key fields s.staged
    commit := { s.commit with writes := s.commit.writes ++ s.waitingParts key raw fields } }

/-- A write that clears flags or restores paths waits for its group's boundary (R33); it moves no token (R326). -/
def acceptAction (key raw : Nat) (s : State) : State :=
  { s with commit := { s.commit with writes := s.commit.writes ++ s.waitingParts key raw [] } }

/-- A part of a basic write of a value applied at its boundary. -/
def applyValue (w : PendWrite) (s : State) : State :=
  let c := s.cfg.put w.key w.raw
  let fields := (deriveFields c w.key).filter (fun e => bit w.groups (objGroup e.1))
  let all := if w.own then (w.key, w.raw) :: fields else fields
  let s := all.foldl (fun (s : State) e => s.putActive e.1 e.2) s
  { s with
    staged := stageDerived (stagedKey w.late) w.key fields s.staged
    sense := { s.sense with zeros := s.sense.zeros.filter (fun z => !(all.any (fun e => e.1 == z.1))) } }

/-- A part of a basic write applied at its boundary: a value, or the action it stands for. -/
def applyPart (w : PendWrite) (s : State) : State := if actsAtBoundary w.key then s.actAtBoundary w.key w.raw else s.applyValue w

/-- A pending commit applied: the staged copies of its groups become active. -/
def applyCommit (p : PendCommit) (s : State) : State :=
  { s.onActive (fun c => Store.merge (stagedKey p.mask) s.staged c) with
    sense := { s.sense with zeros := s.sense.zeros.filter (fun z => !stagedKey p.mask z.1) }
    commit := { s.commit with
      pending := s.commit.pending.erase p, lastFn := s.frame.fn, lastTime := s.now, applied := inc32 s.commit.applied } }

/-- What applied at a boundary: the groups committed, and the objects of basic writes. -/
structure Applied where
  mask : Nat := 0
  keys : List Nat := []
  deriving DecidableEq, Repr

/-- The boundary of the groups of a mask (R35, R36, R38): what was accepted at least a time earlier and needs no other group's boundary applies, the
pending commits first, then the basic writes in order of arrival. -/
def boundary (groups wait : Nat) (s : State) : State × Applied :=
  let ready (accepted : Nat) : Bool := decide (accepted + wait ≤ s.now)
  let cs := s.commit.pending.filter (fun p => p.mask &&& groups == p.mask && ready p.accepted && (p.target == 0 || p.target == s.frame.fn))
  let s := cs.foldl (fun (s : State) p => s.applyCommit p) s
  let here (w : PendWrite) : Bool := w.groups &&& groups == w.groups && ready w.accepted
  let ws := s.commit.writes.filter here
  let s : State := { s with commit := { s.commit with writes := s.commit.writes.filter (fun w => !here w) } }
  ((lastWrites ws).foldl (fun (s : State) w => s.applyPart w) s, { mask := cs.foldl (fun a p => a ||| p.mask) 0, keys := (ws.map (·.key)).filter (fun k => !actsAtBoundary k) })

/-- The failures that a basic write would bring (R35): those of the candidate that the present values do not have. -/
def writeFails (key raw : Nat) (s : State) : Bool :=
  let c := s.acceptedStore
  let d := withDerived key raw c
  let old := commitFails c
  (commitFails d).any (fun f => !old.contains f)

/-- A basic biquad or cone whose exact coefficients lie outside Q3.29 (R172). -/
def coefRefused (key raw : Nat) (s : State) : Bool :=
  let c := s.acceptedStore.put key raw
  let idx := key / 256
  let sub := key % 256
  if 0x7030 ≤ idx ∧ idx ≤ 0x7033 then !coefFit (basicSection c (idx - 0x7030) ((sub - 1) % 12 + 1))
  else if 0x8020 ≤ idx ∧ idx ≤ 0x8023 ∧ sub ≤ 2 then !coefFit (coneBasic c (idx - 0x8020))
  else false

/-! ### Commit (R38 to R42) -/

/-- The store that a mask's checks read (R334): staged copies of the named groups, active copies of the others. -/
def candidate (mask : Nat) (s : State) : Store := Store.merge (stagedKey mask) s.staged s.cfg

/-- Whether a target frame number is allowed for a mask (R40). -/
def targetOk (mask target : Nat) (s : State) : Bool :=
  let ahead := (target + 2 ^ 32 - s.frame.fn) % 2 ^ 32
  target == 0 || (mask &&& troughKind == mask && fnAhead target s.frame.fn
    && (ahead != 1 || decide (s.now + 200 ≤ s.frame.troughTime + (nth s.mod.m 0 {}).period))
    && (!bit mask 3 || (ahead + s.frame.m1Count) % ratioK s.cfg == 0))

/-- R42: the outcome of a commit attempt: code, REJ_GROUP and Rejected object. It is formed at the end of the checks, on the staged copies as they stand
then, those included that another session staged since the Commit write (log 101). -/
def commitOutcome (k : Checking) (s : State) : Nat × Nat × Nat :=
  if !k.tokenOk then (1, 0, 0) else
  if !oneKind k.mask then (2, 0, 0) else
  match (bitsSet 14 k.mask).find? (fun g => !groupState g s.dev.state) with
  | some g => (3, g, 0)
  | none =>
  match (bitsSet 14 k.mask).find? (fun g => bit s.commit.pendingMask g) with
  | some g => (4, g, 0)
  | none =>
  let fails := commitFails (s.candidate k.mask) ++ complementFails k.mask s.staged
  match firstFail k.mask (fails.filter (fun f => f.code < 0x10)) with
  | some r => r
  | none =>
  if !s.targetOk k.mask k.target then (0x10, 0, 0x210008) else
  match firstFail k.mask fails with
  | some r => r
  | none => (0, 0, 0)

/-- R38: the checks of a commit attempt end; answers the rejection code. Commit target FN returns to 0 at this instant, over a target written since the
Commit write (R40, log 102). -/
def commitEnd (k : Checking) (s : State) : State × Nat :=
  let outcome := s.commitOutcome k
  let c := s.commit
  let s : State := moveToken { s with commit := { c with
    checking := none, target := 0, lastCode := outcome.1, rejGroup := outcome.2.1, rejObject := outcome.2.2 } }
  let c := s.commit
  ({ s with commit :=
      if outcome.1 = 0 then { c with pending := c.pending ++ [{ mask := k.mask, target := k.target, accepted := s.now }] }
      else { c with rejected := inc32 c.rejected } }, outcome.1)

/-- Discard staged (Table 2-5): the staged copies of a mask's groups become equal to the active ones. -/
def discardStaged (mask : Nat) (s : State) : State := moveToken { s with staged := Store.merge (stagedKey mask) s.active s.staged }

/-- A write to a staged copy (R37): the token moves (R326). -/
def stage (key raw : Nat) (s : State) : State := moveToken { s with staged := s.staged.put key raw }

/-- A staged BLOB. -/
def stageBlob (key : Nat) (v : List Byte) (s : State) : State := moveToken { s with staged := s.staged.putBlob key v }

end State

end Sys2Proof.Machine
end

