-- ==== Sys2Proof/Machine/SenseCmds.lean ====
section
/-! DEFINITION. The commands of the Sifter and of the position front ends (chapter 03). -/

namespace Sys2Proof.Machine

namespace State

/-- The states in which SDCLK0 to SDCLK3 run (R47): PROOFING, READY, RUN, SERVICE and BEDROCK. -/
def sdRuns (s : State) : Bool := s.up && s.dev.state != 8

/-- Whether a group stands. -/
def standing (group : Nat) (s : State) : Bool := s.fault.stands group

/-- The value of the DC-link backup slot where one is configured and valid (R63). -/
def backupVolts (s : State) : Option Rat :=
  let w := s.cfg.u 0x6030 4
  if w = 0 then none else s.hk.slotValid (w - 1)

/-- R292 for the current and DC-link groups: those whose redundancy is whole again. -/
def senseRestored (s : State) : List Signal :=
  let whole (p : Nat) : Bool := s.sense.usable (pairA p) && s.sense.usable (pairB p) && !(s.sense.pair p).ambig
  ((List.range 12).filter (fun p => s.standing (p + 1) && whole p)).map Signal.restored
    ++ ((List.range 2).filter (fun m => s.standing (14 + m) && whole (12 + m) && !(nth s.sense.dc m {}).lost)).map (fun m => Signal.restored (13 + m))

/-- The machine whose current or DC link a channel measures. -/
def machineOfSd (sd : Nat) : Nat := if sd < 24 then sd % 12 / 6 else (sd - 24) / 2

/-- R385: a channel whose path the partner twin measures: path B on the twin at the lower position, path A on the other. -/
def twinPath (sd : Nat) (s : State) : Bool :=
  decide (sd < 28) && s.chainUse (machineOfSd sd) == 2 && ((if sd < 24 then decide (12 ≤ sd) else sd % 2 == 1) == s.lowerHalf (machineOfSd sd))

/-- R385: the pairs that a twin judges when the partner's record has come. -/
def twinPair (p : Nat) (s : State) : Bool := decide (p < 14) && s.chainUse (if p < 12 then p / 6 else p - 12) == 2

/-- Reports of a sensing update, with the clears that an AMBIG's end brings (R59, R292). -/
def sensed (r : SenseState × List Signal) (s : State) : State :=
  let cleared := (List.range 14).any (fun p => (s.sense.pair p).ambig && !(r.1.pair p).ambig)
  let t := raiseAll r.2 { s with sense := r.1 }
  if cleared then raiseAll t.senseRestored t else t

/-- The Sifter with new windows (R57 to R63); in BEDROCK only SD24 to SD27 (Table 14-3). -/
def windows (ws : List PathWindow) (mismatch : Bool) (s : State) : State :=
  let here (w : PathWindow) : Bool := decide (w.sd < 28) && (s.dev.state != 7 || decide (24 ≤ w.sd)) && !s.twinPath w.sd
  s.sensed (senseUpdate s.cfg s.now (s.standing 16) mismatch s.backupVolts (fun p => s.twinPair p) (ws.filter here) s.sense)

/-- R385: the partner's main-path results and fast-path states of a machine take the place of the missing path, and the pairs are judged; the
machine's overcurrent source follows. -/
def twinRecord (m : Nat) (paths : List (Nat × Int)) (hits : List (Nat × Bool × Bool)) (s : State) : State :=
  let own (sd : Nat) : Bool := s.twinPath sd && machineOfSd sd == m
  let x := (paths.filter (fun e => own e.1)).foldl (fun (x : SenseState) e =>
    x.setPath e.1 (fun y => { y with r := e.2, valid := true, time := s.now, clip := false, stuck := false })) s.sense
  let f := (hits.filter (fun e => decide (e.1 < 24) && own e.1)).foldl (fun l e =>
    upd l e.1 (fun (y : FastPath) => { y with ex1 := e.2.1, ex2 := e.2.2 })) x.fast
  let ps := ((paths.filter (fun e => own e.1)).map (fun e => pairOfSd e.1)).eraseDups
  let s := s.sensed (pairUpdate s.cfg (s.standing 16) s.backupVolts ps { x with fast := f })
  s.tripTo (s.trip.overcurrent s.cfg s.now m (overcurrentActive s.cfg s.sense m))

/-- R59: AMBIG that has lasted for 100 updates is reported once. -/
def reportAmbiguous (hb : Nat) (s : State) : State :=
  let x := s.sense.pair hb
  if x.ambig && decide (100 ≤ x.ambigCount) && !x.ambigFault then
    raise (.fault 0x05 (hb + 1) hb) { s with sense := s.sense.setPair hb (fun x => { x with ambigFault := true }) }
  else s

/-- R61: a restored path that has passed 100 updates becomes eligible as partner, and its group's redundancy is whole (R292). -/
def pathEligible (sd : Nat) (s : State) : State :=
  match (s.sense.path sd).restoring with
  | some n =>
    if n < 100 then s else
    let s : State := { s with sense := s.sense.setPath sd (fun x => { x with restoring := none, failed := false }) }
    raiseAll s.senseRestored s
  | none => s

/-- A result of SD28 to SD31 (R53): the value, the counter value of its window centre, and its checks; a current path's loss is fault 0x17 and makes its
models run on their fallback (R214), a current sample enters the loss of its speaker (R203), and both enter the tracking of its resistance (R204). A running speaker tap test takes each sample
with its own stamp (R222). -/
def speakerSense (w : PathWindow) (s : State) : State :=
  let c := s.cfg
  if !windowFresh c s.now s.sense w.sd then s else
  let x := takeWindow c s.now s.sense w
  let x := x.setPath w.sd (fun p => { p with failed := !sdEnabled c w.sd })
  let s : State := { s with sense := x }
  let k := (w.sd - 28) / 2
  let p := x.path w.sd
  if w.sd % 2 = 0 then
    let lost := p.failed || p.clip || p.stuck
    let new := lost && !(nth s.loads (k + 2) {}).senseLost
    let s : State := if s.diag.tap.load == k + 2 then { s with diag := { s.diag with tap := s.diag.tap.sampleI p.time (sdPhys c w.sd p.r) 0 } } else s
    let s : State := { s with loads := upd s.loads (k + 2) (fun l => { (l.addCurrents [sdPhys c w.sd p.r]).trackCurrent c (k + 2) p.time (sdPhys c w.sd p.r) with senseLost := lost }) }
    if new then s.raise (.fault 0x17 0 k) else s
  else
  let s : State := { s with loads := upd s.loads (k + 2) (fun l => l.trackVoltage c (k + 2) p.time (sdPhys c w.sd p.r)) }
  if s.diag.tap.load == k + 2 then { s with diag := { s.diag with tap := s.diag.tap.sampleV p.time (sdPhys c w.sd p.r) } } else s

/-- R54, R55: one output of a fast path; the overcurrent source of its machine follows. -/
def fastPath (sd sum : Nat) (s : State) : State :=
  let c := s.cfg
  let x := fastOutput c s.now sd sum s.sense
  let m := if sd % 12 < 6 then 0 else 1
  let s : State := { s with sense := x }
  let f := nth x.fast sd {}
  let s : State := if f.ex1 || f.ex2 then { s with trip := s.trip.windFail c s.now m } else s
  s.tripTo (s.trip.overcurrent c s.now m (overcurrentActive c x m))

/-- A resolver's loop step, and the loss of a position source it brings (R67, R71). Crust takes the converters' samples ahead of the loop (R275), which it
demodulates against the excitation itself. -/
def resolver (n : Nat) (o : ResolverStep) (s : State) : State :=
  let c := s.cfg
  let s : State := { s with crust := { s.crust with
    res := upd s.crust.res n (fun r => r.sample (excitationSine c n s.now) (excSamples c n) o.sin o.cos) } }
  let x := { s.sense with res := upd s.sense.res n (fun r => resolverStep c s.now n r o) }
  let r := markLost c x
  raiseAll r.2 { s with sense := r.1 }

/-- An encoder's filtered edge in incremental mode, and the loss it brings (R69). -/
def encoder (n : Nat) (a b z : Bool) (s : State) : State :=
  let c := s.cfg
  if c.u (0x6200 + 16 * n) 1 ≠ 1 then s else
  let x := { s.sense with enc := upd s.sense.enc n (fun e => encoderEdge c s.now n e a b z) }
  let r := markLost c x
  raiseAll r.2 { s with sense := r.1 }

/-- A completed SSI read (R70). -/
def ssi (n : Nat) (o : SsiRead) (s : State) : State :=
  let c := s.cfg
  if c.u (0x6200 + 16 * n) 1 ≠ 2 then s else
  let x := { s.sense with enc := upd s.sense.enc n (fun e => ssiDone c s.now n e o) }
  let r := markLost c x
  raiseAll r.2 { s with sense := r.1 }

/-- R72 when a position source write applies: in READY or SERVICE the source is selected again and its invalidations end; in RUN a source that is valid,
and has not been invalid since the machine last selected it, is selected, and another stays out. -/
def positionApply (m : Nat) (s : State) : State :=
  let src := posSource s.cfg m
  let x := nth s.sense.pos m {}
  if s.dev.state = 5 then
    let out := decide (src < 4) && (nth x.bad src false || !sourceValid s.cfg s.sense src)
    { s with sense := { s.sense with pos := upd s.sense.pos m (fun x => { x with lost := out }) } }
  else
    { s with sense := { s.sense with
        enc := if src = 2 ∨ src = 3 then upd s.sense.enc (src - 2) (fun e => { e with invalid := false, aberr := false, zerr := false, ssierr := false, ssiErrs := 0 })
               else s.sense.enc
        pos := upd s.sense.pos m (fun x => { x with lost := false, bad := upd x.bad src (fun _ => false), injConverged := false, held := none }) } }

/-- R91: the injection observer of a machine has converged. -/
def injectionDone (m : Nat) (s : State) : State :=
  { s with sense := { s.sense with pos := upd s.sense.pos m (fun x =>
      if x.injRunning then { x with injConverged := true, held := none } else x) } }

/-! ### The position used by the lanes (R71) -/

/-- The mechanical angle in turns and speed that an observer's state gives for a machine (R90, R91). -/
def observed (m : Nat) (x : List Rat) (s : State) : Rat × Rat := (nth x 0 0 / (s.cfg.u (ctlIdx m 0x3010) 3 : Rat), nth x 1 0)

/-- The position of a machine latched at a window centre (R66, R69 to R71): the configured source while it is valid, else the observer that the
speed calls for, else, until the injection converges (10 ms at most), the last angle extrapolated with the torque limit held. The observers step at the
lane start, when the currents are there. -/
def latchPos (m tc : Nat) (s : State) : State :=
  let c := s.cfg
  let src := posSource c m
  let x := nth s.sense.pos m {}
  let x := { x with injConverged := x.injConverged || (x.injRunning && decide (x.injSince + 2000000 ≤ tc)) }
  let mine (n : Nat) : Bool := src == n + 2 || (m == 0 && posSource c 1 != n + 2)
  let sense := { s.sense with enc := s.sense.enc.mapIdx (fun n e => if mine n then encoderUpdate c s.now tc n e else e) }
  let f := ratedFraction c m x.speed
  let low := decide (f < 1 / 25)
  let armed := c.b 0x6300 3
  let dt : Rat := mkRat ((tc : Int) - x.time) 200000000
  let y : PosSel :=
    if src < 4 && !x.lost && sourceValid c sense src then
      let (a, v) := sourceLatch c sense tc src
      let run := armed && low
      { x with inUse := src, angle := a, speed := v, time := tc, held := none, injRunning := run, injConverged := x.injConverged && run }
    else
      let inj := low || (decide (f ≤ 1 / 20) && x.inUse ≠ 6)
      if !inj then
        { x with inUse := 6, angle := x.angle + x.speed * dt, time := tc, held := none, injRunning := armed && low, injConverged := false }
      else if x.injConverged then
        { x with inUse := 5, angle := x.angle + x.speed * dt, time := tc, held := none, injRunning := true }
      else
        { x with
          inUse := 5, angle := x.angle + x.speed * dt, time := tc, injRunning := true
          held := some (x.held.getD (nth s.pubLane.m m {}).limPos) }
  let y : PosSel := if y.injRunning && !x.injRunning then { y with injSince := tc, track := [] } else y
  let e := absR (nth (if y.inUse = 5 then y.track else y.emf) 2 0)
  let far := decide (5 ≤ y.inUse) && decide (1 / 12 < e)
  let diff := (y.angle * (c.u (ctlIdx m 0x3010) 3 : Rat)) - nth y.emf 0 0
  let diff := absR (diff - ((diff + 1 / 2).floor : Rat))
  let bad := decide (y.inUse ≤ 1) && decide (1 / 20 < ratedFraction c m y.speed) && decide (1 / 18 < diff)
  let n := if far then x.obsErrCount + 1 else 0
  let failed := bad || decide (10 ≤ n)
  let new := failed && !x.obsFaulted
  let good := if failed || far then 0 else min 100 (x.goodCount + 1)
  let y : PosSel := { y with obsErrCount := n, obsFaulted := failed, goodCount := good }
  let s : State := { s with sense := { sense with
    pos := upd sense.pos m (fun _ => y)
    res := if y.inUse ≤ 1 then upd sense.res y.inUse (fun r => { r with plaus := bad }) else sense.res } }
  let s := if new then s.raise (.fault 0x0A (17 + m) m) else s
  if s.standing (17 + m) && !y.lost && decide (100 ≤ good) && (nth s.crust.axis m {}).valid then s.raise (.restored (16 + m)) else s

/-- One update of a machine's observers (R90, R91), from the stage-10 voltages of the previous update and the currents of this one; the observer in use
gives the angle and the speed. -/
def observe (m : Nat) (volts i : List Rat) (iq phase tUpd : Rat) (s : State) : State :=
  let c := s.cfg
  let o := ctlIdx m 0x3404
  let par (k : Nat) : Rat := c.f (ctlIdx m 0x3010) k
  let x := nth s.sense.pos m {}
  let emf := Config.backEmf (c.u o 1 : Rat) tUpd [par 5, par 6, par 7] volts i x.emf
  let track := if x.injRunning then Config.injectionTrack (c.u o 4 : Rat) tUpd (iq * sinTurn phase) x.track else x.track
  let x := { x with emf := emf, track := track }
  let use (l : List Rat) (x : PosSel) : PosSel := let r := s.observed m l; { x with angle := r.1, speed := r.2 }
  let x := if x.inUse = 6 then use emf x else if x.inUse = 5 && x.injConverged then use track x else x
  { s with sense := { s.sense with pos := upd s.sense.pos m (fun _ => x) } }

/-- R91: the d-axis current pulse of the polarity check, per unit: once the loop has settled +0.3 for 1 ms, then −0.3 for 1 ms. -/
def polarityPulse (m : Nat) (s : State) : Rat :=
  let x := nth s.sense.pos m {}
  let t0 := x.injSince + (Config.injectionSettle m (s.cfg.u (ctlIdx m 0x3404) 4)).val
  if !x.injRunning || x.injConverged || s.now < t0 then 0
  else if s.now < t0 + 200000 then 3 / 10 else if s.now < t0 + 400000 then -(3 / 10) else 0

/-- Whether a machine's window centre lies at a Trough, or at a Crest (0x6000.06, .07). -/
def centred (m : Nat) (crest : Bool) (s : State) : Bool := doubleUpdate s.cfg m || decide (s.cfg.u 0x6000 (6 + m) = b2n crest)

end State

/-- WINDOW_RESULT. -/
def execWindowResult (ws : List PathWindow) (mismatch : Bool) (s : State) : Out := .next (if s.sdRuns then s.windows ws mismatch else s)

/-- CURRENT_PAIR_AMBIGUOUS. -/
def execCurrentPairAmbiguous (hb : Nat) (s : State) : Out := .next (if s.full then s.reportAmbiguous hb else s)

/-- RESTORED_PATH_ELIGIBLE. -/
def execRestoredPathEligible (sd : Nat) (s : State) : Out := .next (if s.full then s.pathEligible sd else s)

/-- SPEAKER_SENSE_RESULT. -/
def execSpeakerSenseResult (w : PathWindow) (s : State) : Out := .next (if s.full && s.sdRuns then s.speakerSense w else s)

/-- FAST_PATH_OUTPUT. -/
def execFastPathOutput (sd sum : Nat) (s : State) : Out := .next (if s.sdRuns && !s.twinPath sd then s.fastPath sd sum else s)

/-- RESOLVER_LOOP_STEP. -/
def execResolverLoopStep (n : Nat) (o : ResolverStep) (s : State) : Out := .next (if s.up then s.resolver n o else s)

/-- ENCODER_EDGE. -/
def execEncoderEdge (n : Nat) (a b z : Bool) (s : State) : Out := .next (if s.full then s.encoder n a b z else s)

/-- SSI_READ_DONE. -/
def execSsiReadDone (n : Nat) (o : SsiRead) (s : State) : Out := .next (if s.full then s.ssi n o else s)

/-- INJECTION_CONVERGED. -/
def execInjectionConverged (m : Nat) (s : State) : Out := .next (if s.full then s.injectionDone m else s)

end Sys2Proof.Machine
end

