-- ==== Sys2Proof/Machine/LaneCmds.lean ====
section
/-! DEFINITION. The commands of the lanes and the vote (chapters 02, 04 and 05): one update from lane start to the compare shadow, the lanes' tests and
readmission. -/

namespace Sys2Proof.Machine

/-- The set-points that a mode reads (Table 4-2). -/
def modeSetPoints (c : Store) (m mode : Nat) : Rat × Rat :=
  let i := ctlIdx m 0x3001
  match mode with
  | 1 => (c.f i 3, c.f i 4)
  | 2 => (c.pf i 1, 0)
  | 3 => (c.f i 2, 0)
  | 4 => (c.f i 5, c.f i 6)
  | _ => (0, 0)

namespace State

/-! ### The common input (R12, R181, R188, R209, R284) -/

/-- Whether the latest update instant of a machine is its Crest. -/
def atCrest (m : Nat) (s : State) : Bool := decide ((nth s.ctl m {}).instant ≠ if m = 0 then s.frame.troughTime else s.frame.m1Time)

/-- The period in counts, and the zero-vector share, in which the on-times of the running update act: the running period when the next update
instant is a Crest, else the next one (R32, R122). -/
def dutyPeriod (m : Nat) (s : State) : Nat × Int :=
  let x := nth s.mod.m m {}
  if x.double && !s.atCrest m then (x.period, x.zs) else (x.next, x.zsNext)

/-- The time from an update instant of a machine to the next, in counts. -/
def updateStep (m : Nat) (s : State) : Nat := let x := nth s.mod.m m {}; if x.double then x.period / 2 else x.period

/-- Whether a machine's group is tripped or its mode in use is 0 (R85), and no engine drives it. In RESTART the Rise has started (R150). -/
def machIdle (m : Nat) (s : State) : Bool :=
  (s.trip.group m).holds || ((nth s.ctl m {}).mode == 0 && !s.engineDrives m)

/-- The tone of an identification at an update instant of a machine, per unit. -/
def identTone (m tu : Nat) (s : State) : Rat :=
  let i := s.canc.ident
  if i.machine = m then i.tone s.cfg (s.dev.state == 5) tu * s.cfg.f 0x7003 (5 + m) / iBase s.cfg m else 0

/-- Whether the order under identification acts on the torque axis. -/
def identTorque (s : State) : Bool := let i := s.canc.ident; orderTorque (orderDef s.cfg i.machine i.order)

/-- The tones that the engine adds in RUN to a machine's flux-axis and torque-axis references (R197, R220), per unit. -/
def runTones (m tu : Nat) (s : State) : Rat × Rat :=
  if s.dev.state ≠ 5 then (0, 0) else
  let t := s.diag.tap
  let tap := if t.drives m ∧ t.cur.kind = 2 then
      mkRat (s.cfg.u 0x8040 4) 4000 * t.fadeFactor tu * cosTurn (t.cur.freq * (tu : Rat) / 200000000)
    else (0 : Rat)
  let id := s.identTone m tu
  if s.identTorque then (tap, id) else (tap + id, 0)

/-- The tap-test references of a machine for an update in PROOFING and SERVICE (R197, R219), per unit. -/
def tapRefs (m : Nat) (theta : Rat) (tu : Nat) (s : State) : Rat × Rat :=
  let c := s.cfg
  if s.diag.tap.drives m then s.diag.tap.machineRef c (mkRat (c.u 0x8040 4) 1000) theta tu else (s.identTone m tu, 0)

/-- What all lanes read for a machine at an update instant of it (R12). -/
def laneEnv (m : Nat) (s : State) : LaneEnv :=
  let c := s.cfg
  let x := nth s.ctl m {}
  let p := nth s.sense.pos m {}
  let tu := x.instant + s.updateStep m
  let tap := s.engineDrives m
  let spin := s.diag.tap.drives m && s.diag.tap.cur.kind == 3
  let mode := if tap then (if spin then 3 else 1) else x.mode
  let sp := if spin then (c.f 0x8040 8 * (s.diag.tap.cur.mult : Rat), 0) else modeSetPoints c m mode
  let gate := s.crust.gate s.now
  let h := if s.working then let p := s.hearth.motor m (iBase c m) tu; (gate * p.1, gate * p.2) else (0, 0)
  let inj := if p.injRunning then Config.bandStop m tu h.1 else h.1
  let theta := (c.u (ctlIdx m 0x3010) 3 : Rat) * p.angle + mkRat (c.u (ctlIdx m 0x3010) 0xA) 65536
  let tr := s.tapRefs m theta tu
  let tone := s.runTones m tu
  let sg := s.diag.sig
  let test (k : Nat) : Rat := if sg.running && sg.target / 128 == m && sg.target % 4 == k then sg.value else 0
  let d := s.dutyPeriod m
  let q := nth s.chain.m m {}
  { m := m, fn := s.frame.fn, mode := mode, enter := x.enter, fadeOut := x.fadeFrom.isSome || s.dev.exitFade.isSome, idle := s.machIdle m
    i := (List.range 6).map (fun h => ofQ 29 (phasePu c s.sense m h))
    thetaMech := p.angle, speed := p.speed, udc := f32ToRat (nth s.sense.dc m {}).volts
    sp1 := sp.1, sp2 := sp.2, vFreq := c.f (ctlIdx m 0x3001) 7
    inj := inj + tone.1, canc := h.2 + tone.2
    thermal := [1, 2].map (fun k => pairOf (f32OfRat ((nth s.loads m {}).fTh * c.pf (ctlIdx m 0x3012) k))), crust := (nth s.crust.tlim m none).map (fun l => pairOf (f32OfRat l)), held := p.held
    tUpd := mkRat (s.updateStep m) 200000000, period := d.1, zs := d.2, modMode := modMode c m
    restart := x.env.idle && !s.machIdle m, re := x.re, observer := decide (5 ≤ p.inUse), injRun := p.injRunning, pulse := s.polarityPulse m, driven := s.traction m == .duties
    testT := test 0, testS := test 1, testD := test 2, testQ := test 3
    deadSteps := deadTime c m, flags := Config.updateFlags s.frame.fn m
    tap := tap, tapD := tr.1, tapQ := tr.2, tapStar := s.diag.tap.star c, tapFade := s.diag.tap.fadeFactor tu
    wide := if c.u 0xD000 (7 + m) = 1 ∧ q.fresh ∧ q.wideAlone = false then some (q.id / iBase c m, q.iq / iBase c m, q.torque) else none }

/-- R384: a split machine whose partner's record is missing runs alone until 1000 updates in a row have delivered one. -/
def splitUpdate (m : Nat) (s : State) : State :=
  if s.cfg.u 0xD000 (7 + m) ≠ 1 then s else
  { s with chain := { s.chain with m := upd s.chain.m m (fun q =>
      if q.fresh then { q with wideCount := min 1000 (q.wideCount + 1), wideAlone := q.wideAlone && decide (q.wideCount < 999) }
      else { q with wideCount := 0, wideAlone := true }) } }

/-- R43 and code 0x11: a pair of a copy of the active store that fails is rewritten from the copy that passes; STORE stands while one fails in both
(Table 14-8: rewrite pending). -/
def repairStore (s : State) : State :=
  let a := s.active.heal s.active2
  let b := s.active2.heal s.active
  if a == s.active && b == s.active2 && (!a.damaged || bit s.fault.standing 22) then s else
  let s := raise (.fault 0x11 23 0) { s with active := a, active2 := b }
  if a.damaged then s else raise (.restored 22) s

/-- Whether a pair that the lanes use fails its complement check in both copies: each lane that uses it fails its check (Tables 2-9 and 5-1). -/
def lanePairLost (s : State) : Bool :=
  s.active.vals.any (fun e => match findRow e.1 with
    | some r => (r.grp == 2 || r.grp == 3) && r.ty.isPair && !pairOk e.2 && !pairOk (s.active2.raw e.1)
    | none => false)

/-! ### Lane start, report and deadline (R32, R98 to R103) -/

/-- A machine's observers take this update (R90, R91): the stage-10 voltages of the previous one, and the currents measured. -/
def observeMachine (m : Nat) (s : State) : State :=
  let e := s.laneEnv m
  let l := nth s.pubLane.m m {}
  s.observe m (nth s.pubLane.pub m {}).volts e.i (measure (laneParams s.cfg m) e l).iq l.injPhase e.tUpd

/-- A machine's record of the running update: what the lanes latched, the flags that the update consumes, the loss samples of R203, and the value of
a running test signal. -/
def latchMachine (m : Nat) (s : State) : State :=
  let c := s.cfg
  let s := s.splitUpdate m
  let sg := s.diag.sig
  let dur : Rat := ((c.u 0xE010 7 * nominalPeriod c 0 : Nat) : Rat) / 200000000
  let s : State := if sg.running && sg.target / 128 == m then
      { s with diag := { s.diag with sig := sg.update c ((nth s.ctl m {}).instant) dur } } else s
  let s := s.observeMachine m
  let e := s.laneEnv m
  { s with
    ctl := upd s.ctl m (fun x => { x with env := e, enter := false, re := {} })
    chain := { s.chain with m := upd s.chain.m m (fun q => { q with fresh := false }) }
    loads := upd s.loads m (fun l => l.addCurrents ((e.i.take (phaseCount c m)).map (fun v => v * iBase c m))) }

/-- Whether a full lane computes: ACTIVE, STANDBY or PROBATION. -/
def computes (st : Nat) : Bool := st == 0 || st == 1 || st == 4

/-- LANE_START (R32): all three lanes start on the common input; in an update that is not an update instant of M1, M1's step repeats on its held input
(R28). -/
def laneStart (s : State) : State :=
  if s.up = false || s.dev.state = 7 || s.lanes.running || s.frame.started = false then s else
  let s := s.repairStore
  if s.dev.state = 7 then s else
  let m1 := s.lanes.m1Update
  let s := s.latchMachine 0
  let s : State := if m1 then s.latchMachine 1 else
    { s with ctl := upd s.ctl 1 (fun x => { x with env := { x.env with enter := false, restart := false, re := {} } }) }
  let c := s.cfg
  let e0 := (nth s.ctl 0 {}).env
  let e1 := (nth s.ctl 1 {}).env
  let r := laneRecipe c
  let spk := [0, 1].map (fun k => toQ 32 28 (s.crust.gate s.now * s.hearth.speaker k (s.now + 1)))
  let go (l : FullLane) : FullLane × Nat := if computes l.st then laneUpdate c r e0 e1 m1 spk l else ({ l with computed := none, report := none }, 0)
  let a := go s.lanes.a
  let b := go s.lanes.b
  let skip (m : Nat) (e : LaneEnv) : Bool := e.fresh || e.re != {} || s.machIdle m || (nth s.ctl m {}).mode == 0
  { s with lanes := { s.lanes with
      a := a.1, b := b.1
      chk := { s.lanes.chk with fromA := [], fromB := [], report := false, cause := 0 }
      running := true, startTime := s.now, skipBand := [skip 0 e0, skip 1 e1]
      recipeRefusals := add32 s.lanes.recipeRefusals (if s.lanes.active = 1 then b.2 else a.2) } }

/-- The cause of the first lane check that a report fails (Table 5-1): what the lane found itself, a pair that failed on use, an image that
failed its check, or a duty outside the period. -/
def reportCause (e0 e1 : LaneEnv) (upset : LaneUpset) (pairLost imageBad : Bool) (r : LaneReport) : Nat :=
  if upset.cause ≠ 0 then upset.cause
  else if pairLost || !e0.pairsOk || !e1.pairsOk then 5
  else if r.cause ≠ 0 then r.cause
  else if imageBad then 8
  else if (List.range 12).all (fun h => decide (nth r.duties h 0 ≤ 32 * (if h < 6 then e0.period else e1.period))) then 0 else 3

/-- LANE_REPORT (R98 to R103): a lane delivers its one result of the update before the deadline; upset is what a fault inside the lane does to it. -/
def laneReport (x : Nat) (upset : LaneUpset) (s : State) : State :=
  if !s.lanes.running || s.lanes.reported x then s else
  let l := s.lanes
  let e0 := (nth s.ctl 0 {}).env
  let e1 := (nth s.ctl 1 {}).env
  let alter (d : List Nat) : List Nat := upset.duties.foldl (fun d w => upd d w.1 (fun _ => w.2)) d
  if x < 2 then
    match (l.lane x).computed with
    | none => s
    | some r =>
      let r : LaneReport := { r with duties := alter r.duties }
      let r := { r with cause := reportCause e0 e1 upset s.lanePairLost (l.lane x).imageBad r }
      { s with lanes := l.setLane x (fun f => { f with report := some r, ecc := add32 f.ecc upset.corrected }) }
  else if l.chk.st ≠ 1 then s else
  let k := checkerRun s.cfg [e0, e1] (l.lane l.active) l.a.computed l.b.computed l.chk
  { s with lanes := { l with chk := { k with
      report := true, cause := if upset.cause = 0 ∧ (s.lanePairLost || !e0.pairsOk || !e1.pairsOk) then 5 else upset.cause, ecc := add32 k.ecc upset.corrected, fromA := alter k.fromA, fromB := alter k.fromB } } }

/-- LANE_DEADLINE (R32): a lane that has not reported reports no more in this update. -/
def laneDeadline (s : State) : State :=
  if !s.lanes.running then s else
  let late (f : FullLane) : FullLane := if f.report.isNone then { f with computed := none } else f
  let l := s.lanes
  { s with lanes := { l with a := late l.a, b := late l.b, chk := if l.chk.report then l.chk else { l.chk with cause := 4 } } }

/-! ### The vote (R103 to R112, R116) -/

/-- R116: the named lane's duty for the named half-bridge altered by twice the checker band. -/
def alterDuty (periods : List Nat) (h : Nat) (r : LaneReport) : LaneReport :=
  let p := nth periods (h / 6) 0
  let k := 64 * (p * 5 / 1000)
  { r with duties := upd r.duties h (fun d => if d ≤ 16 * p then d + k else d - k) }

/-- The reports on which the vote decides. -/
def voteReports (periods : List Nat) (l : LaneState) : Option LaneReport × Option LaneReport :=
  match l.voteTest with
  | some (x, h) => if x = 0 then (l.a.report.map (alterDuty periods h), l.b.report) else (l.a.report, l.b.report.map (alterDuty periods h))
  | none => (l.a.report, l.b.report)

/-- The flags of a vote (chapter 05). -/
def voteFlags (c : Store) (periods : List Nat) (ra rb : Option LaneReport) (l : LaneState) : VoteIn :=
  let cause (o : Option LaneReport) : Nat := match o with | some r => r.cause | none => 4
  let k (o : Option LaneReport) (chk : List Nat) : Bool := match o with
    | some r => withinBand periods r.duties chk && integratorsOk c l.skipBand l.chk.integ r.recs
    | none => false
  let p (o : Option LaneReport) : Bool := match o with | some r => plausible c l.usedRec r.recs | none => false
  { active := l.active, availA := l.avail 0, availB := l.avail 1, causeA := cause ra, causeB := cause rb
    agree := match ra, rb with | some a, some b => reportsAgree a b | _, _ => false
    chkPresent := l.chk.st == 1, causeC := if l.chk.report then l.chk.cause else 4
    kA := k ra l.chk.fromA, kB := k rb l.chk.fromB, pA := p ra, pB := p rb, prevRow := l.row, voteTest := l.voteTest.isSome }

/-- The joining lane's comparison in PROBATION (R111): with its agreement it counts, otherwise it is dropped. -/
def probation (c : Store) (x : Nat) (own used : Option LaneReport) (l : LaneState) : LaneState :=
  if (l.lane x).st ≠ 4 then l else
  match own, used with
  | some o, some u =>
    if o.cause ≠ 0 then l.drop c x o.cause
    else if reportsAgree o u then l.setLane x (fun f => { f with probation := min 1000 (f.probation + 1) })
    else l.drop c x 0x0E
  | none, _ => l.drop c x 4
  | some o, none => if o.cause ≠ 0 then l.drop c x o.cause else l

/-- What the vote's row does to the lanes: drops, the active lane, DIVERGED, the checker, and the counters of Table 5-6. -/
def voteLanes (c : Store) (fn : Nat) (i : VoteIn) (o : VoteOut) (l : LaneState) : LaneState :=
  let before := l.active
  let l := match o.drop with | some (x, cause) => l.drop c x cause | none => l
  let l := match o.used with | some x => if x ≠ before then l.makeActive x else l | none => l
  let l := if o.diverged && o.used.isSome then l.setLane (1 - l.active) (fun f => { f with diverged := true }) else l
  let l : LaneState := if o.chkFail ≠ 0 then { l with chk := { l.chk with st := 5 }, lastDrop := 0x2000 + o.chkFail } else l
  let taken := l.active ≠ before
  { l with
    row := o.row, agree := i.agree
    takeovers := if taken then inc32 l.takeovers else l.takeovers, takeoverFn := if taken then fn else l.takeoverFn
    disagreements := if 2 ≤ o.row ∧ o.row ≤ 7 then inc32 l.disagreements else l.disagreements
    deviations := if o.row = 1 ∨ o.row = 0x0C then inc32 l.deviations else l.deviations
    testFail := l.testFail || (i.voteTest && o.row != 2 && o.row != 3)
    due := if o.bedrock ≠ 0 then o.bedrock else if i.voteTest && o.row != 2 && o.row != 3 then 5 else l.due
    voteTest := none }

/-- The single faults of a vote (codes 0x01 and 0x02; none for a vote test, R116). -/
def voteFaults (o : VoteOut) : List Signal :=
  (match o.drop with | some (x, cause) => if cause = 0x0C then [] else [Signal.fault 1 0x20 x] | none => [])
    ++ (if o.chkFail = 0 ∨ o.bedrock ≠ 0 then [] else [Signal.fault 2 0x20 2])

/-- The end of the update in a full lane: its new states stand. -/
def settle (f : FullLane) : FullLane :=
  if f.computed.isSome then { f with m := f.next, mem := f.nextMem, computed := none, report := none } else { f with report := none }

/-- R101: the checker's copies of the integrators, advanced by its own PI step from the used record. -/
def checkerAdvance (c : Store) (envs : List LaneEnv) (act : FullLane) (r : LaneReport) : List (List Rat) :=
  [0, 1].map (fun m => checkerStep c (nth envs m {}) (nth act.m m {}) (nth r.recs m {}))

/-- The end-of-update integrators of a lane, which the checker takes over after each vote (R101). -/
def endIntegrators (f : FullLane) : List (List Rat) :=
  f.next.map (fun s => [s.piD.integ, s.piQ.integ, s.piDd.integ, s.piDq.integ])

/-- A machine's values after the vote: the passive monitors in RUN (R229, R230), a tap test's samples (R222), the canceller's set (R188) and the
saturation events, from the voted lane. -/
def voteMachine (m : Nat) (f : FullLane) (s : State) : State :=
  let c := s.cfg
  let e := (nth s.ctl m {}).env
  let p := nth f.pub m {}
  let l := nth f.next m {}
  let x := measure (laneParams c m) e l
  let ib := iBase c m
  let vd := f32ToRat p.vd
  let vq := f32ToRat p.vq
  let o : MonSample :=
    { id := x.id * ib, iq := x.iq * ib, vd := vd, omega := x.omega, speed := e.speed * 60, limited := bit l.status 9 || bit l.status 10,
      amps := e.i.map (fun i => i * ib) }
  let t := s.diag.tap
  let tap : TapState :=
    if t.running && t.load == m then
      if t.cur.kind = 3 then
        let goal := c.f 0x8040 8 * (t.cur.mult : Rat)
        if t.atSpeed then { t with sumV := t.sumV.add ⟨vq, x.omega⟩, sumI := t.sumI.add ⟨x.iq * ib, 0⟩, n := t.n + 1 }
        else if absR (e.speed * 60 - goal) ≤ c.f 0x8040 8 / 50 then { t with atSpeed := true, blocks := 0, sumV := {}, sumI := {}, n := 0 }
        else t
      else
        let cs := cosSinTurn (t.stepAngle c x.theta)
        let along (d q : Rat) : Rat := d * cs.1 + q * cs.2
        let diff : Rat := match t.star c with | 0 => 0 | 1 => 1 | _ => -1
        let v := along vd vq + diff * along (f32ToRat p.dvd) (f32ToRat p.dvq)
        let xI := along x.dd x.dq * ib
        let t := (t.sampleV s.lanes.sample v).sampleI s.lanes.sample (along x.id x.iq * ib + diff * xI) xI
        { t with satSeen := t.satSeen || bit l.status 5 || bit l.status 4 }
    else t
  { s with
    diag := { s.diag with
      tap := tap, mon := if s.dev.state = 5 then upd s.diag.mon m (fun w => w.sample c m ib o) else s.diag.mon }
    canc := { s.canc with m := upd s.canc.m m (fun k => k.publish s.now { theta := e.thetaMech, omega := e.speed, time := (nth s.sense.pos m {}).time }) }
    loads := upd s.loads m (fun k => if k.running then { k with idSum := k.idSum + f32ToRat p.id, idN := k.idN + 1 } else k)
    ctl := upd s.ctl m (fun w => { w with satEvents := add32 w.satEvents p.satEdges }) }

/-- The used lane's duties into the compare shadow (R32, R129); M1's only at its own update instants (R28). -/
def loadShadow (r : LaneReport) (s : State) : State :=
  let put (m : Nat) (d : List Nat) (x : ModMachine) : ModMachine :=
    { x with shadow := some d, computedFor := (nth s.ctl m {}).env.period }
  let l := upd s.mod.m 0 (put 0 (r.duties.take 6))
  { s with mod := { s.mod with m := if s.lanes.m1Update then upd l 1 (put 1 (r.duties.drop 6)) else l } }

/-- What a vote's chosen report does (R100, R105): each machine it updates, and the compare shadow; without a report there are no duties to load. -/
def voteUse (used : Option LaneReport) (ul : FullLane) (s : State) : State :=
  match used with
  | some r =>
    let both := s.lanes.m1Update
    let s := (s.voteMachine 0 ul).loadShadow r
    if both then s.voteMachine 1 ul else s
  | none => { s with mod := { s.mod with m := s.mod.m.map (fun (x : ModMachine) => { x with shadow := none }) } }

/-- What a vote decides: the lanes after it, the report whose duties it loads, and its signals. -/
structure Voted where
  lanes : LaneState
  used : Option LaneReport
  signals : List Signal

/-- The decision of a vote over the lanes (R105 to R111); fn is the frame number, envs the two machines' common input. -/
def voted (c : Store) (fn : Nat) (envs : List LaneEnv) (l : LaneState) : Voted :=
  let periods := envs.map (·.period)
  let reports := voteReports periods l
  let i := voteFlags c periods reports.1 reports.2 l
  let o := voteDecide i
  let used := match o.used with | some 0 => reports.1 | some _ => reports.2 | none => none
  let before := voteLanes c fn i o l
  let l := probation c 1 reports.2 used (probation c 0 reports.1 used before)
  let probFaults := [0, 1].filterMap (fun x =>
    if (before.lane x).st = 4 && (l.lane x).st != 4 && (l.lane x).dropCause != 0x0E then some (Signal.fault 1 0x20 x) else none)
  { lanes := { l with
      usedRec := match used with | some r => r.recs | none => l.usedRec
      chk := match used with
        | some r => { l.chk with own := checkerAdvance c envs (l.lane l.active) r, integ := endIntegrators (l.lane l.active) }
        | none => l.chk }
    used := used
    signals := voteFaults o ++ probFaults }

/-- The end of a lane update: the two full lanes settle. -/
def voteEnds (s : State) : State := { s with lanes := { s.lanes with running := false, a := settle s.lanes.a, b := settle s.lanes.b } }

/-- VOTE (R105): decides a row, loads the duties it names, and moves the lanes. While no full lane is available because a host's test runs, it decides no
row (R115).
copies says that one of the three copies of the vote was outvoted (code 0x03). -/
def vote (copies : Bool) (s : State) : State :=
  if !s.lanes.running then s else
  let s : State := { s with crust := { s.crust with voteAt := some s.now } }
  let l := s.lanes
  if l.underTest then s.voteEnds
  else
  let v := voted s.cfg s.frame.fn (s.ctl.map (·.env)) l
  let s : State := { s with lanes := v.lanes }
  let s := (s.voteUse v.used (v.lanes.lane v.lanes.active)).voteEnds
  let s := raiseAll v.signals s
  if copies then s.raise (.fault 0x03 13 0) else s

/-! ### Tests and readmission (R109 to R115) -/

/-- LANE_SELFTEST_DONE (R109, R113, R115): the structural self-test of a lane ends, 4 ms after its start, 1 ms for the checker lane. -/
def selftestDone (x : Nat) (pass : Bool) (s : State) : State :=
  let l := s.lanes
  let passed : Nat := if pass then 2 ^ x else 0
  if x < 2 then
    let f := l.lane x
    match f.testing with
    | some t =>
      if f.st ≠ 2 ∨ s.now < t + 800000 ∨ f.testPassed then s else
      let res := if f.hostTest then l.testResult ||| passed else l.testResult
      if pass then { s with lanes := { l.setLane x (fun f => { f with testPassed := true }) with testResult := res } }
      else { s with lanes := { l.drop s.cfg x 0x0B with testResult := res } }
    | none => s
  else
    match l.chk.testing with
    | some t =>
      if l.chk.st ≠ 2 ∨ s.now < t + 200000 then s else
      { s with lanes := { l with
          chk := { l.chk with st := if pass then 1 else 5, testing := none, testPassed := pass }
          testResult := l.testResult ||| passed, lastDrop := if pass then l.lastDrop else 0x200B } }
    | none => s

/-- LANE_SYNC_DONE (R110). -/
def syncDone (x : Nat) (s : State) : State :=
  if (s.lanes.lane x).st = 3 then { s with lanes := s.lanes.setLane x (fun f => { f with syncDone := true }) } else s

/-- PROBATION_DONE (R111): 1000 consecutive agreeing updates. -/
def probationDone (x : Nat) (s : State) : State :=
  let f := s.lanes.lane x
  if f.st = 4 ∧ 1000 ≤ f.probation then { s with lanes := s.lanes.setLane x (fun f => { f with testPassed := true }) } else s

/-- RECIPE_IMAGE_CHECK (R103): whether each full lane's recipe bank matches the signature. -/
def imageCheck (okA okB : Bool) (s : State) : State :=
  { s with lanes := { s.lanes with a := { s.lanes.a with imageBad := !okA }, b := { s.lanes.b with imageBad := !okB } } }

/-- R114: a swap's acceptance. -/
def swapAllowed (s : State) : Bool := s.lanes.avail 0 && s.lanes.avail 1 && s.lanes.agree

/-- R114: Swap active. -/
def swapRequest (s : State) : State := { s with lanes := { s.lanes with swapPending := some s.now } }

/-- Whether all three lanes are available. -/
def allLanes (s : State) : Bool := s.lanes.avail 0 && s.lanes.avail 1 && s.lanes.chk.st == 1

/-- R115: a lane test's acceptance. -/
def laneTestAllowed (mask : Nat) (s : State) : Bool :=
  s.dev.state == 4 || s.dev.state == 6
    || (s.dev.state == 5 && s.allLanes && mask == (if s.lanes.active = 0 then 2 else 1))

/-- R115: Lane test request. -/
def laneTest (mask : Nat) (s : State) : State :=
  let under (f : FullLane) : FullLane :=
    { f with st := 2, testing := some s.now, testPassed := false, syncDone := false, probation := 0, hostTest := true, diverged := false, report := none, computed := none }
  let l := s.lanes
  let l := if bit mask 0 then l.setLane 0 under else l
  let l := if bit mask 1 then l.setLane 1 under else l
  let l : LaneState := if bit mask 2 then { l with chk := { l.chk with st := 2, testing := some s.now, testPassed := false } } else l
  let l := if mask % 4 = 1 ∨ mask % 4 = 2 then l.chooseActive else l
  { s with lanes := { l with testResult := s.frame.fn % 256 * 2 ^ 24 + mask * 16 } }

/-- R116: a vote test's acceptance. -/
def voteTestAllowed (s : State) : Bool := (s.dev.state == 4 || s.dev.state == 6) && s.allLanes

/-- R116: Vote test. -/
def voteTestRequest (w : Nat) (s : State) : State := { s with lanes := { s.lanes with voteTest := some (w / 256 % 2, w % 16) } }

end State

/-- LANE_REPORT. -/
def execLaneReport (x : Nat) (upset : LaneUpset) (s : State) : Out := .next (s.laneReport x upset)

/-- LANE_DEADLINE. -/
def execLaneDeadline (s : State) : Out := .next s.laneDeadline

/-- VOTE. -/
def execVote (outvoted : Bool) (s : State) : Out := .next (s.vote outvoted)

/-- LANE_SELFTEST_DONE. -/
def execLaneSelftestDone (x : Nat) (pass : Bool) (s : State) : Out := .next (if s.full then s.selftestDone x pass else s)

/-- LANE_SYNC_DONE. -/
def execLaneSyncDone (x : Nat) (s : State) : Out := .next (if s.full then s.syncDone x else s)

/-- PROBATION_DONE. -/
def execProbationDone (x : Nat) (s : State) : Out := .next (if s.full then s.probationDone x else s)

/-- RECIPE_IMAGE_CHECK. -/
def execRecipeImageCheck (okA okB : Bool) (s : State) : Out := .next (if s.full then s.imageCheck okA okB else s)

end Sys2Proof.Machine
end

