-- ==== Sys2Proof/Machine/TripCmds.lean ====
section
/-! DEFINITION. The commands of the trip logic, the discharge and the gate-driver links (chapter 07). -/

namespace Sys2Proof.Machine

namespace State

/-- Crust's mechanical speed of a machine in rpm, and whether it is valid. -/
def crustSpeed (m : Nat) (s : State) : Rat × Bool := let a := nth s.crust.axis m {}; (a.speed, a.valid)

/-- Crust's mechanical angle of a machine in turns. -/
def crustAngle (m : Nat) (s : State) : Rat := mkRat (nth s.crust.axis m {}).angle 65536

/-- What the winding method asks of a machine (R157). -/
def windEnv (m : Nat) (s : State) : TripState.WindEnv :=
  { enabled := nth s.mod.enabled m false, modeZero := (nth s.ctl m {}).mode == 0 && !s.engineDrives m
    speed := (s.crustSpeed m).1, speedOk := (s.crustSpeed m).2, angle := s.crustAngle m, angleOk := (s.crustSpeed m).2, soffOn := s.safeOffOn }

/-- What the winding method asks of both machines. -/
def windEnvs (s : State) : List TripState.WindEnv := [s.windEnv 0, s.windEnv 1]

/-- The demands of a discharge in force: the host's and Crust's (R156); none in the hard-limit states (R298). -/
def discharge (host crust : Bool) (s : State) : State :=
  if s.fault.hardLimit then s else { s with trip := s.trip.disDemand s.cfg s.now s.windEnvs host crust }

/-- FLT_INPUT (R142, R143): a level that passed the filter; before PROOFING no source is configured and only the level is kept. -/
def fltLevel (n : Nat) (level : Bool) (s : State) : State :=
  if s.up then s.tripTo (s.trip.fltInput s.cfg s.now n level)
  else { s with trip := { s.trip with flt := upd s.trip.flt n (fun _ => level) } }

/-- The sources of the FLT inputs judged anew, and every latched source's inhibit (R152), after a change of their configuration. -/
def fltApply (s : State) : State := s.tripTo ((s.trip.fltSources s.cfg s.now).inhibits s.cfg)

/-- The Ridge source judged anew: a broadcast is received on either link (R380). -/
def ridgeApply (s : State) : State := s.tripTo (s.trip.ridgeSource s.cfg s.now (s.chain.up.rx || s.chain.dn.rx))

/-- SAFE_PATTERN_DELAY_END (R152, R153). -/
def patternDelayEnd (m : Nat) (s : State) : State :=
  { s with trip := s.trip.delayEnd s.cfg s.now m (s.crustSpeed m).1 (s.crustSpeed m).2 }

/-- R149: Trip clear of the groups of a mask, and whether one was refused. -/
def tripClear (mask : Nat) (s : State) : State × Bool :=
  let r := s.trip.clear s.now mask
  ({ s with trip := r.1 }, r.2)

/-- The gate-driver setup source of a link's group (R161): active while its setup has failed. -/
def gdlSource (link : Nat) (s : State) : State :=
  s.tripTo (s.trip.source s.now link srcGdl false (nth s.trip.gdl link {}).setupFail)

/-- A link with a new state. -/
def setLink (link : Nat) (x : GdlLink) (s : State) : State := { s with trip := { s.trip with gdl := upd s.trip.gdl link (fun _ => x) } }

/-- Whether the gate-driver links work (Table 22-3). -/
def linksOn (s : State) : Bool := s.working || (s.up && s.dev.state == 3)

/-- GDL_TRANSFER_DONE (R160 to R163). -/
def linkDone (link : Nat) (rx : List Nat) (s : State) : State :=
  let r := gdlDone s.cfg link rx (nth s.trip.gdl link {})
  let s := (s.setLink link r.1).gdlSource link
  let s : State := match r.2.2 with
    | some w => { s with trip := { s.trip with gdlLast := w } }
    | none => s
  if r.2.1 then s.raise (.fault 0x13 0 link) else s

/-- R163: an entry of a link is sent as soon as the link is free. -/
def linkRequest (link k : Nat) (s : State) : State :=
  s.setLink link (({ nth s.trip.gdl link {} with request := some k } : GdlLink).startWaiting s.cfg link)

/-- R163: a link's setup reruns as soon as the link is free. -/
def linkRerun (link : Nat) (s : State) : State :=
  (s.setLink link (({ nth s.trip.gdl link {} with rerun := true } : GdlLink).startWaiting s.cfg link)).gdlSource link

/-- R161: both links start their setup. -/
def linkSetup (s : State) : State :=
  ((s.setLink 0 ((nth s.trip.gdl 0 {}).startSetup s.cfg 0)).setLink 1 ((nth s.trip.gdl 1 {}).startSetup s.cfg 1))

end State

/-- FLT_INPUT. -/
def execFltInput (n : Nat) (level : Bool) (s : State) : Out := .next (s.fltLevel n level)

/-- SAFE_PATTERN_DELAY_END. -/
def execSafePatternDelayEnd (m : Nat) (s : State) : Out := .next (if s.up then s.patternDelayEnd m else s)

/-- DISCHARGE_DONE. -/
def execDischargeDone (s : State) : Out := .next (if s.up then { s with trip := s.trip.disDone } else s)

/-- DISCHARGE_TIME_LIMIT. -/
def execDischargeTimeLimit (s : State) : Out := .next (if s.up then { s with trip := s.trip.disTimeLimit s.cfg s.now } else s)

/-- DCHG_TIMEOUT. -/
def execDchgTimeout (s : State) : Out := .next (if s.up then { s with trip := s.trip.dchgTimeout s.cfg s.now } else s)

/-- DCHG_LOCK_END. -/
def execDchgLockEnd (s : State) : Out := .next (if s.up then { s with trip := s.trip.dchgLockEnd s.now } else s)

/-- GDL_TRANSFER_DONE. -/
def execGdlTransferDone (link : Nat) (rx : List Nat) (s : State) : Out := .next (if s.linksOn then s.linkDone link rx else s)

end Sys2Proof.Machine
end

