-- ==== Sys2Proof/Machine/HearthCmds.lean ====
section
/-! DEFINITION. The Hearth block boundary and the commands of the sound chain (chapters 08 to 12): settings, sensors, cancellers, the tap-test engine,
the block that is completed, and the streams. -/

namespace Sys2Proof.Machine

/-- Whether a boundary's settings include a key of an index. -/
def State.Applied.has (a : State.Applied) (idx : Nat) : Bool := a.keys.any (fun k => k / 256 == idx)

/-- R183, R210: what the value 1.0 of a speaker's output stands for, in V: the mean differential voltage of full modulation. -/
def speakerFull (c : Store) (k : Nat) : Rat :=
  let p := spkPeriod c k
  c.f 0x7003 (7 + k) * mkRat (2 * (p / 2) : Nat) (max 1 p)

/-- R231: a speaker's pilot amplitude, while it is on. -/
def pilotLevel (c : Store) (k : Nat) : Rat :=
  let g := c.i 16 0x8046 (2 * k + 2)
  if g ≤ -1000 then 0 else dbGain (mkRat g 10)

/-- R239, R240: the objects of a port's settings in force: configuration and both masks. -/
def aspInForce (c : Store) (n : Nat) : Nat × Nat × Nat := let i := 0x7600 + 16 * n; (c.u i 1, c.u i 2, c.u i 3)

namespace State

/-- A machine's control status word (Table 4-10). -/
def ctlStatus (m : Nat) (s : State) : Nat := (nth s.pubLane.m m {}).status

/-- ENABLED of a machine (Table 4-10). -/
def machEnabled (m : Nat) (s : State) : Bool := bit (s.ctlStatus m) 0

/-- A machine's speed in use, rpm: the value that the lanes publish (0x3020.0A). -/
def speedRpm (m : Nat) (s : State) : Rat := f32ToRat (nth s.pubLane.pub m {}).speed

/-- R165: the states in which the block grid runs. -/
def gridRuns (s : State) : Bool := s.linksOn

/-- R219: whether the engine may drive a machine: its output enable is set and both switches read back on. -/
def engineMay (m : Nat) (s : State) : Bool := s.cfg.b (0x5000 + 16 * m) 7 && s.safeOffOn

/-! ### Settings at a block boundary (R33, R170, R173, R240, R255) -/

/-- The waiting Play writes that a block boundary takes, of each player the last (R35, R170). -/
def chimePlays (s : State) : State :=
  let c := s.cfg
  let now := s.now
  let due := s.hearth.plays.filter (fun p => decide (p.2.2 + 200 ≤ now))
  let due := [0, 1].filterMap (fun g => (due.filter (fun p => p.1 == g)).getLast?)
  let one (l : List Chime) (p : Nat × Nat × Nat) : List Chime :=
    let lvl := c.i 16 (0x7020 + p.1) 3
    upd l p.1 (fun x => if bit p.2.1 4 || clipLen c (bits p.2.1 3 0) == 0 then chimeStop c lvl x else chimePlay c lvl p.2.1 x)
  { s with hearth := { s.hearth with
      chime := due.foldl one s.hearth.chime, plays := s.hearth.plays.filter (fun p => decide (now < p.2.2 + 200)) } }

/-- R170: a change of the chime store or of the directory ends the clips in progress. -/
def chimeChange (old : Store) (s : State) : State :=
  let c := s.cfg
  let changed := old.blob (objKey 0x7420 1) != c.blob (objKey 0x7420 1)
    || (List.range 16).any (fun k => old.u 0x7421 (k + 1) != c.u 0x7421 (k + 1))
  if changed then
    { s with hearth := { s.hearth with chime := s.hearth.chime.mapIdx (fun g (x : Chime) => chimeStop old (old.i 16 (0x7020 + g) 3) x) } }
  else s

/-- R255: the microphone channels enabled at a boundary start their wake time. -/
def micSettings (s : State) : State :=
  let c := s.cfg
  let a := s.audio
  let on (k : Nat) : Bool := bit (c.u 0x6060 1) k
  let wake := c.u 0x7280 1 * 200000
  { s with audio := { a with
      micOn := (List.range 8).map on
      micWake := (List.range 8).map (fun k =>
        if !on k then none else if nth a.micOn k false then nth a.micWake k none else if wake = 0 then none else some (s.now + wake)) } }

/-- R197: a complete table is written to both copies of the active store and to the staged copy, and the order leaves LOCKED_OUT. -/
def identTable (s : State) : State :=
  match s.canc.ident.table with
  | none => s
  | some (m, k, b) =>
    let key := objKey (0x7500 + 16 * m) (k + 1)
    moveToken { s.onActive (fun c => c.putBlob key b) with
      staged := s.staged.putBlob key b
      canc := { s.canc with
        ident := { s.canc.ident with table := none }
        m := upd s.canc.m m (fun x => { x with orders := upd x.orders k (fun o => { o with locked := false }) }) } }

/-- A port's settings applied at its boundary (R240). -/
def aspSettings (n : Nat) (s : State) : State :=
  let s := (s.boundary (32 * 2 ^ n) 200).1
  let port := aspInForce s.cfg n
  let w := port.1
  let rx := port.2.1
  let tx := port.2.2
  { s with audio := { s.audio with asp := upd s.audio.asp n (fun p => p.settings s.now w rx tx) } }

/-- R240: the ports whose settings apply at a block boundary, because no frame start comes. -/
def aspAtBlock (s : State) : State :=
  (List.range 4).foldl (fun s n =>
    let p := nth s.audio.asp n {}
    if p.phase = 4 || !p.seen then
      let s := s.aspSettings n
      let f := aspInForce s.cfg n
      { s with audio := { s.audio with asp := upd s.audio.asp n (fun p => p.takeNext f.2.1 f.2.2) } }
    else s) s

/-- The settings of the HEARTH group at a block boundary while Hearth runs. Answers whether a recipe applies at it (R97, R174). -/
def hearthSettings (s : State) : State × Bool :=
  let old := s.cfg
  let applied := s.boundary 16 200
  let s := applied.1
  let a := applied.2
  let c := s.cfg
  let h := s.hearth
  let changed := old.blob (objKey 0xC500 1) != c.blob (objKey 0xC500 1) || old.u 0xC500 2 != c.u 0xC500 2 || old.u 0xC500 3 != c.u 0xC500 3
  let waiting := h.jobs.any (fun j => j.newRecipe)
  let loaded := decide (c.u 0xC500 2 ≠ 0)
  let new := loaded && (changed || (bit a.mask 4 && decide (2 ≤ h.recipeSt)) || (h.recipeSt == 0 && !waiting))
  let s := ((s.chimeChange old).chimePlays).micSettings
  (s.aspAtBlock.identTable, new)

/-! ### Sensors (R190 to R192) -/

/-- Whether a microphone channel is clocked (R255): Hearth runs and the channel is enabled. -/
def micClocked (k : Nat) (s : State) : Bool := s.hearth.running && nth s.audio.micOn k false

/-- Whether a microphone channel has its wake time behind it (R255). -/
def micAwake (k : Nat) (s : State) : Bool := s.micClocked k && (nth s.audio.micWake k none).isNone

/-- The decimation chains over the bits of the block that ended (R64); a channel without its clock starts anew. -/
def micOuts (pdm : List (List Bool)) (s : State) : List MicChain.MicOut :=
  (List.range 8).map (fun k => if s.micClocked k then (nth s.sense.mics k {}).block (nth pdm k []) else ⟨{}, [], false, false⟩)

/-- The microphone blocks that the channels deliver: none while disabled, zeros while waking (R255). -/
def micBlocks (o : List MicChain.MicOut) (s : State) : List (List Int) :=
  o.mapIdx (fun k x => if s.micAwake k then x.samples else x.samples.map (fun _ => 0))

/-- The microphone checks of the block that ended, and the losses of R192. -/
def sensorBoundary (o : List MicChain.MicOut) (s : State) : State :=
  let c := s.cfg
  let st := o.mapIdx (fun k x => s.micAwake k && x.stuck)
  let cl := o.mapIdx (fun k x => s.micAwake k && x.clip)
  let x := s.canc.micBoundary ((List.range 8).map (fun k => nth st k false || nth cl k false)) ((List.range 8).map (fun k => s.micAwake k))
  { s with
    sense := { s.sense with mics := o.map (·.chain), micStuck := st, micClip := cl }
    canc := { x with acc := x.acc.mapIdx (fun n (p : AccPort) => p.boundary (c.u 0x7180 (n + 1))) } }

/-- The losses of the sensors, MIC0 to MIC7 and ACC0, ACC1. -/
def sensorLosses (s : State) : List Bool := s.canc.micLost ++ s.canc.acc.map (fun (p : AccPort) => p.lost)

/-- Whether a sensor carries weight in a machine's error signal. -/
def sensorCounts (m k : Nat) (s : State) : Bool :=
  if k < 8 then sensorWeight s.cfg m k != 0 else (weightedAcc s.cfg m).contains (k - 8)

/-- Whether a weighted sensor of a machine has been lost since the latest boundary. -/
def sensorNew (m : Nat) (s : State) : Bool :=
  (List.range 10).any (fun k => nth s.sensorLosses k false && !nth s.canc.known k false && s.sensorCounts m k)

/-! ### Cancellers, order monitors and the identification (R187 to R199, R232) -/

/-- What a machine gives its canceller at a block boundary. -/
def cancEnv (m : Nat) (s : State) : CancEnv :=
  let c := s.cfg
  let h := s.hearth
  let w := s.ctlStatus m
  let on := c.b 0x7003 (m + 1)
  let lvl := nth h.enable m 0
  { rpm := s.speedRpm m, enabled := bit w 0, outOn := on, outFading := if on then lvl != 480 else lvl != 0
    limited := decide (nth h.gain m 1 < 1) || decide (nth h.gainPrev m 1 < 1)
    fadeBit := bit w 1, injScaled := bit w 7, cancScaled := bit w 6, injRun := (nth s.sense.pos m {}).injRunning
    fH := (c.u (ctlIdx m 0x3404) 2 : Rat), fc := motorCeiling c m }

/-- Both cancellers at a block boundary: the flux and torque parts of the block that ended, and the states and weights of the block that begins. -/
def cancellers (blocks : List SensorBlock) (s : State) : State × List (List Rat) × List (List Rat) :=
  let c := s.cfg
  let h := s.hearth
  let past (m : Nat) := cancEnd h.cairnPrev h.deltaPrev (nth s.canc.m m {})
  let next (m : Nat) := cancBegin c m s.now (s.cancEnv m) s.canc (s.sensorNew m) blocks (past m).1
  ({ s with canc := { s.canc with m := [(next 0).1, (next 1).1], divergences := add32 s.canc.divergences ((next 0).2 + (next 1).2) } },
    [(past 0).2.1, (past 1).2.1], [(past 0).2.2, (past 1).2.2])

/-- The order monitors at a block boundary. -/
def orderMonitors (blocks : List SensorBlock) (s : State) : State :=
  let c := s.cfg
  let one (k : Nat) (o : OrderMon) : OrderMon :=
    let d := c.u 0x8080 (k + 1)
    let m := bits d 30 30
    let sn := bits d 29 27
    let a := sn / 3
    o.boundary c k (s.speedRpm m) (nth s.canc.m m {}) (c.u 0x7180 (a + 1)) (nth s.canc.acc a {}).lost (nth blocks (8 + sn) [])
  { s with diag := { s.diag with orders := s.diag.orders.mapIdx one } }

/-- The sensors' losses are known from here on; a new loss on a weighted sensor is code 0x16 of the machine (R192, R290). -/
def sensorFaults (s : State) : State :=
  let new (m : Nat) : List Signal := if s.sensorNew m then [.fault 0x16 0 m] else []
  let l := new 0 ++ new 1
  raiseAll l { s with canc := { s.canc with known := s.sensorLosses } }

/-- The running identification is aborted as a tap test is (R221). -/
def identAbort (cause : Nat) (s : State) : State :=
  if !s.canc.ident.running then s else
  tapLog s { s with diag := { s.diag with tap := s.diag.tap.identAborted cause }, canc := s.canc.leave s.now }

/-- An identification starts at a block boundary (R197); in PROOFING, one whose machine the engine may not drive is skipped (R219). -/
def identStart (req : Nat) (s : State) : State :=
  let c := s.cfg
  let m := bits req 15 15
  let i := Ident.start c (s.dev.state == 5) req { s.canc.ident with queued := none }
  if s.dev.state = 3 && !s.engineMay m then
    tapLog s { s with
      canc := { s.canc with ident := { i with running := false, failed := bits req 7 0, failFlag := true } }
      diag := { s.diag with tap := { s.diag.tap with load := m, result := 9, completed := inc32 s.diag.tap.completed } } }
  else if !i.running then
    tapLog s { s with
      canc := { s.canc with ident := i }
      diag := { s.diag with tap := { s.diag.tap with load := m, result := 3, completed := inc32 s.diag.tap.completed } } }
  else { s with
    canc := { s.canc with ident := i }
    diag := { s.diag with tap := { s.diag.tap with load := m, result := 0, held := upd s.diag.tap.held m (fun h => h || s.dev.state != 5) } } }

/-! ### The tap-test engine at a block boundary (R217 to R221) -/

/-- The temperature that a result carries (R228). -/
def tapTemp (l : Nat) (s : State) : Option Rat :=
  match loadSlot s.cfg s l 0x11 with
  | some t => some t
  | none => loadSlot s.cfg s l 1

/-- Whether a machine's position source is valid (Table 11-2), and its electrical angle in turns. -/
def tapAngle (m : Nat) (s : State) : Bool × Rat :=
  let x := nth s.sense.pos m {}
  let c := s.cfg
  (decide (x.inUse < 4) && !x.lost && sourceValid c s.sense (posSource c m),
    (c.u (ctlIdx m 0x3010) 3 : Rat) * x.angle + mkRat (c.u (ctlIdx m 0x3010) 0xA) 65536)

/-- A tap test starts (R218, R219): in PROOFING one that the engine may not drive ends with code 9, and one with no step ends at once. In RUN the d axis
is that of the machine's control; a sweep alone in SERVICE or PROOFING takes the d axis while the position source is valid (log 131). -/
def tapStart (w : Nat) (s : State) : State :=
  let c := s.cfg
  let l := w % 4
  let t := s.diag.tap
  let t : TapState := t.start c l (bits w 7 4) (s.dev.state == 5 || (s.tapAngle l).1)
  let t : TapState :=
    if s.dev.state = 3 && decide (l < 2) && !s.engineMay l then
      { t with running := false, plan := [], result := 9, completed := inc32 t.completed }
    else if (tapPlan c l (bits w 7 4)).isEmpty then { t with running := false, completed := inc32 t.completed, result := 1 }
    else { t with held := upd t.held l (fun h => h || s.dev.state != 5) }
  tapLog s { s with diag := { s.diag with tap := t } }

/-- R221: what a block boundary finds against the running test: ENABLED clear in RUN, a machine that turns during STANDSTILL or PHASE, and in
PROOFING a machine that the engine may no longer drive. -/
def tapChecks (s : State) : State :=
  let t := s.diag.tap
  let l := t.load
  let stop (t' : TapState) : State := tapLog s { s with diag := { s.diag with tap := t' } }
  if !t.running || decide (2 ≤ l) then s else
  let v := s.crustSpeed l
  if s.dev.state = 5 && !s.machEnabled l then stop (t.abort s.now 5)
  else if decide (2 ≤ t.cur.code ∧ t.cur.code ≤ 0x0B) && (!v.2 || decide (s.cfg.f 0x8040 7 < absR v.1)) then stop (t.abort s.now 7)
  else if s.dev.state = 3 && !s.engineMay l then
    stop { t with running := false, plan := [], result := 9, fade := 2, stopAt := s.now, completed := inc32 t.completed }
  else s

/-- Whether a request made at a time has waited for this boundary. -/
def tapDue (t : Nat) (s : State) : Bool := decide (t + 200 ≤ s.now)

/-- Whether a queued request is an abort that is due. -/
def tapAbortDue (q : Nat × Nat) (s : State) : Bool := s.tapDue q.2 && bit q.1 3 && decide (q.1 < 65536)

/-- The abort requests that are due leave the queue and abort the test and the identification that run (R221). -/
def tapAborts (s : State) : State :=
  let t := s.diag.tap
  let x : State := { s with diag := { s.diag with tap := { t with queue := t.queue.filter (fun q => !s.tapAbortDue q) } } }
  if t.queue.any (fun q => s.tapAbortDue q) then
    (tapLog x { x with diag := { x.diag with tap := x.diag.tap.abort s.now 6 } }).identAbort 6
  else x

/-- The next test or identification starts: the oldest request if it is due. -/
def tapNext (s : State) : State :=
  match s.diag.tap.queue with
  | r :: l =>
    if !s.tapDue r.2 then s else
    let x : State := { s with diag := { s.diag with tap := { s.diag.tap with queue := l } } }
    if r.1 < 65536 then x.tapStart r.1 else x.identStart (r.1 - 65536)
  | [] => match s.canc.ident.queued with
    | some r => if s.tapDue r.2 then s.identStart r.1 else s
    | none => s

/-- The requests that have waited for a block boundary: an abort acts at once, and the next test or identification starts when the engine is free. -/
def tapRequests (s : State) : State :=
  let s := s.tapAborts
  if s.diag.tap.running || s.canc.ident.running then s else s.tapNext

/-- The engine at a block boundary. -/
def tapBoundary (blocks : List SensorBlock) (s : State) : State :=
  let c := s.cfg
  let s : State := { s with
    diag := { s.diag with tap := s.diag.tap.boundary }
    canc := { s.canc with ident := s.canc.ident.boundary c blocks } }
  let s := s.tapChecks
  let s := if s.dev.state = 5 && s.canc.ident.running && !s.machEnabled s.canc.ident.machine then s.identAbort 5 else s
  s.tapRequests

/-- The tones added to a speaker's output over a block (R220, R231). -/
def speakerTones (k cairn : Nat) (d : Rat) (s : State) : List Rat :=
  let c := s.cfg
  let t := s.diag.tap
  let amp : Rat := mkRat (c.u 0x8040 5) (if s.dev.state = 5 then 4000 else 1000)
  let tap := if t.drives (k + 2) ∧ t.cur.kind = 2 then
      (toneBlock t.cur.freq cairn d).mapIdx (fun i x => x * amp * t.fadeFactor ((cairn : Rat) + d * (i : Rat)).floor.toNat)
    else List.replicate 32 0
  let p := if (nth s.mod.spk k {}).enabled then pilotLevel c k else 0
  let pilot := if p = 0 then List.replicate 32 0 else (toneBlock (c.f 0x8046 (2 * k + 1)) cairn d).map (fun x => x * p)
  List.zipWith (· + ·) tap pilot

/-! ### The block that begins and the block that is completed (R164 to R186) -/

/-- The job of the block that begins: the generators and the tones. -/
def blockJob (new : Bool) (s : State) : State :=
  let c := s.cfg
  let h := s.hearth
  let speed (idx : Nat) : Rat := match c.u idx 2 with
    | 0 => absR (s.speedRpm 0)
    | 1 => absR (s.speedRpm 1)
    | _ => absR (c.f idx 3)
  let g0 := genBlock c 0x7010 (speed 0x7010) (nth h.gen 0 {})
  let g1 := genBlock c 0x7011 (speed 0x7011) (nth h.gen 1 {})
  let c0 := chimeBlock c 0x7020 (nth h.chime 0 {})
  let c1 := chimeBlock c 0x7021 (nth h.chime 1 {})
  let j : HearthJob :=
    { n := h.n, cairn := h.cairn, delta := h.delta, cfg := c, gens := [g0.2, g1.2, c0.2, c1.2]
      tones := [s.speakerTones 0 h.cairn h.delta, s.speakerTones 1 h.cairn h.delta], newRecipe := new }
  { s with hearth := { h with gen := [g0.1, g1.1], chime := [c0.1, c1.1], jobs := h.jobs ++ [j] } }

/-- The samples of the microphones, and the cancellers' parts, belong to the block that ended. -/
def blockParts (mics : List (List Int)) (flux torq : List (List Rat)) (s : State) : State :=
  let h := s.hearth
  { s with hearth := { h with jobs := h.jobs.map (fun (j : HearthJob) => if j.n + 1 = h.n then { j with mics := mics, flux := flux, torq := torq } else j) } }

/-- The supply factor of a speaker (R184); 1 while the slot has no valid value. -/
def supplyFactor (k : Nat) (s : State) : Rat :=
  let w := s.cfg.u 0x7003 (9 + k)
  if w = 0 then 1 else
  match s.hk.slotValid (w - 1) with
  | none => 1
  | some u => if u ≤ 0 then 2 else clampR (1 / 2) 2 (s.cfg.f 0x7003 (7 + k) / u)

/-- What a block needs from the rest of the device. -/
def blockEnv (s : State) : BlockEnv :=
  let p (m : Nat) : LanePub := nth s.pubLane.pub m {}
  let mode (m : Nat) : Nat := if s.engineDrives m then 0 else (nth s.ctl m {}).mode
  { rec_ := { sp0 := (p 0).speed, sp1 := (p 1).speed, mode0 := mode 0, mode1 := mode 1 }
    enabled := [s.machEnabled 0, s.machEnabled 1], factor := [s.supplyFactor 0, s.supplyFactor 1] }

/-- What one unit of an output stands for in its load's cone model (R210). -/
def coneScale (c : Store) (l : Nat) (x : LoadModel) : Rat :=
  if l < 2 then
    let ld := c.f (ctlIdx l 0x3010) 6
    (c.f (ctlIdx l 0x3010) 8 + ld * x.idMean) * ld * c.f 0x7003 (5 + l)
  else speakerFull c (l - 2)

/-- A block processed: its job leaves the list, its samples go to the interpolators and the send taps, Crust gets its heartbeat, and the talkers send. -/
def processJob (j : HearthJob) (s : State) : State :=
  let c := j.cfg
  let h := s.hearth
  let e := s.blockEnv
  let h : HearthState := if j.newRecipe then h.initRecipe c else h
  let front := hearthFront s.audio j e.rec_ h
  let h := front.1
  let ins := front.2.1
  let o := front.2.2
  let sums := hearthSums j e o h
  let h := sums.1
  let o := sums.2.1
  let q := sums.2.2
  let loads := s.loads.mapIdx (fun l (x : LoadModel) =>
    let k := coneScale c l x
    coneLimit c l ((nth o l []).map (fun v => v28 v * k)) x)
  let h := hearthBack j ins o q (loads.map (fun (x : LoadModel) => x.gPrev)) [motorCeiling c 0, motorCeiling c 1] h
  let loads := loads.mapIdx (fun l (x : LoadModel) =>
    if l < 2 || !x.senseLost then x else
    let u := ((nth h.out (l + 2) []).take 32).map (fun v => v28 v * speakerFull c (l - 2))
    { x with altSum := q32 (x.altSum + sumR (u.map (fun v => v * v))), altN := x.altN + 32 })
  let tap (k i : Nat) : Int := nth (nth h.taps k []) (31 - i) 0
  { s with
    hearth := h, loads := loads, crust := s.crust.hearthBeat s.now
    audio := { s.audio with tal := s.audio.tal.mapIdx (fun n (t : Talker) =>
      t.block c (0x7270 + n) s.net.gptp.present (s.frame.gptpOffset : Int) j.cairn j.delta tap) } }

/-- R186: the oldest block that waits is complete before the interpolators need a sample of it for a time t (R181, R183). -/
def completeFor (t : Nat) (s : State) : State :=
  match s.hearth.jobs with
  | j :: l =>
    if s.working && decide (j.n + 1 ≤ s.hearth.n) && decide (32 * (j.n : Int) ≤ (s.hearth.pos t - 96).floor + 32) then
      processJob j { s with hearth := { s.hearth with jobs := l } }
    else s
  | [] => s

/-- LANE_START: Hearth has completed what the interpolators need for the update's instants, and the lanes start. -/
def updateStart (s : State) : State :=
  if s.up = false || s.dev.state = 7 || s.lanes.running || s.frame.started = false then s else
  let t (m : Nat) : Nat := (nth s.ctl m {}).instant + s.updateStep m
  (s.completeFor (if s.lanes.m1Update then max (t 0) (t 1) else t 0)).laneStart

/-- The block before the latest two is complete, if it waits. -/
def blockProcess (s : State) : State :=
  match s.hearth.jobs with
  | j :: l => if j.n + 2 ≤ s.hearth.n then processJob j { s with hearth := { s.hearth with jobs := l } } else s
  | [] => s

/-! ### Streams (R168, R249, R257, R259) -/

/-- The error of the leading source (R249); none while it does not deliver. -/
def steerError (s : State) : Option Rat :=
  let h := s.hearth
  let level (x : RxStream) : Option Rat :=
    match x.offset, x.samples.getLast? with
    | some o, some y => some ((((x.nextSeq : Int) - 1 + o - 32 * (h.n : Int) : Int) : Rat) + (((h.cairn : Int) - y.time : Int) : Rat) / h.delta)
    | _, _ => none
  let src := s.cfg.u 0x7240 1
  if src = 7 then some (counterError h.cairn)
  else if src = 5 ∨ src = 6 then
    let l := nth s.audio.lis (src - 5) {}
    if l.receiving && l.stream.offset.isSome then some l.stream.resid else none
  else if src = 0 then none
  else let p := nth s.audio.asp (src - 1) {}; if p.phase = 2 then level p.stream else none

/-- The streams at a block boundary: the listeners' idle blocks, and the steering of AUD. -/
def streamBoundary (s : State) : State :=
  let c := s.cfg
  let h := s.hearth
  let a := s.audio
  let lis := a.lis.mapIdx (fun n (l : Listener) =>
    let l := if c.b (0x7260 + n) 1 then l else l.stop s.now
    { l with idle := if l.receiving then l.idle + 1 else 0 })
  let s : State := { s with audio := { a with
    asp := a.asp.map (fun (p : AspPort) => p.boundary h.cairn), lis := lis, gptpSeen := s.net.gptp.present } }
  { s with audio := { s.audio with aud := s.audio.aud.step (c.u 0x7240 1) s.steerError } }

/-- The mean of a machine's measured d current over the block that ended (R210). -/
def meanCurrents (s : State) : State :=
  { s with loads := s.loads.map (fun (x : LoadModel) =>
      if x.idN = 0 then x else { x with idMean := q32 (x.idSum / (x.idN : Rat)), idSum := 0, idN := 0 }) }

/-- The sensor blocks of the block that ended, at a boundary whose grid has just moved. -/
def endedBlocks (mics : List (List Int)) (s : State) : List SensorBlock :=
  sensorBlocks s.cfg s.hearth.cairnPrev s.hearth.deltaPrev mics s.canc.acc

/-- The part of a boundary that needs Hearth running: settings, the tap-test engine, cancellers and monitors, the job of the block that begins, the
streams, and the completion of the block before the latest two. -/
def hearthStep (mics : List (List Int)) (blocks : List SensorBlock) (s : State) : State :=
  let settled := s.hearthSettings
  let cancelled := ((settled.1.meanCurrents).tapBoundary blocks).cancellers blocks
  let s := (cancelled.1.orderMonitors blocks).sensorFaults
  let s := (s.blockParts mics cancelled.2.1 cancelled.2.2).blockJob settled.2
  let s : State := { s with hearth := { s.hearth with blocks := inc32 s.hearth.blocks } }
  (s.streamBoundary).blockProcess

/-- HEARTH_BLOCK_BOUNDARY (R165): the next block of the grid begins. pdm are the bits of the microphone channels over the block that ended (R64,
R255). -/
def hearthBoundary (pdm : List (List Bool)) (s : State) : State :=
  if !s.gridRuns then s else
  let s : State := { s with hearth := s.hearth.nextBlock s.now }
  let o := s.micOuts pdm
  let mics := s.micBlocks o
  let blocks := s.endedBlocks mics
  if s.hearth.running then (s.sensorBoundary o).hearthStep mics blocks
  else (((s.sensorBoundary o).sensorFaults).identTable).tapBoundary blocks

/-- R168, R250: the source whose offset moves: input 0 to 7, or a port at 8 to 11 whether or not an input selects it. -/
def shiftSource (k : Nat) (s : State) : Nat := if k < 8 then (nth s.hearth.inputs k {}).src else 0x1000 + 256 * (k - 8)

/-- ALIGNMENT_SHIFT (R168, R250): the stream moves by one sample, for every input that selects it. -/
def alignShift (k : Nat) (s : State) : State :=
  let w := s.shiftSource k
  match s.inputStream w with
  | none => s
  | some x => match x.shift with
    | none => s
    | some (y, rep) =>
      let n := bits w 9 8
      let a := s.audio
      let inputs := (s.hearth.inputs.filter (fun (i : HInput) => i.src / 256 == w / 256)).length
      let audio : AudioState :=
        if bits w 15 12 = 1 then { a with asp := upd a.asp n (fun p => { p with
            stream := y, slip := true, underruns := if rep then inc32 p.underruns else p.underruns, overruns := if rep then p.overruns else inc32 p.overruns }) }
        else { a with lis := upd a.lis n (fun l => { l with stream := y }) }
      { s with
        audio := audio
        hearth := { s.hearth with shifts := add32 s.hearth.shifts inputs, alignShift := s.hearth.alignShift || decide (0 < inputs) } }

/-- R170: a Play write waits for the next block boundary. -/
def chimeWrite (g w : Nat) (s : State) : State := { s with hearth := { s.hearth with plays := s.hearth.plays ++ [(g, w, s.now)] } }

/-- R170: whether a Play write is in range: a clip that it names has samples. -/
def chimeRange (w : Nat) (s : State) : Bool := bit w 4 || clipLen s.cfg (bits w 3 0) != 0

end State

/-- LANE_START. -/
def execLaneStart (s : State) : Out := .next s.updateStart

/-- HEARTH_BLOCK_BOUNDARY. -/
def execHearthBlockBoundary (pdm : List (List Bool)) (s : State) : Out := .next (s.hearthBoundary pdm)

/-- BLOCK_OVERRUN. -/
def execBlockOverrun (s : State) : Out := .next (if s.working && s.hearth.running then { s with hearth := s.hearth.overrunBlock } else s)

/-- ALIGNMENT_SHIFT. -/
def execAlignmentShift (k : Nat) (s : State) : Out := .next (if s.working then s.alignShift k else s)

end Sys2Proof.Machine
end

