-- ==== Sys2Proof/Machine/AudioCmds.lean ====
section
/-! DEFINITION. The commands of the serial audio ports, the PDM ports and the network audio streams (chapter 12). -/

namespace Sys2Proof.Machine

/-- R345: a frame that arrives at a full queue is dropped and counted. -/
def NetState.dropAt (q : Nat) (n : NetState) : NetState := { n with drops := upd n.drops q inc32 }

namespace State

/-- A port with a new state. -/
def setPort (n : Nat) (p : AspPort) (s : State) : State := { s with audio := { s.audio with asp := upd s.audio.asp n (fun _ => p) } }

/-- Hearth's grid, to which received samples are aligned (R168). -/
def grid (s : State) : HGrid := { n := s.hearth.n, cairn := s.hearth.cairn, delta := s.hearth.delta }

/-- The frame that starts now is sent by a port (R248). -/
def aspSend (n : Nat) (s : State) : State :=
  let tap (k : Nat) (i : Int) : Int := s.hearth.tapAt k i
  let src (k : Nat) : Nat := s.cfg.u (0x7204 + 16 * n) (k + 1)
  s.setPort n ((nth s.audio.asp n {}).send s.now (s.hearth.pos s.now - 64) tap src)

/-- LEAD_OUT_END (R242, R244). -/
def aspLeadOut (n : Nat) (s : State) : State :=
  let slots := aspInForce s.cfg n
  s.setPort n ((nth s.audio.asp n {}).leadOutEnd slots.2.1 slots.2.2)

/-- ASP_FRAME (R237, R240 to R254): cycles are the bit clocks from the port's latest frame start up to a new one. The frame that it ends is judged and
received, the settings that waited for this frame start apply, a configuration whose lead-out is over starts, and the frame that begins is sent. A change
of FS that is no frame start of the format in force is none (Table 12-1). -/
def aspFrame (n : Nat) (cycles : List BitCycle) (s : State) : State :=
  let p := nth s.audio.asp n {}
  if aspFormat p.run ≠ 0 && !aspStarts p.run cycles then s else
  (((s.setPort n (p.ended s.grid s.now cycles)).aspSettings n).aspLeadOut n).aspSend n

/-- LEAD_IN_END (R241): the frame that starts with it is the first to carry data. -/
def aspLeadIn (n : Nat) (s : State) : State :=
  let p := nth s.audio.asp n {}
  if p.phase ≠ 1 ∨ p.count < 32 then s else (s.setPort n p.leadInEnd).aspSend n

/-- PDM_WAKE_END (R255): the channel delivers from here on. -/
def pdmWake (k : Nat) (s : State) : State :=
  match nth s.audio.micWake k none with
  | some t => if t ≤ s.now then { s with audio := { s.audio with micWake := upd s.audio.micWake k (fun _ => none) } } else s
  | none => s

/-- LISTENER_PDU (R256, R257, R345): backlog frames wait in the stream's queue of 32; while gPTP is absent, and up to the first block boundary after its
return, a listener accepts none (R259). -/
def listenerPdu (n backlog : Nat) (p : AafPdu) (s : State) : State :=
  let s : State := { s with net := { s.net with received := inc32 s.net.received } }
  if 32 ≤ backlog then { s with net := s.net.dropAt (3 + n) } else
  let c := s.cfg
  let i := 0x7260 + n
  if !c.b i 1 || !s.net.gptp.present || !s.audio.gptpSeen then s else
  { s with audio := { s.audio with
      lis := upd s.audio.lis n (fun l => l.pdu s.grid (c.u i 2) (c.u i 4) s.now (s.frame.gptpOffset : Int) p) } }

/-- LISTENER_TIMEOUT (R257): four blocks without an accepted PDU. -/
def listenerTimeout (n : Nat) (s : State) : State :=
  { s with audio := { s.audio with lis := upd s.audio.lis n (fun l => if l.receiving && decide (4 ≤ l.idle) then l.stop s.now else l) } }

end State

/-- ASP_FRAME. -/
def execAspFrame (n : Nat) (cycles : List BitCycle) (s : State) : Out := .next (if s.working then s.aspFrame n cycles else s)

/-- LEAD_IN_END. -/
def execLeadInEnd (n : Nat) (s : State) : Out := .next (if s.working then s.aspLeadIn n else s)

/-- LEAD_OUT_END. -/
def execLeadOutEnd (n : Nat) (s : State) : Out := .next (if s.working then s.aspLeadOut n else s)

/-- ASP_CLOCK_LOSS. -/
def execAspClockLoss (n : Nat) (s : State) : Out := .next (if s.working then s.setPort n ((nth s.audio.asp n {}).clockLoss s.now) else s)

/-- PDM_WAKE_END. -/
def execPdmWakeEnd (k : Nat) (s : State) : Out := .next (if s.working then s.pdmWake k else s)

/-- LISTENER_PDU. -/
def execListenerPdu (n backlog : Nat) (pdu : AafPdu) (s : State) : Out := .next (if s.working then s.listenerPdu n backlog pdu else s)

/-- LISTENER_TIMEOUT. -/
def execListenerTimeout (n : Nat) (s : State) : Out := .next (if s.working then s.listenerTimeout n else s)

end Sys2Proof.Machine
end

