-- ==== Sys2Proof/Machine/ChainCmds.lean ====
section
/-! DEFINITION. The commands of the Ridge chain (chapter 19), and the chain's part of an M0 Trough. -/

namespace Sys2Proof.Machine

/-- A hop delay in ps as interpolation steps of 156.25 ps (R376). -/
def hopSteps (hop : Nat) : Int := roundAway (mkRat (4 * hop) 625)

/-- R376: the hop delay in ps from round trips measured in interpolation steps of 156.25 ps: half of their mean, less the fixed turnaround, to the ps
(log 134). -/
def hopOf (trips : List Nat) : Nat :=
  (roundAway (mkRat (trips.foldl (· + ·) 0 : Nat) (max 1 trips.length) * mkRat 625 8 - (Config.ridgeTurnaround : Rat))).toNat

/-- R377: a hop delay in its range, 5 ns to 200 ns. -/
def hopOk (hop : Nat) : Bool := decide (5000 ≤ hop) && decide (hop ≤ 200000)

namespace State

/-- A device in a calibrated place below the Summit: a Shoulder, which follows marks. -/
def shoulder (s : State) : Bool := s.chain.role == 2 && s.chain.calibrated

/-- R374: the role that the straps give (Table 19-1): role, position, strap error. -/
def strapRole (straps : Nat) : Nat × Nat × Bool :=
  let id := bits straps 2 1
  if bit straps 0 then (if id = 0 then (1, 0, false) else (0, 0, true)) else if id = 0 then (0, 0, true) else (2, id, false)

/-- R374, R376, R377 at the end of Ridge calibration (Proofing step 2): a Shoulder with a hop delay in range takes its place, the Summit's FN and the
counter offset; one without runs alone. mask is Devices calibrated as the line reports it. -/
def calibrate (hop summitFn summitCounter mask : Nat) (failed : Bool) (s : State) : State :=
  let x := s.chain
  if x.role = 2 then
    if failed || !hopOk hop || !x.up.up then { s with chain := { x with role := 0, calFail := true } }
    else
      { s with
        frame := { s.frame with fn := summitFn % 2 ^ 32 }
        chain := { x with
          calibrated := true, hop := hop, placement := hopSteps hop, devices := mask % 16, upSummit := x.position == 1
          offset := (summitCounter + 2 ^ 64 - s.frame.troughTime % 2 ^ 64) % 2 ^ 64 } }
  else if x.role = 1 || x.role = 3 then
    { s with chain := { x with calibrated := true, devices := if x.dn.up then mask % 16 else 2 ^ x.position } }
  else s

/-- R374: a Summit whose RIDGE_DN carries no valid symbols after PROOFING is alone. -/
def summitAlone (s : State) : State :=
  if s.chain.role = 1 && !s.chain.dn.up then { s with chain := { s.chain with role := 0, calibrated := false, devices := 0 } } else s

/-- The machines in a chain whose link came up or was lost: an active twin that has lost its partner reads 3, and 1 again with it (Table 19-4). -/
def twinLinks (s : State) : State :=
  let code (m : Nat) (x : ChainMachine) : ChainMachine :=
    if x.twin = 1 && !s.partnerLink m then { x with twin := 3 } else if x.twin = 3 && s.partnerLink m then { x with twin := 1 } else x
  { s with chain := { s.chain with m := s.chain.m.mapIdx code } }

/-- R381: this Shoulder becomes Summit of the devices below it. -/
def succeed (s : State) : State := { s with chain := { s.chain with role := 3, succeeded := true, firstMark := true } }

/-! ### The chain's part of an M0 Trough -/

/-- R385: a machine's twin state at RUN entry: the twin at the lower position is active. -/
def twinsRun (s : State) : State :=
  let go (m : Nat) (x : ChainMachine) : ChainMachine :=
    if s.chainUse m ≠ 2 then { x with twin := 0 } else { x with twin := if s.lowerHalf m then (if s.partnerLink m then 1 else 3) else 2, handoff := false }
  { s with chain := { s.chain with m := s.chain.m.mapIdx go } }

/-- R386: the standby twin takes its machine after a hand-off or a lost link, when the gate balls have shown no edge in the frame that ended. -/
def takeOver (m : Nat) (edges : Nat) (s : State) : State :=
  let x := nth s.chain.m m {}
  if s.dev.state = 5 && x.twin = 2 && (x.handoff || !s.partnerLink m) && !bit edges m then
    { s with chain := { s.chain with
        takeovers := inc32 s.chain.takeovers
        m := upd s.chain.m m (fun x => { x with twin := if s.partnerLink m then 1 else 3, handoff := false }) } }
  else s

/-- A change of a machine's chain use or partner: what its old partner brought is gone. -/
def chainSettings (old : Store) (s : State) : State :=
  let go (m : Nat) (x : ChainMachine) : ChainMachine :=
    if old.u 0xD000 (7 + m) ≠ s.chainUse m ∨ old.u 0xD000 (9 + m) ≠ s.cfg.u 0xD000 (9 + m) then {} else x
  { s with chain := { s.chain with m := s.chain.m.mapIdx go } }

/-- R379: the M0 period of the frame that begins, where the Summit's mark announced one. -/
def markedPeriod (s : State) : Option Nat := if s.shoulder && s.chain.markSeen && s.chain.markPeriod != 0 then some s.chain.markPeriod else none

/-- The chain at an M0 Trough: succession's first mark (R381), takeovers (R386), and the wait for this Trough's mark. -/
def chainTrough (edges : Nat) (s : State) : State :=
  let x := s.chain
  let s : State := { s with chain := { x with
    markSeen := false, successions := if x.firstMark then inc32 x.successions else x.successions, firstMark := false } }
  (s.takeOver 0 edges).takeOver 1 edges

/-! ### What the device sends on its links (Table 19-2) -/

/-- R376: how far ahead of the received mark a Shoulder's Trough lies, in interpolation steps: the calibrated placement and Skew trim. -/
def troughLead (s : State) : Int := s.chain.placement + s.cfg.i 8 0xD400 1

/-- R375, R381: the Trough mark that the device sends down: of a Summit its own, its FN and the M0 period of the frame after it; of a calibrated
Shoulder the one received. -/
def markOut (s : State) : Option (Nat × Nat) :=
  let x := s.chain
  let m0 := nth s.mod.m 0 {}
  if !s.full || !x.dn.up || !s.frame.started then none
  else if x.role = 1 ∨ x.role = 3 then some (s.frame.fn, if 5 ≤ m0.mode then m0.next else nominalPeriod s.cfg 0)
  else if s.shoulder && x.markSeen then some (s.frame.fn, x.markPeriod)
  else none

/-- R384, R385: the record of a split machine that the device sends to its partner: its half's sum-pair currents and torque reference after order 3, and
of a twin the results and the exceeded states of its own paths. -/
def splitRecordOut (m : Nat) (s : State) : SplitRecord :=
  let p := nth (s.lanes.lane (if s.lanes.active = 1 then 1 else 0)).pub m {}
  let own (sd : Nat) : Bool := s.chainUse m == 2 && machineOfSd sd == m && !s.twinPath sd
  { id := f32ToRat p.id, iq := f32ToRat p.iq, torque := f32ToRat p.own
    paths := ((List.range 28).filter own).map (fun sd => (sd, (s.sense.path sd).r))
    hits := ((List.range 24).filter own).map (fun sd => (sd, (nth s.sense.fast sd {}).ex1, (nth s.sense.fast sd {}).ex2))
    agree := (nth s.chain.m m {}).agree }

/-! ### Commands -/

/-- TROUGH_MARK (R376, R378, R379, R381): the mark of the present Trough; it relocks a Shoulder in holdover, and the Summit's gPTP comes with it, and
whether the neighbour that sends it is the Summit (log 135). Its frame number is the device's own since calibration (R376). -/
def troughMark (period : Nat) (gptp : Option Nat) (summit : Bool) (s : State) : State :=
  if !s.full || !s.shoulder || !s.chain.up.up then s else
  { s with
    chain := { s.chain with markSeen := true, markPeriod := period, holdover := false, upSummit := summit }
    frame := match gptp with | some g => { s.frame with gptpOffset := (g + 5 * s.chain.offset) % 2 ^ 64 } | none => s.frame
    net := { s.net with gptp := { s.net.gptp with present := gptp.isSome } } }

/-- TIMEBASE_LOSS (R381): no mark 100 ns after the Trough. -/
def lossOfMark (s : State) : State :=
  if !s.full || !s.shoulder || !s.frame.started || s.chain.markSeen || s.chain.holdover || decide (s.now < s.frame.troughTime + 20) then s else
  let s : State := { s with chain := { s.chain with timebaseLoss := true, holdover := true } }
  let s := if !s.chain.up.up || s.chain.upSummit then s.succeed else s
  s.raise (.fault 0x0E 21 0)

/-- RIDGE_LINK_LOSS (R375, R381, R382): 400 ns without a valid symbol. What the link carried is gone with it. -/
def linkLoss (upper : Bool) (s : State) : State :=
  let l := if upper then s.chain.up else s.chain.dn
  if !s.up || !l.up then s else
  let x := s.chain
  let x : ChainState := { x with losses := inc32 x.losses }
  let s : State := { s with chain := if upper then { x with up := {} } else { x with dn := {} } }
  let s := s.ridgeApply.twinLinks
  let s := if upper && s.chain.role == 2 && s.chain.holdover then s.succeed else s
  s.logEvent 9 (toBytes 2 (s.reading 0xD00003))

/-- RIDGE_LINK_UP (R374, R375): 1 ms of valid symbols. On RIDGE_UP of a device strapped as Summit they are a strap error; with a strap error the links
are off. -/
def linkUp (upper : Bool) (s : State) : State :=
  if !s.up || s.chain.strapErr then s else
  let x := s.chain
  if upper && bit s.dev.straps 0 then { s with chain := { x with strapErr := true, role := 0, calibrated := false, devices := 0, dn := {} } }.ridgeApply
  else
    let s : State := { s with chain := if upper then { x with up := { x.up with up := true } } else { x with dn := { x.dn with up := true } } }
    let s : State := if !upper && s.working && s.chain.role = 0 && bit s.dev.straps 0 then
      { s with chain := { s.chain with role := 1, calibrated := true, devices := 1 } } else s
    s.twinLinks

/-- RIDGE_HOP_REMEASURE (R377): from READY on, the placement moves by at most one step toward the measured hop. -/
def hopMeasured (hop : Nat) (s : State) : State :=
  if !s.full || s.dev.state = 3 || !s.shoulder || !s.chain.up.up then s else
  let x := s.chain
  { s with chain := { x with hop := hop, placement := x.placement + clampI (-1) 1 (hopSteps hop - x.placement) } }

/-- RIDGE_TRIP (R380): a broadcast begins or ends to reach this device on a link; it is never heard by a device that runs alone. -/
def ridgeTrip (upper on : Bool) (s : State) : State :=
  let l := if upper then s.chain.up else s.chain.dn
  if !s.up || !l.up || s.chain.role = 0 then s else
  let l : RidgeLink := { l with rx := on }
  ridgeApply { s with chain := if upper then { s.chain with up := l } else { s.chain with dn := l } }

/-- SPLIT_MACHINE_RECORD (R384, R385): a partner's record of an update of a machine. -/
def splitRecord (m : Nat) (r : SplitRecord) (s : State) : State :=
  if !s.full || s.chainUse m = 0 || !s.partnerLink m then s else
  let s : State := { s with chain := { s.chain with m := upd s.chain.m m (fun x => { x with
    id := r.id, iq := r.iq, torque := r.torque, fresh := true, partner := true, agree := r.agree }) } }
  if s.chainUse m = 2 then s.twinRecord m r.paths r.hits else s

/-- HAND_OFF (R386): from the active twin, it lets this standby twin take the machine; from a standby twin, on which Twin swap was written, it asks
this active one to hand off. -/
def handOffCome (m : Nat) (s : State) : State :=
  if !s.full || !s.partnerLink m then s else
  let x := nth s.chain.m m {}
  if x.twin = 2 then { s with chain := { s.chain with m := upd s.chain.m m (fun x => { x with handoff := true, asked := false }) } }
  else if x.twin = 1 && x.agree then s.handOffTo m
  else s

/-- Twin swap's acceptance (Table 19-4): both twins of every named machine agreed in the latest update. -/
def swapTwinsOk (mask : Nat) (s : State) : Bool :=
  (bitsSet 2 mask).all (fun m => let x := nth s.chain.m m {}; (x.twin == 1 || x.twin == 2) && x.agree && s.partnerLink m)

/-- Twin swap (R386): the active twin hands off; the standby twin asks for it. -/
def swapTwins (mask : Nat) (s : State) : State :=
  (bitsSet 2 mask).foldl (fun (s : State) m =>
    if (nth s.chain.m m {}).twin = 1 then s.handOffTo m
    else { s with chain := { s.chain with m := upd s.chain.m m (fun x => { x with asked := true }) } }) s

end State

/-- TROUGH_MARK. -/
def execTroughMark (_fn period : Nat) (gptp : Option Nat) (summit : Bool) (s : State) : Out := .next (s.troughMark period gptp summit)

/-- TIMEBASE_LOSS. -/
def execTimebaseLoss (s : State) : Out := .next s.lossOfMark

/-- RIDGE_LINK_LOSS. -/
def execRidgeLinkLoss (upper : Bool) (s : State) : Out := .next (s.linkLoss upper)

/-- RIDGE_LINK_UP. -/
def execRidgeLinkUp (upper : Bool) (s : State) : Out := .next (s.linkUp upper)

/-- RIDGE_HOP_REMEASURE. -/
def execRidgeHopRemeasure (trips : List Nat) (s : State) : Out := .next (s.hopMeasured (hopOf trips))

/-- RIDGE_TRIP. -/
def execRidgeTrip (upper on : Bool) (s : State) : Out := .next (s.ridgeTrip upper on)

/-- SPLIT_MACHINE_RECORD. -/
def execSplitMachineRecord (m : Nat) (r : SplitRecord) (s : State) : Out := .next (s.splitRecord m r)

/-- HAND_OFF. -/
def execHandOff (m : Nat) (s : State) : Out := .next (s.handOffCome m)

end Sys2Proof.Machine
end

