-- ==== Sys2Proof/Machine/FlashCmds.lean ====
section
/-! DEFINITION. The commands of the flash: its operations, the persisted set's saves, the Starter set's journal and import, and firmware updates
(chapters 16 and 20). -/

namespace Sys2Proof.Machine

/-! ### The persisted set (R336 to R338) -/

/-- Whether an object of a group is persisted: RW, RWS and RWP objects but for the volatile ones of Table 16-6. -/
def persisted (group key : Nat) : Bool :=
  match findRow key with
  | none => false
  | some r =>
    r.grp == group && (r.acc == .rw || r.acc == .rws || r.acc == .rwp)
      && (match r.rng with | .flags _ => false | _ => true)
      && !([objKey 0x3000 1, objKey 0x4000 1, objKey 0x5060 1, objKey 0x9000 6, objKey 0x2100 8, objKey 0x2100 9, objKey 0x7010 3, objKey 0x7011 3].contains key
        || key / 256 == 0x3001 || key / 256 == 0x4001)

/-- The stored copy of a group from a snapshot. -/
def savedCopy (group seq : Nat) (c : Store) : SavedCopy :=
  { seq := seq, ok := true, vals := c.vals.filter (fun e => persisted group e.1), blobs := c.blobs.filter (fun e => persisted group e.1) }

/-- A group's newer copy that passes its CRC (R337). -/
def newerCopy (p : Option SavedCopy × Option SavedCopy) : Option SavedCopy :=
  let good (x : Option SavedCopy) : Option SavedCopy := match x with | some c => if c.ok then some c else none | none => none
  match good p.1, good p.2 with
  | none, b => b
  | a, none => a
  | some a, some b => if a.seq < b.seq then some b else some a

/-- A save of a group overwrites the older copy (R337). -/
def overwrite (group : Nat) (c : Store) (p : Option SavedCopy × Option SavedCopy) : Option SavedCopy × Option SavedCopy :=
  let seq := match newerCopy p with | some x => x.seq + 1 | none => 1
  if (newerCopy p).isSome && newerCopy p == p.1 then (p.1, some (savedCopy group seq c)) else (some (savedCopy group seq c), p.2)

namespace PersistState

/-- R336: a save of the groups of a mask starts on the snapshot of their active copies. -/
def start (mask : Nat) (c : Store) (p : PersistState) : PersistState := { p with running := some (mask, c), result := 0, done := false }

/-- SAVE_DONE (R336): groups of the running save are written and checked, or the NVM write fails. -/
def saved (groups : Nat) (ok : Bool) (p : PersistState) : PersistState :=
  match p.running with
  | none => p
  | some (mask, c) =>
    if !ok then { p with running := none, result := 2 } else
    let p : PersistState := { p with copies := p.copies.mapIdx (fun g x => if bit mask g && bit groups g then overwrite g c x else x) }
    let left := ofBits ((List.range 14).map (fun g => bit mask g && !bit groups g))
    if left = 0 then { p with running := none, result := 1, done := true, completed := inc32 p.completed } else { p with running := some (left, c) }

/-- R338: both stored copies of the groups of a mask are erased. -/
def erase (mask : Nat) (p : PersistState) : PersistState :=
  { p with copies := p.copies.mapIdx (fun g x => if bit mask g then (none, none) else x) }

end PersistState

namespace State

/-! ### Flash operations (R388, R393, R399) -/

/-- FLASH_OPERATION_DONE: the running operation ends. A Starter set entry whose last program completes is recorded in the event log. -/
def flashDone (ok : Bool) (s : State) : State :=
  match s.flash.current with
  | none => s
  | some j =>
    let s : State := { s with flash := (s.flash.operationDone s.stopped ok).wantUpdate s.stopped }
    let s := match j.kind with
      | .starter e pair _ _ restore =>
        if ok && j.left = 1 then s.logEvent 0xC (toBytes 2 e ++ [if restore then 2 else 1] ++ toBytes 8 pair) else s
      | _ => s
    if s.dev.state = 1 && s.flash.current.isNone && s.flash.jobs.isEmpty then { s with dev := { s.dev with pwrReq := false, counting := false } } else s

/-! ### The Starter set (R389 to R393) -/

/-- R390, R393 at the M0 Trough at which a STARTER commit applies: each entry that changed, or that an import staged, is queued for the journal. -/
def starterApply (old : Store) (s : State) : State :=
  let f := (List.range 130).foldl (fun (f : FlashState) i =>
    let key := nth starterKeys i 0
    let given := (s.flash.importUser.find? (fun e => e.1 == i + 1)).map (·.2)
    if old.raw key != s.active.raw key || given.isSome then f.writeEntry s.stopped (i + 1) (s.active.raw key) (given.getD true) else f) s.flash
  { s with flash := { f with importUser := [] } }

/-- A host's write to a staged entry takes the origin user, whatever an import staged before it (R390). -/
def starterStaged (key : Nat) (s : State) : State :=
  match starterKeys.idxOf? key with
  | some i => { s with flash := { s.flash with importUser := s.flash.importUser.filter (fun e => e.1 != i + 1) } }
  | none => s

/-- Whether an import's bytes pass R392, and what they hold. -/
def importEntries (l : List Byte) (s : State) : Option (List (Nat × Bool × Nat)) :=
  FlashState.importSet (Config.uniqueNumber % 2 ^ 64)
    (fun i p => match findRow (nth starterKeys i 0) with | some r => rangeOk s.staged r (nth starterKeys i 0) p | none => false) l

/-- The pairs of an imported set in a copy of the store (R392). -/
def importStore (l : List (Nat × Bool × Nat)) (c : Store) : Store :=
  (List.range 130).foldl (fun (c : Store) i => c.put (nth starterKeys i 0) (nth l i (0, true, 0)).1) c

/-- R392 over YOAP: an accepted import stages all 130 entries and moves the token. -/
def starterImport (l : List (Nat × Bool × Nat)) (s : State) : State :=
  moveToken { s with
    staged := importStore l s.staged
    flash := { s.flash with importUser := (List.range 130).map (fun i => (i + 1, (nth l i (0, true, 0)).2.1)) } }

/-! ### Firmware updates (R398) -/

/-- Table 20-7: whether an update action is accepted in the present state. -/
def updateAllowed (code : Nat) (s : State) : Bool :=
  let u := s.flash.update
  (s.dev.state == 4 || s.dev.state == 6) && (match code with
    | 1 => u.running.isNone
    | 2 => u.running.isNone && u.erased && u.ended
    | 3 => u.running.isNone && u.verified
    | 4 => u.running.isNone && s.flash.inTrial
    | _ => u.running.isSome)

/-- The record of an update action that ended (kind 0x000B). -/
def updateLog (s : State) : State :=
  s.logEvent 0xB (toBytes 4 s.flash.updateStatus ++ toBytes 4 (s.flash.bankVersion (!s.flash.runningB)))

/-- Table 20-7: an update action starts; action 0x05 ends the running one at once. -/
def updateAction (code : Nat) (s : State) : State :=
  let u := s.flash.update
  let set (u : UpdateState) (s : State) : State := { s with flash := { s.flash with update := u } }
  match code with
  | 1 => set { u with action := 1, result := 0, running := some 1, erased := false, verified := false, activated := false, ended := false,
                      staging := [], received := 0, programmed := 0 } s
  | 5 => (set { u with action := 5, result := 5, running := none, erased := u.erased && u.running != some 1 } s).updateLog
  | _ => set { u with action := code, result := 0, running := some code } s

/-- What the end of an update action does to the flash (R398, Table 20-7); ok is false where an NVM program fails, or in a verification where the image
holds an uncorrectable ECC error. -/
def actionDone (action : Nat) (ok : Bool) (f : FlashState) : FlashState :=
  let idle := !f.runningB
  let u : UpdateState := { f.update with running := none, result := if ok then 1 else 6 }
  match action with
  | 1 => if ok then { f.setBank idle (fun _ => {}) with update := { u with erased := true } } else { f with update := u }
  | 2 =>
    let r := bankCheck f.epoch (!ok) (f.bank idle).image
    { f.setBank idle (fun b => { b with passes := r == 1 }) with update := { u with result := r, verified := r == 1, erased := false } }
  | 3 =>
    let seq := match (f.bank f.runningB).record with | some r => r.seq + 1 | none => 1
    if ok then
      { f.setBank idle (fun b => { b with record := some { seq := seq, trial := 1, count := 0 } }) with update := { u with activated := true, erased := false } }
    else { f with update := u }
  | _ =>
    if ok then
      { f.setBank f.runningB (fun b => { b with record := b.record.map (fun r => { r with trial := 2 }) }) with
        update := u, epoch := max f.epoch (imageEpoch (f.bank f.runningB).image) }
    else { f with update := u }

/-- UPDATE_ACTION_DONE (R398): the running action ends. -/
def updateDone (ok : Bool) (s : State) : State :=
  match s.flash.update.running with
  | none => s
  | some a => updateLog { s with flash := actionDone a ok s.flash }

/-- R398: bytes that the staging buffer takes. -/
def updateRoom (n : Nat) (s : State) : Bool := decide (s.flash.update.staging.length + n ≤ 16384)

/-- R398: a segment of the image; the last one is padded to a word with the erased value. -/
def updateSegment (data : List Byte) (last : Bool) (s : State) : State :=
  let u := s.flash.update
  let pad := if last then (8 - (u.received + data.length) % 8) % 8 else 0
  { s with flash := ({ s.flash with update := { u with
      staging := u.staging ++ data ++ List.replicate pad 0xFF, received := u.received + data.length, ended := last } } : FlashState).wantUpdate s.stopped }

end State

/-- FLASH_OPERATION_DONE. -/
def execFlashOperationDone (ok : Bool) (s : State) : Out := .next (if s.dev.npor then s.flashDone ok else s)

/-- SAVE_DONE. -/
def execSaveDone (groups : Nat) (ok : Bool) (s : State) : Out :=
  .next (if s.full && !s.stopped then { s with persist := s.persist.saved groups ok } else s)

/-- UPDATE_ACTION_DONE. -/
def execUpdateActionDone (ok : Bool) (s : State) : Out :=
  .next (if s.working && s.flash.update.staging.isEmpty then s.updateDone ok else s)

end Sys2Proof.Machine
end

