-- ==== Sys2Proof/Machine/BootCmds.lean ====
section
/-! DEFINITION. The commands of power, reset, wake and BOOT (chapter 21, with the BOOT parts of chapters 14, 16, 18 and 20). -/

namespace Sys2Proof.Machine

/-! ### What a reset leaves -/

namespace FlashState

/-- A sector marked for erase and check at the next BOOT. -/
def markSector (sec : Nat) (f : FlashState) : FlashState := if f.marked.contains sec then f else { f with marked := f.marked ++ [sec] }

/-- What the flash holds when nRST or nPOR cuts its work off (R371, R395, R408): a word program in progress completes, an erase in progress is aborted
and its sector marked, and what waits is dropped. bench is the bank that a Bench action erases. -/
def cutOff (bench : Option Bool) (f : FlashState) : FlashState :=
  let f : FlashState := match f.current with
    | some j => if isErase j.kind then f.markSector (1408 + f.writePos / 64) else f.completed j.kind (j.left - 1)
    | none => f
  let f := if f.update.running == some 1 then f.markSector (if f.runningB then 0 else 512) else f
  let f := match bench with
    | some b => f.markSector (if b then 512 else 0)
    | none => f
  { f with
    jobs := [], current := none, update := {}, importUser := [], runningB := false, starterOk := false, anyRestored := false
    logDropped := 0, logWritten := 0, nvmOp := 0, nvmSector := 0
    bankA := { f.bankA with passes := false }, bankB := { f.bankB with passes := false }
    entries := f.entries.map (fun (x : StarterRec) => { x with restored := false }) }

/-- A marked sector erased at BOOT: one of a bank loses its bytes, one of the event-log ring its 64 oldest records. -/
def eraseMarked (sec : Nat) (f : FlashState) : FlashState :=
  let clear (base : Nat) (b : FlashBank) : FlashBank := { b with image := b.image.filter (fun e => decide (e.1 / 4096 ≠ sec - base)) }
  if sec < 512 then { f with bankA := clear 0 f.bankA }
  else if sec < 1024 then { f with bankB := clear 512 f.bankB }
  else if 1408 ≤ sec ∧ sec < 1472 ∧ 4032 ≤ f.ring.length then { f with ring := f.ring.drop 64 }
  else f

/-- The cause in the newest event record of kind 0x0003 (R420); 0 where none is held. -/
def newestCause (f : FlashState) : Nat :=
  match f.ring.reverse.find? (fun r => ofBytes (r.take 2) == 3) with
  | some r => ofBytes ((r.drop 20).take 2)
  | none => 0

end FlashState

namespace State

/-- The device with everything but the AON domain, the flash and the pins' levels as a reset leaves it. A running recovery action is reported as
aborted (R371), a save that was cut off as abandoned at power loss (R337). -/
def afterReset (s : State) : State :=
  let d := s.dev
  let saved := s.persist.running.isSome || (decide (d.state ≤ 2) && s.persist.result == 5)
  let bench : Option Bool := match s.bench.recovery with | some (1, b, _) => some (b == 1) | _ => none
  { pending := s.pending
    dev := {
      state := 2, counter := d.counter, counting := d.counting, npor := d.npor, nrst := d.nrst, vaon := d.vaon, straps := d.straps, strapsHeld := d.strapsHeld
      retained := d.retained, resetFrom := d.resetFrom, failedWakes := d.failedWakes, histogram := d.histogram, lastHold := d.lastHold, wakeAt := d.wakeAt
      pwrReq := d.pwrReq, refOk := d.refOk, refLost := d.refLost, backup := d.backup, slewing := d.slewing, toRef := d.toRef, ethHold := d.ethHold
      backupDev := d.backupDev }
    persist := { copies := s.persist.copies, result := if saved then 5 else 0 }
    trip := { flt := s.trip.flt }
    net := { slots := s.net.slots, draws := s.net.draws }
    bench := if s.bench.recovery.isSome then { recCode := s.bench.recCode, recResult := 3 }
      else if d.state = 0 then { recCode := s.bench.recCode, recResult := s.bench.recResult } else {}
    flash := s.flash.cutOff bench }

/-- The chain of a device whose straps are latched, with no link up (R374). -/
def strapped (s : State) : State :=
  let r := strapRole s.dev.straps
  { s with chain := { role := r.1, position := r.2.1, strapErr := r.2.2 } }

/-- The transition to BOOT (Table 21-5). -/
def toBoot (from_ cause : Nat) (s : State) : State :=
  { s with dev := { s.dev with state := 2, counting := true, bootFrom := from_, transition := from_ * 2 ^ 28 + 2 ^ 25 + cause * 2 ^ 16 } }

/-! ### Power and resets (R405 to R410, R419, R420) -/

/-- R420 at an nPOR rising edge: MARK is cleared, and KIND 0x3 becomes 0x2. -/
def retainedAtRise (w : Nat) : Nat :=
  match bits w 63 60 with
  | 1 => setBit w 59 false
  | 3 => w - 2 ^ 60
  | _ => w

/-- NPOR_RISE (R406, R407): the straps latch after VAON was applied, the counter starts, BOOT begins. In STANDBY it needs a wake. -/
def nporRise (straps : Nat) (ref : Bool) (s : State) : State :=
  let d := s.dev
  if !d.vaon || d.npor then s else
  if d.state = 1 && d.wakeAt.isNone then { s with dev := { d with npor := true } } else
  let woken := d.state == 1
  let x : State := s.afterReset
  let x : State := { x with
    trip := {}
    dev := { x.dev with
      counter := 0, npor := true, straps := if d.strapsHeld then d.straps else straps % 64, strapsHeld := true, retained := retainedAtRise d.retained
      wakeAt := none, pwrReq := true, refOk := ref, refLost := false, backup := !ref, slewing := false, toRef := false, ethHold := !ref, backupDev := 0 } }
  (x.strapped).toBoot (if woken then 1 else 0) (if woken then 3 else 1)

/-- NPOR_FALL (R408): OFF; in STANDBY nPOR held low changes no state (R418). -/
def nporFall (s : State) : State :=
  let d := s.dev
  if d.state ≤ 1 then { s with dev := { d with npor := false } } else
  let x := s.afterReset
  { x with dev := { x.dev with npor := false, state := 0, counting := false, transition := 0 } }

/-- NRST_LOW (R409): every domain but AON, the PWM PLL, the system counter and the Ridge receivers is reset; a succession stays in force (R382). -/
def nrstLow (s : State) : State :=
  let d := s.dev
  if !d.nrst then s else
  if d.state ≤ 1 then { s with dev := { d with nrst := false, resetFrom := d.state } } else
  let x := s.afterReset
  let y := x.strapped
  { y with
    dev := { x.dev with nrst := false, resetFrom := d.state }
    bench := { x.bench with lockUntil := s.bench.lockUntil }
    chain := { y.chain with
      up := s.chain.up, dn := s.chain.dn, succeeded := s.chain.succeeded, role := if s.chain.succeeded then 3 else y.chain.role } }

/-- The bin of the nRST hold histogram for a duration in AON clocks (R410). -/
def holdBin (aon : Nat) : Nat :=
  (([1, 10, 100, 1000, 10000] : List Nat).filter (fun ms => decide (ms * 32768 ≤ aon * 1000))).length

/-- NRST_RISE (R409, R410): the hold is counted in the AON domain, and the device enters BOOT. -/
def nrstRise (aon : Nat) (s : State) : State :=
  let d := s.dev
  if d.nrst then s else
  let s : State := { s with dev := { d with
    nrst := true, lastHold := min (aon * 1000 / 32768) (2 ^ 32 - 1), histogram := upd d.histogram (holdBin aon) (fun n => min 65535 (n + 1)) } }
  if d.state ≤ 1 then s else s.toBoot d.resetFrom 2

/-- VAON_LOST (R407, R410, R412): OFF, and everything that the AON domain held is gone. -/
def vaonLost (s : State) : State :=
  if !s.dev.vaon then s else
  let x := s.afterReset
  { x with dev := { state := 0, counting := false, npor := s.dev.npor, nrst := s.dev.nrst, vaon := false, strapsHeld := false, pwrReq := false
                    refOk := false, counter := s.dev.counter } }

/-- VAON_APPLIED (R405): the AON domain starts, and PWR_REQ goes high. -/
def vaonApplied (s : State) : State := if s.dev.vaon then s else { s with dev := { s.dev with vaon := true, pwrReq := true } }

/-- WAKE (R419): a wake condition that is enabled has held for 1 ms in STANDBY. -/
def wake (pin t1s : Bool) (s : State) : State :=
  let p := pin && bit s.dev.wakeEnable 0
  let t := t1s && s.cfg.b 0x1030 3
  if s.dev.state ≠ 1 || s.dev.pwrReq || !(p || t) then s else
  { s with dev := { s.dev with pwrReq := true, wakeAt := some s.dev.counter, retained := 2 ^ 62 + (b2n p + 2 * b2n t) * 2 ^ 40 } }

/-- FAILED_WAKE (R419): nPOR has not risen within 100 ms of PWR_REQ high. -/
def failedWake (s : State) : State :=
  if s.dev.state = 1 && s.dev.wakeAt.isSome then
    { s with dev := { s.dev with pwrReq := false, wakeAt := none, failedWakes := inc32 s.dev.failedWakes } }
  else s

/-! ### BOOT (R300, R321, R337, R369, R394, R397, R412, R420) -/

/-- The groups whose persisted copies pass, as a mask (R337). -/
def loadedGroups (s : State) : Nat := ofBits ((List.range 14).map (fun g => (newerCopy (nth s.persist.copies g (none, none))).isSome))

/-- A saved copy's objects over a store. -/
def loadCopy (c : Store) (x : SavedCopy) : Store :=
  x.blobs.foldl (fun (c : Store) e => c.putBlob e.1 e.2) (x.vals.foldl (fun (c : Store) e => c.put e.1 e.2) c)

/-- R337: the store that BOOT loads: the newer passing copies, the Starter set's entries, and defaults for the rest. -/
def bootStore (s : State) : Store :=
  let c := (List.range 14).foldl (fun (c : Store) g => match newerCopy (nth s.persist.copies g (none, none)) with | some x => loadCopy c x | none => c) {}
  let c := (List.range 130).foldl (fun (c : Store) i => c.put (nth starterKeys i 0) (nth s.flash.entries i { pair := 0 }).pair) c
  bootDefaults (s.loadedGroups ||| 0x1000) c

/-- R337: the persisted set as BOOT loads it. -/
def loadPersisted (s : State) : State :=
  let c := s.bootStore
  { s with
    active := c, active2 := c, passed := c, staged := c, persist := { s.persist with loaded := s.loadedGroups }
    dev := { s.dev with wakeEnable := c.u 0x2000 8, tapDepth := c.u 0x8040 3 } }

/-- R394: the stored entries checked and restored, each restore a single fault 0x12. -/
def checkStarter (s : State) : State :=
  let s := (List.range 130).foldl (fun (s : State) i =>
    let r := s.flash.checkEntry (i + 1)
    let s : State := { s with flash := r.1 }
    if r.2 then s.raise (.fault 0x12 0 (i + 1)) else s) s
  { s with flash := { s.flash with starterOk := !s.flash.entries.any (·.lost) } }

/-- R321: the thermal record of a hard limit, expanded from the retained register. What the register does not hold is a free value. -/
def bootThermal (s : State) : State :=
  let w := s.dev.retained
  if bits w 63 60 ≠ 2 ∧ bits w 63 60 ≠ 3 then s else
  let op := bits w 59 58
  let open_ (a n : Nat) : List Byte := (List.range n).map (fun k => Config.thermalByte w (a + k))
  let sensors := (List.range 4).flatMap (fun i =>
    if i = bits w 57 56 then toBytes 2 (ofInt 16 ((bits w 55 44 : Int) - 400)) else open_ (16 + 2 * i) 2)
  let b := toBytes 2 1 ++ [2] ++ (if bits w 63 60 = 3 then [7] else open_ 3 1) ++ toBytes 4 (bits w 31 0) ++ toBytes 8 0 ++ sensors ++ open_ 24 18
    ++ [BitVec.ofNat 8 (if op = 1 then 3 else op), 0] ++ toBytes 4 (bits w 43 32) ++ List.replicate 12 0
  { s with flash := s.flash.push false (.thermal (b ++ toBytes 4 (crc32 b))) }

/-- PERSIST_OK (Table 18-7). -/
def persistPasses (s : State) : Bool :=
  ([1, 2, 3, 4, 5, 6, 7, 8, 9, 10, 11, 13] : List Nat).all (fun g => (newerCopy (nth s.persist.copies g (none, none))).isSome)

/-- BOOTSEL. -/
def bootSel (s : State) : Nat := bits s.dev.straps 4 3

/-- A bank starts (R369, R397). -/
def startBank (b : Bool) (s : State) : State := { s with flash := s.flash.startBank b, dev := { s.dev with bankStarted := true } }

/-- The flash after the verification of both banks (R369, R395, R396): marked sectors are erased first. -/
def verifiedFlash (eccA eccB : Bool) (f : FlashState) : FlashState :=
  let f := f.marked.foldl (fun (f : FlashState) sec => f.eraseMarked sec) f
  { f with
    marked := [], bootCount := inc32 f.bootCount
    bankA := { f.bankA with passes := bankCheck f.epoch eccA f.bankA.image == 1 }
    bankB := { f.bankB with passes := bankCheck f.epoch eccB f.bankB.image == 1 } }

/-- The bank that BOOT starts by itself (R369): none in a hold or in recovery mode, or where none passes. -/
def startAdmitted (s : State) : State :=
  if s.bench.hold || s.bootSel = 3 then s else
  match s.flash.admitted s.bootSel with
  | some b => s.startBank b
  | none => s

/-- BANK_VERIFICATION_DONE (R369, R396): marked sectors are erased, both banks judged, the Starter set checked and the persisted set loaded; BOOT ends or
holds. -/
def verificationDone (eccA eccB : Bool) (s : State) : State :=
  if s.dev.state ≠ 2 || !s.bench.verifying then s else
  let s := (checkStarter { s with flash := verifiedFlash eccA eccB s.flash }).loadPersisted
  let s : State := { s with
    bench := { s.bench with verifying := false, key0Ok := true, persistOk := s.persistPasses }
    dev := { s.dev with shutdown := s.dev.retained } }
  s.bootThermal.startAdmitted

/-- BENCH.BOOT_STATUS (Table 18-7). -/
def bootStatus (s : State) : Nat :=
  2048 * b2n s.bench.unlocked + 1024 * b2n s.bench.key0Ok + 512 * b2n s.bench.persistOk + 256 * b2n s.flash.starterOk + 8 * b2n s.bench.verifying
    + 4 * b2n s.flash.runningB + 2 * b2n s.flash.bankB.passes + b2n s.flash.bankA.passes

/-- What PROOFING, or BEDROCK straight from BOOT, starts with: the housekeeping rounds, the position sources and the trip inputs. -/
def startRounds (s : State) : State :=
  let s : State := { s with hk := { s.hk.trimStart s.cfg with running := true, boundary := s.now } }
  ((s.positionApply 0).positionApply 1).fltApply

/-- The PWM timebase starts (R31): FN 0 comes with its first M0 Trough. -/
def startTimebase (s : State) : State :=
  { s with dev := { s.dev with timebase := true }, frame := { gptpOffset := s.frame.gptpOffset, rateTrim := s.frame.rateTrim } }

/-- R300: BEDROCK straight from BOOT, with a cause word. -/
def bootBedrock (word : Nat) (s : State) : State :=
  let s := (s.bedrockStops false).goState 7 0xA false
  let s : State := { s with fault := s.fault.setCause (word / 256) (word % 256) s.frame.fn s.now }
  ((s.retainBedrock word).logEvent 3 (toBytes 2 word ++ [1])).startRounds.startTimebase

/-- PROOFING entry (R406, R416). -/
def enterProofing (s : State) : State :=
  let s := (s.goState 3 4 false).startRounds
  let s : State := { s with dev := { s.dev with step := 1 } }
  if s.dev.refOk then s else s.raise (.fault 0x0C 19 0)

/-- BANK_STARTED (R412, R420): the BOOT record is written, the retained register cleared as its KIND says, and the device leaves BOOT. -/
def leaveBoot (s : State) : State :=
  if s.dev.state ≠ 2 || !s.dev.bankStarted then s else
  let w := s.dev.retained
  let kind := bits w 63 60
  let s := s.logEvent 0xA (toBytes 8 w ++ toBytes 4 s.bootStatus ++ toBytes 4 (s.flash.bankVersion s.flash.runningB) ++ [BitVec.ofNat 8 s.dev.bootFrom])
  let s : State := { s with dev := { s.dev with bankStarted := false, retained := if kind = 1 then w else 0 } }
  if kind = 1 ∧ bit w 59 then s.bootBedrock (bits w 55 40)
  else if kind = 3 then s.bootBedrock s.flash.newestCause
  else s.enterProofing

end State

/-- NPOR_RISE. -/
def execNporRise (straps : Nat) (ref : Bool) (s : State) : Out := .next (s.nporRise straps ref)

/-- NPOR_FALL. -/
def execNporFall (s : State) : Out := .next s.nporFall

/-- NRST_LOW. -/
def execNrstLow (s : State) : Out := .next s.nrstLow

/-- NRST_RISE. -/
def execNrstRise (aon : Nat) (s : State) : Out := .next (s.nrstRise aon)

/-- VAON_LOST. -/
def execVaonLost (s : State) : Out := .next s.vaonLost

/-- VAON_APPLIED. -/
def execVaonApplied (s : State) : Out := .next s.vaonApplied

/-- WAKE. -/
def execWakeUp (pin t1s : Bool) (s : State) : Out := .next (s.wake pin t1s)

/-- FAILED_WAKE. -/
def execFailedWake (s : State) : Out := .next s.failedWake

/-- BANK_VERIFICATION_DONE. -/
def execBankVerificationDone (eccA eccB : Bool) (s : State) : Out :=
  .next (if s.dev.npor && s.dev.nrst then s.verificationDone eccA eccB else s)

/-- BANK_STARTED. -/
def execBankStarted (s : State) : Out := .next (if s.dev.npor && s.dev.nrst then s.leaveBoot else s)

end Sys2Proof.Machine
end

