-- ==== Sys2Proof/Machine/BenchCmds.lean ====
section
/-! DEFINITION. The Bench port (chapter 18): its transactions, registers, recovery actions and compatibility view. -/

namespace Sys2Proof.Machine

/-- R365: the CRC-8 of the seven bytes of a Bench frame, polynomial 0x2F and initial value 0xFF. -/
def benchCrc (payload : Nat) : Nat :=
  (List.range 56).foldl (fun r k =>
    let top := bit r 7 != bit payload (55 - k)
    let r := (r * 2) % 256
    if top then r ^^^ 0x2F else r) 0xFF

/-- A Bench frame of seven bytes with its CRC. -/
def benchFrame (payload : Nat) : Nat := payload * 256 + benchCrc payload

/-- The frame of a result (Table 18-2). -/
def resultFrame (lost : Bool) (cmd code data : Nat) : Nat :=
  benchFrame ((bits cmd 14 12 * 32 + 16 * b2n lost + code) * 2 ^ 48 + cmd * 2 ^ 32 + data)

namespace BenchState

/-- Add 1 to a saturating error count. -/
def bump (n : Nat) : Nat := min 255 (n + 1)

/-- The oldest request that has not been executed. -/
def front (b : BenchState) : Option BenchReq := b.queue.find? (fun r => r.result.isNone)

/-- The result of a list's oldest request without one. -/
def fill (code data : Nat) : List BenchReq → List BenchReq
  | [] => []
  | r :: l => if r.result.isNone then { r with result := some (code, data) } :: l else r :: fill code data l

/-- The result of the oldest request that has not been executed. -/
def finish (code data : Nat) (b : BenchState) : BenchState := { b with queue := fill code data b.queue }

/-- Whether Q47 is full when a transaction's request arrives: the result that the transaction shifts out has left it. -/
def full (b : BenchState) : Bool :=
  match b.queue with
  | { result := some _, .. } :: l => decide (4 ≤ l.length)
  | l => decide (4 ≤ l.length)

/-- BENCH_TRANSACTION (R364 to R366): the oldest result ready is shifted out, or the idle frame; then the request is taken. -/
def transaction (clocks word : Nat) (b : BenchState) : BenchState :=
  if clocks ≠ 64 then { b with frameErr := bump b.frameErr } else
  let b : BenchState := match b.queue with
    | { cmd := cmd, result := some (code, data), .. } :: l => { b with queue := l, lost := false, miso := resultFrame b.lost cmd code data }
    | _ => { b with miso := benchFrame 0 }
  let good := benchCrc (word / 256) == word % 256
  let b := if good then b else { b with crcErr := bump b.crcErr }
  if 4 ≤ b.queue.length then { b with lost := true } else
  { b with queue := b.queue ++ [{ cmd := bits word 63 48, data := bits word 47 16, result := if good then none else some (2, 0) }] }

end BenchState

namespace State

/-- The Bench port works while the device is supplied and out of reset, from BOOT on (R364). -/
def benchOn (s : State) : Bool := s.dev.npor && s.dev.nrst && decide (2 ≤ s.dev.state)

/-- A transaction; a request that finds Q47 full counts as a drop of that queue (R345). -/
def benchTransfer (clocks word : Nat) (s : State) : State :=
  let b := s.bench.transaction clocks word
  { s with bench := b, net := if clocks = 64 && s.bench.full then { s.net with drops := upd s.net.drops 47 inc32 } else s.net }

/-- Whether an address has a register (Table 18-5, Table 18-10). -/
def benchHas (a : Nat) : Bool :=
  decide (a ≤ 0x00A) || (decide (0x010 ≤ a) && decide (a ≤ 0x014)) || (decide (0x100 ≤ a) && decide (a ≤ 0x1FF))
    || (decide (0x800 ≤ a) && decide (a ≤ 0x805)) || a == 0x808

/-- BENCH_EN. -/
def benchEn (s : State) : Bool := bit s.dev.straps 5

/-- Table 18-4: whether a read is accepted by state and by access. -/
def benchReads (a : Nat) (s : State) : Bool :=
  (s.dev.state == 2 || s.benchEn || decide (a ≤ 0x00A)) && !([0x011, 0x013, 0x014, 0x804] : List Nat).contains a

/-- Table 18-4: whether a write is accepted by state and by access. -/
def benchWrites (a : Nat) (s : State) : Bool :=
  let ro := decide (a ≤ 0x009) || a == 0x012 || a == 0x805
  !ro && (s.dev.state == 2 || (s.benchEn && (s.dev.state == 4 || s.dev.state == 6) && decide (0x800 ≤ a)))

/-- RECOVERY_STATUS (0x012). -/
def recoveryStatus (s : State) : Nat := s.bench.recCode * 2 ^ 24 + s.bench.recResult * 256 + b2n s.bench.recovery.isSome

/-- The value of a register. -/
def benchValue (a : Nat) (s : State) : Nat :=
  let b := s.bench
  if 0x100 ≤ a ∧ a ≤ 0x1FF then nth b.buffer (a - 0x100) 0
  else if 0x800 ≤ a ∧ a ≤ 0x803 then s.staged.u 0x5440 (a - 0x7FF)
  else match a with
    | 0x000 => 0x6420
    | 0x001 => 0x4101
    | 0x002 => 0x0110
    | 0x003 => Config.uniqueNumber / 2 ^ 32 % 2 ^ 32
    | 0x004 => Config.uniqueNumber % 2 ^ 32
    | 0x005 => s.dev.straps % 64
    | 0x006 => s.dev.state
    | 0x007 => s.bootStatus
    | 0x008 => s.dev.retained / 2 ^ 32
    | 0x009 => s.dev.retained % 2 ^ 32
    | 0x00A => b.crcErr * 256 + b.frameErr
    | 0x010 => b2n b.hold
    | 0x012 => s.recoveryStatus
    | 0x805 => b.ctcCode * 2 ^ 24 + b2n (bit s.commit.pendingMask 1)
    | 0x808 => b2n (decide (4 ≤ s.dev.state))
    | _ => 0

/-! ### BOOT control (R369) -/

/-- BOOT ends when verification has ended, HOLD is clear, BOOTSEL is not 0b11 and an admitted bank passes; never under a running recovery action. -/
def bootEnds (s : State) : State :=
  if s.dev.state ≠ 2 || s.bench.verifying || s.bench.hold || s.bootSel = 3 || s.dev.bankStarted || s.bench.recovery.isSome then s else
  match s.flash.admitted s.bootSel with
  | some b => s.startBank b
  | none => s

/-- GO: its result code and the device after it. -/
def bootGo (s : State) : Nat × State :=
  if s.bench.verifying then (6, s)
  else if s.bench.recovery.isSome then (5, s)
  else if s.dev.state ≠ 2 ∨ s.dev.bankStarted then (4, s)
  else match s.flash.admitted s.bootSel with
    | some b => (1, { s with bench := { s.bench with hold := false } }.startBank b)
    | none => (5, s)

/-- A write of BOOT_CTL. -/
def bootCtl (data : Nat) (s : State) : Nat × State :=
  if bit data 1 then s.bootGo
  else if bit data 0 && s.dev.bankStarted then (4, s)
  else (1, { s with bench := { s.bench with hold := bit data 0 } }.bootEnds)

/-! ### Recovery actions (R370, R371) -/

/-- R370: the code that refuses a recovery action, 1 where it is accepted. -/
def recoveryCode (action bank chunk : Nat) (s : State) : Nat :=
  let passes (b : Bool) : Bool := (s.flash.bank b).passes
  let b := bank == 1
  if s.bench.recovery.isSome then 6
  else if s.bench.verifying || s.dev.bankStarted then 5
  else if action = 0 ∨ 7 < action then 5
  else if decide (4 ≤ action) && !s.bench.unlocked then 5
  else if decide (chunk > (if action = 2 then 2043 else if action = 4 then 2 else 0)) then 5
  else if action = 1 && passes b && !passes (!b) then 5
  else 1

/-- The bytes of the transfer buffer. -/
def bufferBytes (s : State) : List Byte := s.bench.buffer.flatMap (fun w => toBytes 4 w)

/-- The imported Starter set: the three chunks, of which the last is padded (R392). -/
def importedSet (s : State) : Option (List (Nat × Bool × Nat)) := s.importEntries (s.bench.imports.flatten.take 2116)

/-- The journal records of an imported set. -/
def importFlash (l : List (Nat × Bool × Nat)) (f : FlashState) : FlashState :=
  (List.range 130).foldl (fun (f : FlashState) i =>
    let e := nth l i (0, true, 0)
    f.writeEntry false (i + 1) e.1 e.2.1) f

/-- R392 through the Bench port: every entry is written through the journal, and becomes active. -/
def importWrite (l : List (Nat × Bool × Nat)) (s : State) : State :=
  { s.onActive (importStore l) with staged := importStore l s.staged, flash := importFlash l s.flash }

/-- A recovery action starts; an erase clears its bank's OK bit, and an import that passes its checks goes to the journal. -/
def recoveryStart (action bank chunk : Nat) (s : State) : State :=
  let s : State := { s with bench := { s.bench with recovery := some (action, bank, chunk), recCode := action, recResult := 0 } }
  if action = 1 then { s with flash := s.flash.setBank (bank == 1) (fun b => { b with passes := false }) }
  else if action = 5 then (match s.importedSet with | some l => s.importWrite l | none => s)
  else s

/-- A write of RECOVERY_CMD. -/
def recoveryCmd (data : Nat) (s : State) : Nat × State :=
  let a := bits data 31 24
  let b := bits data 11 11
  let k := bits data 10 0
  let code := s.recoveryCode a b k
  (code, if code = 1 then s.recoveryStart a b k else s)

/-- What a recovery action has done when it ends, and whether it succeeded. ok is false where the flash fails, or in a verification where the bank
holds an uncorrectable ECC error. -/
def recoveryEffect (action bank chunk : Nat) (ok : Bool) (s : State) : Bool × State :=
  let b := bank == 1
  match action with
  | 1 => (ok, if ok then { s with flash := s.flash.setBank b (fun _ => {}) } else s)
  | 2 =>
    if ok && flashErased (s.flash.bank b).image (chunk * 1024) 1024 then
      (true, { s with flash := s.flash.setBank b (fun x => { x with image := flashProgram x.image (chunk * 1024) s.bufferBytes }) })
    else (false, s)
  | 3 => (true, { s with flash := s.flash.setBank b (fun x => { x with passes := bankCheck s.flash.epoch (!ok) x.image == 1 }) })
  | 4 => (true, { s with bench := { s.bench with imports := s.bench.imports.set chunk s.bufferBytes } })
  | 5 => (ok && s.importedSet.isSome, s)
  | 6 =>
    if ok then
      (true, { s with
        net := { s.net with slots := s.net.slots.mapIdx (fun i (x : KeySlot) =>
          if i = 0 then { x with level := 3, key := (toBytes 16 Config.deliveryKey).map (·.toNat) } else { x with level := 0 }) }
        bench := { s.bench with key0Ok := true } })
    else (false, s)
  | _ =>
    if ok then
      let s : State := { s with persist := s.persist.erase 0x3FFF }
      (true, { s with bench := { s.bench with persistOk := s.persistPasses } })
    else (false, s)

/-- RECOVERY_ACTION_DONE (R370): an import ends with the last of its journal records. -/
def recoveryDone (ok : Bool) (s : State) : State :=
  match s.bench.recovery with
  | none => s
  | some (a, b, k) =>
    if a = 5 && s.flash.storing then s else
    let r := s.recoveryEffect a b k ok
    bootEnds { r.2 with bench := { r.2.bench with recovery := none, recResult := if r.1 then 1 else 2 } }

/-! ### Unlocking (R372) -/

/-- A write of UNLOCK_HI or UNLOCK_LO. -/
def unlock (hi : Bool) (data : Nat) (s : State) : Nat × State :=
  let b := s.bench
  let locked := match b.lockUntil with | some t => decide (s.now < t) | none => false
  if locked then (4, s)
  else if hi then (1, { s with bench := { b with unlockHi := some data } })
  else if b.unlockHi.map (fun h => h * 2 ^ 32 + data) = some (Config.recoveryCode % 2 ^ 64) then (1, { s with bench := { b with unlocked := true } })
  else (5, { s with bench := { b with lockUntil := some (s.now + 200000000) } })

/-! ### Compatibility view (R373) -/

/-- A write of CTC0 to CTC3: a staged write; reserved bits are ignored (R5). -/
def ctcWrite (k data : Nat) (s : State) : Nat × State :=
  if bit s.commit.pendingMask 1 then (4, s) else (1, s.stage (objKey 0x5440 (k + 1)) (data &&& 0x8001FFFF))

/-- A write of CTC_COMMIT: the DEV group is committed with the token in force, and its checks begin. -/
def ctcCommitWrite (data : Nat) (s : State) : Nat × State :=
  if s.dev.state = 2 || s.commit.checking.isSome then (4, s)
  else if data ≠ 1 then (5, s)
  else (1, { s with commit := { s.commit with checking := some { mask := 2, tokenOk := true, target := s.commit.target, session := none } } })

/-- A write of START: 1 acts as GO in BOOT; from READY on nothing is left to release. -/
def startWrite (data : Nat) (s : State) : Nat × State := if bit data 0 && s.dev.state == 2 then s.bootGo else (1, s)

/-- STATUS (0x00A): a count is cleared by writing 0 to it. -/
def statusWrite (data : Nat) (s : State) : State :=
  { s with bench := { s.bench with
      crcErr := if bits data 15 8 = 0 then 0 else s.bench.crcErr, frameErr := if bits data 7 0 = 0 then 0 else s.bench.frameErr } }

/-- A write of an accepted address: its code and the device after it. -/
def benchEffect (a data : Nat) (s : State) : Nat × State :=
  if 0x100 ≤ a ∧ a ≤ 0x1FF then
    (if s.bench.recovery.isSome then (6, s) else (1, { s with bench := { s.bench with buffer := s.bench.buffer.set (a - 0x100) data } }))
  else if 0x800 ≤ a ∧ a ≤ 0x803 then s.ctcWrite (a - 0x800) data
  else match a with
    | 0x00A => (1, s.statusWrite data)
    | 0x010 => s.bootCtl data
    | 0x011 => s.recoveryCmd data
    | 0x013 => s.unlock true data
    | 0x014 => s.unlock false data
    | 0x804 => s.ctcCommitWrite data
    | _ => s.startWrite data

/-! ### Requests -/

/-- A request answered. -/
def benchAnswer (code data : Nat) (s : State) : State := { s with bench := s.bench.finish code data }

/-- The read of the oldest request, which names an address. -/
def benchReadAt (a : Nat) (s : State) : State :=
  if !benchHas a then s.benchAnswer 3 0 else if s.benchReads a then s.benchAnswer 1 (s.benchValue a) else s.benchAnswer 4 0

/-- The write of the oldest request. Any write but the one of UNLOCK_LO ends a pair of unlock writes (R372). -/
def benchWriteAt (a data : Nat) (s : State) : State :=
  let drop (s : State) : State := if a = 0x013 then s else { s with bench := { s.bench with unlockHi := none } }
  if !benchHas a then (drop s).benchAnswer 3 0
  else if !s.benchWrites a then (drop s).benchAnswer 4 0
  else
    let r := s.benchEffect a data
    (drop r.2).benchAnswer r.1 (if r.1 = 1 && r.2.benchReads a then r.2.benchValue a else 0)

/-- A command acts on the oldest request where that is a read of the address. -/
def benchRead (a : Nat) (s : State) : State :=
  match s.bench.front with
  | some r => if s.benchOn && !bit r.cmd 15 && bits r.cmd 11 0 == a then s.benchReadAt a else s
  | none => s

/-- A command acts on the oldest request where that is a write of the address whose data it describes. -/
def benchWriteIf (a : Nat) (p : Nat → Bool) (s : State) : State :=
  match s.bench.front with
  | some r => if s.benchOn && bit r.cmd 15 && bits r.cmd 11 0 == a && p r.data then s.benchWriteAt a r.data else s
  | none => s

/-- A write of RECOVERY_CMD with an action and its operands. -/
def recoveryIf (action : Nat) (p : Nat → Bool) (s : State) : State := s.benchWriteIf 0x011 (fun d => bits d 31 24 == action && p d)

/-- UNLOCK_LOCKOUT_END (R372): 1 s after the wrong code. -/
def lockoutEnd (s : State) : State :=
  match s.bench.lockUntil with
  | some t => if t ≤ s.now then { s with bench := { s.bench with lockUntil := none } } else s
  | none => s

end State

/-- BENCH_TRANSACTION. -/
def execBenchTransaction (clocks word : Nat) (s : State) : Out :=
  .next (if s.benchOn then s.benchTransfer clocks word else s)

/-- BENCH_READ. -/
def execBenchRead (addr : Nat) (s : State) : Out := .next (s.benchRead addr)

/-- BENCH_WRITE. -/
def execBenchWrite (addr data : Nat) (s : State) : Out := .next (s.benchWriteIf addr (fun d => d == data))

/-- BOOT_HOLD. -/
def execBootHold (s : State) : Out := .next (s.benchWriteIf 0x010 (fun d => bit d 0 && !bit d 1))

/-- BOOT_GO. -/
def execBootGo (s : State) : Out := .next (s.benchWriteIf 0x010 (fun d => bit d 1))

/-- ERASE_BANK. -/
def execEraseBank (bank : Nat) (s : State) : Out := .next (s.recoveryIf 1 (fun d => bits d 11 11 == bank))

/-- PROGRAM_CHUNK. -/
def execProgramChunk (bank chunk : Nat) (s : State) : Out := .next (s.recoveryIf 2 (fun d => bits d 11 11 == bank && bits d 10 0 == chunk))

/-- VERIFY_BANK. -/
def execVerifyBank (bank : Nat) (s : State) : Out := .next (s.recoveryIf 3 (fun d => bits d 11 11 == bank))

/-- STARTER_IMPORT_CHUNK. -/
def execStarterImportChunk (chunk : Nat) (s : State) : Out := .next (s.recoveryIf 4 (fun d => bits d 10 0 == chunk))

/-- STARTER_IMPORT_COMMIT. -/
def execStarterImportCommit (s : State) : Out := .next (s.recoveryIf 5 (fun _ => true))

/-- KEY_SLOT_RESET. -/
def execKeySlotReset (s : State) : Out := .next (s.recoveryIf 6 (fun _ => true))

/-- PERSISTED_SET_ERASE. -/
def execPersistedSetErase (s : State) : Out := .next (s.recoveryIf 7 (fun _ => true))

/-- RECOVERY_ACTION_DONE. -/
def execRecoveryActionDone (ok : Bool) (s : State) : Out := .next (if s.benchOn then s.recoveryDone ok else s)

/-- UNLOCK_HI. -/
def execUnlockHi (data : Nat) (s : State) : Out := .next (s.benchWriteIf 0x013 (fun d => d == data))

/-- UNLOCK_LO. -/
def execUnlockLo (data : Nat) (s : State) : Out := .next (s.benchWriteIf 0x014 (fun d => d == data))

/-- UNLOCK_LOCKOUT_END. -/
def execUnlockLockoutEnd (s : State) : Out := .next s.lockoutEnd

/-- CTC_COMMIT. -/
def execCtcCommit (data : Nat) (s : State) : Out := .next (s.benchWriteIf 0x804 (fun d => d == data))

/-- BENCH_START. -/
def execBenchStart (data : Nat) (s : State) : Out := .next (s.benchWriteIf 0x808 (fun d => d == data))

end Sys2Proof.Machine
end

