-- ==== Sys2Proof/Machine/CancCmds.lean ====
section
/-! DEFINITION. The commands of the accelerometers, the identification, and the load models (chapters 09 and 10). -/

namespace Sys2Proof.Machine

namespace State

/-- A port's accelerometer read starts, or is skipped while the previous one runs (R191). -/
def accStart (n : Nat) (s : State) : State :=
  let r := (nth s.canc.acc n {}).begin_ s.now (s.cfg.u 0x7180 (4 + n))
  { s with canc := { s.canc with acc := upd s.canc.acc n (fun _ => r.1), skips := if r.2 then inc32 s.canc.skips else s.canc.skips } }

/-- ACC_READ_START (R191): a read that the Hearth samples time, at rate codes 1 to 4. -/
def accTimed (n : Nat) (s : State) : State :=
  if s.working && accRate (s.cfg.u 0x7180 (n + 1)) != 0 then s.accStart n else s

/-- ACC_READ_DONE (R191). -/
def accDone (n : Nat) (b : List Nat) (s : State) : State :=
  { s with canc := { s.canc with acc := upd s.canc.acc n (fun p => p.done (bit (s.cfg.u 0x7180 6) n) b) } }

/-- R197: whether an identification request is accepted in the present state: in SERVICE with a machine that the engine may drive (R219), or in RUN
while the machine is ENABLED; and only while none runs or is queued. -/
def identAllowed (w : Nat) (s : State) : Bool :=
  let m := bits w 15 15
  !s.canc.ident.running && s.canc.ident.queued.isNone && ((s.dev.state == 6 && s.engineMay m) || (s.dev.state == 5 && s.machEnabled m))

/-- R197: an identification request waits for the next block boundary. -/
def identRequest (w : Nat) (s : State) : State := { s with canc := { s.canc with ident := { s.canc.ident with queued := some (w, s.now) } } }

/-- IDENT_POINT_DONE (R197): the gain of one point is taken; the last point of an order completes its table, and the last order ends the
identification. -/
def identPoint (s : State) : State :=
  let i := s.canc.ident
  let r := i.pointDone (identAmp s.cfg (s.dev.state == 5))
  let j : Ident := { r.1 with table := match r.2 with
    | some (k, b) => some (i.machine, k, b)
    | none => i.table }
  let ended := i.running && !j.running
  let j : Ident := if ended then { j with ending := some s.now } else j
  let t := s.diag.tap
  tapLog s { s with
    canc := { s.canc with ident := j }
    diag := { s.diag with tap := if ended then
        { t with result := if j.failed = 0 then 1 else 3, done := true, completed := inc32 t.completed } else t } }

/-- DIVERGED_HOLD_END (R199). -/
def holdOver (m k : Nat) (s : State) : State :=
  let c := s.cfg
  let e := s.cancEnv m
  let lost := s.canc.sensorLost c m
  { s with canc := { s.canc with m := upd s.canc.m m (fun x => { x with orders := upd x.orders k (fun o => holdEnd c m k e lost o) }) } }

/-- Whether a main path delivers: not failed, and its latest result passed its checks. -/
def pathDelivers (sd : Nat) (s : State) : Bool := let p := s.sense.path sd; !p.failed && !p.stuck && !p.clip

/-- SPEAKER_RESISTANCE_ESTIMATE (R204, R214): 100 ms of a speaker's sums end. The estimate is valid while both paths deliver and the rms of the filtered
current exceeds the minimum. -/
def speakerEstimate (k : Nat) (s : State) : State :=
  let c := s.cfg
  let x := nth s.loads (k + 2) {}
  if s.now < x.trackFrom + 20000000 then s else
  let least := c.f (0x8012 + k) 0x15
  let ok := s.pathDelivers (28 + 2 * k) && s.pathDelivers (29 + 2 * k) && decide (least * least * (x.trackN : Rat) < x.trackIi)
  { s with loads := upd s.loads (k + 2) (fun x => (if ok then x.track c (k + 2) s.now (x.trackVi / x.trackIi) else x).trackAnew s.now) }

/-- R216: the objects that an adoption writes, with their values: coil resistance and its temperature, resonance and Q. -/
def adoptFields (w : Nat) (s : State) : List (Nat × Nat) :=
  let l := w % 4
  let m := nth s.diag.tap.mach l {}
  let k := nth s.diag.tap.spk (l - 2) {}
  let r := if l < 2 then (m.rs, m.temp) else (k.re, k.temp)
  (if bit w 2 then [(objKey (0x8010 + l) 4, r.1), (objKey (0x8010 + l) 5, r.2)] else [])
    ++ (if bit w 3 then [(objKey (0x8020 + l) 1, k.fs), (objKey (0x8020 + l) 2, k.q)] else [])

/-- R216: whether every result that an adoption names is present and passed, and fits its object. -/
def adoptOk (w : Nat) (s : State) : Bool :=
  let l := w % 4
  let st := if l < 2 then (nth s.diag.tap.mach l {}).status else (nth s.diag.tap.spk (l - 2) {}).status
  (!bit w 2 || (bit st (if l < 2 then 4 else 3) && bit st 7)) && (!bit w 3 || (decide (2 ≤ l) && bit st 4))
    && (s.adoptFields w).all (fun e => match findRow e.1 with
      | some r => rangeOk s.acceptedStore r e.1 e.2 && !s.coefRefused e.1 e.2 && !s.writeFails e.1 e.2
      | none => false)

/-- R216: the adoption, as basic writes of the load's parameters. -/
def adopt (w : Nat) (s : State) : State := (s.adoptFields w).foldl (fun s e => s.acceptWrite e.1 e.2) s

end State

/-- ACC_READ_START. -/
def execAccReadStart (n : Nat) (s : State) : Out := .next (s.accTimed n)

/-- ACC_READ_DONE. -/
def execAccReadDone (n : Nat) (bytes : List Nat) (s : State) : Out := .next (if s.up then s.accDone n bytes else s)

/-- IDENT_POINT_DONE. -/
def execIdentPointDone (s : State) : Out := .next (if s.gridRuns then s.identPoint else s)

/-- DIVERGED_HOLD_END. -/
def execDivergedHoldEnd (m k : Nat) (s : State) : Out := .next (if s.working then s.holdOver m k else s)

/-- SPEAKER_RESISTANCE_ESTIMATE. -/
def execSpeakerResistanceEstimate (k : Nat) (s : State) : Out := .next (if s.working then s.speakerEstimate k else s)

end Sys2Proof.Machine
end

