-- ==== Sys2Proof/Machine/CrustCmds.lean ====
section
/-! DEFINITION. The commands of Crust (chapter 13) and of a Crust fault (R294). -/

namespace Sys2Proof.Machine

namespace State

/-! ### The Crust cycle (R262, R272, R282) -/

/-- Whether both copies of a Crust parameter fail their complement check (R294). -/
def crustStoreLost (s : State) : Bool :=
  s.active.vals.any (fun e => match findRow e.1 with
    | some r => r.grp == 10 && r.ty.isPair && !pairOk e.2 && !pairOk (s.active2.raw e.1)
    | none => false)

/-- CRUST_FAULT (R294): safe-off and BEDROCK. -/
def crustFault (kind : CrustFaultKind) (s : State) : State :=
  let x := s.crust
  let x : CrustState := match kind with
    | .supply => { x with supplyFault := true }
    | .clock => { x with clockFault := true }
    | .param | .store => { x with paramFault := true }
  enterBedrock 7 0 false { s with crust := { x with soff := { x.soff with pulse := none, test := none }.command x.usec false false } }

/-- The CRUST group at a Crust cycle boundary (R35, R38): a new pair configuration or discrepancy time restarts its pair (R272), a new recipe its
flags and timers (R279), and new test-pulse timing abandons the running test pulses (R271). -/
def crustSettings (s : State) : State :=
  if s.stopped then s else
  let r := s.boundary 0x400 200
  let s := r.1
  let c := s.cfg
  let wrote (p : Nat) : Bool := r.2.keys.any (fun k => k == objKey 0x9010 (p + 1) || k == objKey 0x9011 (p + 1))
  let timing := r.2.keys.any (fun k => k / 256 == 0x9020)
  let x := s.crust
  let x : CrustState := { x with
    pairs := x.pairs.mapIdx (fun p (y : SafePair) => if wrote p then y.configure (pairType (pairCfg c p)) else y)
    tpFrom := if timing then [none, none, none, none] else x.tpFrom, tpOrigin := if timing then x.usec else x.tpOrigin
    ch := x.ch.mapIdx (fun i (y : Channel) =>
      if wrote (i / 2) && pairType (pairCfg c (i / 2)) == 0 then { y with sig := false, missed := 0, crossed := [0, 0, 0, 0] } else y) }
  { s with crust := if bit r.2.mask 10 then x.loadRecipe else x }

/-- What a cycle reads from the rest of the device (R260, Table 13-3). -/
def crustEnv (s : State) : CrustState.CycleEnv :=
  let free (m : Nat) : Bool := (s.trip.group m).patternOn && (s.trip.group m).pattern == 2
  { run := s.dev.state == 5, service := s.dev.state == 6, bedrock := s.dev.state == 7
    notArmed0 := (s.trip.group 0).tripped, notArmed1 := (s.trip.group 1).tripped, free0 := free 0, free1 := free 1, hard := s.fault.hardLimit }

/-- The trip bits of the demand register at the four groups (R282, R143). -/
def crustSource (trip inhibit : Nat) (s : State) : State :=
  s.tripTo ((List.range 4).foldl (fun (t : TripState) k => t.source s.now k srcCrust (bit inhibit k) (bit trip k)) s.trip)

/-- The safe patterns, the winding checks and the end condition of a discharge in a Crust cycle (R153, R157, R159). -/
def crustTrips (s : State) : State :=
  let c := s.cfg
  let t := (List.range 2).foldl (fun (t : TripState) m => t.patternCycle c m (s.crustSpeed m).1 (s.crustSpeed m).2) s.trip
  let t := t.windCheck c s.now s.windEnvs
  { s with trip := t.disBelow c ((List.range 2).map (fun m => f32ToRat (nth s.sense.dc m {}).volts)) }

/-- CRUST_CYCLE (R262): settings, angle and speed, pairs, recipe, latch and reset, and the demand register with its reactions. A machine's angle that
becomes invalid is fault 0x0B, a switch newly stuck on fault 0x19. -/
def crustCycle (s : State) : State :=
  let s := s.crustSettings.repairStore
  let s := if s.crustStoreLost && !s.crust.paramFault then s.crustFault .param else s
  let c := s.cfg
  let old := s.crust
  let req := if s.dev.state = 7 then 0 else c.pv 0x9000 6
  let cycled := CrustState.cycle c s.crustEnv { old with hostReq := req }
  let x := cycled.1
  let r := cycled.2.1
  let stuck := cycled.2.2
  let lost (m : Nat) : Bool := (nth old.axis m {}).valid && !(nth x.axis m {}).valid && c.pv 0x9050 (1 + m) != 0
  let demanded := (reactions c old.demand).bedrock
  let blocked := (s.trip.group 2).active != 0 || s.fault.hardLimit
  let s : State := { s with crust := x.tone c (s.dev.state == 7) blocked, hk := { s.hk with safeInUse := nth s.hk.trims 0 0 } }
  let s := s.crustSource r.trip r.inhibit
  let s := if r.discharge == s.trip.dis.crust then s else s.discharge s.trip.dis.host r.discharge
  let s := s.crustTrips
  let s := raiseAll (((List.range 2).filter lost).map (fun m => Signal.fault 0x0B (17 + m) m)) s
  let s := if stuck then s.raise (.fault 0x19 24 0) else s
  if r.bedrock && !demanded then s.enterBedrock 2 0 false else s

/-! ### Watchdogs (R277, R278) -/

/-- LANE_WATCHDOG_EXPIRY (R277): LANE_WD, input 0x13, the fixed trip of both machines and BEDROCK. -/
def laneWatchdog (s : State) : State :=
  let x := s.crust
  if !x.armed || x.laneWd || s.dev.state = 7 || !x.laneLate s.now (nth s.mod.m 0 {}).period then s else
  enterBedrock 6 0 false
    ({ s with crust := { x with laneWd := true, laneExpiries := inc32 x.laneExpiries } }.crustSource 3 0)

/-- HEARTH_WATCHDOG_EXPIRY (R278). -/
def hearthWatchdog (s : State) : State :=
  if !s.working || s.crust.gateClosed || !s.crust.hearthLate s.now then s
  else raise (.fault 0x15 0 0) { s with crust := s.crust.hearthExpire }

/-! ### Test pulses, reset and safe-off (R269, R274, R284 to R287) -/

/-- SRST_STUCK (R274): recorded with the high's duration so far in ms. -/
def srstStuck (s : State) : State :=
  let r := s.crust.srst.long s.crust.usec
  let s : State := { s with crust := { s.crust with srst := r.1 } }
  if r.2 then s.logEvent 8 (toBytes 4 ((s.crust.usec - r.1.rise) / 1000)) else s

/-- R286: whether a readback test may be requested. -/
def soffTestAllowed (s : State) : Bool := s.dev.state == 4 || s.dev.state == 6

/-- R286: the readback test starts. -/
def soffTest (s : State) : State := { s with crust := { s.crust with soff := s.crust.soff.testStart s.crust.usec } }

/-- OFF_PULSE_END (R287): a passing pulse clears SAFE_OFF once no switch is stuck on (R292); one whose readback did not fall is fault 0x19. -/
def offPulseEnd (s : State) : State :=
  let r := s.crust.soff.pulseEnd s.crust.usec (s.cfg.pv 0x9030 3)
  let s : State := { s with crust := { s.crust with soff := r.1 } }
  if r.2.2 then s.raise (.fault 0x19 24 0)
  else if r.2.1 && !r.1.hStuck && !r.1.lStuck then s.raise (.restored 23) else s

end State

/-- CRUST_INPUT_SAMPLE. -/
def execCrustInputSample (sin : Nat) (srst rbh rbl : Bool) (s : State) : Out :=
  .next (if s.dev.npor && s.dev.nrst && decide (2 ≤ s.dev.state) then { s with crust := s.crust.sample s.cfg sin srst rbh rbl } else s)

/-- CRUST_CYCLE. -/
def execCrustCycle (s : State) : Out := .next (if s.up then s.crustCycle else s)

/-- TEST_PULSE. -/
def execTestPulse (n : Nat) (s : State) : Out := .next (if s.up then { s with crust := s.crust.testPulse s.cfg n } else s)

/-- SRST_STUCK. -/
def execSrstStuck (s : State) : Out := .next (if s.up then s.srstStuck else s)

/-- LANE_WATCHDOG_EXPIRY. -/
def execLaneWatchdogExpiry (s : State) : Out := .next (if s.up then s.laneWatchdog else s)

/-- HEARTH_WATCHDOG_EXPIRY. -/
def execHearthWatchdogExpiry (s : State) : Out := .next s.hearthWatchdog

/-- HEARTH_GATE_REOPEN. -/
def execHearthGateReopen (s : State) : Out := .next (if s.working then { s with crust := s.crust.hearthReopen s.now } else s)

/-- SAFE_OFF_MAX_WAIT. -/
def execSafeOffMaxWait (s : State) : Out :=
  .next (if s.up then { s with crust := { s.crust with soff := s.crust.soff.maxWaitEnd s.crust.usec (s.cfg.pv 0x9030 5 * 1000) } } else s)

/-- SAFE_OFF_TEST_STEP_END. -/
def execSafeOffTestStepEnd (s : State) : Out :=
  .next (if s.up then { s with crust := { s.crust with soff := s.crust.soff.testStep s.crust.usec } } else s)

/-- OFF_PULSE_START. -/
def execOffPulseStart (s : State) : Out :=
  .next (if s.working then { s with crust := { s.crust with soff := s.crust.soff.pulseStart s.crust.usec (s.cfg.pv 0x9030 2) } } else s)

/-- OFF_PULSE_END. -/
def execOffPulseEnd (s : State) : Out := .next (if s.up then s.offPulseEnd else s)

/-- CRUST_FAULT. -/
def execCrustFault (kind : CrustFaultKind) (s : State) : Out := .next (if s.up then s.crustFault kind else s)

/-- BEDROCK_TONE_ALTERNATION. -/
def execBedrockToneAlternation (s : State) : Out :=
  .next (if s.up && s.dev.state == 7 then { s with crust := s.crust.toneAlternate s.cfg } else s)

end Sys2Proof.Machine
end

