-- ==== Sys2Proof/Machine/DiagCmds.lean ====
section
/-! DEFINITION. The commands of load diagnosis: tap tests, passive monitors, test signals and capture (chapter 11). -/

namespace Sys2Proof.Machine

namespace State

/-! ### Tap tests (R217 to R228) -/

/-- R218: whether a request names only tests that its load has. -/
def tapRange (w : Nat) (s : State) : Bool :=
  bit w 3 || (bits w 7 4 != 0 && (w % 4 < 2 || (!bit w 7 && !bit w 5 && !bit w 4)) && (!bit w 6 || s.cfg.u (0x8041 + w % 4) 1 != 0))

/-- R218, R219, Table 11-1: whether a request is accepted in the present state. -/
def tapAllowed (w : Nat) (s : State) : Bool :=
  let l := w % 4
  let t := s.diag.tap
  bit w 3 || (!t.running && t.queue.isEmpty && !s.canc.ident.running && s.canc.ident.queued.isNone
    && ((s.dev.state == 6 && (decide (2 ≤ l) || s.engineMay l))
      || (s.dev.state == 5 && bits w 7 4 == 4 && (decide (2 ≤ l) || s.machEnabled l))))

/-- R35, R218: a request waits for the next block boundary. -/
def tapRequest (w : Nat) (s : State) : State :=
  { s with diag := { s.diag with tap := { s.diag.tap with queue := s.diag.tap.queue ++ [(w, s.now)] } } }

/-- TAP_STEP_DONE (R222 to R228). -/
def tapStep (s : State) : State :=
  let c := s.cfg
  let l := s.diag.tap.load
  let amp : Rat := mkRat (c.u 0x8040 4) (if s.dev.state = 5 then 4000 else 1000) * iBase c l
  let v := s.crustSpeed l
  let a := s.tapAngle l
  let t := s.diag.tap.stepDone c s.now amp (v.2 && decide (absR v.1 < c.f 0x8040 7)) a.1 a.2 (motorCeiling c l) (s.tapTemp l)
  tapLog s { s with diag := { s.diag with tap := t } }

/-! ### Passive monitors (R229, R230) -/

/-- DRIFT_WINDOW_END (R229): a valid window's estimate goes to the machine's coil model. -/
def driftEnd (m : Nat) (s : State) : State :=
  let r := (nth s.diag.mon m {}).driftEnd s.cfg m
  let s : State := { s with diag := { s.diag with mon := upd s.diag.mon m (fun _ => r.1) } }
  match r.2 with
  | some x => { s with loads := upd s.loads m (fun l => l.track s.cfg m s.now x) }
  | none => s

/-- IMBALANCE_WINDOW_END (R230). -/
def imbalanceEnd (m : Nat) (s : State) : State :=
  let c := s.cfg
  { s with diag := { s.diag with mon := upd s.diag.mon m (fun x => x.imbalanceEnd c (phaseCount c m) (iBase c m)) } }

/-! ### Test signals (R233) -/

/-- The mode in use of the machine that a target names. -/
def testMode (target : Nat) (s : State) : Nat := (nth s.ctl (target / 128 % 2) {}).mode

/-- R233: the range of a start: a chirp has a duration, and a frame number lies in the future. -/
def testRange (w : Nat) (s : State) : Bool :=
  !(s.cfg.u 0xE010 2 == 4 && s.cfg.u 0xE010 7 == 0) && (w == 0 || fnAhead w s.frame.fn)

/-- R233: whether a start is accepted: in RUN, with a reference that agrees with the mode in use. -/
def testAllowed (s : State) : Bool := s.dev.state == 5 && testModeOk (s.cfg.u 0xE010 1) (s.testMode (s.cfg.u 0xE010 1))

/-- R233: a start waits for its Trough. -/
def testStart (w : Nat) (s : State) : State :=
  { s with diag := { s.diag with sig :=
      if w = 0 then { s.diag.sig with dueTime := some s.now, dueFn := none } else { s.diag.sig with dueFn := some w, dueTime := none } } }

/-- R233: a stop waits for the next M0 Trough (R35). -/
def testStop (s : State) : State := { s with diag := { s.diag with sig := { s.diag.sig with dueStop := some s.now } } }

/-- R233 at an M0 Trough: a stop that waits, then a start that is due and still agrees with the mode in use. -/
def testTrough (s : State) : State :=
  let ready (t : Option Nat) : Bool := match t with | some t => decide (t + 200 ≤ s.now) | none => false
  let g := s.diag.sig
  let g := if ready g.dueStop then { g.stop 2 with dueStop := none } else g
  let due := g.dueFn == some s.frame.fn || ready g.dueTime
  if !due then { s with diag := { s.diag with sig := g } }
  else if s.testAllowed then
    { s with diag := { s.diag with
        sig := TestSignal.begin_ s.cfg s.frame.fn s.now (s.testMode (s.cfg.u 0xE010 1)), cap := { s.diag.cap with testSeen := true } } }
  else { s with diag := { s.diag with sig := { g with dueFn := none, dueTime := none } } }

/-- R233: a change of a machine's mode in use ends a test signal on it. -/
def testModeChange (m : Nat) (s : State) : State :=
  let g := s.diag.sig
  if g.running && g.target / 128 == m then { s with diag := { s.diag with sig := g.stop 3 } } else s

/-- TEST_SIGNAL_DURATION_END (R233). -/
def testDuration (s : State) : State :=
  let g := s.diag.sig
  let n := s.cfg.u 0xE010 7
  if g.running && n != 0 && decide (n ≤ (s.frame.fn + 2 ^ 32 - g.startFn) % 2 ^ 32) then { s with diag := { s.diag with sig := g.stop 1 } } else s

/-! ### Capture (R234, R235) -/

/-- R235: the range of a capture control write: at a start, the records of a one-shot capture with a count fit, and a trigger frame lies ahead. -/
def captureRange (w : Nat) (s : State) : Bool :=
  let c := s.cfg
  w != 1 || ((c.u 0xE000 7 == 1 || c.u 0xE000 6 == 0 || decide (c.u 0xE000 0xB + c.u 0xE000 6 ≤ captureCapacity (c.u 0xE000 3)))
    && (c.u 0xE000 8 != 1 || fnAhead (c.u 0xE000 9) s.frame.fn))

/-- R35: a capture control write waits for the next M0 Trough. -/
def captureWrite (w : Nat) (s : State) : State := { s with diag := { s.diag with cap := { s.diag.cap with request := some (w, s.now) } } }

/-- R35, R235: a capture control write applies at an M0 Trough. -/
def captureTrough (s : State) : State :=
  match s.diag.cap.request with
  | some (w, t) => if t + 200 ≤ s.now then { s with diag := { s.diag with cap := { s.diag.cap.request_ w with request := none } } } else s
  | none => s

/-- A machine's capture signal of Table 11-10, by its place from 0x21 or 0x31. -/
def captureMachine (m k : Nat) (s : State) : Nat :=
  let c := s.cfg
  let p := nth s.pubLane.pub m {}
  let l := nth s.pubLane.m m {}
  let e := (nth s.ctl m {}).env
  let x := measure (laneParams c m) e l
  match k with
  | 0 => p.id
  | 1 => p.iq
  | 2 => p.vd
  | 3 => p.vq
  | 4 => f32OfRat (x.theta - (x.theta.floor : Rat))
  | 5 => p.speed
  | 6 => p.torque
  | 7 => f32OfRat l.tRef
  | 8 => f32OfRat (l.injPrev * iBase c m)
  | 9 => f32OfRat (l.cancPrev * iBase c m)
  | _ => f32OfRat e.udc

/-- A capture signal's word (Table 11-10) and its value in its unit. -/
def captureSignal (code : Nat) (s : State) : Nat × Rat :=
  let f (w : Nat) : Nat × Rat := (w, f32ToRat w)
  let raw (w : Nat) : Nat × Rat := (w, (w : Rat))
  if 1 ≤ code ∧ code ≤ 0x20 then f (f32OfRat (sdPhys s.cfg (code - 1) (s.sense.path (code - 1)).r))
  else if 0x21 ≤ code ∧ code ≤ 0x2B then f (s.captureMachine 0 (code - 0x21))
  else if 0x31 ≤ code ∧ code ≤ 0x3B then f (s.captureMachine 1 (code - 0x31))
  else if 0x40 ≤ code ∧ code ≤ 0x47 then raw (nth (nth s.pubLane.pub ((code - 0x40) / 4) {}).capture (code % 4) 0)
  else if code = 0x50 then f (f32OfRat s.diag.sig.value)
  else if 0x60 ≤ code ∧ code ≤ 0x65 then
    let v : Int := nth (nth s.canc.acc ((code - 0x60) / 3) {}).latest ((code - 0x60) % 3) 0
    (ofInt 32 v, (v : Rat))
  else (0, 0)

/-- One record of the capture: FN, the low half of the counter at the sample instant, and the signals (R234). -/
def captureSample (time : Nat) (s : State) : State :=
  let c := s.cfg
  let v := (List.range (c.u 0xE000 3)).map (fun k => s.captureSignal (c.u 0xE001 (k + 1)))
  let words := s.frame.fn :: time % 2 ^ 32 :: v.map (·.1)
  let x := s.diag.cap
  let y := x.record c s.frame.fn ((v.headD (0, 0)).2) x.tripSeen x.testSeen words
  { s with diag := { s.diag with cap := { y with tripSeen := false, testSeen := false } } }

/-- R234 at an M0 update instant: every D-th is recorded while the source is the update instants. -/
def captureInstant (s : State) : State :=
  let x := s.diag.cap
  if !x.running || s.cfg.u 0xE000 4 != 0 then s
  else if x.tick + 1 < s.cfg.u 0xE000 5 then { s with diag := { s.diag with cap := { x with tick := x.tick + 1 } } }
  else captureSample s.lanes.sample { s with diag := { s.diag with cap := { x with tick := 0 } } }

/-- R234 at a capture strobe: its instant is the sample instant. -/
def captureStrobe (s : State) : State := if s.diag.cap.running && s.cfg.u 0xE000 4 == 1 then s.captureSample s.now else s

end State

/-- TAP_STEP_DONE. -/
def execTapStepDone (s : State) : Out := .next (if s.gridRuns && s.diag.tap.running then s.tapStep else s)

/-- DRIFT_WINDOW_END. -/
def execDriftWindowEnd (m : Nat) (s : State) : Out := .next (if s.dev.state = 5 then s.driftEnd m else s)

/-- IMBALANCE_WINDOW_END. -/
def execImbalanceWindowEnd (m : Nat) (s : State) : Out := .next (if s.dev.state = 5 then s.imbalanceEnd m else s)

/-- TEST_SIGNAL_DURATION_END. -/
def execTestSignalDurationEnd (s : State) : Out := .next s.testDuration

end Sys2Proof.Machine
end

