-- ==== Sys2Proof/Machine/FaultCmds.lean ====
section
/-! DEFINITION. The commands of BEDROCK's status frame, the service cores and the reference clock (chapters 14 and 21). -/

namespace Sys2Proof.Machine

namespace State

/-- The higher DC-link voltage in use of both machines, in whole V (Table 14-4). -/
def frameVolts (s : State) : Nat :=
  (clampI 0 65535 (roundAway (maxR (f32ToRat (nth s.sense.dc 0 {}).volts) (f32ToRat (nth s.sense.dc 1 {}).volts)))).toNat

/-- BEDROCK_STATUS_FRAME (R299): every 100 ms from entry, on CAN0, under the status ID. -/
def statusFrame (s : State) : State :=
  let f := s.fault
  if s.dev.state ≠ 7 || nth s.net.canBusOff 0 false || decide (s.now < f.frameTime + 20000000) then s else
  let bytes := f.frame (s.tripStatus 0) (s.tripStatus 1) s.frameVolts s.trip.disStatus
  { s with
    fault := { f with frameCount := (f.frameCount + 1) % 256, frameTime := s.now }
    net := { s.net with sent := [{ iface := 3, prio := s.cfg.u 0x2300 0xA, bytes := bytes }] } }

/-- LOCKSTEP_MISMATCH (R290, code 0x14): both service cores reset; everything else goes on. -/
def lockstep (s : State) : State := raise (.fault 0x14 0 0) { s with dev := { s.dev with coresReset := true } }

/-- REF_LOST (R403): the SYS and PWM PLLs go to the backup oscillator, whose deviation in parts per 10^6 R293 judges. -/
def refLoss (deviation : Int) (s : State) : State :=
  let s : State := { s with dev := { s.dev with
    refOk := false, refLost := true, backup := true, slewing := true, toRef := false, ethHold := true
    refLosses := inc32 s.dev.refLosses, backupDev := deviation } }
  if !s.up then s else
  let s := s.raise (.fault 0x0C 19 0)
  if 30000 < deviation.natAbs ∧ s.dev.state ≠ 7 then s.enterBedrock 1 19 false else s

/-- REF_RETURN (R404): the return to REF starts; the ETH PLL follows REF again. -/
def refBack (s : State) : State :=
  if s.dev.refOk then s else
  { s with dev := { s.dev with refOk := true, ethHold := false, slewing := s.dev.backup, toRef := s.dev.backup } }

/-- PLL_SLEW_COMPLETE (R404): the slew ends; a return to REF clears REF_LOST, BACKUP and CLOCK. -/
def slewDone (s : State) : State :=
  if !s.dev.slewing then s
  else if s.dev.toRef then
    raise (.restored 18) { s with dev := { s.dev with slewing := false, toRef := false, refLost := false, backup := false, backupDev := 0 } }
  else { s with dev := { s.dev with slewing := false } }

end State

/-- BEDROCK_STATUS_FRAME. -/
def execBedrockStatusFrame (s : State) : Out := .next (if s.up then s.statusFrame else s)

/-- LOCKSTEP_MISMATCH. -/
def execLockstepMismatch (s : State) : Out := .next (if s.up then s.lockstep else s)

/-- SERVICE_CORES_RESUME. -/
def execServiceCoresResume (s : State) : Out := .next (if s.up then { s with dev := { s.dev with coresReset := false } } else s)

/-- REF_LOST. -/
def execRefLost (deviation : Int) (s : State) : Out := .next (if s.dev.npor && s.dev.refOk then s.refLoss deviation else s)

/-- REF_RETURN. -/
def execRefReturn (s : State) : Out := .next (if s.dev.npor then s.refBack else s)

/-- PLL_SLEW_COMPLETE. -/
def execPllSlewComplete (s : State) : Out := .next (if s.dev.npor then s.slewDone else s)

end Sys2Proof.Machine
end

