-- ==== Sys2Proof/Machine/Aes.lean ====
section
/-! DEFINITION. AES-128 and AES-128-CMAC, the two standard functions that R346, R349 and R353 name, over lists of byte values. -/

namespace Sys2Proof.Machine

/-- The S-box of AES, 32 entries a row, first entry most significant. -/
def aesSboxRow (r : Nat) : Nat :=
  match r with
  | 0 => 0x637C777BF26B6FC53001672BFED7AB76CA82C97DFA5947F0ADD4A2AF9CA472C0
  | 1 => 0xB7FD9326363FF7CC34A5E5F171D8311504C723C31896059A071280E2EB27B275
  | 2 => 0x09832C1A1B6E5AA0523BD6B329E32F8453D100ED20FCB15B6ACBBE394A4C58CF
  | 3 => 0xD0EFAAFB434D338545F9027F503C9FA851A3408F929D38F5BCB6DA2110FFF3D2
  | 4 => 0xCD0C13EC5F974417C4A77E3D645D197360814FDC222A908846EEB814DE5E0BDB
  | 5 => 0xE0323A0A4906245CC2D3AC629195E479E7C8376D8DD54EA96C56F4EA657AAE08
  | 6 => 0xBA78252E1CA6B4C6E8DD741F4BBD8B8A703EB5664803F60E613557B986C11D9E
  | _ => 0xE1F8981169D98E949B1E87E9CE5528DF8CA1890DBFE6426841992D0FB054BB16

/-- The S-box. -/
def aesSub (x : Nat) : Nat := (aesSboxRow (x / 32) >>> (8 * (31 - x % 32))) % 256

/-- Doubling in GF(2^8). -/
def aesDouble (x : Nat) : Nat := if x < 128 then 2 * x else (2 * x - 256) ^^^ 0x1B

/-- The bytewise exclusive or of two lists. -/
def xorBytes (a b : List Nat) : List Nat := a.zipWith (fun x y => x ^^^ y) b

/-- SubBytes and ShiftRows of a state of 16 bytes, column by column. -/
def aesSubShift (s : List Nat) : List Nat :=
  (List.range 16).map (fun i => aesSub (nth s ((i + 4 * (i % 4)) % 16) 0))

/-- MixColumns of one column. -/
def aesMixColumn (c : List Nat) : List Nat :=
  (List.range 4).map (fun i =>
    let b (k : Nat) : Nat := nth c ((i + k) % 4) 0
    aesDouble (b 0) ^^^ (aesDouble (b 1) ^^^ b 1) ^^^ b 2 ^^^ b 3)

/-- MixColumns. -/
def aesMix (s : List Nat) : List Nat :=
  (List.range 4).flatMap (fun c => aesMixColumn ((s.drop (4 * c)).take 4))

/-- The next round key from a round key and its round constant. -/
def aesNextKey (k : List Nat) (rcon : Nat) : List Nat :=
  let w (i : Nat) : List Nat := (k.drop (4 * i)).take 4
  let t := (w 3).drop 1 ++ (w 3).take 1 |>.map aesSub
  let w0 := xorBytes (xorBytes (w 0) t) [rcon, 0, 0, 0]
  let w1 := xorBytes w0 (w 1)
  let w2 := xorBytes w1 (w 2)
  w0 ++ w1 ++ w2 ++ xorBytes w2 (w 3)

/-- Rounds of the cipher with the round constants left. -/
def aesRounds : List Nat → List Nat → List Nat → List Nat
  | [], _, s => s
  | [r], k, s => xorBytes (aesSubShift s) (aesNextKey k r)
  | r :: rs, k, s =>
    let k' := aesNextKey k r
    aesRounds rs k' (xorBytes (aesMix (aesSubShift s)) k')

/-- AES-128 of one block under a key, both of 16 bytes. -/
def aes128 (key block : List Nat) : List Nat :=
  aesRounds [1, 2, 4, 8, 16, 32, 64, 128, 27, 54] key (xorBytes block key)

/-- Doubling in GF(2^128) of a block as a number. -/
def cmacDouble (x : Nat) : Nat := if x < 2 ^ 127 then 2 * x else (2 * x - 2 ^ 128) ^^^ 0x87

/-- The 16 bytes of a block. -/
def blockBytes (x : Nat) : List Nat := (toBytes 16 x).map (·.toNat)

/-- The blocks of a CMAC message but the last, chained from a state: fuel bounds the count of blocks. -/
def cmacGo (key : List Nat) (k1 k2 : List Nat) : Nat → List Nat → List Nat → List Nat
  | 0, s, _ => s
  | fuel + 1, s, m =>
    if 16 < m.length then cmacGo key k1 k2 fuel (aes128 key (xorBytes s (m.take 16))) (m.drop 16)
    else if m.length = 16 then aes128 key (xorBytes s (xorBytes m k1))
    else aes128 key (xorBytes s (xorBytes (m ++ [128] ++ List.replicate (15 - m.length) 0) k2))

/-- AES-128-CMAC of a message. -/
def cmac (key msg : List Nat) : List Nat :=
  let l := (aes128 key (List.replicate 16 0)).foldl (fun a b => a * 256 + b) 0
  let k1 := cmacDouble l
  cmacGo key (blockBytes k1) (blockBytes (cmacDouble k1)) (msg.length / 16 + 1) (List.replicate 16 0) msg

/-- The session key of R349 from the slot's key, the slot, the session and the two nonces. -/
def sessionKey (slotKey : List Nat) (k s nh nd : Nat) : List Nat :=
  cmac slotKey ([1, 0x59, 0x4F, k, s] ++ (toBytes 8 nh).map (·.toNat) ++ (toBytes 8 nd).map (·.toNat))

/-- The first 64 bits of the CMAC of a frame (Table 17-3). -/
def frameMac (key : List Nat) (bytes : List Nat) : List Nat := (cmac key bytes).take 8

/-- The key that a Key slot write carries (R353): its bytes 4 to 19 XOR AES-128 of the session key over 0x03, k and zeros. -/
def unwrapKey (ks : List Nat) (k : Nat) (data : List Nat) : List Nat :=
  xorBytes (data.drop 4) (aes128 ks ([3, k] ++ List.replicate 14 0))

end Sys2Proof.Machine
end

