-- ==== Sys2Proof/Machine/Yoap.lean ====
section
/-! DEFINITION. YOAP frames and sessions (chapter 17): the layouts of Tables 17-3 to 17-5, the replay window, the answers of a request and its
response, and the cyclic images that the device sends. -/

namespace Sys2Proof.Machine

/-- The abort codes of Table 16-5. -/
inductive Abort where
  | notReady | noObject | noSubindex | access | level | type | complement | range | state | groupPending | busy | transfer | commitRejected | resources
  | authentication | replay | opcode
  deriving DecidableEq, Repr

/-- The code of an abort (Table 16-5). -/
def Abort.code : Abort → Nat
  | .notReady => 1 | .noObject => 2 | .noSubindex => 3 | .access => 4 | .level => 5 | .type => 6 | .complement => 7 | .range => 8 | .state => 9
  | .groupPending => 0xA | .busy => 0xB | .transfer => 0xC | .commitRejected => 0xD | .resources => 0xE | .authentication => 0xF | .replay => 0x10
  | .opcode => 0x11

/-- The abort that answers a rejected commit (Table 16-4). -/
def commitAbort (code : Nat) : Abort :=
  if code = 3 then .state else if code = 4 then .groupPending else if code = 0xD then .complement else .commitRejected

/-! ### Layouts -/

/-- The bytes of an item (Table 17-4). -/
def wireItem (opcode : Nat) (err last : Bool) (idx sub : Nat) (data : List Byte) : List Byte :=
  toBytes 1 opcode ++ toBytes 1 (128 * b2n err + b2n last) ++ toBytes 2 idx ++ toBytes 1 sub ++ [0] ++ toBytes 2 data.length ++ data

/-- The bytes of an answer: its data, or the abort code. -/
def Answer.bytes (a : Answer) : List Byte :=
  if a.abort = 0 then wireItem a.opcode false a.last (a.key / 256) (a.key % 256) a.data
  else wireItem a.opcode true false (a.key / 256) (a.key % 256) (toBytes 2 a.abort)

/-- Items packed in order into as few item areas of a capacity as they need, with their counts. -/
def packItems (cap : Nat) (l : List (List Byte)) : List (Nat × List Byte) :=
  let go (acc : List (Nat × List Byte)) (x : List Byte) : List (Nat × List Byte) :=
    match acc with
    | (n, b) :: rest => if b.length + x.length ≤ cap then (n + 1, b ++ x) :: rest else (1, x) :: acc
    | [] => [(1, x)]
  (l.foldl go []).reverse

/-- The item bytes that one frame of an interface holds (R346, R348). -/
def frameRoom (iface : Nat) (mac : Bool) : Nat := (if iface < 3 then 1456 else 56) - (if mac then 8 else 0)

/-- The 16-bit words of a datagram's bytes, the last one filled with 0. -/
def words16 : List Byte → List Nat
  | a :: b :: l => (a.toNat * 256 + b.toNat) :: words16 l
  | [a] => [a.toNat * 256]
  | [] => []

/-- The checksum of a UDP datagram over IPv4: the complement of the one's complement sum of its pseudo header, its header and its bytes; a sum of 0 is
sent as 0xFFFF (R342). -/
def udpChecksum (source dest sport dport : Nat) (l : List Byte) : Nat :=
  let len := l.length + 8
  let sum := source / 65536 + source % 65536 + dest / 65536 + dest % 65536 + 17 + 2 * len + sport + dport + (words16 l).foldl (· + ·) 0
  let c := 0xFFFF - (if sum = 0 then 0 else (sum - 1) % 0xFFFF + 1)
  if c = 0 then 0xFFFF else c

/-- The data length of the smallest CAN FD frame that holds n bytes. -/
def canLength (n : Nat) : Nat := (([8, 12, 16, 20, 24, 32, 48, 64].filter (fun k => decide (n ≤ k))).head?).getD 64

/-- What the header of a frame that the device sends carries. -/
structure Header where
  session : Nat
  seq : Nat
  ack : Nat := 0
  fstatus : Nat := 0
  resp : Bool := true
  image : Bool := false
  more : Bool := false
  deriving DecidableEq, Repr

/-- A frame of the device on an interface (Tables 17-3 and 17-5), with a MAC under a key where one is given. -/
def wireFrame (iface : Nat) (h : Header) (count : Nat) (items : List Byte) (key : Option (List Nat)) : List Byte :=
  let mac := key.isSome
  let body :=
    if iface < 3 then
      toBytes 1 1 ++ toBytes 1 (128 * b2n h.resp + 64 * b2n mac + 32 * b2n h.image + 16 * b2n h.more) ++ toBytes 1 h.session ++ toBytes 1 count
        ++ toBytes 4 h.seq ++ toBytes 4 h.ack ++ toBytes 2 h.fstatus ++ toBytes 2 items.length ++ items
    else
      let b := toBytes 1 (16 + 8 * b2n h.resp + 4 * b2n mac + 2 * b2n h.image + b2n h.more) ++ toBytes 1 h.session ++ toBytes 2 (h.seq % 65536)
        ++ toBytes 2 (h.ack % 65536) ++ toBytes 1 count ++ toBytes 1 (h.fstatus % 256) ++ items
      let tail := if mac then 8 else 0
      b ++ List.replicate (canLength (b.length + tail) - (b.length + tail)) 0
  match key with
  | some k => body ++ (frameMac k (body.map (·.toNat))).map (fun x => BitVec.ofNat 8 x)
  | none => body

/-- A received frame, taken apart: session, SEQ as carried, flags, items, the bytes that the MAC covers, and the MAC. -/
structure RxFrame where
  session : Nat
  seq : Nat
  can : Bool
  mac : Option (List Byte)
  image : Bool
  items : List YItem
  body : List Byte
  deriving DecidableEq, Repr

/-- Items taken from the front of an item area: a count of them, and what follows. -/
def takeItems : Nat → List Byte → Option (List YItem × List Byte)
  | 0, l => some ([], l)
  | n + 1, l =>
    let at_ (k len : Nat) : Nat := ofBytes ((l.drop k).take len)
    let d := at_ 6 2
    if l.length < 8 + d then none else
    match takeItems n (l.drop (8 + d)) with
    | some (is, rest) => some ({ opcode := at_ 0 1, last := bit (at_ 1 1) 0, idx := at_ 2 2, sub := at_ 4 1, data := (l.drop 8).take d } :: is, rest)
    | none => none

/-- A frame over UDP (Table 17-3); none where it is malformed (R346). -/
def parseUdp (l : List Byte) : Option RxFrame :=
  let at_ (k len : Nat) : Nat := ofBytes ((l.drop k).take len)
  let mac := bit (at_ 1 1) 6
  let len := at_ 14 2
  if l.length < 16 || 1472 < l.length || at_ 0 1 != 1 || l.length != 16 + len + (if mac then 8 else 0) then none else
  match takeItems (at_ 3 1) ((l.drop 16).take len) with
  | some (is, []) =>
    some { session := at_ 2 1, seq := at_ 4 4, can := false, mac := if mac then some (l.drop (16 + len)) else none, image := bit (at_ 1 1) 5
           items := is, body := l.take (16 + len) }
  | _ => none

/-- A frame over CAN FD (Table 17-5); none where it is malformed. -/
def parseCan (l : List Byte) : Option RxFrame :=
  let at_ (k len : Nat) : Nat := ofBytes ((l.drop k).take len)
  let mac := bit (at_ 0 1) 2
  let stop := l.length - (if mac then 8 else 0)
  if l.length < 8 || 64 < l.length || bits (at_ 0 1) 7 4 != 1 || stop < 8 then none else
  match takeItems (at_ 6 1) ((l.take stop).drop 8) with
  | some (is, _) =>
    some { session := at_ 1 1, seq := at_ 2 2, can := true, mac := if mac then some (l.drop stop) else none, image := bit (at_ 0 1) 1
           items := is, body := l.take stop }
  | none => none

/-! ### Sessions (R348 to R352) -/

/-- R348: a 16-bit SEQ extended to the 32-bit value nearest to the highest SEQ accepted. -/
def extendSeq (h low : Nat) : Nat :=
  let near (a : Nat) : Nat := if a < h then h - a else a - h
  let b := h / 65536 * 65536 + low
  let l := [b, b + 65536] ++ (if 65536 ≤ b then [b - 65536] else [])
  l.foldl (fun x y => if near y < near x then y else x) b

namespace Session

/-- The level-none session has no MAC (R349). -/
def authenticated (x : Session) : Bool := x.level != 0

/-- R351: whether a SEQ is accepted. -/
def accepts (x : Session) (seq : Nat) : Bool :=
  seq != 0 && ((decide (x.h < seq) && decide (seq ≤ x.h + 2 ^ 31)) || (decide (seq ≤ x.h) && decide (x.h ≤ seq + 63) && !x.recent.any (fun e => e.1 == seq)))

/-- R352: whether a SEQ repeats one accepted within the last 10 ms by another interface. -/
def duplicate (x : Session) (seq iface now : Nat) : Bool :=
  x.recent.any (fun e => e.1 == seq && decide (now ≤ e.2.1 + 2000000) && e.2.2 != iface)

/-- An accepted frame enters the record of the session. -/
def take (x : Session) (seq iface source now : Nat) : Session :=
  let h := max x.h seq
  { x with h := h, recent := ((seq, now, iface) :: x.recent).filter (fun e => decide (h ≤ e.1 + 63)), last := now, source := (iface, source) }

/-- R352, check 1: the MAC of a frame. -/
def macOk (x : Session) (f : RxFrame) : Bool :=
  match f.mac with
  | some m => x.authenticated && frameMac x.key (f.body.map (·.toNat)) == m.map (·.toNat)
  | none => !x.authenticated

/-- The key under which a session's frames carry a MAC. -/
def macKey (x : Session) : Option (List Nat) := if x.authenticated then some x.key else none

/-- The item at the front of a session's queue. -/
def front (x : Session) : Option YItem :=
  match x.queue with
  | r :: _ => r.items.head?
  | [] => none

/-- The SEQ, interface and sender of the request at the front. -/
def frontRequest (x : Session) : Option Request := x.queue.head?

end Session

namespace State

/-- A session, if it is open. -/
def session (k : Nat) (s : State) : Option Session := nth s.net.sessions k none

/-- A session changed, if it is open. -/
def setSession (k : Nat) (f : Session → Session) (s : State) : State :=
  { s with net := { s.net with sessions := upd s.net.sessions k (fun x => x.map f) } }

/-- Last abort and Aborts issued (0x2120): an abort of a session's item, or of its frame with no item. -/
def noteAbort (k code key : Nat) (s : State) : State :=
  { s with table := { s.table with
      lastAbort := if k < 16 then code * 2 ^ 48 + k * 2 ^ 40 + key * 2 ^ 16 else s.table.lastAbort, aborts := inc32 s.table.aborts } }

/-- A frame handed to an interface for sending. -/
def send (f : TxFrame) (s : State) : State := { s with net := { s.net with sent := s.net.sent ++ [f] } }

/-- The device's IPv4 address on an interface (R342). -/
def ownIp (iface : Nat) (s : State) : Nat := if iface < 2 then s.cfg.u 0x1010 3 else s.cfg.u 0x1010 4

/-- A frame of the device to a peer (R344): on Ethernet it carries one tag. -/
def ownFrame (iface prio peer : Nat) (bytes : List Byte) (s : State) : TxFrame :=
  { iface := iface, prio := prio, bytes := bytes, peer := peer, vlan := if iface < 2 then some (s.cfg.u 0x1012 0xA) else none }

/-- A YOAP frame of the device to a peer (R342, R347): on Ethernet and T1S a datagram from its own address and YOAP port, with a checksum. -/
def yoapOut (iface prio peer : Nat) (bytes : List Byte) (s : State) : TxFrame :=
  { s.ownFrame iface prio peer bytes with
    checksum := if iface < 3 then udpChecksum (s.ownIp iface) (peer / 2 ^ 16 % 2 ^ 32) (s.cfg.u 0x1010 5) (peer % 2 ^ 16) bytes else 0 }

/-- The priority of responses on an interface (R344, R347): the PCP, none on T1S, or the CAN identifier. -/
def responsePrio (iface : Nat) (s : State) : Nat := if iface < 2 then s.cfg.u 0x1012 0xB else if iface = 2 then 0 else s.cfg.u 0x1020 6

/-- R346, R354: the response to a request whose items are all answered, in as many frames as it takes; a request without an answer has none. -/
def respond (k : Nat) (r : Request) (s : State) : State :=
  match s.session k with
  | none => s
  | some x =>
    let parts := packItems (frameRoom r.iface x.authenticated) (r.resp.map Answer.bytes)
    let n := parts.length
    let s := (parts.mapIdx (fun i p => (i, p))).foldl (fun (s : State) e =>
      let h : Header := { session := k, seq := x.ownSeq + e.1 + 1, ack := r.seq, more := decide (e.1 + 1 < n) }
      s.send (s.yoapOut r.iface (s.responsePrio r.iface) r.source (wireFrame r.iface h e.2.1 e.2.2 x.macKey))) s
    s.setSession k (fun x => { x with ownSeq := x.ownSeq + n })

/-- The end of a response for the NET group (R33, R35, R38): the writes and commits that it answered apply. No
object of the group clears flags by a write. -/
def netBoundary (r : Request) (s : State) : State :=
  let done (key : Nat) : Bool := r.resp.any (fun a => a.key == key && a.abort == 0)
  let cs := if done (objKey 0x2100 1) then s.commit.pending.filter (fun p => p.mask == 0x2000) else []
  let s := cs.foldl (fun (s : State) p => s.applyCommit p) s
  let here (w : PendWrite) : Bool := w.groups == 0x2000 && done w.key
  let ws := s.commit.writes.filter here
  let s : State := { s with commit := { s.commit with writes := s.commit.writes.filter (fun w => !here w) } }
  (lastWrites ws).foldl (fun (s : State) w => s.applyValue w) s

/-- Whether an item waits for a command to execute it. -/
def executable (image : Bool) (i : YItem) : Bool :=
  if image then i.opcode == 0x20 else [1, 2, 3, 4, 0x11, 0x12].contains i.opcode

/-- The request at the front of a session's queue: its items at the front that need no command are answered, an opcode that is reserved or not
allowed in its frame (Table 17-6), and a request whose items are all answered sends its response (R354). A session that its own CLOSE, or a write of its
own key slot, closes is closed after the response. The answer says whether the next request moved to the front. -/
def settleFront (k : Nat) (x : Session) (r : Request) (rest : List Request) (s : State) : State × Bool :=
  let more := r.items.dropWhile (fun i => !executable r.image i)
  let bad := (r.items.takeWhile (fun i => !executable r.image i)).map (fun i =>
    ({ session := k, opcode := i.opcode, key := i.idx * 256 + i.sub, abort := Abort.opcode.code } : Answer))
  let s := bad.foldl (fun (s : State) a => s.noteAbort k a.abort a.key) s
  let r : Request := { r with items := more, resp := r.resp ++ bad }
  if !more.isEmpty then (s.setSession k (fun x => { x with queue := r :: rest }), false) else
  let r : Request := { r with resp := r.resp ++ r.tail }
  let s := ((s.setSession k (fun x => { x with queue := rest })).respond k r).netBoundary r
  let own (a : Answer) : Bool := a.key / 256 == 0x1410 && a.key % 256 == x.slot + 1 && x.authenticated
  if r.resp.any (fun a => a.abort == 0 && (a.opcode == 0x11 || own a)) then (s.closeSession k, false) else (s, true)

/-- The requests of a session, front first, as long as each is answered whole. n bounds the requests looked at. -/
def settleRequests (k : Nat) : Nat → State → State
  | 0, s => s
  | n + 1, s =>
    match s.session k with
    | none => s
    | some x =>
      match x.queue with
      | [] => s
      | r :: rest =>
        let o := s.settleFront k x r rest
        if o.2 then settleRequests k n o.1 else o.1

/-- Every request of a session looked at. -/
def settleAll (k : Nat) (s : State) : State :=
  s.settleRequests k ((match s.session k with | some x => x.queue.length | none => 0) + 1)

/-- The item that a command executes, where it stands at the front of its session's queue. -/
def frontItem (k : Nat) (s : State) : Option YItem := match s.session k with | some x => x.front | none => none

/-- The abort of a frame, answered once in 10 ms to a source (R352): FSTATUS, no items and no MAC. -/
def frameAbort (session seq : Nat) (iface source : Nat) (a : Abort) (s : State) : State :=
  let src := source * 8 + iface
  let recent := s.net.errTimes.filter (fun e => decide (s.now < e.2 + 2000000))
  if recent.any (fun e => e.1 == src) then { s with net := { s.net with errTimes := recent } } else
  let s : State := noteAbort session a.code 0 { s with net := { s.net with errTimes := recent ++ [(src, s.now)] } }
  s.send (s.yoapOut iface (s.responsePrio iface) source (wireFrame iface { session := session, seq := 0, ack := seq, fstatus := a.code } 0 [] none))

/-- An item's answer (R354): it leaves the queue, the answer joins the response, and the last one sends it. An abort is recorded (0x2120). -/
def answer (k : Nat) (a : Answer) (s : State) : State :=
  let s : State := { s with net := { s.net with answers := [a] } }
  let s := if a.abort = 0 then s else s.noteAbort k a.abort a.key
  let s := s.setSession k (fun x => match x.queue with
    | r :: rest => { x with queue := { r with items := r.items.drop 1, resp := r.resp ++ [a] } :: rest }
    | [] => x)
  s.settleAll k

/-- An image item is never answered (Table 17-6). -/
def unanswered (k : Nat) (s : State) : State :=
  (s.setSession k (fun x => match x.queue with
    | r :: rest => { x with queue := { r with items := r.items.drop 1 } :: rest }
    | [] => x)).settleAll k

/-! ### Cyclic images (R356, R358) -/

/-- An image configuration (Table 17-7). -/
def imageCfg (n : Nat) (s : State) : Nat := s.cfg.u 0x1060 (n + 1)

/-- The objects that an image maps, in order (R356). -/
def imageMap (n : Nat) (s : State) : List Nat := (List.range (s.cfg.u 0x1069 (n + 1))).map (fun k => s.cfg.u (0x1061 + n) (k + 1) % 2 ^ 24)

/-- The most recently opened session of a key slot (R358). -/
def slotSession (slot : Nat) (s : State) : Option (Nat × Session) :=
  (s.net.sessions.mapIdx (fun k x => (k, x))).foldl (fun b e =>
    match e.2 with
    | none => b
    | some x => if x.slot = slot ∧ x.authenticated then (match b with | some (_, y) => if y.opened < x.opened then some (e.1, x) else b | none => some (e.1, x)) else b) none

/-- Whether a transmit image's period falls on this Trough, and the network cycle it names (R358). -/
def imageDue (n : Nat) (s : State) : Bool × Nat :=
  let w := s.imageCfg n
  let t := (5 * s.now + s.frame.gptpOffset) % 2 ^ 64 / (1000 * max 1 (s.cfg.u 0x1040 4))
  if bit w 29 then (s.net.gptp.present && t != (nth s.net.images n {}).cycle, t) else (s.frame.fn % max 1 (bits w 9 0) == 0, 0)

/-- R358: a transmit image at an M0 Trough: its values are sampled and its frame goes out on each Ethernet or T1S port it names, in the latest session
of its slot. -/
def sendImage (s : State) (n : Nat) : State :=
  let w := s.imageCfg n
  if !bit w 31 || !bit w 30 || s.cfg.u 0x1069 (n + 1) = 0 then s else
  let put (f : ImageState → ImageState) (s : State) : State := { s with net := { s.net with images := upd s.net.images n f } }
  let lacks := bit w 29 && !s.net.gptp.present
  let s := put (fun x => { x with noGptp := lacks }) s
  let when_ := s.imageDue n
  let due := when_.1
  let cycle := when_.2
  if !due then s else
  let s := put (fun x => { x with cycle := cycle }) s
  match s.slotSession (bits w 19 17) with
  | none => put (fun x => { x with noSession := true, active := false }) s
  | some (k, x) =>
    let data := (s.imageMap n).flatMap (fun key => match findRow key with
      | some r => itemBytes r.ty (s.value (x.viewActive == 1) key)
      | none => itemBytes .u8 (s.value true key))
    let h : Header := { session := k, seq := x.ownSeq + 1, image := true }
    let bytes := wireFrame 0 h 1 (wireItem 0x20 false false n 0 data) x.macKey
    let s := ([0, 1, 2].filter (fun p => bit w (20 + p))).foldl (fun (s : State) p => s.send (s.yoapOut p (if p < 2 then bits w 15 13 else 0) x.source.2 bytes)) s
    put (fun y => { y with active := true, noSession := false }) (s.setSession k (fun x => { x with ownSeq := x.ownSeq + 1 }))

/-- The transmit images of an M0 Trough. -/
def sendImages (s : State) : State := (List.range 8).foldl sendImage s

end State

end Sys2Proof.Machine
end

