-- ==== Sys2Proof/Machine/FrameCmds.lean ====
section
/-! DEFINITION. The control frame (chapters 02, 04, 06): the M0 Trough with the settings that apply there, the Crest, the control modes and the changes
of state that a host asks for. -/

namespace Sys2Proof.Machine

namespace State

/-! ### Control modes and output enables (R83, R88, R131) -/

/-- A machine's control changed. -/
def setCtl (m : Nat) (f : MachCtl → MachCtl) (s : State) : State := { s with ctl := upd s.ctl m f }

/-- A machine's mode in use becomes 0 with no fade, and so does its control mode. -/
def modeOff (m : Nat) (s : State) : State :=
  let s := if (nth s.ctl m {}).mode = 0 then s else s.testModeChange m
  (s.setCtl m MachCtl.off).putActive (modeKey m) 0

/-- A control mode that applies at its Trough (R83, R88): the code in use ends a pending mode 0; mode 0 waits for the fade; another code is entered.
Outside RUN no mode is entered. -/
def modeApply (m : Nat) (s : State) : State :=
  let code := s.cfg.raw (modeKey m)
  let x := nth s.ctl m {}
  if s.dev.state ≠ 5 then (if code = 0 then s else s.putActive (modeKey m) 0)
  else if code = x.mode then s.setCtl m (fun x => { x with fadeFrom := none })
  else if code = 0 then s.setCtl m (fun x => { x with fadeFrom := some (x.fadeFrom.getD s.now) })
  else (s.testModeChange m).setCtl m (fun x => { x with mode := code, fadeFrom := none, enter := true })

/-- A traction output enable at its Trough (R131): clearing it also ends the mode. -/
def enableApply (m : Nat) (s : State) : State :=
  let on := s.cfg.b (0x5000 + 16 * m) 7
  let was := nth s.mod.enabled m true
  let s : State := { s with mod := { s.mod with enabled := upd s.mod.enabled m (fun _ => on) } }
  if was && !on then s.modeOff m else s

/-- R87: the controllers of a machine whose gains or limits change: V_max limits the current controllers, the torque limits the speed controllers. -/
def newGains (old c : Store) (m : Nat) : ReInit :=
  let p := laneParams old m
  let q := laneParams c m
  let volts := p.margin != q.margin
  let speed := p.kpS != q.kpS || p.kiS != q.kiS || p.motor != q.motor || p.gener != q.gener
  { d := p.kpD != q.kpD || p.kiD != q.kiD || volts
    q := p.kpQ != q.kpQ || p.kiQ != q.kiQ || volts
    x := p.kpX != q.kpX || p.kiX != q.kiX || volts
    speed := speed, limit := speed
    hold := p.kPos != q.kPos || p.holdLim != q.holdLim }

/-- A machine's own settings at its Trough: gains, control mode, output enable. -/
def machineSettings (m : Nat) (old : Store) (keys : List Nat) (s : State) : State :=
  let s := s.setCtl m (fun x => { x with re := x.re.or (newGains old s.cfg m), instant := s.now })
  let s := if keys.contains (modeKey m) then s.modeApply m else s
  s.enableApply m

/-! ### Modulation at an M0 Trough (R118, R122 to R125, R379) -/

/-- Whether a mode changes the period from frame to frame. -/
def variesPeriod (mode : Nat) : Bool := decide (5 ≤ mode)

/-- R118: a basic frequency write rescales the compares of a machine in proportion to its period. -/
def rescaled (pNew : Nat) (x : ModMachine) : ModMachine :=
  let one (d : Nat) : Nat := if d = 32 * x.computedFor then 32 * pNew else scaleCompare x.computedFor pNew d
  { x with shadow := x.shadow.map (fun l => l.map one), computedFor := pNew }

/-- The period and share of the frame after the one that begins, and the spread register and pattern index with them (R122, R123). -/
def publish (old c : Store) (was p0 : Nat) (nextM1 : Bool) (x : ModState) : Nat × Int × ModState :=
  let mode := modMode c 0
  if mode = 5 then
    let seed := was != 5 || old.u 0x5400 6 != c.u 0x5400 6
    let r0 := if seed then c.u 0x5400 6 else x.lfsr
    let r := if nextM1 then lfsrDraw r0 else r0
    (if nextM1 then spreadPeriod (nominalPeriod c 0) (c.u 0x5400 5) r else p0, 0, { x with lfsr := r })
  else if mode = 6 then
    let n := max 1 (c.u 0x5400 7)
    let new := was != 6 || old.u 0x5400 7 != c.u 0x5400 7 || (List.range n).any (fun j => old.u 0x5401 (j + 1) != c.u 0x5401 (j + 1))
    let j := if new then 0 else if nextM1 then (x.pattern + 1) % n else x.pattern % n
    let e := shapedEntry c j
    (e.1, e.2, { x with pattern := j })
  else (nominalPeriod c 0, 0, x)

/-- R129, R143: the vote source of a machine at an update instant of it: active where the vote loaded no duties for a machine that had some, inactive
where it loaded some. While the vote decides no row (R115), in BEDROCK and in THERMAL STOP it stays as it is. -/
def voteInstant (m : Nat) (loaded had : Bool) (s : State) : State :=
  if s.dev.state = 7 || s.dev.state = 8 || s.lanes.underTest then s
  else if loaded then s.voteSource m false
  else if had then s.voteSource m true else s

/-- R129: where the vote loaded nothing at an update instant of M0, M1's held duties stop driving it too. -/
def dropHeld (loaded : Bool) (s : State) : State :=
  if loaded || s.lanes.underTest then s
  else
    let had := !(nth s.mod.m 1 {}).noDuty
    State.voteInstant 1 false had { s with mod := { s.mod with m := upd s.mod.m 1 (fun x => { x with noDuty := true }) } }

/-- M0's period in the frame that begins where no mark of the chain gives it (R117, R122, R123). -/
def ownPeriod (s : State) : Nat :=
  let x0 := nth s.mod.m 0 {}
  if variesPeriod x0.mode then x0.next else nominalPeriod s.cfg 0

/-- The modulation engine at an M0 Trough: the periods of the frame that begins, the compares that become active, and the period published for the next
frame. m1 says that it is an M1 Trough, nextM1 that the next one is. -/
def modulated (old : Store) (keys : List Nat) (marked : Option Nat) (m1 nextM1 : Bool) (s : State) : ModState :=
  let c := s.cfg
  let x0 := nth s.mod.m 0 {}
  let x1 := nth s.mod.m 1 {}
  let p0 := marked.getD s.ownPeriod
  let off := p0 != s.ownPeriod
  let p1 := ratioK c * p0
  let freq := keys.contains (objKey 0x5000 1)
  let x0 := if freq then rescaled p0 x0 else x0
  let x1 := if m1 && (freq || keys.contains (objKey 0x5010 1)) then rescaled p1 x1 else x1
  let drop (x : ModMachine) : ModMachine := if off then { x with shadow := none } else x
  let y0 := modTrough c 0 (minPulse old 0) p0 (modMode c 0) (doubleUpdate c 0) { drop x0 with zs := x0.zsNext }
  let y1 := if m1 then modTrough c 1 (minPulse old 1) p1 (modMode c 1) (doubleUpdate c 1) { drop x1 with zs := if modMode c 1 = 6 then x0.zsNext else 0 } else x1
  let published := publish old c x0.mode p0 nextM1 s.mod
  let next := published.1
  let zs := published.2.1
  let mod := published.2.2
  let miss := (variesPeriod x0.mode || variesPeriod (modMode c 0))
    && (List.range 4).any (fun k => let w := c.u 0x5440 (k + 1); bit w 31 && decide (p0 ≤ bits w 16 0))
  let y0 := { y0 with next := next, zsNext := zs, ctcMiss := y0.ctcMiss || miss }
  let y1 := { y1 with next := ratioK c * next, zsNext := if modMode c 1 = 6 then zs else 0 }
  let start (k : Nat) (b : SpkBridge) : SpkBridge :=
    let b := if b.started || !s.full || s.stopped then b else { b with started := true, ps := spkPeriod c k }
    { b with enabled := b.enabled && c.b 0x5020 (5 + k) }
  { mod with m := [y0, y1], spk := s.mod.spk.mapIdx start }

/-- R379: a marked period other than the device's own counts a mismatch, and the vote source releases both machines. -/
def periodMismatch (marked : Option Nat) (own : Nat) (s : State) : State :=
  if marked.getD own == own then s else
  let s : State := { s with chain := { s.chain with mismatch := true, mismatches := inc32 s.chain.mismatches } }
  (s.voteSource 0 true).voteSource 1 true

/-- The modulation engine and the vote source at an M0 Trough (R125, R129, R379). -/
def modulate (old : Store) (keys : List Nat) (marked : Option Nat) (m1 nextM1 : Bool) (s : State) : State :=
  let own := s.ownPeriod
  let had (m : Nat) : Bool := !(nth s.mod.m m {}).noDuty
  let s : State := { s with mod := s.modulated old keys marked m1 nextM1 }
  let loaded (m : Nat) : Bool := !(nth s.mod.m m {}).noDuty
  let s := s.voteInstant 0 (loaded 0) (had 0)
  let s := if m1 then s.voteInstant 1 (loaded 1) (had 1) else s.dropHeld (loaded 0)
  s.periodMismatch marked own

/-! ### Settings of the device at an M0 Trough -/

/-- R92, R97: where another recipe applies, or one is unloaded, both full lanes' data memory starts from its image (log 118). -/
def recipeSettings (old : Store) (s : State) : State :=
  let c := s.cfg
  let k := objKey 0xC400 1
  if old.blob k == c.blob k && old.u 0xC400 2 == c.u 0xC400 2 then s else
  let m := if c.u 0xC400 2 = 0 then [] else recipeMem (imageWords (c.blob k))
  { s with lanes := { s.lanes with a := { s.lanes.a with mem := m, nextMem := m }, b := { s.lanes.b with mem := m, nextMem := m } } }

/-- R47, R49: a change of a modulator clock or of the fast-path filter: the new clock has a rising edge at this M0 Trough (log 121), and the samples of its
channels are invalid until each filter has run a full window. -/
def clockSettings (old : Store) (s : State) : State :=
  let c := s.cfg
  let ch (idx sub : Nat) : Bool := old.u idx sub != c.u idx sub
  let x := s.sense
  let x := if ch 0x6400 1 then { x.invalidate (fun sd => decide (sd < 24)) with iChanged := some s.now, iEdge := s.now } else x
  let x := if ch 0x6400 2 then { x.invalidate (fun sd => decide (24 ≤ sd)) with vChanged := some s.now, vEdge := s.now } else x
  { s with sense := if ch 0x6400 0xA || ch 0x6400 0xB then { x with fChanged := some s.now } else x }

/-- The settings of the DEV group that act beyond their values: event sources start anew (R133), filters run in (R49), position sources are selected
again (R72), trip sources are judged anew (R143). -/
def deviceSettings (old : Store) (a : Applied) (s : State) : State :=
  let c := s.cfg
  let s : State := { s with
    mod := { s.mod with events := s.mod.events.mapIdx (fun k (e : EventSource) => if eventCfg old k = eventCfg c k then e else { e with armed := false, count := 0 }) } }
  let s := s.clockSettings old
  let s := if a.keys.contains (objKey 0x6300 1) then s.positionApply 0 else s
  let s := if a.keys.contains (objKey 0x6300 2) then s.positionApply 1 else s
  let s := if a.mask = 0 && a.keys.isEmpty then s else s.fltApply.ridgeApply
  let s := if bit a.mask 11 || a.has 0xD000 then s.chainSettings old else s
  let s := if bit a.mask 12 then s.starterApply old else s
  let s := s.recipeSettings old
  if a.keys.contains (objKey 0x5060 1) then s.discharge (s.cfg.pv 0x5060 1 == 1) s.trip.dis.crust else s

/-! ### Trips, discharge and links at an M0 Trough (R149, R150, R158, R162) -/

/-- A machine's Trough of a winding discharge, and the new period of its peak currents. -/
def windTrough (m : Nat) (s : State) : State :=
  let c := s.cfg
  let t := if s.trip.windDrives (nth s.mod.enabled m false) m then
      s.trip.windStep c m (nth s.mod.m m {}).period (TripState.fastPeakAmps c s.sense m) (f32ToRat (nth s.sense.dc m {}).volts) (s.crustAngle m)
    else s.trip
  let own (sd : Nat) : Bool := sd % 12 / 6 == m
  { s with trip := t, sense := { s.sense with fast := s.sense.fast.mapIdx (fun sd (f : FastPath) => if own sd then { f with peak := 0 } else f) } }

/-- The trip logic at an M0 Trough. -/
def tripTrough (m1 : Bool) (s : State) : State :=
  let t := s.trip.countQuiet.trough s.now (if m1 then [0, 1, 2, 3] else [0, 2, 3])
  let s := windTrough 0 { s with trip := t }
  let s := if m1 then s.windTrough 1 else s
  if s.working then { s with trip := { s.trip with gdl := s.trip.gdl.mapIdx (fun link (x : GdlLink) => gdlFrame s.cfg link x) } } else s

/-! ### Lanes at an update instant (R106, R109 to R116) -/

/-- BEDROCK that the vote named for this update instant: the outputs are released by the vote source first. -/
def voteDue (trough : Bool) (s : State) : State :=
  let due := s.lanes.due
  if due = 0 || (due = 5 && !trough) then s else
  let s : State := { s with lanes := { s.lanes with due := 0 } }
  if due = 5 then s.enterBedrock 5 0 false else ((s.voteSource 0 true).voteSource 1 true).enterBedrock due 0 true

/-- The lanes at an M0 Trough: tests, readmission and a swap. -/
def lanesTrough (s : State) : State :=
  if s.dev.state = 7 then s else
  let c := s.cfg
  { s with lanes := ((((s.lanes.troughLane c s.now 0 s.lanes.b).troughLane c s.now 1 s.lanes.a).chooseActive).troughSwap s.now) }

/-- Whether the update of M0 that begins at an instant is one of M1's (R27, R28): half counts the half periods of M0 since the M1 Trough. -/
def m1Instant (half : Nat) (s : State) : Bool := half == 0 || ((nth s.mod.m 1 {}).double && half == ratioK s.cfg)

/-- A machine's window centre, at its update instant or up to t_mod later (R51): the position is latched (R66, R69 to R71), and M0's centre is the sample
instant. -/
def centre (m : Nat) (s : State) : State :=
  let tc := s.now + centreDelay s.cfg s.sense s.now
  let s := s.latchPos m tc
  if m = 0 then { s with lanes := { s.lanes with sample := tc } } else s

/-! ### Changes of state at an M0 Trough (R41, R412 to R416, R418) -/

/-- RUN entry: the passive monitors start their windows (R229, R230), and twins take their parts (R385). -/
def enterRun (s : State) : State :=
  let s := s.goState 5 6 true
  let fresh (w : PassiveMon) : PassiveMon :=
    { w with ok := true, n := 0, sumV := 0, sumId := 0, speeds := [], imbN := 0, imbSq := [0, 0, 0, 0, 0, 0] }
  twinsRun { s with diag := { s.diag with mon := s.diag.mon.map fresh } }

/-- RUN exit (R83, R414): both modes become 0, and no mode that still waits applies. -/
def leaveRun (s : State) : State :=
  let s := (s.modeOff 0).modeOff 1
  goState 4 6 true { s with commit := { s.commit with writes := s.commit.writes.filter (fun w => w.key != modeKey 0 && w.key != modeKey 1) } }

/-- SERVICE entry: a session that has closed since its request brings READY back (Table 21-5). -/
def enterService (session : Nat) (s : State) : State :=
  let s := goState 6 6 true { s with dev := { s.dev with serviceSession := some session } }
  if (s.session session).isSome then s
  else { s with dev := { s.dev with serviceSession := none, request := some { code := 1, time := s.now, session := 16 } } }

/-- STANDBY (R418): sessions close, audio stops, and PWR_REQ goes low once no flash operation is left. -/
def enterStandby (s : State) : State :=
  let s := s.closeSessions (fun _ => true)
  let s := goState 1 6 true { s with audio := s.audio.halt }
  let idle := s.flash.current.isNone && s.flash.jobs.isEmpty
  { s with dev := { s.dev with timebase := false, pwrReq := !idle, counting := !idle } }

/-- A host's request at an M0 Trough at least 1 µs after it. held says that a CRUST, CHAIN or STARTER commit was pending (R41). -/
def requestTrough (held : Bool) (s : State) : State :=
  if s.dev.state = 3 then (if s.dev.stepDone = 255 then (s.goState 4 5 false).summitAlone else s) else
  match s.dev.request with
  | none => s
  | some r =>
    if s.now < r.time + 200 then s else
    match r.code, s.dev.state with
    | 1, 6 => s.goState 4 6 true
    | 1, 5 =>
      if s.dev.exitFade.isNone then { s with dev := { s.dev with exitFade := some s.now } }
      else if s.dev.fadeOver then s.leaveRun else s
    | 2, 4 => if held then s else s.enterRun
    | 3, 4 => s.enterService r.session
    | 4, 4 => s.enterStandby
    | _, _ => s

/-! ### The commands -/

/-- The frame counters at an M0 Trough (R24, R28, R31); m1 says that it is an M1 Trough. The first one places a rising edge of every SDCLK (R47). -/
def beginFrame (m1 : Bool) (s : State) : State :=
  { s with
    sense := if s.frame.started then s.sense else { s.sense with iEdge := s.now, vEdge := s.now }
    frame := { s.frame with
    fn := if s.frame.started then (s.frame.fn + 1) % 2 ^ 32 else s.frame.fn, started := true, troughTime := s.now
    m1Count := if m1 then 0 else s.frame.m1Count + 1, m1Time := if m1 then s.now else s.frame.m1Time } }

/-- Whether the next M0 Trough is an M1 Trough (R27). -/
def m1Next (s : State) : Bool := decide (ratioK s.cfg ≤ s.frame.m1Count + 1)

/-- What applies at an M0 Trough (R33, R38), and what applied; nothing applies in THERMAL STOP (R317). -/
def troughBoundary (m1 : Bool) (s : State) : State × Applied :=
  if s.stopped then (s, {}) else s.boundary (if m1 then 0x180E else 0x1806) 200

/-- The settings that a Trough brings into force: those of the device, of machine 0, and at an M1 Trough of machine 1. -/
def troughSettings (old : Store) (a : Applied) (m1 : Bool) (s : State) : State :=
  let s := (s.zeroModes.deviceSettings old a).machineSettings 0 old a.keys
  if m1 then s.machineSettings 1 old a.keys else s

/-- R219: a machine's Trough ends the engine's hold on its outputs once the engine has left it. -/
def engineTrough (m : Nat) (s : State) : State :=
  { s with diag := { s.diag with tap := s.diag.tap.trough m (decide (0 < s.canc.ident.level s.now) && s.canc.ident.machine == m) } }

/-- What an M0 Trough does between the modulation and the change of state: the vote's BEDROCK, trips, lanes, the chain, tests, window centres and the
capture. -/
def troughBody (edges : Nat) (m1 : Bool) (s : State) : State :=
  let s := if m1 then (s.engineTrough 0).engineTrough 1 else s.engineTrough 0
  let s := ((s.voteDue true).tripTrough m1).lanesTrough
  let s := if s.full then s.chainTrough edges else s
  let s := s.testTrough.captureTrough
  let s := if s.centred 0 false then s.centre 0 else s
  let s := if m1 && s.centred 1 false then s.centre 1 else s
  let s : State := { s with lanes := { s.lanes with m1Update := s.m1Instant (2 * s.frame.m1Count) } }
  s.captureInstant

/-- M0_TROUGH (R24): a frame begins. -/
def m0Trough (edges : Nat) (s : State) : State :=
  if !s.up || !s.dev.timebase then s else
  let held := s.commit.pendingMask &&& 0x1C00 != 0
  let old := s.cfg
  let marked := s.markedPeriod
  let m1 := !s.frame.started || s.m1Next
  let s := s.beginFrame m1
  let s := if s.full then s.repairStore else s
  let applied := s.troughBoundary m1
  let s := applied.1.troughSettings old applied.2 m1
  let s := (s.modulate old applied.2.keys marked m1 s.m1Next).troughBody edges m1
  let s := s.requestTrough held
  if s.live && s.dev.state != 7 then s.sendImages else s

/-- CREST (R25): in double update the second update instant of a machine's period; otherwise at most its window centre (R51). No setting applies. -/
def crest (m : Nat) (s : State) : State :=
  if !s.up || !s.frame.started then s else
  let double := (nth s.mod.m m {}).double
  let had := !(nth s.mod.m m {}).noDuty
  let s : State := if double then { s with mod := { s.mod with m := upd s.mod.m m (modCrest s.cfg m) } } else s
  let loaded := !(nth s.mod.m m {}).noDuty
  let s := if double then s.voteInstant m loaded had else s
  let s := if double && m == 0 then s.dropHeld loaded else s
  let s := if double then s.setCtl m (fun x => { x with instant := s.now }) else s
  let s := if s.centred m true then s.centre m else s
  if m ≠ 0 || !double then s else
  let s : State := { s with lanes := { s.lanes with m1Update := s.m1Instant (2 * s.frame.m1Count + 1) } }
  (s.voteDue false).captureInstant

/-- MODE_FADE_END (R88): 10 ms after its Trough, mode 0 takes effect. -/
def modeFadeEnd (m : Nat) (s : State) : State :=
  match (nth s.ctl m {}).fadeFrom with
  | some t => if s.dev.state = 5 ∧ t + 2000000 ≤ s.now then (s.testModeChange m).setCtl m MachCtl.off else s
  | none => s

/-- RUN_EXIT_FADE_END (R414). -/
def runFadeEnd (s : State) : State :=
  match s.dev.exitFade with
  | some t => if s.dev.state = 5 ∧ t + 2000000 ≤ s.now then { s with dev := { s.dev with fadeOver := true } } else s
  | none => s

end State

/-- M0_TROUGH. -/
def execM0Trough (edges : Nat) (s : State) : Out := .next (s.m0Trough edges)

/-- CREST. -/
def execCrest (m : Nat) (s : State) : Out := .next (s.crest m)

/-- MODE_FADE_END. -/
def execModeFadeEnd (m : Nat) (s : State) : Out := .next (s.modeFadeEnd m)

/-- RUN_EXIT_FADE_END. -/
def execRunExitFadeEnd (s : State) : Out := .next s.runFadeEnd

end Sys2Proof.Machine
end

