-- ==== Sys2Proof/Machine/HkCmds.lean ====
section
/-! DEFINITION. The commands of housekeeping and of THERMAL STOP (chapter 15). -/

namespace Sys2Proof.Machine

namespace State

/-- Whether a slot is converted in the present state: in BEDROCK only the die sensors, the supply monitors and the DC-link backup slot (Table 14-3). -/
def hkServes (slot : Nat) (s : State) : Bool := s.dev.state != 7 || decide (slot < 8) || s.cfg.u 0x6030 4 == slot + 1

/-- The coil models' step at a round boundary (R202, R205): a configured reference or node 2 slot newly lost is fault 0x18. -/
def loadStep (s : State) : State :=
  let c := s.cfg
  let cfgd (l sub : Nat) : Bool := c.u (0x8010 + l) sub != 0
  let new (l : Nat) : Bool :=
    let x := nth s.loads l {}
    x.running && ((cfgd l 1 && !x.refLost && (loadSlot c s l 1).isNone) || (cfgd l 0x11 && !x.sensorLost && (loadSlot c s l 0x11).isNone))
  let lost := (List.range 4).filter new
  let t : State := { s with loads := s.loads.mapIdx (fun l (x : LoadModel) =>
    x.step c l (loadSlot c s l 1) (loadSlot c s l 0x11) (cfgd l 0x11) s.now) }
  raiseAll (lost.map (fun _ => Signal.fault 0x18 0 0)) t

/-- R293: the DC-link backup slot becomes invalid while a link runs on it (code 0x08). -/
def backupLost (s : State) : State :=
  let w := s.cfg.u 0x6030 4
  if w = 0 || (s.hk.slotValid (w - 1)).isSome || s.dev.state = 7 then s else
  match [0, 1].find? (fun m => (nth s.sense.dc m {}).lost && s.fault.stands (14 + m)) with
  | some m => s.enterBedrock 1 (14 + m) false
  | none => s

/-- The records that a round writes: threshold changes, the warning, the supplies, and in BEDROCK the crossing of the stop threshold (R298). -/
def hkRecords (r : HkState.Report) (s : State) : State :=
  let c := s.cfg
  let h := s.hk
  let s := r.changed.foldl (fun (s : State) n =>
    s.logEvent 5 ([BitVec.ofNat 8 n, BitVec.ofNat 8 (b2n (nth h.thresholds n {}).on)]
      ++ toBytes 4 (f32OfRat (h.slot (bits (c.u 0xA010 (n + 1)) 4 0)).value))) s
  let s := if r.warned then s.logEvent 6 (toBytes 4 (f32OfRat h.tDie) ++ [BitVec.ofNat 8 h.tSensor]) else s
  let s := if r.supply then
      s.logEvent 7 (BitVec.ofNat 8 h.supply :: ((List.range 4).map (fun i => toBytes 4 (f32OfRat (h.slot (4 + i)).value))).flatten)
    else s
  if r.stop && s.dev.state == 7 then
    let b := HkState.record c 7 s.frame.fn s.now 0 0 h
    { s with flash := s.flash.logRecord false (b ++ toBytes 4 (crc32 b)) }
  else s

/-- The hard limit of 175 °C (R298, R319, R420). -/
def hardLimit (s : State) : State :=
  if s.dev.state = 7 then
    if s.fault.hardLimit then s
    else hardStates { s with dev := { s.dev with retained := 2 ^ 60 + HkState.retained s.frame.fn 0 0 s.hk } }
  else if s.dev.state = 8 then (if s.hk.stopAt = 2 then s else s.hardenStop)
  else s.thermalStop true

/-- HK_ROUND_BOUNDARY (R304): the round that ended is published and judged on the settings that it ran with; then the settings of the group apply, the
coil models step, and the active store's scan pass ends (Table 2-9). -/
def hkRound (s : State) : State :=
  let ended := s.hk.round s.cfg s.now
  let h := ended.1
  let r := ended.2
  let s := { s with hk := h }.hkRecords r
  let s := if s.stopped then s else (s.boundary 0x200 200).1
  let s := raiseAll (r.excluded.map (fun i => Signal.fault 0x0F 22 i)) s
  let s := (s.loadStep.backupLost).repairStore
  if r.hard then s.hardLimit else s

/-- THERMAL_STOP_ENTRY (R317): the confirmed stop threshold, outside BEDROCK. -/
def thermalEntry (s : State) : State :=
  if s.hk.hot && decide (3 ≤ s.dev.state) && decide (s.dev.state ≤ 6) then s.thermalStop false else s

/-- THERMAL_STOP_RELEASE (R318): the confirmed release of a stop entered at the threshold. -/
def thermalExit (s : State) : State := if s.stopped && s.hk.stopAt == 1 && !s.hk.hot then s.thermalRelease else s

end State

/-- HK_ROUND_BOUNDARY. -/
def execHkRoundBoundary (s : State) : Out := .next (if s.up && s.hk.running && s.now % 200000 == 0 then s.hkRound else s)

/-- HK_SLOT_CONVERSION. -/
def execHkSlotConversion (slot code : Nat) (s : State) : Out :=
  .next (if s.up && s.hkServes slot then { s with hk := s.hk.convert s.cfg slot code } else s)

/-- EVENT_SLOT_GROUP. -/
def execEventSlotGroup (codes : List Nat) (s : State) : Out :=
  .next (if s.full then { s with hk := s.hk.eventGroup s.cfg s.now codes } else s)

/-- THERMAL_STOP_ENTRY. -/
def execThermalStopEntry (s : State) : Out := .next (if s.up then s.thermalEntry else s)

/-- THERMAL_STOP_RELEASE. -/
def execThermalStopRelease (s : State) : Out := .next (if s.up then s.thermalExit else s)

end Sys2Proof.Machine
end

