-- ==== Sys2Proof/Machine/ProofCmds.lean ====
section
/-! DEFINITION. PROOFING (R416, R417): its steps, in the order of Table 21-6. -/

namespace Sys2Proof.Machine

namespace State

/-- Whether the step in progress has ended, as far as the state shows it: 16 housekeeping rounds (1), the timebase running (2), the readback test over
(5), both link setups over (6), no tap test left (7), no identification left (8). -/
def stepOver (s : State) : Bool :=
  let free := s.diag.tap.queue.isEmpty && !s.diag.tap.running && !s.canc.ident.running && s.canc.ident.queued.isNone
  match s.dev.step with
  | 1 => decide (16 ≤ s.hk.rounds)
  | 2 => s.frame.started
  | 5 => s.crust.soff.test.isNone
  | 6 => s.trip.gdl.all (fun x => x.kind != 1)
  | 7 | 8 => free
  | _ => true

/-- The end of step 3 (R115, Table 21-6): a lane that failed its self-test is FAILED and a single fault; the others start, Lane A active where it
passed. -/
def proofLanes (failed : Nat) (s : State) : State :=
  let c := s.cfg
  let l := s.lanes
  let one (x : Nat) (f : FullLane) : FullLane :=
    if bit failed x then { LaneState.restart c f with st := 5, dropCause := 0x0B } else LaneState.restart c f
  let l : LaneState := { l with a := one 0 l.a, b := one 1 l.b, chk := { l.chk with st := if bit failed 2 then 5 else 1 } }
  let l := if !bit failed 0 then l.makeActive 0 else if !bit failed 1 then l.makeActive 1 else { l with active := 2 }
  let l : LaneState := { l with lastDrop := if bit failed 2 then 0x200B else if bit failed 1 then 0x100B else if bit failed 0 then 0x000B else l.lastDrop }
  raiseAll ((([0, 1, 2] : List Nat).filter (fun x => bit failed x)).map (fun x => Signal.fault (if x = 2 then 2 else 1) 0x20 x)) { s with lanes := l }

/-- The paths of the zero check, in the order of its averages: SD0 to SD23, SD28 and SD30. -/
def zeroPaths : List Nat := List.range 24 ++ [28, 30]

/-- The Starter-set offset of a path (Table 20-2). -/
def offsetKey (sd : Nat) : Nat := if sd < 24 then objKey 0xB411 (sd + 1) else objKey 0xB413 (sd - 23)

/-- R417: whether a machine's paths are skipped: its Crust speed is invalid, or above the crossover speed less the hysteresis. -/
def zeroSkips (m : Nat) (s : State) : Bool :=
  let v := s.crustSpeed m
  !v.2 || decide (s.cfg.pf (0x5050 + m) 2 - s.cfg.pf (0x5050 + m) 3 < absR v.1)

/-- R417: the zero check of one path in use: its average becomes its offset until the next BOOT, or the path is marked failed. -/
def zeroPath (sd : Nat) (avg : Rat) (s : State) : State :=
  let key := offsetKey sd
  if s.dev.state ≠ 3 || !sdEnabled s.cfg sd then s
  else if sd < 24 && s.zeroSkips (machineOfSd sd) then { s with dev := { s.dev with offsetSkipped := true } }
  else if absR (avg - f32ToRat (s.active.raw key / 2 ^ 32)) ≤ 5 / 1000 then
    { s with sense := { s.sense with zeros := s.sense.zeros.filter (fun z => z.1 != key) ++ [(key, pairOf (f32OfRat avg))] } }
  else
    let s : State := { s with dev := { s.dev with stepFailed := setBit s.dev.stepFailed 3 true } }
    if sd < 24 then
      let r := s.sense.markFailed (s.standing 16) false (pairOfSd sd) sd
      raiseAll r.2 { s with sense := r.1 }
    else
      raise (.fault 0x17 0 ((sd - 28) / 2)) { s with
        sense := s.sense.setPath sd (fun x => { x with failed := true })
        loads := upd s.loads ((sd - 28) / 2 + 2) (fun x => { x with senseLost := true }) }

/-- Step 4 (R417). -/
def zeroCheck (avgs : List Rat) (s : State) : State :=
  ((List.zip zeroPaths avgs)).foldl (fun (s : State) e => s.zeroPath e.1 e.2) s

/-- The tap tests that Tap-test depth selects, for M0, M1, SPK0 and SPK1 in order (R217, 0x8040.03). -/
def proofTaps (depth : Nat) : List Nat :=
  let mach := b2n (bit depth 0) * 16 + b2n (bit depth 1) * 32 + b2n (bit depth 2) * 64
  (if mach = 0 then [] else [mach, mach + 1]) ++ (if bit depth 3 then [66, 67] else [])

/-- The identifications of PROOFING: all enabled flux-axis orders of each machine (R197, 0x8040.03). -/
def proofIdents (s : State) : List Nat :=
  if !bit s.dev.tapDepth 4 then [] else
  ([0, 1] : List Nat).filterMap (fun m =>
    let mask := ofBits ((List.range 8).map (fun k => orderOn (orderDef s.cfg m k) && !orderTorque (orderDef s.cfg m k)))
    if mask = 0 then none else some (65536 + 32768 * m + mask))

/-- Requests of PROOFING wait for the block boundaries. -/
def queueTaps (l : List Nat) (s : State) : State :=
  { s with dev := { s.dev with stepBad := false }, diag := { s.diag with tap := { s.diag.tap with queue := l.map (fun w => (w, 0)) } } }

/-- A step's DONE bit, and its FAILED bit. -/
def markStep (n : Nat) (failed : Bool) (s : State) : State :=
  { s with dev := { s.dev with
      stepDone := setBit s.dev.stepDone (n - 1) true, stepFailed := if failed then setBit s.dev.stepFailed (n - 1) true else s.dev.stepFailed } }

/-- What a step of Table 21-6 does at its start. -/
def startStep (n : Nat) (s : State) : State :=
  match n with
  | 2 => s.startTimebase
  | 5 => s.soffTest
  | 6 => (s.linkSetup.gdlSource 0).gdlSource 1
  | 7 => s.queueTaps (proofTaps s.dev.tapDepth)
  | 8 => s.queueTaps s.proofIdents
  | _ => s

/-- The next step starts, unless what the last one found has ended PROOFING (R415). -/
def nextStep (n : Nat) (s : State) : State :=
  if s.dev.state = 3 then startStep n { s with dev := { s.dev with step := n } } else s

/-- The end of step 5: a readback test that failed skips the steps that are left. -/
def readbackDone (s : State) : State :=
  let s := s.markStep 5 s.crust.soff.testFail
  if s.crust.soff.testFail then { s with dev := { s.dev with step := 0, stepDone := 255 } } else s.nextStep 6

/-- PROOFING_STEP_DONE (R416): the step in progress ends and the next one starts. -/
def stepDone (r : ProofResult) (s : State) : State :=
  if s.dev.state ≠ 3 || !s.stepOver then s else
  match s.dev.step with
  | 1 => (s.markStep 1 s.hk.trimLimit).nextStep 2
  | 2 => let s := s.calibrate (hopOf r.trips) r.summitFn r.summitCounter r.devices (r.fail || r.trips.length != 64); (s.markStep 2 s.chain.calFail).nextStep 3
  | 3 => ((s.markStep 3 (r.lanes % 8 != 0)).proofLanes r.lanes).nextStep 4
  | 4 => ((s.markStep 4 false).zeroCheck r.zeros).nextStep 5
  | 5 => s.readbackDone
  | 6 => (s.markStep 6 (s.trip.gdl.any (·.setupFail))).nextStep 7
  | 7 => (s.markStep 7 s.dev.stepBad).nextStep 8
  | 8 => (s.markStep 8 s.dev.stepBad).nextStep 0
  | _ => s

end State

/-- PROOFING_STEP_DONE. -/
def execProofingStepDone (r : ProofResult) (s : State) : Out := .next (if s.up then s.stepDone r else s)

end Sys2Proof.Machine
end

