-- ==== Sys2Proof/Machine/HostGuards.lean ====
section
/-! DEFINITION. Whether a host's item is accepted: the checks of Table 16-5 from Not ready to Group pending, in their order (chapters 16 and 17). -/

namespace Sys2Proof.Machine

/-- The first abort of a list of conditions in the order of Table 16-5. -/
def firstAbort (l : List (Bool × Abort)) : Option Abort := (l.find? (·.1)).map (·.2)

/-- R328: the lowest level of a session that may write an object: 1 basic, 2 expert, 3 service; an expert session may write a service object while
the device is in SERVICE. -/
def writeLevel (idx : Nat) (service : Bool) : Nat :=
  if idx % 0x1000 < 0x400 then 1
  else if idx = 0x1410 then 3
  else if 0xB400 ≤ idx ∧ idx ≤ 0xBFFF then (if service then 2 else 3)
  else 2

/-- The objects that R299 and R363 allow to be read in BEDROCK: those of Tables 0-5 and 14-7. -/
def bedrockReads (key : Nat) : Bool := key / 256 == 0x1000 || key / 256 == 0x2300 || key / 256 == 0x2301

/-- The objects whose write is refused in RUN by a rule of their own (R49, R61, R154, R163 and the object tables of chapters 04 and 07). -/
def runLocked (key : Nat) : Bool :=
  let sub := key % 256
  match key / 256 with
  | 0x6000 => sub == 1 || sub == 2 || sub == 8 || sub == 9
  | 0x6400 => sub == 1 || sub == 2 || sub == 0xA || sub == 0xB
  | 0x6020 => sub == 7
  | 0x3010 | 0x4010 => sub == 1 || sub == 9
  | 0x5050 | 0x5051 => decide (1 ≤ sub) && decide (sub ≤ 5)
  | 0x5060 => sub == 2
  | 0x5070 => sub == 1 || sub == 2 || sub == 5
  | _ => false

/-- The objects accepted in READY and SERVICE alone. -/
def idleOnly (key : Nat) : Bool := key == objKey 0x2000 7 || key == objKey 0x2110 1

/-- The objects accepted in SERVICE alone (R338, R353, R392). -/
def serviceOnly (key : Nat) : Bool := key == objKey 0x2110 3 || key / 256 == 0x1410 || key == objKey 0xB401 1

/-- The configuration objects of the capture, which a running capture locks (R235). -/
def captureObject (key : Nat) : Bool :=
  key / 256 == 0xE001 || (key / 256 == 0xE000 && decide (3 ≤ key % 256) && decide (key % 256 ≤ 0xB))

/-- R353: a key slot's content: 20 bytes, a level of 0 to 3, reserved bytes 0; slot 0 stays a service slot. -/
def keySlotOk (k : Nat) (v : List Byte) : Bool :=
  let level := ofBytes (v.take 1)
  v.length == 20 && decide (level ≤ 3) && ofBytes ((v.drop 1).take 3) == 0 && (k != 0 || level == 3)

/-- R174: a Hearth recipe image's own conditions beside those of R97: its version word and its longest path. -/
def hearthImageOk (v : List Byte) : Bool :=
  let img := imageWords v
  recipeImageOk 4096 [3] 5 (fun p => decide (9 ≤ p)) v && decide (nth img 4 0 ≤ 1) && decide (nth (rWorst (recipeCode img)) (nth img 3 0) 0 ≤ 2048)

namespace State

/-- R333: BOOT and PROOFING. -/
def notReady (s : State) : Bool := decide (s.dev.state < 4)

/-- Checks 6 and 7: the object. -/
def objectAbort (key : Nat) : Option Abort :=
  if maxSub (key / 256) = 0 then some .noObject
  else if (findRow key).isNone && key % 256 != 0 then some .noSubindex
  else none

/-- Check 9 (R328). -/
def levelOk (level key : Nat) (s : State) : Bool := decide (writeLevel (key / 256) (s.dev.state == 6) ≤ level)

/-- The abort of a read of an object, none where it is answered. -/
def readAbort (key : Nat) (s : State) : Option Abort :=
  if s.notReady then some .notReady else
  match objectAbort key with
  | some a => some a
  | none => firstAbort
    [((match findRow key with | some r => r.acc == .wo | none => false), .access), (s.dev.state == 7 && !bedrockReads key, .state)]

/-! ### State requests (R413) -/

/-- Whether work on the flash refuses STANDBY (R418). -/
def flashBusy (s : State) : Bool := s.persist.running.isSome || s.flash.storing || s.flash.update.running.isSome

/-- The reason for which a state request is refused, as Last refusal gives it; 0 where it is accepted. -/
def requestReason (code level : Nat) (s : State) : Nat :=
  let st := s.dev.state
  if (code, st) = (1, 4) ∨ (code, st) = (2, 5) ∨ (code, st) = (3, 6) then 0
  else if code = 3 ∧ level < 2 then 8
  else if code = 4 ∧ st = 4 ∧ s.flashBusy then 7
  else if !((code == 1 && (st == 5 || st == 6)) || (st == 4 && decide (2 ≤ code) && decide (code ≤ 4))) || s.dev.request.isSome then 1
  else if code ≠ 2 then 0
  else if !s.crust.soff.testPass || s.crust.soff.testFail then 2
  else if (if s.cfg.b 0x2300 9 then !s.lanes.avail 0 && !s.lanes.avail 1 else s.fault.standing != 0 || !s.allLanes) then 4
  else if s.flash.entries.any (·.lost) then 5
  else if [0, 1].any (fun m => s.chainUse m != 0 && !(nth s.chain.m m {}).partner) then 6
  else 0

/-- A state request accepted: one for the present state has no effect. -/
def requestState (k code : Nat) (s : State) : State :=
  if (code, s.dev.state) = (1, 4) ∨ (code, s.dev.state) = (2, 5) ∨ (code, s.dev.state) = (3, 6) then s
  else { s with dev := { s.dev with request := some { code := code, time := s.now, session := k } } }

/-! ### Checks of a value -/

/-- The values that the range of an object reads: those last accepted, with the staged copies over them for an object that is staged. -/
def rangeStore (r : ObjRow) (s : State) : Store :=
  if r.acc == .rws then Store.merge (stagedKey 0xFFFF) s.staged s.acceptedStore else s.acceptedStore

/-- Check 10 (R324): the size of a value. -/
def typeBad (r : ObjRow) (data : List Byte) : Bool :=
  match r.ty with
  | .blob n => decide (n < data.length)
  | ty => data.length != ty.size

/-- Check 13 (R43, R325). -/
def complementBad (r : ObjRow) (raw : Nat) : Bool := r.ty.isPair && !pairOk raw

/-- The refusals that a chapter calls a range error for a single object. -/
def ownRange (key raw : Nat) (s : State) : Bool :=
  let c := s.acceptedStore
  let sub := key % 256
  match key / 256 with
  | 0x2100 => sub != 3 || raw != 0
  | 0x3000 => sub != 1 || raw == 0 || c.b 0x5000 7
  | 0x4000 => sub != 1 || raw == 0 || c.b 0x5010 7
  | 0x7020 | 0x7021 => sub != 1 || s.chimeRange raw
  | 0x8000 => sub != 1 || s.adoptOk raw
  | 0x8040 => sub != 1 || s.tapRange raw
  | 0x9030 =>
    if sub = 3 then decide (2 * c.pv 0x9030 4 ≤ raw / 2 ^ 32) else if sub = 4 then decide (2 * (raw / 2 ^ 32) ≤ c.pv 0x9030 3) else true
  | 0xD000 =>
    if sub = 7 ∨ sub = 8 then raw == 0 || s.chain.role != 0
    else if sub = 9 ∨ sub = 0xA then raw + 1 == s.chain.position || raw == s.chain.position + 1
    else true
  | 0xE000 =>
    if sub = 1 then s.captureRange raw
    else if sub = 6 ∨ sub = 0xB then decide (raw ≤ captureCapacity (c.u 0xE000 3))
    else true
  | 0xE010 => sub != 8 || s.testRange raw
  | _ => true

/-- Check 14 for a BLOB at the end of its transfer. -/
def blobEndOk (key : Nat) (r : ObjRow) (v : List Byte) (s : State) : Bool :=
  blobRangeOk r v && (match key / 256 with
    | 0x1410 => keySlotOk (key % 256 - 1) v
    | 0xB401 => (s.importEntries v).isSome
    | 0xC400 => v.isEmpty || recipeImageOk 8192 [3, 4, 5, 6, 7, 8, 9, 10] 11 (fun p => decide (12 ≤ p)) v
    | 0xC500 => v.isEmpty || hearthImageOk v
    | 0xC600 => v.isEmpty || crustImageOk v
    | _ => true)

/-- Check 14 for a value: its encoding, its Range column, the ranges that objects share, and the refusals of R35 and R172 for a basic write. -/
def rangeBad (key : Nat) (r : ObjRow) (data : List Byte) (s : State) : Bool :=
  if r.ty.isBlob then !s.blobEndOk key r data else
  let raw := ofBytes data
  let c := s.rangeStore r
  let stored := storedRaw r.ty raw
  let flags := match r.rng with | .flags _ => true | _ => false
  !encodingOk r.ty raw || !rangeOk c r key stored || !s.ownRange key stored
    || ((r.acc == .rw || r.acc == .rwp) && !flags && r.grp != 0 && (!sharedRangeOk c key stored || s.coefRefused key stored || s.writeFails key stored))

/-- Check 15 by the object's own rule. -/
def ownState (key raw : Nat) (level : Nat) (s : State) : Bool :=
  let st := s.dev.state
  let run := st == 5
  let idle := st == 4 || st == 6
  let sub := key % 256
  let en (n : Nat) : Bool := bit (s.cfg.u 0x5450 (n + 1)) 31
  let locked := (runLocked key && run) || (idleOnly key && !idle) || (serviceOnly key && st != 6) || (captureObject key && s.diag.cap.running)
  !locked && (match key / 256 with
    | 0x2000 => sub != 2 || !([1, 2, 4, 5, 6].contains (s.requestReason raw level))
    | 0x2200 =>
      if sub = 0x13 then s.swapAllowed else if sub = 0x14 then s.laneTestAllowed raw else if sub = 0x16 then s.voteTestAllowed else true
    | 0x3000 | 0x4000 => sub != 1 || raw == 0 || run
    | 0x5040 => sub != 1 || !run || (List.range 12).all (fun n => bit raw n || !en n)
    | 0x5450 => !run || decide (13 ≤ sub) || bit raw 31 || !en (sub - 1)
    | 0x5060 => sub != 1 || !run || s.ctl.all (fun (x : MachCtl) => x.mode == 0)
    | 0x6410 => bit raw 0 || idle
    | 0x7100 => sub != 2 || s.identAllowed raw
    | 0x8040 => sub != 1 || s.tapAllowed raw
    | 0x9030 => sub != 6 || s.soffTestAllowed
    | 0xB500 => sub != 1 || s.updateAllowed raw
    | 0xD000 => sub != 0xC || s.swapTwinsOk raw
    | 0xE010 => sub != 8 || s.testAllowed
    | _ => true)

/-- Check 15: the state condition of the group (Table 2-4), of the object, and of BEDROCK (R333). -/
def stateOk (key : Nat) (r : ObjRow) (raw level : Nat) (s : State) : Bool :=
  if s.dev.state = 7 then key == objKey 0x5060 1
  else (r.grp == 0 || groupState r.grp s.dev.state) && s.ownState key raw level

/-- Check 16 (R39): a staged write, Discard staged, Save or import of a pending group. -/
def pends (key : Nat) (r : ObjRow) (raw : Nat) (s : State) : Bool :=
  let p := s.commit.pendingMask
  if key = objKey 0x2100 3 ∨ key = objKey 0x2110 1 then (p &&& raw % 65536) != 0
  else if key = objKey 0xB401 1 then bit p 12
  else r.acc == .rws && bit p r.grp

/-- Check 12: the object's transfer open in another session (R332), a save that runs (R336), and flash work that refuses STANDBY (R418). -/
def busyFor (k key raw level : Nat) (s : State) : Bool :=
  s.table.transfers.any (fun t => t.key == key && t.session != k)
    || (key == objKey 0x2110 1 && s.persist.running.isSome)
    || (key == objKey 0x2000 2 && s.requestReason raw level == 7)

/-- The abort of a write of a whole value, none where it is accepted (R330). -/
def writeAbort (k level key : Nat) (data : List Byte) (s : State) : Option Abort :=
  if s.notReady then some .notReady else
  match objectAbort key, findRow key with
  | some a, _ => some a
  | none, none => some .access
  | none, some r =>
    let raw := ofBytes data
    firstAbort [
      (r.acc == .ro, .access),
      (!s.levelOk level key || (key == objKey 0x2000 2 && s.requestReason raw level == 8), .level),
      (typeBad r data, .type),
      (s.busyFor k key raw level, .busy),
      (complementBad r raw, .complement),
      (s.rangeBad key r data, .range),
      (!s.stateOk key r (storedRaw r.ty raw) level, .state),
      (s.pends key r raw, .groupPending)]

/-! ### Transfers (R332, R355) -/

/-- A session's open transfer of an object. -/
def transfer (k key : Nat) (s : State) : Option Transfer := s.table.transfers.find? (fun t => t.key == key && t.session == k)

/-- The transfer of an object without the session's own. -/
def dropTransfer (k key : Nat) (s : State) : State :=
  { s with table := { s.table with transfers := s.table.transfers.filter (fun t => !(t.key == key && t.session == k)) } }

/-- The update image is programmed as it arrives; every other BLOB is kept until its transfer ends. -/
def imageKey : Nat := objKey 0xB501 1

/-- The bytes that a session's transfer of an object has brought; none where no transfer is open. -/
def received (k key : Nat) (s : State) : Option Nat :=
  (s.transfer k key).map (fun t => if key = imageKey then s.flash.update.received else t.bytes.length)

/-- The abort of a segment (R355), none where it is accepted. A segment of the update image that reaches beyond its end is a range error, and one that
does not fit the staging buffer is busy (R398). -/
def segAbort (k level key offset : Nat) (last : Bool) (data : List Byte) (s : State) : Option Abort :=
  if s.notReady then some .notReady else
  match objectAbort key, findRow key with
  | some a, _ => some a
  | none, none => some .access
  | none, some r =>
    let image := key == imageKey
    let before := if offset = 0 then [] else match s.transfer k key with | some t => t.bytes | none => []
    let whole := before ++ data
    firstAbort [
      (r.acc == .ro, .access),
      (!s.levelOk level key, .level),
      (!r.ty.isBlob || (!image && typeBad r whole), .type),
      (offset != 0 && s.received k key != some offset, .transfer),
      (s.busyFor k key 0 level || (image && !s.updateRoom data.length), .busy),
      ((image && decide (2093056 < offset + data.length)) || (last && !image && s.rangeBad key r whole), .range),
      (!s.stateOk key r 0 level, .state),
      (s.pends key r 0, .groupPending)]

end State

end Sys2Proof.Machine
end

