-- ==== Sys2Proof/Machine/Host.lean ====
section
/-! DEFINITION. What an accepted item of a host does: the actions of the WO objects, reads, writes and transfers of every object, and the
answers (chapters 16 and 17). -/

namespace Sys2Proof.Machine

namespace State

/-! ### Actions of the WO objects -/

/-- R37: Discard staged; what an import staged is discarded with its group. -/
def discardSets (mask : Nat) (s : State) : State :=
  let s := s.discardStaged mask
  if bit mask 12 then { s with flash := { s.flash with importUser := [] } } else s

/-- R353: a key slot's new key and level; sessions of the slot other than the writing one close at once (R350). -/
def keySlotStore (k slot : Nat) (v : List Byte) (s : State) : State :=
  match s.session k with
  | none => s
  | some x =>
    let new := unwrapKey x.key slot (v.map (·.toNat))
    let s : State := { s with
      net := { s.net with slots := upd s.net.slots slot (fun (y : KeySlot) => { level := ofBytes (v.take 1), writes := satInc 255 y.writes, key := new }) }
      flash := s.flash.push s.stopped (.keySlot slot) }
    (List.range 16).foldl (fun (s : State) j => match s.session j with
      | some y => if j != k && y.slot == slot && y.authenticated then s.closeSession j else s
      | none => s) s

/-- The action of a WO object that carries a value, and whether it is refused while it acts (Trip clear, R149). -/
def act (k key raw : Nat) (s : State) : State × Bool :=
  let sub := key % 256
  match key / 256 with
  | 0x2000 =>
    if sub = 2 then (s.requestState k raw, false)
    else ({ s with dev := { s.dev with retained := 0 } }, false)
  | 0x2100 => (s.discardSets raw, false)
  | 0x2110 =>
    if sub = 1 then ({ s with persist := s.persist.start (raw % 0x4000) s.active }, false)
    else ({ s with persist := s.persist.erase (raw % 0x4000) }, false)
  | 0x2200 => if sub = 0x13 then (s.swapRequest, false) else if sub = 0x14 then (s.laneTest raw, false) else (s.voteTestRequest raw, false)
  | 0x5040 => s.tripClear raw
  | 0x5070 => if bit raw 14 then (s.linkRerun (bits raw 15 15), false) else (s.linkRequest (bits raw 15 15) (bits raw 5 0), false)
  | 0x6020 => (s.acceptAction key raw, false)
  | 0x7020 => (s.chimeWrite 0 raw, false)
  | 0x7021 => (s.chimeWrite 1 raw, false)
  | 0x7100 => (s.identRequest raw, false)
  | 0x8000 => (s.adopt raw, false)
  | 0x8040 => (s.tapRequest raw, false)
  | 0x9030 => (s.soffTest, false)
  | 0xB500 => (s.updateAction raw, false)
  | 0xD000 => (s.swapTwins raw, false)
  | 0xE000 => (s.captureWrite raw, false)
  | 0xE010 => if sub = 8 then (s.testStart raw, false) else (s.testStop, false)
  | _ => (s, false)

/-- A BLOB's content that has passed its checks: the action of a WO BLOB, or a new staged copy. -/
def storeBlob (k key : Nat) (v : List Byte) (s : State) : State :=
  match key / 256 with
  | 0x1410 => s.keySlotStore k (key % 256 - 1) v
  | 0xB401 => (match s.importEntries v with | some l => s.starterImport l | none => s)
  | 0xB501 => s.updateSegment v true
  | _ => s.stageBlob key v

/-! ### Writes (R35, R37, R327, R330) -/

/-- The update image's transfer starts at its byte 0 (R398). -/
def imageOpen (s : State) : State :=
  { s with flash := { s.flash with update := { s.flash.update with staging := [], received := 0, programmed := 0, ended := false } } }

/-- An accepted write of a whole value, and whether its action was refused while it acted. -/
def writeValue (k key : Nat) (data : List Byte) (s : State) : State × Bool :=
  match findRow key with
  | none => (s, false)
  | some r =>
    if r.ty.isBlob then
      let s := s.dropTransfer k key
      ((if key = imageKey then s.imageOpen else s).storeBlob k key data, false)
    else
      let raw := storedRaw r.ty (ofBytes data)
      match r.acc, r.rng with
      | .wo, _ => s.act k key raw
      | _, .flags _ => (s.acceptAction key (raw &&& flagsClear key), false)
      | .rws, _ => ((s.stage key raw).starterStaged key, false)
      | .rwp, _ => ((s.putActive key raw).moveToken, false)
      | _, _ =>
        if key = objKey 0x2100 8 then ({ s with commit := { s.commit with target := raw } }, false)
        else if key = objKey 0x2100 9 then (s.setSession k (fun x => { x with viewActive := raw }), false)
        else (s.acceptWrite key raw, false)

/-- R413: the reason of a refused state request is kept in Last refusal. -/
def noteRefusal (key level : Nat) (data : List Byte) (s : State) : State :=
  let why := s.requestReason (ofBytes data) level
  if key = objKey 0x2000 2 ∧ why ≠ 0 then { s with dev := { s.dev with refusal := why } } else s

/-- The answers and frames of the previous command are gone when a command that answers begins. -/
def fresh (s : State) : State := { s with net := { s.net with answers := [], sent := [] } }

/-- An answer to an item of a session: an abort, or the data. -/
def reply (op key : Nat) (k : Nat) (a : Option Abort) (last : Bool) (data : List Byte) : Answer :=
  match a with
  | some a => { session := k, opcode := op, key := key, abort := a.code }
  | none => { session := k, opcode := op, key := key, abort := 0, last := last, data := data }

/-- Whether the item at the front of a session's queue is one of an opcode on an object with exactly this DATA. -/
def atFront (k op key : Nat) (data : List Byte) (s : State) : Bool :=
  match s.frontItem k with
  | some i => i.opcode == op && i.idx * 256 + i.sub == key && i.data == data
  | none => false

/-- R38: a Commit write starts the checks of its attempt, which its answer awaits (R334); one attempt is checked at a time. -/
def startCommit (k raw : Nat) (s : State) : State :=
  let attempt : Checking := { mask := raw % 0x4000, tokenOk := raw / 65536 == s.commit.token, target := s.commit.target, session := some k }
  if s.commit.checking.isSome then s else { s with commit := { s.commit with checking := some attempt } }

/-- A WRITE item (R330): the first abort that applies, or the write's effect and its answer. -/
def hostWrite (k key : Nat) (data : List Byte) (s : State) : State :=
  match s.session k with
  | none => s
  | some x =>
    if !s.atFront k 2 key data then s else
    let s := s.fresh
    match s.writeAbort k x.level key data with
    | some a => (s.noteRefusal key x.level data).answer k (reply 2 key k (some a) false [])
    | none =>
      if key = objKey 0x2100 1 then s.startCommit k (ofBytes data) else
      let r := s.writeValue k key data
      r.1.answer k (reply 2 key k (if r.2 then some .state else none) false [])

/-- COMMIT_CHECKS_DONE (R38, R334): the running attempt is decided and answered; one from the Bench port leaves its code in CTC_STATUS. -/
def commitDecided (s : State) : State :=
  match s.commit.checking with
  | none => s
  | some c =>
    let r := s.commitEnd c
    match c.session with
    | none => { r.1 with bench := { r.1.bench with ctcCode := r.2 } }
    | some k =>
      match r.1.frontItem k with
      | some i =>
        if i.opcode == 2 && i.idx * 256 + i.sub == objKey 0x2100 1 then
          r.1.fresh.answer k (reply 2 (objKey 0x2100 1) k (if r.2 = 0 then none else some (commitAbort r.2)) false [])
        else r.1
      | none => r.1

/-! ### Segments (R332, R355, R398) -/

/-- An accepted segment: it opens the transfer, continues it, or ends it with the object's new content. -/
def segment (k key offset : Nat) (last : Bool) (data : List Byte) (s : State) : State :=
  let before := if offset = 0 then [] else match s.transfer k key with | some t => t.bytes | none => []
  let s := s.dropTransfer k key
  let keep (bytes : List Byte) (s : State) : State :=
    { s with table := { s.table with transfers := s.table.transfers ++ [{ key := key, session := k, bytes := bytes, time := s.now }] } }
  if key = imageKey then
    let s := (if offset = 0 then s.imageOpen else s).updateSegment data last
    if last then s else keep [] s
  else if last then s.storeBlob k key (before ++ data)
  else keep (before ++ data) s

/-- R355: a segment out of sequence, or one whose end checks fail, drops its transfer; a busy one may be repeated. -/
def segDrops (a : Abort) : Bool := a == .transfer || a == .range

/-- The abort of a WRITE_SEG item. One that carries no whole OFFSET has a size that is not its type's. -/
def segRefusal (k key offset : Nat) (last : Bool) (data : List Byte) (x : Session) (i : YItem) (s : State) : Option Abort :=
  if i.data.length < 4 then some Abort.type else s.segAbort k x.level key offset last data

/-- What a WRITE_SEG item does, and its answer. -/
def segmentWrite (k key offset : Nat) (last : Bool) (data : List Byte) (bad : Option Abort) (s : State) : State :=
  match bad with
  | some a => (if segDrops a then s.dropTransfer k key else s).answer k (reply 4 key k (some a) false [])
  | none => (s.segment k key offset last data).answer k (reply 4 key k none false [])

/-- Whether an item is the WRITE_SEG that a command names. -/
def isWriteSeg (key offset : Nat) (last : Bool) (data : List Byte) (i : YItem) : Bool :=
  i.opcode == 4 && i.idx * 256 + i.sub == key && i.last == last && (i.data == toBytes 4 offset ++ data || decide (i.data.length < 4))

/-- A WRITE_SEG item (R355). -/
def hostWriteSeg (k key offset : Nat) (last : Bool) (data : List Byte) (s : State) : State :=
  match s.session k, s.frontItem k with
  | some x, some i =>
    if !isWriteSeg key offset last data i then s
    else s.fresh.segmentWrite k key offset last data (s.fresh.segRefusal k key offset last data x i)
  | _, _ => s

/-! ### Reads (R329, R355) -/

/-- The DATA bytes that an answer of a session may hold on the interface of its request. -/
def room (k : Nat) (s : State) : Nat :=
  match s.session k with
  | some x => (match x.frontRequest with | some r => frameRoom r.iface x.authenticated - 8 | none => 0)
  | none => 0

/-- The bytes of the capture's oldest whole records within a limit, and their count. -/
def captureBytes (n : Nat) (s : State) : List Byte × Nat :=
  let size := 4 * (match s.diag.cap.records with | r :: _ => r.length | [] => 1)
  let m := min s.diag.cap.records.length (n / max 1 size)
  ((s.diag.cap.records.take m).flatMap (fun r => r.flatMap (toBytes 4)), m)

/-- A READ item: the value; of a BLOB, as many bytes from its first as the response holds. -/
def readData (k key : Nat) (view : Bool) (s : State) : List Byte :=
  match findRow key with
  | none => toBytes 1 (s.value view key)
  | some r => if r.ty.isBlob then (s.blobValue view key).take (s.room k) else itemBytes r.ty (s.value view key)

/-- READ (R329). -/
def hostRead (k key : Nat) (s : State) : State :=
  match s.session k, s.frontItem k with
  | some x, some i =>
    if !(i.opcode == 1 && i.idx * 256 + i.sub == key) then s else
    let s := s.fresh
    let a := s.readAbort key
    s.answer k (reply 1 key k a false (if a.isNone then s.readData k key (x.viewActive == 1) else []))
  | _, _ => s

/-- A BLOB as a segmented read sees it: the event log and the Starter set export are snapshots taken at OFFSET 0; a record of the log that the ring
has erased since reads as zeros (R391, R399). -/
def servedBlob (k key offset : Nat) (view : Bool) (s : State) : List Byte × State :=
  let own := key * 16 + k
  if key = objKey 0xB200 1 ∨ key = objKey 0xB400 1 then
    match (if offset = 0 then none else lookupKey s.table.snaps own) with
    | some v =>
      let live (r : List Byte) : List Byte := if s.flash.ring.contains r then r else r.map (fun _ => 0)
      let parts := (List.range (v.length / 64)).map (fun j => (v.drop (64 * j)).take 64)
      (if key = objKey 0xB200 1 then parts.flatMap live else v, s)
    | none =>
      let v := s.blobValue view key
      (v, { s with table := { s.table with snaps := (own, v) :: s.table.snaps.filter (fun e => e.1 != own) } })
  else (s.blobValue view key, s)

/-- The end of a segmented read: its snapshot is let go. -/
def readEnds (k key : Nat) (s : State) : State :=
  { s with table := { s.table with snaps := s.table.snaps.filter (fun e => e.1 != key * 16 + k) } }

/-- A segment of a readable BLOB: an abort, or LAST, the bytes and what the read leaves. In stream mode the capture's records leave its buffer. -/
def readSegment (k key offset maxLen : Nat) (view : Bool) (s : State) : Option Abort × Bool × List Byte × State :=
  let n := min maxLen (s.room k - 4)
  if key = objKey 0xE002 1 then
    if offset ≠ 0 then (some .range, false, [], s) else
    let r := s.captureBytes n
    let stream := s.cfg.u 0xE000 7 == 1
    let s' : State := if stream then { s with diag := { s.diag with cap := { s.diag.cap with records := s.diag.cap.records.drop r.2 } } } else s
    (none, r.2 == s.diag.cap.records.length, r.1, s')
  else
    let r := s.servedBlob k key offset view
    if r.1.length < offset then (some .range, false, [], s) else
    let d := (r.1.drop offset).take n
    let last := decide (r.1.length ≤ offset + d.length)
    (none, last, d, if last then r.2.readEnds k key else r.2)

/-- The abort of a READ_SEG item. One that carries no whole OFFSET and MAXLEN, or names an object that is no BLOB, is a type error. -/
def readSegRefusal (key : Nat) (i : YItem) (s : State) : Option Abort :=
  match s.readAbort key with
  | some a => some a
  | none =>
    if !(match findRow key with | some r => r.ty.isBlob | none => false) || i.data.length != 6 then some Abort.type else none

/-- What a READ_SEG item answers. -/
def segmentRead (k key offset maxLen : Nat) (view : Bool) (bad : Option Abort) (s : State) : State :=
  match bad with
  | some a => s.answer k (reply 3 key k (some a) false [])
  | none =>
    let r := s.readSegment k key offset maxLen view
    r.2.2.2.answer k (reply 3 key k r.1 r.2.1 (toBytes 4 offset ++ r.2.2.1))

/-- Whether an item is the READ_SEG that a command names. -/
def isReadSeg (key offset maxLen : Nat) (i : YItem) : Bool :=
  i.opcode == 3 && i.idx * 256 + i.sub == key && (i.data == toBytes 4 offset ++ toBytes 2 maxLen || i.data.length != 6)

/-- READ_SEG (R355). -/
def hostReadSeg (k key offset maxLen : Nat) (s : State) : State :=
  match s.session k, s.frontItem k with
  | some x, some i =>
    if !isReadSeg key offset maxLen i then s
    else s.fresh.segmentRead k key offset maxLen (x.viewActive == 1) (s.fresh.readSegRefusal key i)
  | _, _ => s

/-! ### Rows of their own -/

/-- A WRITE of an object that has a row for some of its values: p says whether the row is this value's. -/
def hostAction (k idx sub : Nat) (data : List Byte) (p : Nat → Bool) (s : State) : State :=
  if p (ofBytes data) then s.hostWrite k (objKey idx sub) data else s

end State

end Sys2Proof.Machine
end

