-- ==== Sys2Proof/Machine/HostCmds.lean ====
section
/-! DEFINITION. The commands of a host's items on the object table: each is executed when it stands at the front of its session's queue, checked in the order
of Table 16-5, and answered (R330, R335, R354). -/

namespace Sys2Proof.Machine

namespace State

/-- R353, R355: a key slot is written by one WRITE, or by one segment that is the first and the last. -/
def hostKeySlot (k slot : Nat) (data : List Byte) (s : State) : State :=
  match s.frontItem k with
  | some i => if i.opcode = 4 then s.hostWriteSeg k (objKey 0x1410 (slot + 1)) 0 true data else s.hostWrite k (objKey 0x1410 (slot + 1)) data
  | none => s

end State

/-- RESTORE_PATHS (R61): the host restores failed paths for comparison. -/
def execRestorePaths (sess : Nat) (data : List Byte) (s : State) : Out := .next (s.hostAction sess 0x6020 7 data (fun _ => true))

/-- POSITION_SOURCE_SELECT (R72): the write of a machine's position source; it applies at its Trough. -/
def execPositionSourceSelect (m : Nat) (sess : Nat) (data : List Byte) (s : State) : Out :=
  .next (s.hostAction sess 0x6300 (m + 1) data (fun _ => true))

/-- SWAP_ACTIVE (R114): the lanes' roles are exchanged at a Trough. -/
def execSwapActive (sess : Nat) (data : List Byte) (s : State) : Out := .next (s.hostAction sess 0x2200 0x13 data (fun _ => true))

/-- LANE_TEST_REQUEST (R115): the named lanes' self-test starts. -/
def execLaneTestRequest (sess : Nat) (data : List Byte) (s : State) : Out := .next (s.hostAction sess 0x2200 0x14 data (fun _ => true))

/-- VOTE_TEST (R116): one lane's duty is altered in the next update. -/
def execVoteTest (sess : Nat) (data : List Byte) (s : State) : Out := .next (s.hostAction sess 0x2200 0x16 data (fun _ => true))

/-- CONTROL_MODE (R83): a machine's control mode; it applies at its Trough. -/
def execControlMode (m : Nat) (sess : Nat) (data : List Byte) (s : State) : Out := .next (s.hostAction sess (ctlIdx m 0x3000) 1 data (fun _ => true))

/-- OUTPUT_ENABLE (R131): an output enable: M0, M1, SPK0 and SPK1. -/
def execOutputEnable (out : Nat) (sess : Nat) (data : List Byte) (s : State) : Out :=
  .next (s.hostAction sess (if out = 0 then 0x5000 else if out = 1 then 0x5010 else 0x5020) (if out < 2 then 7 else out + 3) data (fun _ => true))

/-- TRIP_CLEAR (R149): the trips of the named groups are cleared, or their clear is refused. -/
def execTripClear (sess : Nat) (data : List Byte) (s : State) : Out := .next (s.hostAction sess 0x5040 7 data (fun _ => true))

/-- DISCHARGE_DEMAND (R156): the host's demand of a discharge. -/
def execDischargeDemand (sess : Nat) (data : List Byte) (s : State) : Out := .next (s.hostAction sess 0x5060 1 data (fun _ => true))

/-- GDL_REQUEST_ENTRY (R163): one entry is sent over a gate-driver link. -/
def execGdlRequestEntry (sess : Nat) (data : List Byte) (s : State) : Out := .next (s.hostAction sess 0x5070 5 data (fun w => !bit w 14))

/-- GDL_SETUP_RERUN (R163): a link's setup runs again. -/
def execGdlSetupRerun (sess : Nat) (data : List Byte) (s : State) : Out := .next (s.hostAction sess 0x5070 5 data (fun w => bit w 14))

/-- CHIME_PLAY (R170): a clip starts at the next block boundary. -/
def execChimePlay (g : Nat) (sess : Nat) (data : List Byte) (s : State) : Out := .next (s.hostAction sess (0x7020 + g) 1 data (fun w => !bit w 4))

/-- CHIME_STOP (R170): the clip in progress fades out. -/
def execChimeStop (g : Nat) (sess : Nat) (data : List Byte) (s : State) : Out := .next (s.hostAction sess (0x7020 + g) 1 data (fun w => bit w 4))

/-- IDENTIFICATION_REQUEST (R197): the identification of a machine's orders is requested. -/
def execIdentificationRequest (sess : Nat) (data : List Byte) (s : State) : Out := .next (s.hostAction sess 0x7100 2 data (fun _ => true))

/-- ADOPT_IDENTIFICATION (R216): tap-test results become a load's parameters. -/
def execAdoptIdentification (sess : Nat) (data : List Byte) (s : State) : Out := .next (s.hostAction sess 0x8000 1 data (fun _ => true))

/-- TAP_TEST_SWEEP (R218): a request that names the tone-set sweep. -/
def execTapTestSweep (sess : Nat) (data : List Byte) (s : State) : Out := .next (s.hostAction sess 0x8040 1 data (fun w => bit w 6 && !bit w 3))

/-- TAP_TEST_STANDSTILL (R218): a request that names the standstill test. -/
def execTapTestStandstill (sess : Nat) (data : List Byte) (s : State) : Out := .next (s.hostAction sess 0x8040 1 data (fun w => bit w 5 && !bit w 3))

/-- TAP_TEST_PHASE (R218): a request that names the per-phase test. -/
def execTapTestPhase (sess : Nat) (data : List Byte) (s : State) : Out := .next (s.hostAction sess 0x8040 1 data (fun w => bit w 4 && !bit w 3))

/-- TAP_TEST_SPIN (R225): a request that names the spin test. -/
def execTapTestSpin (sess : Nat) (data : List Byte) (s : State) : Out := .next (s.hostAction sess 0x8040 1 data (fun w => bit w 7 && !bit w 3))

/-- TAP_TEST_ABORT (R221): the running test is aborted. -/
def execTapTestAbort (sess : Nat) (data : List Byte) (s : State) : Out := .next (s.hostAction sess 0x8040 1 data (fun w => bit w 3))

/-- TEST_SIGNAL_START (R233): a test signal starts at its Trough. -/
def execTestSignalStart (sess : Nat) (data : List Byte) (s : State) : Out := .next (s.hostAction sess 0xE010 8 data (fun _ => true))

/-- TEST_SIGNAL_STOP (R233): the running test signal stops. -/
def execTestSignalStop (sess : Nat) (data : List Byte) (s : State) : Out := .next (s.hostAction sess 0xE010 9 data (fun _ => true))

/-- CAPTURE_START (R235): a capture starts at the next M0 Trough. -/
def execCaptureStart (sess : Nat) (data : List Byte) (s : State) : Out := .next (s.hostAction sess 0xE000 1 data (fun w => w == 1))

/-- CAPTURE_STOP (R235): the capture stops. -/
def execCaptureStop (sess : Nat) (data : List Byte) (s : State) : Out := .next (s.hostAction sess 0xE000 1 data (fun w => w == 2))

/-- CAPTURE_DISCARD (R235): the capture's contents and counters are cleared. -/
def execCaptureDiscard (sess : Nat) (data : List Byte) (s : State) : Out := .next (s.hostAction sess 0xE000 1 data (fun w => w == 3))

/-- SAFE_OFF_TEST_REQUEST (R286): the safe-off readback test starts. -/
def execSafeOffTestRequest (sess : Nat) (data : List Byte) (s : State) : Out := .next (s.hostAction sess 0x9030 6 data (fun _ => true))

/-- READ (R329): a READ item is answered. -/
def execReadItem (sess idx sub : Nat) (s : State) : Out := .next (s.hostRead sess (objKey idx sub))

/-- WRITE (R330): a WRITE item is executed and answered. -/
def execWriteItem (sess idx sub : Nat) (data : List Byte) (s : State) : Out := .next (s.hostWrite sess (objKey idx sub) data)

/-- READ_SEG (R355): a segment of a BLOB is answered. -/
def execReadSeg (sess idx sub offset maxLen : Nat) (s : State) : Out := .next (s.hostReadSeg sess (objKey idx sub) offset maxLen)

/-- WRITE_SEG (R355): a segment of a BLOB is taken. -/
def execWriteSeg (sess idx sub offset : Nat) (last : Bool) (data : List Byte) (s : State) : Out :=
  .next (s.hostWriteSeg sess (objKey idx sub) offset last data)

/-- COMMIT (R38): the checks of a commit attempt start. -/
def execCommitSets (sess : Nat) (data : List Byte) (s : State) : Out := .next (s.hostAction sess 0x2100 1 data (fun _ => true))

/-- COMMIT_CHECKS_DONE (R38): the checks end; the set becomes pending or is rejected. -/
def execCommitChecksDone (s : State) : Out := .next (s.commitDecided)

/-- DISCARD_STAGED (R37): the staged copies of the named groups become equal to the active ones. -/
def execDiscardStaged (sess : Nat) (data : List Byte) (s : State) : Out := .next (s.hostAction sess 0x2100 3 data (fun _ => true))

/-- SAVE (R336): a save of the named groups starts on the snapshot of their active copies. -/
def execSaveGroups (sess : Nat) (data : List Byte) (s : State) : Out := .next (s.hostAction sess 0x2110 1 data (fun _ => true))

/-- RESTORE_DEFAULTS (R338): the stored copies of the named groups are erased. -/
def execRestoreDefaults (sess : Nat) (data : List Byte) (s : State) : Out := .next (s.hostAction sess 0x2110 3 data (fun _ => true))

/-- KEY_SLOT_WRITE (R353): a key slot's key and level. -/
def execKeySlotWrite (k : Nat) (sess : Nat) (data : List Byte) (s : State) : Out := .next (s.hostKeySlot sess k data)

/-- STATE_REQUEST_READY (R413): READY is requested. -/
def execStateRequestReady (sess : Nat) (data : List Byte) (s : State) : Out := .next (s.hostAction sess 0x2000 2 data (fun w => w == 1))

/-- STATE_REQUEST_RUN (R413): RUN is requested. -/
def execStateRequestRun (sess : Nat) (data : List Byte) (s : State) : Out := .next (s.hostAction sess 0x2000 2 data (fun w => w == 2))

/-- STATE_REQUEST_SERVICE (R413): SERVICE is requested. -/
def execStateRequestService (sess : Nat) (data : List Byte) (s : State) : Out := .next (s.hostAction sess 0x2000 2 data (fun w => w == 3))

/-- STATE_REQUEST_STANDBY (R418): STANDBY is requested. -/
def execStateRequestStandby (sess : Nat) (data : List Byte) (s : State) : Out := .next (s.hostAction sess 0x2000 2 data (fun w => w == 4))

/-- CLEAR_SHUTDOWN_CAUSE (R420): the retained shutdown cause is cleared. -/
def execClearShutdownCause (sess : Nat) (data : List Byte) (s : State) : Out := .next (s.hostAction sess 0x2000 7 data (fun _ => true))

/-- TWIN_SWAP (R386): a hand-off between twins is requested. -/
def execTwinSwap (sess : Nat) (data : List Byte) (s : State) : Out := .next (s.hostAction sess 0xD000 0xC data (fun _ => true))

/-- UPDATE_ERASE (R398): the inactive bank's erase starts. -/
def execUpdateErase (sess : Nat) (data : List Byte) (s : State) : Out := .next (s.hostAction sess 0xB500 1 data (fun w => w == 1))

/-- UPDATE_VERIFY (R398): the inactive bank's verification starts. -/
def execUpdateVerify (sess : Nat) (data : List Byte) (s : State) : Out := .next (s.hostAction sess 0xB500 1 data (fun w => w == 2))

/-- UPDATE_ACTIVATE (R398): the inactive bank's activation starts. -/
def execUpdateActivate (sess : Nat) (data : List Byte) (s : State) : Out := .next (s.hostAction sess 0xB500 1 data (fun w => w == 3))

/-- UPDATE_CONFIRM (R398): the running bank's confirmation starts. -/
def execUpdateConfirm (sess : Nat) (data : List Byte) (s : State) : Out := .next (s.hostAction sess 0xB500 1 data (fun w => w == 4))

/-- UPDATE_ABORT (R398): the running update action is aborted. -/
def execUpdateAbort (sess : Nat) (data : List Byte) (s : State) : Out := .next (s.hostAction sess 0xB500 1 data (fun w => w == 5))

end Sys2Proof.Machine
end

