-- ==== Sys2Proof/Machine/ModCmds.lean ====
section
/-! DEFINITION. The commands of the modulation engine beside the update instants: events, converter triggers, speaker carriers (chapter 06). -/

namespace Sys2Proof.Machine

namespace State

/-- R135: a housekeeping trigger; one on the count of the previous one is the same, while adjacent counts lie two SYS cycles of 2.5 ns apart. -/
def hkTrigger (s : State) : State :=
  if s.mod.lastTrigger == some s.now then s else { s with mod := { s.mod with lastTrigger := some s.now }, hk := s.hk.trigger s.cfg s.now }

/-- An accelerometer read that an event starts (Table 6-2, R191): on a port whose reads are event-paced. -/
def accEvent (n : Nat) (s : State) : State := if s.working && s.cfg.u 0x7180 (n + 1) == 5 then s.accStart n else s

/-- R133: whether a source's counter stands at its position in the running period; sources 0 to 5 are M0's, 6 to 11 M1's. -/
def eventDue (k : Nat) (s : State) : Bool :=
  s.now == (if k < 6 then s.frame.troughTime else s.frame.m1Time) + eventCount s.cfg k (nth s.mod.m (k / 6) {}).period

/-- EVENT_FIRE (R133): one occurrence of a source at its position; where its prescaler lets it fire, its destinations act. -/
def eventFire (k : Nat) (s : State) : State :=
  let c := s.cfg
  if !eventOn c k || !s.eventDue k then s else
  let r := eventTick (eventPresc c k) (nth s.mod.events k {})
  let d := eventDest c k
  let e : EventSource := if r.2 && bit d 3 then { r.1 with last := s.now } else r.1
  let s : State := { s with mod := { s.mod with events := upd s.mod.events k (fun _ => e) } }
  if !r.2 then s else
  let s := if bit d 0 then s.hkTrigger else s
  let s := if bit d 1 then s.captureStrobe else s
  if bit d 2 then (s.accEvent 0).accEvent 1 else s

/-- CTC_FIRE (R134): M0's counter stands at the trigger's count, in a running period that reaches it. -/
def ctcFire (k : Nat) (s : State) : State :=
  let w := s.cfg.u 0x5440 (k + 1)
  if bit w 31 && decide (bits w 16 0 < (nth s.mod.m 0 {}).period) && s.now == s.frame.troughTime + bits w 16 0 then s.hkTrigger else s

/-- The tap test's tone of a speaker at a Hearth sample number, as the engine forms it in PROOFING (R220). -/
def toneSample (k : Nat) (i : Int) (s : State) : Int :=
  let t := s.diag.tap
  let h := s.hearth
  let time := ((h.cairn : Rat) + ((i - 32 * (h.n : Int) : Int) : Rat) * h.delta).floor.toNat
  if t.drives (k + 2) && t.cur.kind == 2 then
    q28 (clampR (-1) 1 (mkRat (s.cfg.u 0x8040 5) 1000 * t.fadeFactor time * cosTurn (t.cur.freq * (time : Rat) / 200000000)))
  else 0

/-- What the noise shaper of a bridge takes in the carrier period that begins: Hearth's stream for its pulse's centre (R139, R183), through Crust's gate;
in PROOFING the tap test's tone through the same interpolator (R220). -/
def shaperInput (k : Nat) (s : State) : Rat :=
  let t := s.now + (nth s.mod.spk k {}).ps / 2
  if s.working then s.crust.gate s.now * s.hearth.speaker k t
  else polyphaseAt (s.hearth.pos t - 96) (fun i => some (s.toneSample k i))

/-- SPEAKER_CARRIER_PERIOD (R136 to R138): a started carrier's next period; the output enable acts with it (R132). -/
def carrierPeriod (k : Nat) (s : State) : State :=
  let b := nth s.mod.spk k {}
  if !b.started || !s.full || s.stopped then s else
  let s := s.completeFor (s.now + b.ps / 2)
  { s with mod := { s.mod with spk := upd s.mod.spk k (fun b => { spkCarrier s.cfg k (s.shaperInput k) b with enabled := s.cfg.b 0x5020 (5 + k) }) } }

end State

/-- EVENT_FIRE. -/
def execEventFire (k : Nat) (s : State) : Out := .next (if s.full && s.frame.started then s.eventFire k else s)

/-- CTC_FIRE. -/
def execCtcFire (k : Nat) (s : State) : Out := .next (if s.full && s.frame.started then s.ctcFire k else s)

/-- SPEAKER_CARRIER_PERIOD. -/
def execSpeakerCarrierPeriod (k : Nat) (s : State) : Out := .next (s.carrierPeriod k)

end Sys2Proof.Machine
end

