-- ==== Sys2Proof/Machine/NetCmds.lean ====
section
/-! DEFINITION. The commands of the networks: YOAP frames and sessions, cyclic images, the switch, ARP and ICMP, gPTP and the CAN controllers
(chapter 17). -/

namespace Sys2Proof.Machine

namespace State

/-! ### Interfaces -/

/-- Whether the service cores serve the networks: supplied and out of reset, from BOOT on. -/
def netServes (s : State) : Bool := s.dev.npor && s.dev.nrst && decide (2 ≤ s.dev.state)

/-- Whether an interface carries traffic: an enabled Ethernet port with its link up, the enabled T1S segment, an enabled controller that is not in
bus-off. In BEDROCK CAN0 alone serves the device (R297, R363). -/
def ifaceOn (iface : Nat) (s : State) : Bool :=
  s.netServes && (s.dev.state != 7 || iface == 3) &&
  (if iface < 3 then bit (s.cfg.u 0x1010 6) iface && (iface == 2 || bit s.net.links iface)
    else bit (s.cfg.u 0x1020 1) (iface - 3) && !nth s.net.canBusOff (iface - 3) false)

/-- Whether an interface takes YOAP frames (R342, R347). -/
def yoapOn (iface : Nat) (s : State) : Bool := s.ifaceOn iface && (decide (iface < 3) || bit (s.cfg.u 0x1020 8) (iface - 3))

/-- The receive queue of a YOAP frame of a priority and its depth (Table 17-2). -/
def rxQueue (p : Packet) (pcp : Nat) (image levelNone : Bool) : Nat × Nat :=
  if p.iface = 2 then (11, 8)
  else if 3 ≤ p.iface then (9 + p.iface, 16)
  else if image then (if 6 ≤ pcp then (0, 8) else (1, 8))
  else if levelNone then (9, 8)
  else (5 + (7 - pcp) / 2, 16)

/-- The MAC address of the device on an interface. -/
def ownMac (iface : Nat) : Nat := (if iface < 2 then Config.macEthernet else Config.macT1s) % 2 ^ 48

/-- Whether an address is a group address: broadcast or multicast. -/
def groupAddress (mac : Nat) : Bool := bit mac 40

/-- The 802.1AS address, which the switch never forwards between its external ports. -/
def gptpAddress : Nat := 0x0180C200000E

/-- Whether the internal port takes a frame by its destination address and its VLAN (R343). -/
def internalTakes (dest : Nat) (vlan : Option Nat) (s : State) : Bool :=
  let multicast := dest == gptpAddress || dest == s.cfg.u 0x7260 3 % 2 ^ 48 || dest == s.cfg.u 0x7261 3 % 2 ^ 48
  (dest == ownMac 0 || dest == 2 ^ 48 - 1 || (groupAddress dest && multicast))
    && (match vlan with | some v => (List.range 8).any (fun k => s.cfg.u 0x1012 (k + 1) == v) | none => true)

/-- What becomes of a frame at an interface before its protocol sees it. -/
inductive Arrival where
  | served | unsupported | ignored
  deriving DecidableEq, Repr

/-- Whether an interface passes a frame to the service cores (R341, R343): the switch's internal port, or T1S, which supports no VLAN tag. -/
def linkLayer (p : Packet) (s : State) : Arrival :=
  if p.iface < 2 then (if s.internalTakes p.dest p.vlan then .served else .ignored)
  else if p.iface = 2 then
    (if p.dest != ownMac 2 && p.dest != 2 ^ 48 - 1 then .ignored else if p.vlan.isSome then .unsupported else .served)
  else .served

/-- Whether the network layer of a frame is one that the device supports (Table 17-1), and addressed to it. -/
def networkLayer (p : Packet) (s : State) : Arrival :=
  if p.ip.version ≠ 4 || (p.ip.protocol ≠ 17 && p.ip.protocol ≠ 1) || p.ip.fragment || p.ip.options then .unsupported
  else if p.ip.dest = s.ownIp p.iface then .served else .ignored

/-- What becomes of a frame that brings a YOAP datagram, or a CAN frame (R341, R342): a datagram for another port, or whose nonzero checksum fails, is
dropped. -/
def datagram (p : Packet) (bytes : List Byte) (s : State) : Arrival :=
  match s.linkLayer p with
  | .served =>
    if 3 ≤ p.iface then .served else
    match s.networkLayer p with
    | .served =>
      let own := udpChecksum (p.source / 2 ^ 16 % 2 ^ 32) p.ip.dest (p.source % 2 ^ 16) p.ip.port bytes
      if p.ip.protocol = 17 && p.ip.port == s.cfg.u 0x1010 5 && (p.ip.checksum == 0 || p.ip.checksum == own) then .served else .ignored
    | a => a
  | a => a

/-- R343: the priority of a frame; an untagged one takes Untagged PCP. -/
def arrivalPcp (vlan : Option Nat) (pcp : Nat) (s : State) : Nat := if vlan.isSome then pcp else s.cfg.u 0x1012 9

/-- A frame of a kind that the device does not serve is dropped and counted (R341). -/
def notSupported (s : State) : State := { s with net := { s.net with unsupported := inc32 s.net.unsupported } }

/-! ### Cyclic images (R357 to R360) -/

/-- The receive images in use. -/
def recvImages (s : State) : List Nat := (List.range 8).filter (fun n => bit (s.imageCfg n) 31 && !bit (s.imageCfg n) 30)

/-- The period of a receive image in ticks: N frames, or one network cycle. -/
def imagePeriod (n : Nat) (s : State) : Nat :=
  let w := s.imageCfg n
  max 1 (if bit w 29 then 200 * s.cfg.u 0x1040 4 else bits w 9 0 * nominalPeriod s.cfg 0)

/-- The ports of an image: 0 ETH0, 1 ETH1, 2 T1S, 3 CAN0. -/
def imagePorts (n : Nat) (s : State) : List Nat := (List.range 4).filter (fun p => bit (s.imageCfg n) (20 + p))

/-- Image timeout in ticks (R359). -/
def imageLimit (n : Nat) (s : State) : Nat := s.cfg.u 0x106A (n + 1) * s.imagePeriod n

/-- R360: NETWORK clears when every port of every receive image has delivered in 1000 consecutive periods and its SGMII links are up. -/
def networkRestored (s : State) : State :=
  let whole := s.recvImages.all (fun n => (s.imagePorts n).all (fun p =>
    decide (1000 ≤ nth (nth s.net.images n {}).good p 0) && (decide (2 ≤ p) || bit s.net.links p)))
  if s.fault.stands 20 && whole then s.raise (.restored 19) else s

/-- R359: a copy of an image, accepted or duplicate, arrives on one of its ports. -/
def deliver (n port : Nat) (s : State) : State :=
  if !bit (s.imageCfg n) (20 + port) || decide (4 ≤ port) then s else
  let t := s.imagePeriod n
  let x := nth s.net.images n {}
  let latest := x.times.foldl max 0
  let own := nth x.times port 0
  let run := if own / t = s.now / t then nth x.good port 0 else if own / t + 1 = s.now / t then nth x.good port 0 + 1 else 1
  let y : ImageState := { x with
    delivered := if latest / t = s.now / t then setBit x.delivered port true else 2 ^ port
    times := x.times.set port s.now, good := x.good.set port run, lost := setBit x.lost port false
    since := if latest + s.imageLimit n ≤ s.now then s.now else x.since }
  networkRestored { s with net := { s.net with images := upd s.net.images n (fun _ => y) } }

/-- An image changed. -/
def setImage (n : Nat) (f : ImageState → ImageState) (s : State) : State := { s with net := { s.net with images := upd s.net.images n f } }

/-- The mapped values that an image carries, each with its object; none where its bytes do not fill the mapping exactly (R356, R357). -/
def imageValues : List Nat → List Byte → Option (List (Nat × List Byte))
  | [], [] => some []
  | [], _ :: _ => none
  | key :: keys, l =>
    let n := imageEntrySize key
    if l.length < n then none else
    match imageValues keys (l.drop n) with
    | some r => some ((key, l.take n) :: r)
    | none => none

/-- Whether a mapped value makes the whole image be discarded (R357): its type, complement or range check, or the level of its object. -/
def imageValueBad (level : Nat) (e : Nat × List Byte) (s : State) : Bool :=
  match findRow e.1 with
  | none => true
  | some r => r.acc != .rw || typeBad r e.2 || complementBad r (ofBytes e.2) || s.rangeBad e.1 r e.2 || !s.levelOk level e.1

/-- Whether the present state takes a mapped value. -/
def imageValueOk (level : Nat) (e : Nat × List Byte) (s : State) : Bool :=
  match findRow e.1 with
  | none => false
  | some r => s.stateOk e.1 r (storedRaw r.ty (ofBytes e.2)) level

/-- R357: an image applied in one step as writes of its values; a value of the NET group applies with them. Refused values are skipped and counted. -/
def applyImage (k n level : Nat) (l : List (Nat × List Byte)) (s : State) : State :=
  let ok := l.filter (fun e => s.imageValueOk level e)
  let s := ok.foldl (fun (s : State) e => (s.writeValue k e.1 e.2).1) s
  let here (w : PendWrite) : Bool := w.groups == 0x2000 && ok.any (fun e => e.1 == w.key)
  let ws := s.commit.writes.filter here
  let s : State := { s with commit := { s.commit with writes := s.commit.writes.filter (fun w => !here w) } }
  let s := (lastWrites ws).foldl (fun (s : State) w => s.applyPart w) s
  s.setImage n (fun x => { x with rejects := add32 x.rejects (l.length - ok.length) })

/-- IMAGE (R357): a received image of a session of its slot. A stale one is dropped and counted; one with a bad value is discarded and counted. -/
def imageCome (k n seq port : Nat) (data : List Byte) (s : State) : State :=
  let w := s.imageCfg n
  match s.session k with
  | none => s
  | some x =>
    if !(bit w 31 && !bit w 30 && x.authenticated && x.slot == bits w 19 17) || s.notReady || s.dev.state == 7 then s else
    let reject (s : State) : State := s.setImage n (fun y => { y with rejects := inc32 y.rejects })
    if seq < x.imgSeq then reject s else
    match imageValues (s.imageMap n) data with
    | none => reject s
    | some l =>
      if l.any (fun e => s.imageValueBad x.level e) then reject s else
      let s := (s.applyImage k n x.level l).setSession k (fun y => { y with imgSeq := seq })
      (s.setImage n (fun y => { y with active := true, timeout := false })).deliver n port

/-- R359: the device's own write when no port has delivered. -/
def timeoutReaction (n : Nat) (s : State) : State :=
  let zero (s : State) (key : Nat) : State := s.acceptWrite key (match findRow key with | some r => if r.ty.isPair then pairOf 0 else 0 | none => 0)
  if !s.working then s else
  match s.cfg.u 0x106B (n + 1) with
  | 1 => ((s.imageMap n).filter (fun key => (key / 256 == 0x3001 || key / 256 == 0x4001) && decide (1 ≤ key % 256) && decide (key % 256 ≤ 7))).foldl zero s
  | 2 => (s.acceptWrite (modeKey 0) 0).acceptWrite (modeKey 1) 0
  | _ => s

/-- IMAGE_TIMEOUT (R359): ports of a receive image that have not delivered within its timeout: all of them, or one while another has. -/
def imageLate (n : Nat) (s : State) : State :=
  if !s.recvImages.contains n || s.dev.state = 7 || s.notReady then s else
  let x := nth s.net.images n {}
  let ports := s.imagePorts n
  let late (p : Nat) : Bool := decide (max (nth x.times p 0) x.since + s.imageLimit n ≤ s.now)
  if ports.all late then
    if x.timeout then s else (s.setImage n (fun y => { y with timeout := true, active := false })).timeoutReaction n
  else
    (ports.filter (fun p => late p && !bit x.lost p)).foldl (fun (s : State) p =>
      (s.setImage n (fun y => { y with lost := setBit y.lost p true, good := y.good.set p 0 })).raise (.fault 0x0D 20 p)) s

/-! ### Frames and sessions (R346 to R354) -/

/-- R352: a copy of an image frame that is a duplicate delivers on its port too (R359). -/
def duplicateFrame (f : RxFrame) (iface : Nat) (s : State) : State :=
  let s : State := { s with net := { s.net with duplicates := inc32 s.net.duplicates } }
  match f.image, f.items with
  | true, [i] => if i.idx < 8 && s.recvImages.contains i.idx then s.deliver i.idx (if iface < 4 then iface else 4) else s
  | _, _ => s

/-- R354: an accepted frame's items join the session's queue; those beyond the 128th in flight are answered with the resources abort. -/
def enqueue (k : Nat) (f : RxFrame) (seq : Nat) (p : Packet) (s : State) : State :=
  let busy := (s.net.sessions.map (fun x => match x with | some x => (x.queue.map (fun r => r.items.length)).foldl (· + ·) 0 | none => 0)).foldl (· + ·) 0
  let excess := f.items.drop (128 - busy)
  let tail := if f.image then [] else excess.map (fun i => reply i.opcode (i.idx * 256 + i.sub) k (some .resources) false [])
  let s := tail.foldl (fun (s : State) a => s.noteAbort k a.abort a.key) s
  let r : Request := { seq := seq, iface := p.iface, source := p.source, image := f.image, items := f.items.take (128 - busy), tail := tail }
  (s.setSession k (fun x => { x.take seq p.iface p.source s.now with queue := x.queue ++ [r] })).settleAll k

/-- R352: the MAC, then the SEQ, of a frame of an open session. -/
def checkFrame (k : Nat) (x : Session) (f : RxFrame) (p : Packet) (s : State) : State :=
  if !x.macOk f then
    frameAbort k f.seq p.iface p.source .authentication { s with net := { s.net with authFails := inc32 s.net.authFails } }
  else
    let seq := if f.can then extendSeq x.h f.seq else f.seq
    if x.duplicate seq p.iface s.now then s.duplicateFrame f p.iface
    else if !x.accepts seq then
      frameAbort k f.seq p.iface p.source .replay { s with net := { s.net with replays := inc32 s.net.replays } }
    else s.enqueue k f seq p

/-- An OPEN item waits for its command (R349). -/
def noteOpening (f : RxFrame) (i : YItem) (p : Packet) (s : State) : State :=
  { s with net := { s.net with
    opening := s.net.opening ++ [{ iface := p.iface, source := p.source, seq := f.seq, slot := i.idx, data := i.data }] } }

/-- A frame of no open session (R349, R352): an unauthenticated one in session 0xFF with one OPEN item waits for its command; any other is refused. -/
def strangeFrame (f : RxFrame) (p : Packet) (s : State) : State :=
  match f.session == 0xFF, f.items, f.mac with
  | true, [i], none =>
    if i.opcode = 0x10 then s.noteOpening f i p else s.frameAbort f.session f.seq p.iface p.source .authentication
  | _, _, _ => s.frameAbort f.session f.seq p.iface p.source .authentication

/-- The open session that a frame names. -/
def frameSession (f : RxFrame) (s : State) : Option Session := if f.session < 16 then s.session f.session else none

/-- A frame that has been taken apart: dropped at a full queue, else checked (R346, R347). -/
def parsedFrame (f : RxFrame) (p : Packet) (s : State) : State :=
  let own := s.frameSession f
  let q := rxQueue p (s.arrivalPcp p.vlan p.pcp) f.image (match own with | some x => !x.authenticated | none => true)
  if q.2 ≤ p.backlog then { s with net := s.net.dropAt q.1 } else
  match own with
  | some x => s.checkFrame f.session x f p
  | none => s.strangeFrame f p

/-- What parses as a YOAP frame on an interface (R346, R347). -/
def parseFrame (iface : Nat) (bytes : List Byte) : Option RxFrame := if iface < 3 then parseUdp bytes else parseCan bytes

/-- A frame is counted as received. -/
def counted (s : State) : State := { s with net := { s.net with received := inc32 s.net.received } }

/-- A YOAP frame of an interface that takes it: taken apart, queued and checked. -/
def takeYoap (p : Packet) (bytes : List Byte) (s : State) : State :=
  if p.iface < 3 && decide (1472 < bytes.length) then { s with net := { s.net with oversize := inc32 s.net.oversize } } else
  match parseFrame p.iface bytes with
  | none => { s with net := { s.net with malformed := inc32 s.net.malformed } }
  | some f => s.parsedFrame f p

/-- YOAP_FRAME (R341, R342, R346, R347): a frame is counted, and taken where its lower layers bring it to YOAP. -/
def yoapFrame (p : Packet) (bytes : List Byte) (s : State) : State :=
  if !s.yoapOn p.iface then s else
  let s := s.fresh
  match s.datagram p bytes with
  | .ignored => s
  | .unsupported => s.counted.notSupported
  | .served => s.counted.takeYoap p bytes

/-- R350: the number of a free session, closing the level-none session that has been idle longest where all are open; none where there is none. -/
def freeSession (s : State) : Option Nat :=
  match s.net.sessions.findIdx? (·.isNone) with
  | some k => some k
  | none =>
    ((s.net.sessions.mapIdx (fun k x => (k, x))).foldl (fun (b : Option (Nat × Nat)) e =>
      match e.2 with
      | some x => if x.authenticated then b else (match b with
        | some (_, t) => if x.last < t then some (e.1, x.last) else b
        | none => some (e.1, x.last))
      | none => b) none).map (·.1)

/-- The abort of an OPEN: a slot that does not exist or is disabled, DATA of another size than its nonce, or no session to be had. -/
def openAbort (o : Opening) (s : State) : Option Abort :=
  let none_ := o.slot == 0xFF
  if !none_ && (decide (8 ≤ o.slot) || (nth s.net.slots o.slot {}).level == 0) then some .authentication
  else if o.data.length ≠ (if none_ then 0 else 8) then some .type
  else if s.freeSession.isNone then some .resources
  else none

/-- OPEN (R349, R350): a session opens, and its response carries the device's nonce. -/
def openDone (o : Opening) (s : State) : State :=
  let s : State := fresh { s with net := { s.net with opening := s.net.opening.erase o } }
  match s.openAbort o, s.freeSession with
  | none, some k =>
    let s := s.closeSession k
    let level := if o.slot = 0xFF then 0 else (nth s.net.slots o.slot {}).level
    let nd := Config.nonce s.net.draws % 2 ^ 64
    let key := if level = 0 then [] else sessionKey (nth s.net.slots o.slot {}).key o.slot k (ofBytes o.data) nd
    let x : Session :=
      { level := level, slot := o.slot, key := key, iface := o.iface, last := s.now, ownSeq := 1, source := (o.iface, o.source), opened := s.net.opens }
    let data := if level = 0 then [] else toBytes 8 nd
    let s : State := { s with net := { s.net with
      sessions := s.net.sessions.set k (some x), opens := s.net.opens + 1, draws := if level = 0 then s.net.draws else s.net.draws + 1
      answers := [reply 0x10 (o.slot * 256) k none false data] } }
    s.send (s.yoapOut o.iface (s.responsePrio o.iface) o.source
      (wireFrame o.iface { session := k, seq := 1, ack := o.seq } 1 (wireItem 0x10 false false o.slot 0 data) x.macKey))
  | some a, _ =>
    let r := reply 0x10 (o.slot * 256) 0xFF (some a) false []
    let s : State := noteAbort 0xFF a.code 0 { s with net := { s.net with answers := [r] } }
    s.send (s.yoapOut o.iface (s.responsePrio o.iface) o.source (wireFrame o.iface { session := 0xFF, seq := 0, ack := o.seq } 1 r.bytes none))
  | none, none => s

/-- A waiting OPEN item of a packet's sender that names a slot and carries a nonce; one whose DATA is no nonce matches by its slot alone. -/
def openMatch (p : Packet) (slot nonce : Nat) (s : State) : Option Opening :=
  s.net.opening.find? (fun o => o.iface == p.iface && o.source == p.source && o.slot == slot
    && (o.data == toBytes 8 nonce || o.data.length != 8))

/-- CLOSE and NOP (Table 17-6): answered with no data; a CLOSE closes its session after its response. -/
def plainItem (op k : Nat) (s : State) : State :=
  match s.frontItem k with
  | some i => if i.opcode = op then s.fresh.answer k (reply op (i.idx * 256 + i.sub) k none false []) else s
  | none => s

/-- IMAGE: the item at the front of its session's queue, with its frame's SEQ and interface. -/
def imageItem (k n seq : Nat) (p : Packet) (data : List Byte) (s : State) : State :=
  match s.session k, s.frontItem k with
  | some x, some i =>
    (match x.frontRequest with
    | some r =>
      if r.image && i.opcode == 0x20 && i.idx == n && r.seq == seq && r.iface == p.iface && i.data == data then
        (s.fresh.imageCome k n seq p.iface data).unanswered k
      else s
    | none => s)
  | _, _ => s

/-- SESSION_IDLE_TIMEOUT (R350). -/
def idleOut (k : Nat) (s : State) : State :=
  match s.session k with
  | some x => if x.last + 200000 * s.cfg.u 0x1050 2 ≤ s.now then s.closeSession k else s
  | none => s

/-- BLOB_TRANSFER_TIMEOUT (R332): a transfer with no segment for 1 s is dropped. -/
def transferOut (key : Nat) (s : State) : State :=
  { s with table := { s.table with transfers := s.table.transfers.filter (fun t => !(t.key == key && decide (t.time + 200000000 ≤ s.now))) } }

/-! ### ARP, ICMP and the switch (R341 to R345) -/

/-- The queue of ARP and ICMP frames of an interface and its depth (Table 17-2). -/
def icmpQueue (iface : Nat) : Nat × Nat := if iface = 2 then (11, 8) else (10, 4)

/-- Whether the internal port takes frames other than YOAP on an interface. -/
def plainOn (iface : Nat) (s : State) : Bool := s.ifaceOn iface && decide (iface < 3)

/-- A frame other than YOAP at the internal port: counted, and dropped at a full queue. -/
def takePlain (p : Packet) (s : State) : State × Bool :=
  let s := s.fresh.counted
  let q := icmpQueue p.iface
  ({ s with net := if q.2 ≤ p.backlog then s.net.dropAt q.1 else s.net }, decide (p.backlog < q.2))

/-- The ARP reply with the device's addresses; sender holds the asker's MAC and IPv4 address. -/
def arpReply (iface : Nat) (sender : List Byte) (s : State) : List Byte :=
  toBytes 8 0x0001080006040002 ++ toBytes 6 (ownMac iface) ++ toBytes 4 (s.ownIp iface) ++ sender

/-- ARP_REQUEST: a request for the device's address is answered (Table 17-1). -/
def arp (p : Packet) (ip : Nat) (sender : List Byte) (s : State) : State :=
  if !s.plainOn p.iface then s else
  match s.linkLayer p with
  | .ignored => s
  | .unsupported => s.fresh.counted.notSupported
  | .served =>
    let r := s.takePlain p
    if r.2 && ip == s.ownIp p.iface then r.1.send (s.ownFrame p.iface (s.responsePrio p.iface) p.source (s.arpReply p.iface sender)) else r.1

/-- ICMP_ECHO: an echo to the device's address of at most 1472 bytes of payload is answered with its payload; a longer one is not supported. -/
def echo (p : Packet) (payload : List Byte) (s : State) : State :=
  if !s.plainOn p.iface then s else
  match s.linkLayer p, s.networkLayer p with
  | .served, .served =>
    let r := s.takePlain p
    if !r.2 then r.1
    else if 1472 < payload.length then r.1.notSupported
    else r.1.send (s.ownFrame p.iface (s.responsePrio p.iface) p.source payload)
  | .unsupported, _ => s.fresh.counted.notSupported
  | .served, .unsupported => s.fresh.counted.notSupported
  | _, _ => s

/-- R343: the address of a frame learned on its port. A full table gives up its oldest entry. -/
def learn (mac port : Nat) (s : State) : State :=
  if groupAddress mac then s else
  let rest := s.net.learned.filter (fun e => e.mac != mac)
  let rest := if 256 ≤ rest.length then rest.drop 1 else rest
  { s with net := { s.net with learned := rest ++ [{ mac := mac, port := port, time := s.now }] } }

/-- The external ports that a frame leaves by (R343): the port on which its address was learned, or every other one. -/
def egressPorts (f : EthFrame) (s : State) : List Nat :=
  let others := [0, 1].filter (fun p => p != f.port && bit (s.cfg.u 0x1010 6) p && bit s.net.links p)
  if f.dest = ownMac 0 ∨ (f.dest = gptpAddress ∧ f.port < 2) then []
  else if groupAddress f.dest then others
  else match s.net.learned.find? (fun e => e.mac == f.dest) with
    | some e => others.filter (· == e.port)
    | none => others

/-- FRAME_FORWARD (R343 to R345): a frame at a port of the switch leaves by its egress ports, at its PCP; a full egress queue drops it. One that the
internal port takes is handed over there, to the command of its protocol. The frame is told by its addresses. -/
def forward (f : EthFrame) (s : State) : State :=
  if !s.netServes || (decide (f.port < 2) && !(bit (s.cfg.u 0x1010 6) f.port && bit s.net.links f.port)) || (f.port == 2 && s.dev.state == 7) then s else
  let s := s.fresh
  if 1522 < f.length then { s with net := { s.net with oversize := inc32 s.net.oversize } }
  else if f.length < 64 || f.twoTags then { s with net := { s.net with unsupported := inc32 s.net.unsupported } }
  else
    let s := if f.port < 2 then s.learn f.source f.port else s
    let pcp := s.arrivalPcp f.vlan f.pcp
    let told := toBytes 6 f.dest ++ toBytes 6 f.source
    let s := (s.egressPorts f).foldl (fun (s : State) p =>
      if 8 ≤ f.backlog then { s with net := s.net.dropAt (16 + 8 * p + pcp) }
      else s.send { iface := p, prio := pcp, bytes := told, vlan := f.vlan }) s
    if f.port < 2 && s.dev.state != 7 && s.internalTakes f.dest f.vlan then s.send { iface := 7, prio := pcp, bytes := told, vlan := f.vlan } else s

/-- LEARNING_TABLE_AGEING (R343): an entry of 300 s is removed. -/
def forget (mac : Nat) (s : State) : State :=
  { s with net := { s.net with learned := s.net.learned.filter (fun e => !(e.mac == mac && decide (e.time + 60000000000 ≤ s.now))) } }

/-- SGMII_LINK_DOWN (R359): the Link status bit clears, and a link that a receive image names is a port loss. -/
def linkDown (port : Nat) (s : State) : State :=
  if !bit s.net.links port then s else
  let named := s.recvImages.any (fun n => (s.imagePorts n).contains port)
  let s : State := { s with net := { s.net with
    links := setBit s.net.links port false
    images := s.net.images.map (fun (x : ImageState) => { x with lost := setBit x.lost port true, good := x.good.set port 0 }) } }
  if s.full && !s.notReady && named then s.raise (.fault 0x0D 20 port) else s

/-- SGMII_LINK_UP (R360): the Link status bit is set. -/
def linkUpSgmii (port : Nat) (s : State) : State :=
  if !s.netServes then s else networkRestored { s with net := { s.net with links := setBit s.net.links port true } }

/-! ### gPTP (R30, R361, R378) -/

/-- Whether the device takes gPTP messages on a port: the gPTP port, with its link up; a Shoulder follows its Summit instead. -/
def gptpOn (port : Nat) (s : State) : Bool :=
  s.full && !s.shoulder && decide (port < 2) && s.cfg.u 0x1040 1 == port && s.ifaceOn port

/-- A difference of two gPTP offsets modulo 2^64, in ns. -/
def offsetError (a b : Nat) : Int := sext 64 ((a + 2 ^ 64 - b % 2 ^ 64) % 2 ^ 64)

/-- R345, Table 17-2: a gPTP frame that comes on an Ethernet port, with backlog frames in Q2's eight places: dropped and counted where they are full, else
taken; none on a port that carries nothing. T1S does not support gPTP (Table 17-1). -/
def gptpFrame (port backlog : Nat) (take : State → State) (s : State) : State :=
  if !s.full || decide (3 ≤ port) || !s.ifaceOn port then s
  else if port = 2 then s.counted.notSupported
  else if 8 ≤ backlog then { s.counted with net := s.counted.net.dropAt 2 } else take s.counted

/-- GPTP_SYNC (R30, R361): a Sync with its Follow_Up. The offset of gPTP time against the counter is measured; eight in a row that stay within 1 µs of the
offset held make gPTP present, and a present gPTP disciplines the counter's rate. -/
def sync (port domain origin correction interval : Nat) (rate : Int) (s : State) : State :=
  if !s.gptpOn port || domain != s.cfg.u 0x1040 2 then s else
  let g := s.net.gptp
  let offset := ((origin + correction + g.linkDelay) % 2 ^ 64 + 2 ^ 64 - 5 * s.now % 2 ^ 64) % 2 ^ 64
  let near := decide ((offsetError offset s.frame.gptpOffset).natAbs ≤ 1000)
  let good := if g.lastSync.isNone then 0 else if near then min 8 (g.good + 1) else 0
  let present := good == 8
  { s with
    frame := { s.frame with
      gptpOffset := offset, rateTrim := if present && !s.dev.refLost then clampI (-250000) 250000 rate else s.frame.rateTrim }
    net := { s.net with gptp := { g with
      present := present, good := good, lastSync := some s.now, interval := interval
      losses := if g.present && !present then inc32 g.losses else g.losses } } }

/-- GPTP_LOSS (R361): three sync intervals without a Sync. -/
def syncLost (s : State) : State :=
  let g := s.net.gptp
  match g.lastSync with
  | some t =>
    if t + 3 * g.interval ≤ s.now && !s.shoulder then
      { s with net := { s.net with gptp := { g with
          present := false, good := 0, lastSync := none, losses := if g.present then inc32 g.losses else g.losses } } }
    else s
  | none => s

/-- PDELAY_REQUEST (R361): answered on both Ethernet ports, with the time of its receipt in ns of the counter and the request's identity. -/
def pdelayAsked (port : Nat) (body : List Byte) (s : State) : State :=
  s.fresh.send (s.ownFrame port 0 0 (toBytes 8 (5 * s.now) ++ body))

/-- PDELAY_RESPONSE (R361): the device's own link delay from the four times of its request, in ns. -/
def pdelayCome (port t1 t2 t3 t4 : Nat) (s : State) : State :=
  if !s.gptpOn port then s else { s with net := { s.net with gptp := { s.net.gptp with linkDelay := ((t4 - t1) - (t3 - t2)) / 2 } } }

/-! ### CAN (Table 17-1) -/

/-- CAN_BUS_OFF: an enabled controller enters bus-off, which is counted. -/
def busOff (n : Nat) (s : State) : State :=
  if s.ifaceOn (3 + n) then
    { s with net := { s.net with canBusOff := s.net.canBusOff.set n true, busOffs := upd s.net.busOffs n inc32 } }
  else s

/-- CAN_BUS_OFF_RECOVERY: 128 times 11 recessive bits. -/
def busOn (n : Nat) (s : State) : State := { s with net := { s.net with canBusOff := s.net.canBusOff.set n false } }

end State

/-- YOAP_FRAME. -/
def execYoapFrame (p : Packet) (bytes : List Byte) (s : State) : Out := .next (s.yoapFrame p bytes)

/-- OPEN. -/
def execOpenSession (p : Packet) (slot nonce : Nat) (s : State) : Out :=
  .next (match s.openMatch p slot nonce with | some o => s.openDone o | none => s)

/-- CLOSE. -/
def execCloseSession (sess : Nat) (s : State) : Out := .next (s.plainItem 0x11 sess)

/-- NOP. -/
def execNopItem (sess : Nat) (s : State) : Out := .next (s.plainItem 0x12 sess)

/-- IMAGE. -/
def execImageItem (sess n : Nat) (p : Packet) (seq : Nat) (data : List Byte) (s : State) : Out := .next (s.imageItem sess n seq p data)

/-- BLOB_TRANSFER_TIMEOUT. -/
def execBlobTransferTimeout (idx sub : Nat) (s : State) : Out := .next (s.transferOut (objKey idx sub))

/-- SESSION_IDLE_TIMEOUT. -/
def execSessionIdleTimeout (sess : Nat) (s : State) : Out := .next (s.idleOut sess)

/-- IMAGE_TIMEOUT. -/
def execImageTimeout (n : Nat) (s : State) : Out := .next (s.imageLate n)

/-- ARP_REQUEST. -/
def execArpRequest (p : Packet) (ip : Nat) (sender : List Byte) (s : State) : Out := .next (s.arp p ip sender)

/-- ICMP_ECHO. -/
def execIcmpEcho (p : Packet) (payload : List Byte) (s : State) : Out := .next (s.echo p payload)

/-- FRAME_FORWARD. -/
def execFrameForward (f : EthFrame) (s : State) : Out := .next (s.forward f)

/-- SGMII_LINK_DOWN. -/
def execSgmiiLinkDown (port : Nat) (s : State) : Out := .next (s.linkDown port)

/-- SGMII_LINK_UP. -/
def execSgmiiLinkUp (port : Nat) (s : State) : Out := .next (s.linkUpSgmii port)

/-- GPTP_SYNC. -/
def execGptpSync (port backlog domain origin correction interval : Nat) (rate : Int) (s : State) : Out :=
  .next (s.gptpFrame port backlog (State.sync port domain origin correction interval rate))

/-- PDELAY_REQUEST. -/
def execPdelayRequest (port backlog : Nat) (body : List Byte) (s : State) : Out := .next (s.gptpFrame port backlog (State.pdelayAsked port body))

/-- PDELAY_RESPONSE. -/
def execPdelayResponse (port backlog t1 t2 t3 t4 : Nat) (s : State) : Out := .next (s.gptpFrame port backlog (State.pdelayCome port t1 t2 t3 t4))

/-- GPTP_LOSS. -/
def execGptpLoss (s : State) : Out := .next s.syncLost

/-- CAN_BUS_OFF. -/
def execCanBusOff (n : Nat) (s : State) : Out := .next (s.busOff n)

/-- CAN_BUS_OFF_RECOVERY. -/
def execCanBusOffRecovery (n : Nat) (s : State) : Out := .next (s.busOn n)

/-- LEARNING_TABLE_AGEING. -/
def execLearningTableAgeing (mac : Nat) (s : State) : Out := .next (s.forget mac)

end Sys2Proof.Machine
end

