-- ==== Sys2Proof/Machine/Dispatch.lean ====
section
/-! DEFINITION. The dispatch: one arm per command, each one call of its meaning. -/

namespace Sys2Proof.Machine

open Sys2Proof

def exec (i : Instr) (s : State) : Host.Outcome State Fault Refusal :=
  match i with
  | .m0Trough edges => Sys2Proof.Machine.execM0Trough edges s
  | .crest m => Sys2Proof.Machine.execCrest m s
  | .windowResult ws mismatch => Sys2Proof.Machine.execWindowResult ws mismatch s
  | .currentPairAmbiguous hb => Sys2Proof.Machine.execCurrentPairAmbiguous hb s
  | .restoredPathEligible sd => Sys2Proof.Machine.execRestoredPathEligible sd s
  | .speakerSenseResult w => Sys2Proof.Machine.execSpeakerSenseResult w s
  | .fastPathOutput sd sum => Sys2Proof.Machine.execFastPathOutput sd sum s
  | .restorePaths sess data => Sys2Proof.Machine.execRestorePaths sess data s
  | .resolverLoopStep n o => Sys2Proof.Machine.execResolverLoopStep n o s
  | .encoderEdge n a b z => Sys2Proof.Machine.execEncoderEdge n a b z s
  | .ssiReadDone n o => Sys2Proof.Machine.execSsiReadDone n o s
  | .positionSourceSelect m sess data => Sys2Proof.Machine.execPositionSourceSelect m sess data s
  | .injectionConverged m => Sys2Proof.Machine.execInjectionConverged m s
  | .laneStart => Sys2Proof.Machine.execLaneStart s
  | .laneReport x upset => Sys2Proof.Machine.execLaneReport x upset s
  | .laneDeadline => Sys2Proof.Machine.execLaneDeadline s
  | .vote outvoted => Sys2Proof.Machine.execVote outvoted s
  | .laneSelftestDone x pass => Sys2Proof.Machine.execLaneSelftestDone x pass s
  | .laneSyncDone x => Sys2Proof.Machine.execLaneSyncDone x s
  | .probationDone x => Sys2Proof.Machine.execProbationDone x s
  | .recipeImageCheck okA okB => Sys2Proof.Machine.execRecipeImageCheck okA okB s
  | .swapActive sess data => Sys2Proof.Machine.execSwapActive sess data s
  | .laneTestRequest sess data => Sys2Proof.Machine.execLaneTestRequest sess data s
  | .voteTest sess data => Sys2Proof.Machine.execVoteTest sess data s
  | .controlMode m sess data => Sys2Proof.Machine.execControlMode m sess data s
  | .modeFadeEnd m => Sys2Proof.Machine.execModeFadeEnd m s
  | .outputEnable out sess data => Sys2Proof.Machine.execOutputEnable out sess data s
  | .eventFire k => Sys2Proof.Machine.execEventFire k s
  | .ctcFire k => Sys2Proof.Machine.execCtcFire k s
  | .speakerCarrierPeriod k => Sys2Proof.Machine.execSpeakerCarrierPeriod k s
  | .fltInput n level => Sys2Proof.Machine.execFltInput n level s
  | .safePatternDelayEnd m => Sys2Proof.Machine.execSafePatternDelayEnd m s
  | .tripClear sess data => Sys2Proof.Machine.execTripClear sess data s
  | .dischargeDemand sess data => Sys2Proof.Machine.execDischargeDemand sess data s
  | .dischargeDone => Sys2Proof.Machine.execDischargeDone s
  | .dischargeTimeLimit => Sys2Proof.Machine.execDischargeTimeLimit s
  | .dchgTimeout => Sys2Proof.Machine.execDchgTimeout s
  | .dchgLockEnd => Sys2Proof.Machine.execDchgLockEnd s
  | .gdlTransferDone link rx => Sys2Proof.Machine.execGdlTransferDone link rx s
  | .gdlRequestEntry sess data => Sys2Proof.Machine.execGdlRequestEntry sess data s
  | .gdlSetupRerun sess data => Sys2Proof.Machine.execGdlSetupRerun sess data s
  | .hearthBlockBoundary pdm => Sys2Proof.Machine.execHearthBlockBoundary pdm s
  | .blockOverrun => Sys2Proof.Machine.execBlockOverrun s
  | .alignmentShift k => Sys2Proof.Machine.execAlignmentShift k s
  | .chimePlay g sess data => Sys2Proof.Machine.execChimePlay g sess data s
  | .chimeStop g sess data => Sys2Proof.Machine.execChimeStop g sess data s
  | .accReadDone n bytes => Sys2Proof.Machine.execAccReadDone n bytes s
  | .identificationRequest sess data => Sys2Proof.Machine.execIdentificationRequest sess data s
  | .identPointDone => Sys2Proof.Machine.execIdentPointDone s
  | .divergedHoldEnd m k => Sys2Proof.Machine.execDivergedHoldEnd m k s
  | .speakerResistanceEstimate k => Sys2Proof.Machine.execSpeakerResistanceEstimate k s
  | .adoptIdentification sess data => Sys2Proof.Machine.execAdoptIdentification sess data s
  | .tapTestSweep sess data => Sys2Proof.Machine.execTapTestSweep sess data s
  | .tapTestStandstill sess data => Sys2Proof.Machine.execTapTestStandstill sess data s
  | .tapTestPhase sess data => Sys2Proof.Machine.execTapTestPhase sess data s
  | .tapTestSpin sess data => Sys2Proof.Machine.execTapTestSpin sess data s
  | .tapTestAbort sess data => Sys2Proof.Machine.execTapTestAbort sess data s
  | .tapStepDone => Sys2Proof.Machine.execTapStepDone s
  | .driftWindowEnd m => Sys2Proof.Machine.execDriftWindowEnd m s
  | .imbalanceWindowEnd m => Sys2Proof.Machine.execImbalanceWindowEnd m s
  | .testSignalStart sess data => Sys2Proof.Machine.execTestSignalStart sess data s
  | .testSignalStop sess data => Sys2Proof.Machine.execTestSignalStop sess data s
  | .testSignalDurationEnd => Sys2Proof.Machine.execTestSignalDurationEnd s
  | .captureStart sess data => Sys2Proof.Machine.execCaptureStart sess data s
  | .captureStop sess data => Sys2Proof.Machine.execCaptureStop sess data s
  | .captureDiscard sess data => Sys2Proof.Machine.execCaptureDiscard sess data s
  | .aspFrame n cycles => Sys2Proof.Machine.execAspFrame n cycles s
  | .leadInEnd n => Sys2Proof.Machine.execLeadInEnd n s
  | .leadOutEnd n => Sys2Proof.Machine.execLeadOutEnd n s
  | .aspClockLoss n => Sys2Proof.Machine.execAspClockLoss n s
  | .pdmWakeEnd k => Sys2Proof.Machine.execPdmWakeEnd k s
  | .listenerPdu n backlog pdu => Sys2Proof.Machine.execListenerPdu n backlog pdu s
  | .listenerTimeout n => Sys2Proof.Machine.execListenerTimeout n s
  | .crustInputSample sin srst rbh rbl => Sys2Proof.Machine.execCrustInputSample sin srst rbh rbl s
  | .crustCycle => Sys2Proof.Machine.execCrustCycle s
  | .testPulse n => Sys2Proof.Machine.execTestPulse n s
  | .srstStuck => Sys2Proof.Machine.execSrstStuck s
  | .laneWatchdogExpiry => Sys2Proof.Machine.execLaneWatchdogExpiry s
  | .hearthWatchdogExpiry => Sys2Proof.Machine.execHearthWatchdogExpiry s
  | .hearthGateReopen => Sys2Proof.Machine.execHearthGateReopen s
  | .safeOffMaxWait => Sys2Proof.Machine.execSafeOffMaxWait s
  | .safeOffTestRequest sess data => Sys2Proof.Machine.execSafeOffTestRequest sess data s
  | .safeOffTestStepEnd => Sys2Proof.Machine.execSafeOffTestStepEnd s
  | .offPulseStart => Sys2Proof.Machine.execOffPulseStart s
  | .offPulseEnd => Sys2Proof.Machine.execOffPulseEnd s
  | .crustFault kind => Sys2Proof.Machine.execCrustFault kind s
  | .bedrockToneAlternation => Sys2Proof.Machine.execBedrockToneAlternation s
  | .bedrockStatusFrame => Sys2Proof.Machine.execBedrockStatusFrame s
  | .lockstepMismatch => Sys2Proof.Machine.execLockstepMismatch s
  | .hkRoundBoundary => Sys2Proof.Machine.execHkRoundBoundary s
  | .hkSlotConversion slot code => Sys2Proof.Machine.execHkSlotConversion slot code s
  | .eventSlotGroup codes => Sys2Proof.Machine.execEventSlotGroup codes s
  | .thermalStopEntry => Sys2Proof.Machine.execThermalStopEntry s
  | .thermalStopRelease => Sys2Proof.Machine.execThermalStopRelease s
  | .yoapFrame p bytes => Sys2Proof.Machine.execYoapFrame p bytes s
  | .readItem sess idx sub => Sys2Proof.Machine.execReadItem sess idx sub s
  | .writeItem sess idx sub data => Sys2Proof.Machine.execWriteItem sess idx sub data s
  | .readSeg sess idx sub offset maxLen => Sys2Proof.Machine.execReadSeg sess idx sub offset maxLen s
  | .writeSeg sess idx sub offset last data => Sys2Proof.Machine.execWriteSeg sess idx sub offset last data s
  | .openSession p slot nonce => Sys2Proof.Machine.execOpenSession p slot nonce s
  | .closeSession sess => Sys2Proof.Machine.execCloseSession sess s
  | .nopItem sess => Sys2Proof.Machine.execNopItem sess s
  | .imageItem sess n p seq data => Sys2Proof.Machine.execImageItem sess n p seq data s
  | .commitSets sess data => Sys2Proof.Machine.execCommitSets sess data s
  | .commitChecksDone => Sys2Proof.Machine.execCommitChecksDone s
  | .discardStaged sess data => Sys2Proof.Machine.execDiscardStaged sess data s
  | .saveGroups sess data => Sys2Proof.Machine.execSaveGroups sess data s
  | .saveDone groups ok => Sys2Proof.Machine.execSaveDone groups ok s
  | .restoreDefaults sess data => Sys2Proof.Machine.execRestoreDefaults sess data s
  | .blobTransferTimeout idx sub => Sys2Proof.Machine.execBlobTransferTimeout idx sub s
  | .sessionIdleTimeout sess => Sys2Proof.Machine.execSessionIdleTimeout sess s
  | .imageTimeout n => Sys2Proof.Machine.execImageTimeout n s
  | .keySlotWrite k sess data => Sys2Proof.Machine.execKeySlotWrite k sess data s
  | .stateRequestReady sess data => Sys2Proof.Machine.execStateRequestReady sess data s
  | .stateRequestRun sess data => Sys2Proof.Machine.execStateRequestRun sess data s
  | .stateRequestService sess data => Sys2Proof.Machine.execStateRequestService sess data s
  | .stateRequestStandby sess data => Sys2Proof.Machine.execStateRequestStandby sess data s
  | .runExitFadeEnd => Sys2Proof.Machine.execRunExitFadeEnd s
  | .clearShutdownCause sess data => Sys2Proof.Machine.execClearShutdownCause sess data s
  | .arpRequest p ip sender => Sys2Proof.Machine.execArpRequest p ip sender s
  | .icmpEcho p payload => Sys2Proof.Machine.execIcmpEcho p payload s
  | .frameForward f => Sys2Proof.Machine.execFrameForward f s
  | .sgmiiLinkDown port => Sys2Proof.Machine.execSgmiiLinkDown port s
  | .gptpSync port backlog domain origin correction interval rate => Sys2Proof.Machine.execGptpSync port backlog domain origin correction interval rate s
  | .pdelayRequest port backlog body => Sys2Proof.Machine.execPdelayRequest port backlog body s
  | .gptpLoss => Sys2Proof.Machine.execGptpLoss s
  | .benchTransaction clocks word => Sys2Proof.Machine.execBenchTransaction clocks word s
  | .benchRead addr => Sys2Proof.Machine.execBenchRead addr s
  | .benchWrite addr data => Sys2Proof.Machine.execBenchWrite addr data s
  | .bootHold => Sys2Proof.Machine.execBootHold s
  | .bootGo => Sys2Proof.Machine.execBootGo s
  | .bankVerificationDone eccA eccB => Sys2Proof.Machine.execBankVerificationDone eccA eccB s
  | .eraseBank bank => Sys2Proof.Machine.execEraseBank bank s
  | .programChunk bank chunk => Sys2Proof.Machine.execProgramChunk bank chunk s
  | .verifyBank bank => Sys2Proof.Machine.execVerifyBank bank s
  | .starterImportChunk chunk => Sys2Proof.Machine.execStarterImportChunk chunk s
  | .starterImportCommit => Sys2Proof.Machine.execStarterImportCommit s
  | .keySlotReset => Sys2Proof.Machine.execKeySlotReset s
  | .persistedSetErase => Sys2Proof.Machine.execPersistedSetErase s
  | .recoveryActionDone ok => Sys2Proof.Machine.execRecoveryActionDone ok s
  | .unlockHi data => Sys2Proof.Machine.execUnlockHi data s
  | .unlockLo data => Sys2Proof.Machine.execUnlockLo data s
  | .unlockLockoutEnd => Sys2Proof.Machine.execUnlockLockoutEnd s
  | .ctcCommit data => Sys2Proof.Machine.execCtcCommit data s
  | .benchStart data => Sys2Proof.Machine.execBenchStart data s
  | .troughMark fn period gptp summit => Sys2Proof.Machine.execTroughMark fn period gptp summit s
  | .timebaseLoss => Sys2Proof.Machine.execTimebaseLoss s
  | .ridgeLinkLoss upper => Sys2Proof.Machine.execRidgeLinkLoss upper s
  | .ridgeLinkUp upper => Sys2Proof.Machine.execRidgeLinkUp upper s
  | .ridgeHopRemeasure trips => Sys2Proof.Machine.execRidgeHopRemeasure trips s
  | .ridgeTrip upper on => Sys2Proof.Machine.execRidgeTrip upper on s
  | .splitMachineRecord m r => Sys2Proof.Machine.execSplitMachineRecord m r s
  | .handOff m => Sys2Proof.Machine.execHandOff m s
  | .twinSwap sess data => Sys2Proof.Machine.execTwinSwap sess data s
  | .flashOperationDone ok => Sys2Proof.Machine.execFlashOperationDone ok s
  | .updateErase sess data => Sys2Proof.Machine.execUpdateErase sess data s
  | .updateVerify sess data => Sys2Proof.Machine.execUpdateVerify sess data s
  | .updateActivate sess data => Sys2Proof.Machine.execUpdateActivate sess data s
  | .updateConfirm sess data => Sys2Proof.Machine.execUpdateConfirm sess data s
  | .updateAbort sess data => Sys2Proof.Machine.execUpdateAbort sess data s
  | .updateActionDone ok => Sys2Proof.Machine.execUpdateActionDone ok s
  | .refLost deviation => Sys2Proof.Machine.execRefLost deviation s
  | .refReturn => Sys2Proof.Machine.execRefReturn s
  | .nporRise straps ref => Sys2Proof.Machine.execNporRise straps ref s
  | .nporFall => Sys2Proof.Machine.execNporFall s
  | .nrstLow => Sys2Proof.Machine.execNrstLow s
  | .nrstRise aon => Sys2Proof.Machine.execNrstRise aon s
  | .vaonLost => Sys2Proof.Machine.execVaonLost s
  | .wakeUp pin t1s => Sys2Proof.Machine.execWakeUp pin t1s s
  | .failedWake => Sys2Proof.Machine.execFailedWake s
  | .proofingStepDone r => Sys2Proof.Machine.execProofingStepDone r s
  | .accReadStart n => Sys2Proof.Machine.execAccReadStart n s
  | .sgmiiLinkUp port => Sys2Proof.Machine.execSgmiiLinkUp port s
  | .pdelayResponse port backlog t1 t2 t3 t4 => Sys2Proof.Machine.execPdelayResponse port backlog t1 t2 t3 t4 s
  | .pllSlewComplete => Sys2Proof.Machine.execPllSlewComplete s
  | .bankStarted => Sys2Proof.Machine.execBankStarted s
  | .vaonApplied => Sys2Proof.Machine.execVaonApplied s
  | .canBusOff n => Sys2Proof.Machine.execCanBusOff n s
  | .canBusOffRecovery n => Sys2Proof.Machine.execCanBusOffRecovery n s
  | .learningTableAgeing mac => Sys2Proof.Machine.execLearningTableAgeing mac s
  | .serviceCoresResume => Sys2Proof.Machine.execServiceCoresResume s

end Sys2Proof.Machine
end

