-- ==== Sys2Proof/Machine/Step.lean ====
section
/-! DEFINITION. One step of the device: the command at the front of the queue, or, on an empty queue, one tick of the system counter. -/

namespace Sys2Proof.Machine

/-- An idle step (log 1): with no command waiting, the system counter advances by one tick of 5 ns while it counts (R30); nothing else changes. -/
def idle (s : State) : State := if s.dev.counting then { s with dev := { s.dev with counter := (s.dev.counter + 1) % 2 ^ 64 } } else s

/-- One step. -/
def step (s : State) : Out :=
  match s.pending with
  | [] => .next (idle s)
  | c :: rest => exec c { s with pending := rest }

/-- The state with the command that a table word spells at the front of its queue; unchanged where the word spells none. -/
def State.withFetchWord (s : State) (nbits w : Nat) : State :=
  match Sys2Proof.decodeTableWord nbits w with
  | none => s
  | some c => { s with pending := c :: s.pending }

end Sys2Proof.Machine
end

