-- ==== Sys2Proof/Safety.lean ====
section
/-! DEFINITION. The words in which claims about the device are made: the parts of the state, what a step may change, and the soundness of a state. -/

namespace Sys2Proof.Machine

/-- The parts into which claims divide the state: one for each field of State, with the device state and the system counter apart from the rest of
dev, the commit token (0x2100.02) apart from the rest of commit, and the firmware banks apart from the rest of flash. -/
inductive Part where
  | pending | mode | clock | dev | frame | active | staged | token | commit | persist | table | sense | ctl | lanes | mod | trip | hearth | canc
  | loads | diag | audio | crust | fault | hk | net | bench | chain | banks | flash
  deriving DecidableEq, Repr

/-- Two states agree on a part. -/
def Part.same : Part → State → State → Prop
  | .pending, s, t => t.pending = s.pending
  | .mode, s, t => t.dev.state = s.dev.state
  | .clock, s, t => t.dev.counter = s.dev.counter
  | .dev, s, t => t.dev = { s.dev with state := t.dev.state, counter := t.dev.counter }
  | .frame, s, t => t.frame = s.frame
  | .active, s, t => t.active = s.active ∧ t.active2 = s.active2 ∧ t.passed = s.passed
  | .staged, s, t => t.staged = s.staged
  | .token, s, t => t.commit.token = s.commit.token
  | .commit, s, t => t.commit = { s.commit with token := t.commit.token }
  | .persist, s, t => t.persist = s.persist
  | .table, s, t => t.table = s.table
  | .sense, s, t => t.sense = s.sense
  | .ctl, s, t => t.ctl = s.ctl
  | .lanes, s, t => t.lanes = s.lanes
  | .mod, s, t => t.mod = s.mod
  | .trip, s, t => t.trip = s.trip
  | .hearth, s, t => t.hearth = s.hearth
  | .canc, s, t => t.canc = s.canc
  | .loads, s, t => t.loads = s.loads
  | .diag, s, t => t.diag = s.diag
  | .audio, s, t => t.audio = s.audio
  | .crust, s, t => t.crust = s.crust
  | .fault, s, t => t.fault = s.fault
  | .hk, s, t => t.hk = s.hk
  | .net, s, t => t.net = s.net
  | .bench, s, t => t.bench = s.bench
  | .chain, s, t => t.chain = s.chain
  | .banks, s, t => t.flash.bankA = s.flash.bankA ∧ t.flash.bankB = s.flash.bankB
  | .flash, s, t => t.flash = { s.flash with bankA := t.flash.bankA, bankB := t.flash.bankB }

/-- The state t differs from s in no part outside ps. -/
structure Changes (ps : List Part) (s t : State) : Prop where
  same : ∀ p, p ∉ ps → p.same s t

/-- The parts that a fault report may change (R290 to R301): the fault records and the event log, and, where BEDROCK is entered, what R296 stops. -/
abbrev faultParts : List Part :=
  [.mode, .dev, .staged, .commit, .persist, .table, .ctl, .lanes, .trip, .hearth, .canc, .loads, .diag, .audio, .crust, .fault, .net, .chain, .flash]

/-- The state t differs from s in the parts ps and by the faults that it reports: beside ps only the fault records and the flash differ, unless the
device has entered BEDROCK, which it can only from PROOFING or a later state. -/
structure Reports (ps : List Part) (s t : State) : Prop where
  parts : Changes (faultParts ++ ps) s t
  mode : t.dev.state = s.dev.state ∨ (t.dev.state = 7 ∧ 3 ≤ s.dev.state)
  calm : t.dev.state = s.dev.state → Changes (.fault :: .flash :: ps) s t

/-- The parts that the answer to a host's item may change (R346, R354): the response goes out at the end of its request, what it answered for the NET
group applies, and a session that closes asks for READY. -/
abbrev answerParts : List Part := [.dev, .active, .staged, .commit, .table, .sense, .net]

/-- The WRITE item at the front of a session's queue, on an object and with its DATA, meets none of the conditions of Table 16-5. -/
structure Accepted (k key : Nat) (data : List Byte) (s : State) : Prop where
  front : s.atFront k 2 key data = true
  checks : ∀ x, s.session k = some x → s.fresh.writeAbort k x.level key data = none

/-- A session's WRITE item answered without an abort. -/
abbrev State.acked (k key : Nat) (s : State) : State := s.answer k (State.reply 2 key k none false [])

/-- The oldest Bench request without a result is a write of a register with its data (R364 to R366). -/
structure BenchWrites (a data : Nat) (s : State) : Prop where
  on : s.benchOn = true
  front : ∃ r, s.bench.front = some r ∧ bit r.cmd 15 = true ∧ bits r.cmd 11 0 = a ∧ r.data = data

/-- A Bench write executed: it ends a pair of unlock writes (R372), and its result has a code and data. -/
abbrev State.benchDone (code data : Nat) (s : State) : State :=
  State.benchAnswer code data { s with bench := { s.bench with unlockHi := none } }

/-- Whether a command is an item of a host's frame. -/
def hostItem : Instr → Bool
  | .restorePaths .. | .positionSourceSelect .. | .swapActive .. | .laneTestRequest .. | .voteTest .. | .controlMode .. | .outputEnable .. | .tripClear ..
  | .dischargeDemand .. | .gdlRequestEntry .. | .gdlSetupRerun .. | .chimePlay .. | .chimeStop .. | .identificationRequest .. | .adoptIdentification ..
  | .tapTestSweep .. | .tapTestStandstill .. | .tapTestPhase .. | .tapTestSpin .. | .tapTestAbort .. | .testSignalStart .. | .testSignalStop ..
  | .captureStart .. | .captureStop .. | .captureDiscard .. | .safeOffTestRequest .. | .readItem .. | .writeItem .. | .readSeg .. | .writeSeg ..
  | .closeSession .. | .nopItem .. | .imageItem .. | .commitSets .. | .commitChecksDone | .discardStaged .. | .saveGroups .. | .restoreDefaults ..
  | .keySlotWrite .. | .stateRequestReady .. | .stateRequestRun .. | .stateRequestService .. | .stateRequestStandby .. | .clearShutdownCause ..
  | .twinSwap .. | .updateErase .. | .updateVerify .. | .updateActivate .. | .updateConfirm .. | .updateAbort .. => true
  | _ => false

/-- Whether a command executes a write of the Bench port. -/
def benchItem : Instr → Bool
  | .benchWrite .. | .bootHold | .bootGo | .eraseBank .. | .programChunk .. | .verifyBank .. | .starterImportChunk .. | .starterImportCommit
  | .keySlotReset | .persistedSetErase | .unlockHi .. | .unlockLo .. | .ctcCommit .. | .benchStart .. => true
  | _ => false

/-- Whether a command is a write of a WO object that moves no token (R326). -/
def actionItem : Instr → Bool
  | .restorePaths .. | .swapActive .. | .laneTestRequest .. | .voteTest .. | .tripClear .. | .gdlRequestEntry .. | .gdlSetupRerun .. | .chimePlay ..
  | .chimeStop .. | .identificationRequest .. | .tapTestSweep .. | .tapTestStandstill .. | .tapTestPhase .. | .tapTestSpin .. | .tapTestAbort ..
  | .testSignalStart .. | .testSignalStop .. | .captureStart .. | .captureStop .. | .captureDiscard .. | .safeOffTestRequest .. | .saveGroups ..
  | .restoreDefaults .. | .keySlotWrite .. | .stateRequestReady .. | .stateRequestRun .. | .stateRequestService .. | .stateRequestStandby ..
  | .clearShutdownCause .. | .twinSwap .. | .updateErase .. | .updateVerify .. | .updateActivate .. | .updateConfirm .. | .updateAbort .. => true
  | _ => false

/-- Whether a command resets the device: an edge of nPOR, nRST low, or the loss of VAON. -/
def resetItem : Instr → Bool
  | .nporRise .. | .nporFall | .nrstLow | .vaonLost => true
  | _ => false

/-- A sound state: the three copies of the settings and the images of the firmware banks have their canonical forms, the commit token is one that
R326 gives, and the device state is one of Table 21-4. -/
structure Sound (s : State) : Prop where
  active : s.active.wf = true
  active2 : s.active2.wf = true
  passed : s.passed.wf = true
  staged : s.staged.wf = true
  bankA : flashWf s.flash.bankA.image = true
  bankB : flashWf s.flash.bankB.image = true
  token : 1 ≤ s.commit.token ∧ s.commit.token ≤ 65535
  mode : s.dev.state ≤ 8

end Sys2Proof.Machine
end

