-- ==== Sys2Proof/WellFormed.lean ====
section
/-! DEFINITION. Well-formed commands: which operands a command can carry. A command outside these bounds names a port, channel, machine or item that
the device does not have, or a value wider than its field. -/

namespace Sys2Proof

open Sys2Proof.Machine

/-- A host item: one of 16 sessions (R350), and at most 1472 DATA bytes (R346). -/
def hostOk (sess : Nat) (data : List Byte) : Bool := decide (sess < 16) && decide (data.length ≤ 1472)

/-- A VLAN identifier of twelve bits. -/
def vlanOk (v : Option Nat) : Bool := match v with | some v => decide (v < 4096) | none => true

/-- A packet: one of the interfaces ETH0, ETH1, T1S and CAN0 to CAN3, a PCP of three bits, and addresses and header fields of their widths. -/
def packetOk (p : Packet) : Bool :=
  decide (p.iface < 7) && decide (p.pcp < 8) && decide (p.source < 2 ^ 96) && decide (p.dest < 2 ^ 48) && vlanOk p.vlan
    && decide (p.ip.version < 16) && decide (p.ip.protocol < 256) && decide (p.ip.dest < 2 ^ 32) && decide (p.ip.port < 65536)
    && decide (p.ip.checksum < 65536)

/-- A main-path window of a channel SD0 to SD31. -/
def windowOk (w : PathWindow) : Bool := decide (w.sd < 32)

/-- Whether a command is well-formed. -/
def Instr.wellFormed : Instr → Bool
  | .m0Trough e => decide (e < 4)
  | .crest m => decide (m < 2)
  | .windowResult ws _ => ws.all windowOk
  | .currentPairAmbiguous hb => decide (hb < 12)
  | .restoredPathEligible sd => decide (sd < 28)
  | .speakerSenseResult w => decide (28 ≤ w.sd) && windowOk w
  | .fastPathOutput sd _ => decide (sd < 24)
  | .restorePaths s d => hostOk s d
  | .resolverLoopStep n _ => decide (n < 2)
  | .encoderEdge n _ _ _ => decide (n < 2)
  | .ssiReadDone n _ => decide (n < 2)
  | .positionSourceSelect m s d => decide (m < 2) && hostOk s d
  | .injectionConverged m => decide (m < 2)
  | .laneStart => true
  | .laneReport x u => decide (x < 3) && decide (u.cause < 256)
  | .laneDeadline => true
  | .vote _ => true
  | .laneSelftestDone x _ => decide (x < 3)
  | .laneSyncDone x => decide (x < 2)
  | .probationDone x => decide (x < 2)
  | .recipeImageCheck _ _ => true
  | .swapActive s d => hostOk s d
  | .laneTestRequest s d => hostOk s d
  | .voteTest s d => hostOk s d
  | .controlMode m s d => decide (m < 2) && hostOk s d
  | .modeFadeEnd m => decide (m < 2)
  | .outputEnable o s d => decide (o < 4) && hostOk s d
  | .eventFire k => decide (k < 12)
  | .ctcFire k => decide (k < 4)
  | .speakerCarrierPeriod k => decide (k < 2)
  | .fltInput n _ => decide (n < 12)
  | .safePatternDelayEnd m => decide (m < 2)
  | .tripClear s d => hostOk s d
  | .dischargeDemand s d => hostOk s d
  | .dischargeDone => true
  | .dischargeTimeLimit => true
  | .dchgTimeout => true
  | .dchgLockEnd => true
  | .gdlTransferDone l _ => decide (l < 2)
  | .gdlRequestEntry s d => hostOk s d
  | .gdlSetupRerun s d => hostOk s d
  | .hearthBlockBoundary ms => decide (ms.length ≤ 8)
  | .blockOverrun => true
  | .alignmentShift k => decide (k < 12)
  | .chimePlay g s d => decide (g < 2) && hostOk s d
  | .chimeStop g s d => decide (g < 2) && hostOk s d
  | .accReadDone n b => decide (n < 2) && decide (b.length = 6)
  | .identificationRequest s d => hostOk s d
  | .identPointDone => true
  | .divergedHoldEnd m k => decide (m < 2) && decide (k < 8)
  | .speakerResistanceEstimate k => decide (k < 2)
  | .adoptIdentification s d => hostOk s d
  | .tapTestSweep s d => hostOk s d
  | .tapTestStandstill s d => hostOk s d
  | .tapTestPhase s d => hostOk s d
  | .tapTestSpin s d => hostOk s d
  | .tapTestAbort s d => hostOk s d
  | .tapStepDone => true
  | .driftWindowEnd m => decide (m < 2)
  | .imbalanceWindowEnd m => decide (m < 2)
  | .testSignalStart s d => hostOk s d
  | .testSignalStop s d => hostOk s d
  | .testSignalDurationEnd => true
  | .captureStart s d => hostOk s d
  | .captureStop s d => hostOk s d
  | .captureDiscard s d => hostOk s d
  | .aspFrame n _ => decide (n < 4)
  | .leadInEnd n => decide (n < 4)
  | .leadOutEnd n => decide (n < 4)
  | .aspClockLoss n => decide (n < 4)
  | .pdmWakeEnd k => decide (k < 8)
  | .listenerPdu n _ _ => decide (n < 2)
  | .listenerTimeout n => decide (n < 2)
  | .crustInputSample sin _ _ _ => decide (sin < 65536)
  | .crustCycle => true
  | .testPulse n => decide (n < 4)
  | .srstStuck => true
  | .laneWatchdogExpiry => true
  | .hearthWatchdogExpiry => true
  | .hearthGateReopen => true
  | .safeOffMaxWait => true
  | .safeOffTestRequest s d => hostOk s d
  | .safeOffTestStepEnd => true
  | .offPulseStart => true
  | .offPulseEnd => true
  | .crustFault _ => true
  | .bedrockToneAlternation => true
  | .bedrockStatusFrame => true
  | .lockstepMismatch => true
  | .hkRoundBoundary => true
  | .hkSlotConversion k c => decide (k < 32) && decide (c < 65536)
  | .eventSlotGroup l => decide (l.length ≤ 3)
  | .thermalStopEntry => true
  | .thermalStopRelease => true
  | .yoapFrame p _ => packetOk p
  | .readItem s i u => decide (s < 16) && decide (i < 65536) && decide (u < 256)
  | .writeItem s i u d => hostOk s d && decide (i < 65536) && decide (u < 256)
  | .readSeg s i u _ _ => decide (s < 16) && decide (i < 65536) && decide (u < 256)
  | .writeSeg s i u _ _ d => hostOk s d && decide (i < 65536) && decide (u < 256)
  | .openSession p k n => packetOk p && decide (k < 65536) && decide (n < 2 ^ 64)
  | .closeSession s => decide (s < 16)
  | .nopItem s => decide (s < 16)
  | .imageItem s n p _ _ => decide (s < 16) && decide (n < 8) && packetOk p
  | .commitSets s d => hostOk s d
  | .commitChecksDone => true
  | .discardStaged s d => hostOk s d
  | .saveGroups s d => hostOk s d
  | .saveDone g _ => decide (g < 16384)
  | .restoreDefaults s d => hostOk s d
  | .blobTransferTimeout i u => decide (i < 65536) && decide (u < 256)
  | .sessionIdleTimeout s => decide (s < 16)
  | .imageTimeout n => decide (n < 8)
  | .keySlotWrite k s d => decide (k < 8) && hostOk s d
  | .stateRequestReady s d => hostOk s d
  | .stateRequestRun s d => hostOk s d
  | .stateRequestService s d => hostOk s d
  | .stateRequestStandby s d => hostOk s d
  | .runExitFadeEnd => true
  | .clearShutdownCause s d => hostOk s d
  | .arpRequest p _ l => packetOk p && decide (l.length ≤ 10)
  | .icmpEcho p _ => packetOk p
  | .frameForward f => decide (f.port < 3) && decide (f.pcp < 8)
  | .sgmiiLinkDown p => decide (p < 2)
  | .gptpSync p _ _ _ _ _ _ => decide (p < 3)
  | .pdelayRequest p _ _ => decide (p < 3)
  | .gptpLoss => true
  | .benchTransaction _ w => decide (w < 2 ^ 64)
  | .benchRead a => decide (a < 4096)
  | .benchWrite a d => decide (a < 4096) && decide (d < 2 ^ 32)
  | .bootHold => true
  | .bootGo => true
  | .bankVerificationDone _ _ => true
  | .eraseBank b => decide (b < 2)
  | .programChunk b _ => decide (b < 2)
  | .verifyBank b => decide (b < 2)
  | .starterImportChunk k => decide (k < 3)
  | .starterImportCommit => true
  | .keySlotReset => true
  | .persistedSetErase => true
  | .recoveryActionDone _ => true
  | .unlockHi d => decide (d < 2 ^ 32)
  | .unlockLo d => decide (d < 2 ^ 32)
  | .unlockLockoutEnd => true
  | .ctcCommit d => decide (d < 2 ^ 32)
  | .benchStart d => decide (d < 2 ^ 32)
  | .troughMark f p _ _ => decide (f < 2 ^ 32) && decide (p < 2 ^ 32)
  | .timebaseLoss => true
  | .ridgeLinkLoss _ => true
  | .ridgeLinkUp _ => true
  | .ridgeHopRemeasure _ => true
  | .ridgeTrip _ _ => true
  | .splitMachineRecord m _ => decide (m < 2)
  | .handOff m => decide (m < 2)
  | .twinSwap s d => hostOk s d
  | .flashOperationDone _ => true
  | .updateErase s d => hostOk s d
  | .updateVerify s d => hostOk s d
  | .updateActivate s d => hostOk s d
  | .updateConfirm s d => hostOk s d
  | .updateAbort s d => hostOk s d
  | .updateActionDone _ => true
  | .refLost _ => true
  | .refReturn => true
  | .nporRise w _ => decide (w < 64)
  | .nporFall => true
  | .nrstLow => true
  | .nrstRise _ => true
  | .vaonLost => true
  | .wakeUp _ _ => true
  | .failedWake => true
  | .proofingStepDone _ => true
  | .accReadStart n => decide (n < 2)
  | .sgmiiLinkUp p => decide (p < 2)
  | .pdelayResponse p _ _ _ _ _ => decide (p < 3)
  | .pllSlewComplete => true
  | .bankStarted => true
  | .vaonApplied => true
  | .canBusOff n => decide (n < 4)
  | .canBusOffRecovery n => decide (n < 4)
  | .learningTableAgeing _ => true
  | .serviceCoresResume => true

end Sys2Proof
end

