-- ==== Sys2Proof/Certificates/Slice0/Obligations.lean ====
section
/-! DEFINITION. What is claimed of the YV6420: each statement's docstring names the rules that it formalises. -/

open Sys2Proof Sys2Proof.Machine

/-- A step takes the command at the front of the queue and runs exec on it with the queue's rest. -/
def Obligations.StepRunsCommand : Prop := ∀ (c : Instr) (l : List Instr) (s : State), s.pending = c :: l → step s = exec c { s with pending := l }

/-- R30, and log 1: on an empty queue one tick of the system counter passes, and nothing else changes. Every step answers a next state, and takes just
the front of the queue. -/
def Obligations.StepCompletes : Prop :=
  (∀ s : State, s.pending = [] →
    step s = .next (if s.dev.counting then { s with dev := { s.dev with counter := (s.dev.counter + 1) % 2 ^ 64 } } else s))
  ∧ (∀ s : State, ∃ t, step s = .next t ∧ t.pending = s.pending.tail)

/-- R30, R326, R328, R337, R405 to R412: the device right after reset is in BOOT with the system counter at zero, every settings object at its
default, no session open, nothing pending and nothing waiting; and that state is sound. -/
def Obligations.ResetState : Prop :=
  State.reset.pending = [] ∧ State.reset.dev.state = 2 ∧ State.reset.dev.counter = 0 ∧ State.reset.dev.npor = true ∧ State.reset.dev.nrst = true
    ∧ (∀ key, State.reset.active.raw key = objDefault key ∧ State.reset.staged.raw key = objDefault key)
    ∧ (∀ k, State.reset.session k = none) ∧ State.reset.commit.pending = [] ∧ State.reset.commit.token = 1 ∧ State.reset.bench.verifying = true
    ∧ Sound State.reset

/-- A sound state stays sound over every step: the copies of the settings and the firmware banks keep their canonical forms, the commit token stays
one that R326 gives, and the device state one of Table 21-4. -/
def Obligations.StepsKeepSound : Prop := ∀ s t : State, Sound s → step s = .next t → Sound t

/-- R412: the device changes state only by the transitions of Table 21-5, each at the command that stands for its cause. -/
def Obligations.StateTransitions : Prop :=
  ∀ (c : Instr) (l : List Instr) (s t : State), s.dev.state ≤ 8 → s.pending = c :: l → step s = .next t → t.dev.state ≠ s.dev.state →
    ((c = .nporFall ∨ c = .vaonLost) ∧ t.dev.state = 0)
    ∨ (((∃ straps ref, c = .nporRise straps ref) ∨ c = .nrstLow ∨ ∃ aon, c = .nrstRise aon) ∧ t.dev.state = 2)
    ∨ (c = .bankStarted ∧ s.dev.state = 2 ∧ (t.dev.state = 3 ∨ t.dev.state = 7))
    ∨ ((∃ edges, c = .m0Trough edges) ∧ (s.dev.state, t.dev.state) ∈ [(3, 4), (4, 5), (5, 4), (4, 6), (6, 4), (4, 1)])
    ∨ ((c = .thermalStopEntry ∨ c = .hkRoundBoundary) ∧ s.dev.state ∈ [3, 4, 5, 6] ∧ t.dev.state = 8)
    ∨ (c = .thermalStopRelease ∧ s.dev.state = 8 ∧ t.dev.state = 4)
    ∨ (s.dev.state ∈ [3, 4, 5, 6, 8] ∧ t.dev.state = 7)

/-- R300, R420: BEDROCK is left only through nPOR, which the loss of VAON brings with it, or for a warm reset; that one keeps the retained register,
which returns the device to BEDROCK with the same cause at the end of BOOT; nPOR clears its mark and keeps the cause. -/
def Obligations.BedrockLasts : Prop :=
  (∀ (c : Instr) (l : List Instr) (s t : State), s.dev.state = 7 → s.pending = c :: l → step s = .next t →
    resetItem c = false → (∀ aon, c ≠ .nrstRise aon) → t.dev.state = 7)
  ∧ (∀ (kind : CrustFaultKind) (s : State), s.up = true → s.dev.state ≠ 7 → bits s.dev.retained 63 60 ≠ 2 → bits s.dev.retained 63 60 ≠ 3 →
    ∃ t, exec (.crustFault kind) s = .next t ∧ bits t.dev.retained 63 60 = 1 ∧ bit t.dev.retained 59 = true
      ∧ bits t.dev.retained 55 40 = t.fault.cause)
  ∧ (∀ s : State, s.dev.state = 7 → s.dev.nrst = true →
    ∃ t, exec .nrstLow s = .next t ∧ t.dev.state = 2 ∧ t.dev.retained = s.dev.retained)
  ∧ (∀ s : State, s.dev.npor = true → s.dev.nrst = true → s.dev.state = 2 → s.dev.bankStarted = true → bits s.dev.retained 63 60 = 1 →
    bit s.dev.retained 59 = true → ∃ t, exec .bankStarted s = .next t ∧ t.dev.state = 7 ∧ t.fault.cause = bits s.dev.retained 55 40)
  ∧ (∀ (straps : Nat) (ref : Bool) (s : State), s.dev.vaon = true → s.dev.npor = false → s.dev.state ≠ 1 → bits s.dev.retained 63 60 = 1 →
    ∃ t, exec (.nporRise straps ref) s = .next t ∧ bit t.dev.retained 59 = false ∧ bits t.dev.retained 55 40 = bits s.dev.retained 55 40
      ∧ bits t.dev.retained 63 60 = 1)
  ∧ (∀ (a b : Bool) (s : State), s.dev.npor = true → s.dev.nrst = true → s.dev.state = 2 → s.bench.verifying = true →
    ∃ t, exec (.bankVerificationDone a b) s = .next t ∧ t.dev.shutdown = s.dev.retained)

/-- R151: a group that is LOCKED stays LOCKED until a reset; and BEDROCK keeps every group LOCKED. -/
def Obligations.LockedGroups : Prop :=
  (∀ (c : Instr) (l : List Instr) (k : Nat) (s t : State), s.pending = c :: l → step s = .next t → (nth s.trip.g k {}).state = 5 →
    resetItem c = false → (nth t.trip.g k {}).state = 5)
  ∧ (∀ s t : State, (s.dev.state = 7 → ∀ g ∈ s.trip.g, g.state = 5) → step s = .next t → t.dev.state = 7 → ∀ g ∈ t.trip.g, g.state = 5)

/-- R24, R30: no command but nPOR's rising edge changes the system counter, and FN moves only at an M0 Trough, where it is set by a timebase that
starts or by Ridge calibration, and at a reset. -/
def Obligations.CountersMove : Prop :=
  ∀ (c : Instr) (l : List Instr) (s t : State), s.pending = c :: l → step s = .next t →
    ((∀ straps ref, c ≠ .nporRise straps ref) → t.dev.counter = s.dev.counter)
    ∧ ((∀ edges, c ≠ .m0Trough edges) → (∀ r, c ≠ .proofingStepDone r) → c ≠ .bankStarted → resetItem c = false →
      t.frame.fn = s.frame.fn)
    ∧ ((∃ edges, c = .m0Trough edges) → t.frame.fn = s.frame.fn ∨ t.frame.fn = (s.frame.fn + 1) % 2 ^ 32)

/-- R326: the commit token moves only with a host's item that stores a settings value, stages one, commits or discards, with a staged write or commit
of the Bench port, with a passing identification, with the device's own write at an image timeout, and at a reset. -/
def Obligations.TokenMoves : Prop :=
  ∀ (c : Instr) (l : List Instr) (s t : State), s.pending = c :: l → step s = .next t →
    c.wellFormed = true → (hostItem c = false ∨ actionItem c = true) → benchItem c = false → resetItem c = false → (∀ pdm, c ≠ .hearthBlockBoundary pdm) →
    (∀ n, c ≠ .imageTimeout n) → t.commit.token = s.commit.token

/-- R25, R33, R37: the settings in force change only at a group's boundary, at the answer to a host's item, at the end of BOOT's verification, by a
Starter set import over the Bench port, and at a reset; a staged copy that is damaged is mended at a Trough, a housekeeping round, a Crust cycle, a
block boundary or a lane start. A Crest is none of them. -/
def Obligations.SettingsInForce : Prop :=
  ∀ (c : Instr) (l : List Instr) (s t : State), s.pending = c :: l → step s = .next t →
    hostItem c = false → benchItem c = false → resetItem c = false → (∀ edges, c ≠ .m0Trough edges) → c ≠ .hkRoundBoundary →
    (∀ pdm, c ≠ .hearthBlockBoundary pdm) → (∀ n cycles, c ≠ .aspFrame n cycles) → c ≠ .crustCycle → c ≠ .laneStart → (∀ p bytes, c ≠ .yoapFrame p bytes) → (∀ a b, c ≠ .bankVerificationDone a b) →
    t.active = s.active ∧ t.active2 = s.active2

/-- R371, R388, R398: the firmware banks change only by a flash operation, the end of an update or recovery action, BOOT's erase of a
marked sector, and a reset that completes a word program. -/
def Obligations.FirmwareBytes : Prop :=
  ∀ (c : Instr) (l : List Instr) (s t : State), s.pending = c :: l → step s = .next t →
    resetItem c = false → (∀ ok, c ≠ .flashOperationDone ok) → (∀ ok, c ≠ .updateActionDone ok) → (∀ ok, c ≠ .recoveryActionDone ok) →
    (∀ a b, c ≠ .bankVerificationDone a b) → t.flash.bankA.image = s.flash.bankA.image ∧ t.flash.bankB.image = s.flash.bankB.image

/-- R43: a consumer of a stored pair uses a copy that passes its complement check, and where both fail the value that last passed. -/
def Obligations.HealedPairs : Prop :=
  ∀ (key v : Nat) (r : ObjRow) (s : State), s.active.wf = true → (key, v) ∈ s.active.vals → findRow key = some r → r.ty.isPair = true →
    s.sense.zeros.all (fun z => z.1 != key) = true → s.cfg.raw key = (if pairOk v then v else if pairOk (s.active2.raw key) then s.active2.raw key else s.passed.raw key)

/-- R4: a flag that is cleared on write is cleared by writing 1 to it, and writing 0 leaves it unchanged, when the write applies (R33). -/
def Obligations.FlagsClearOnOne : Prop :=
  (∀ (v n : Nat), (bit v n = true ↔ v / 2 ^ n % 2 = 1) ∧ (bit v n = false ↔ v / 2 ^ n % 2 = 0))
  ∧ (∀ (w : PendWrite) (r : ObjRow) (m : Nat) (s : State), findRow w.key = some r → r.rng = .flags m → s.applyPart w = s.clearFlags w.key w.raw)
  ∧ (∀ e ∈ ([
    (objKey 0x2110 2, 14, fun s => s.persist.done), (objKey 0x5000 8, 0, fun s => (nth s.mod.m 0 {}).dutyClamp),
    (objKey 0x5000 8, 1, fun s => (nth s.mod.m 0 {}).minPulse), (objKey 0x5000 8, 2, fun s => (nth s.mod.m 0 {}).ctcMiss),
    (objKey 0x5010 8, 0, fun s => (nth s.mod.m 1 {}).dutyClamp), (objKey 0x5010 8, 1, fun s => (nth s.mod.m 1 {}).minPulse),
    (objKey 0x5020 7, 0, fun s => (nth s.mod.spk 0 {}).shaperClip), (objKey 0x5020 7, 1, fun s => (nth s.mod.spk 0 {}).shaperOvl),
    (objKey 0x5020 7, 2, fun s => (nth s.mod.spk 0 {}).minPulse), (objKey 0x5020 8, 0, fun s => (nth s.mod.spk 1 {}).shaperClip),
    (objKey 0x5020 8, 1, fun s => (nth s.mod.spk 1 {}).shaperOvl), (objKey 0x5020 8, 2, fun s => (nth s.mod.spk 1 {}).minPulse),
    (objKey 0x5060 8, 2, fun s => s.trip.dis.done), (objKey 0x5060 8, 4, fun s => s.trip.dis.windFail),
    (objKey 0x5060 8, 6, fun s => s.trip.dis.timeout), (objKey 0x5070 6, 3, fun s => (nth s.trip.gdl 0 {}).mismatch),
    (objKey 0x5070 6, 4, fun s => (nth s.trip.gdl 0 {}).crcErr), (objKey 0x5070 6, 5, fun s => (nth s.trip.gdl 0 {}).overrun),
    (objKey 0x5070 7, 3, fun s => (nth s.trip.gdl 1 {}).mismatch), (objKey 0x5070 7, 4, fun s => (nth s.trip.gdl 1 {}).crcErr),
    (objKey 0x5070 7, 5, fun s => (nth s.trip.gdl 1 {}).overrun), (objKey 0x7000 1, 1, fun s => s.hearth.clip),
    (objKey 0x7000 1, 2, fun s => s.hearth.overrun), (objKey 0x7000 1, 3, fun s => s.hearth.alignShift),
    (objKey 0x7000 1, 5, fun s => s.hearth.recipeFault), (objKey 0x7100 1, 11, fun s => s.canc.ident.failFlag),
    (objKey 0x7180 9, 0, fun s => (nth s.canc.acc 0 {}).lostFlag), (objKey 0x7180 9, 1, fun s => (nth s.canc.acc 1 {}).lostFlag),
    (objKey 0x7200 4, 2, fun s => (nth s.audio.asp 0 {}).slip), (objKey 0x7200 4, 3, fun s => (nth s.audio.asp 0 {}).glitch),
    (objKey 0x7200 4, 5, fun s => (nth s.audio.asp 0 {}).rateErr), (objKey 0x7210 4, 2, fun s => (nth s.audio.asp 1 {}).slip),
    (objKey 0x7210 4, 3, fun s => (nth s.audio.asp 1 {}).glitch), (objKey 0x7210 4, 5, fun s => (nth s.audio.asp 1 {}).rateErr),
    (objKey 0x7220 4, 2, fun s => (nth s.audio.asp 2 {}).slip), (objKey 0x7220 4, 3, fun s => (nth s.audio.asp 2 {}).glitch),
    (objKey 0x7220 4, 5, fun s => (nth s.audio.asp 2 {}).rateErr), (objKey 0x7230 4, 2, fun s => (nth s.audio.asp 3 {}).slip),
    (objKey 0x7230 4, 3, fun s => (nth s.audio.asp 3 {}).glitch), (objKey 0x7230 4, 5, fun s => (nth s.audio.asp 3 {}).rateErr),
    (objKey 0x7260 5, 2, fun s => (nth s.audio.lis 0 {}).late), (objKey 0x7260 5, 3, fun s => (nth s.audio.lis 0 {}).seqGap),
    (objKey 0x7260 5, 4, fun s => (nth s.audio.lis 0 {}).formatErr), (objKey 0x7261 5, 2, fun s => (nth s.audio.lis 1 {}).late),
    (objKey 0x7261 5, 3, fun s => (nth s.audio.lis 1 {}).seqGap), (objKey 0x7261 5, 4, fun s => (nth s.audio.lis 1 {}).formatErr),
    (objKey 0x8030 1, 9, fun s => (nth s.loads 0 {}).trackReject), (objKey 0x8030 1, 10, fun s => (nth s.loads 0 {}).overshoot),
    (objKey 0x8031 1, 9, fun s => (nth s.loads 1 {}).trackReject), (objKey 0x8031 1, 10, fun s => (nth s.loads 1 {}).overshoot),
    (objKey 0x8032 1, 9, fun s => (nth s.loads 2 {}).trackReject), (objKey 0x8032 1, 10, fun s => (nth s.loads 2 {}).overshoot),
    (objKey 0x8033 1, 9, fun s => (nth s.loads 3 {}).trackReject), (objKey 0x8033 1, 10, fun s => (nth s.loads 3 {}).overshoot),
    (objKey 0x8040 2, 1, fun s => s.diag.tap.done), (objKey 0x8040 2, 2, fun s => s.diag.tap.aborted), (objKey 0x9000 1, 7, fun s => s.crust.hearthFlag),
    (objKey 0xA000 1, 4, fun s => s.hk.drop), (objKey 0xD000 3, 3, fun s => s.chain.timebaseLoss), (objKey 0xD000 3, 8, fun s => s.chain.mismatch),
    (objKey 0xE000 2, 3, fun s => s.diag.cap.drop)
    ] : List (Nat × Nat × (State → Bool))), ∀ (w : Nat) (s : State),
      (bit w e.2.1 = true → e.2.2 (s.clearFlags e.1 w) = false) ∧ (bit w e.2.1 = false → e.2.2 (s.clearFlags e.1 w) = e.2.2 s))
  ∧ (∀ (sd w : Nat) (s : State), sd < 32 →
    (bit w 0 = true → ((s.clearFlags (objKey 0x6050 (sd + 1)) w).sense.path sd).th1 = false)
    ∧ (bit w 0 = false → ((s.clearFlags (objKey 0x6050 (sd + 1)) w).sense.path sd).th1 = (s.sense.path sd).th1)
    ∧ (bit w 1 = true → ((s.clearFlags (objKey 0x6050 (sd + 1)) w).sense.path sd).th2 = false)
    ∧ (bit w 1 = false → ((s.clearFlags (objKey 0x6050 (sd + 1)) w).sense.path sd).th2 = (s.sense.path sd).th2))
  ∧ (∀ (m k w : Nat) (s : State), m < 2 → k < 8 →
    (bit w 3 = true → (nth (nth (s.clearFlags (objKey (0x7104 + 16 * m) (k + 1)) w).canc.m m {}).orders k {}).divSeen = false)
    ∧ (bit w 3 = false → (nth (nth (s.clearFlags (objKey (0x7104 + 16 * m) (k + 1)) w).canc.m m {}).orders k {}).divSeen
        = (nth (nth s.canc.m m {}).orders k {}).divSeen))

/-- R40: a nonzero Commit target FN is accepted only for Trough-kind groups, in the future, at least 1 µs away, and with M1 named on an M1 Trough;
else the commit is rejected with code 0x10; and the attempt sets it to 0. -/
def Obligations.CommitTargets : Prop :=
  (∀ (a : Checking) (s : State), (s.commitEnd a).1.commit.target = 0)
  ∧ (∀ (mask target : Nat) (s : State), target ≠ 0 → (s.targetOk mask target = true ↔
      mask &&& 0x180E = mask
      ∧ 0 < (target + 2 ^ 32 - s.frame.fn % 2 ^ 32) % 2 ^ 32 ∧ (target + 2 ^ 32 - s.frame.fn % 2 ^ 32) % 2 ^ 32 < 2 ^ 31
      ∧ ((target + 2 ^ 32 - s.frame.fn) % 2 ^ 32 = 1 → s.now + 200 ≤ s.frame.troughTime + (nth s.mod.m 0 {}).period)
      ∧ (bit mask 3 = true → ((target + 2 ^ 32 - s.frame.fn) % 2 ^ 32 + s.frame.m1Count) % ratioK s.cfg = 0)))
  ∧ (∀ (a : Checking) (s : State), a.target ≠ 0 → s.targetOk a.mask a.target = false → (s.commitOutcome a).1 ≠ 0
      ∧ (a.tokenOk = true → oneKind a.mask = true → (∀ g, g < 14 → bit a.mask g = true → groupState g s.dev.state = true ∧ bit s.commit.pendingMask g = false) →
        (∀ f ∈ commitFails (s.candidate a.mask) ++ complementFails a.mask s.staged, f.groups &&& a.mask ≠ 0 → 0x10 ≤ f.code) →
        s.commitOutcome a = (0x10, 0, 0x210008)))

/-- R410: an nRST low is counted at its release, in the bin of its duration, up to 65 535; the duration in ms is kept; the bins start at VAON
power-on, and last through nPOR; a low in progress is counted in none. -/
def Obligations.HoldHistogram : Prop :=
  (∀ (aon : Nat) (s : State), s.dev.nrst = false → s.dev.histogram.length = 6 →
    ∃ t k, exec (.nrstRise aon) s = .next t ∧ k < 6
      ∧ (k = 0 ↔ aon * 1000 < 32768) ∧ (k = 1 ↔ 32768 ≤ aon * 1000 ∧ aon * 100 < 32768) ∧ (k = 2 ↔ 32768 ≤ aon * 100 ∧ aon * 10 < 32768)
      ∧ (k = 3 ↔ 32768 ≤ aon * 10 ∧ aon < 32768) ∧ (k = 4 ↔ 32768 ≤ aon ∧ aon < 327680) ∧ (k = 5 ↔ 327680 ≤ aon)
      ∧ nth t.dev.histogram k 0 = min 65535 (nth s.dev.histogram k 0 + 1) ∧ (∀ j, j ≠ k → nth t.dev.histogram j 0 = nth s.dev.histogram j 0)
      ∧ (aon * 1000 / 32768 < 2 ^ 32 → t.dev.lastHold = aon * 1000 / 32768))
  ∧ (∀ s : State, s.dev.vaon = true → ∃ t, exec .vaonLost s = .next t ∧ t.dev.histogram = [0, 0, 0, 0, 0, 0])
  ∧ (∀ (c : Instr) (s : State), (c = .nrstLow ∨ c = .nporFall ∨ ∃ straps ref, c = .nporRise straps ref) →
    ∃ t, exec c s = .next t ∧ t.dev.histogram = s.dev.histogram ∧ t.dev.lastHold = s.dev.lastHold)

/-- R24, R25, R28, R31: an M0 Trough advances the frame number and the count since M1's Trough; a Crest of a machine in double update loads its compares
(R129), and applies no setting. R83, R88, R414: 10 ms
after their Trough, mode 0 takes effect and the fade out of RUN is over. -/
def Obligations.FrameInstants : Prop :=
  ((∀ (edges : Nat) (s : State), s.up = true → s.dev.timebase = true →
    ∃ t, exec (.m0Trough edges) s = .next t
      ∧ t.frame = { s.frame with
          fn := if s.frame.started then (s.frame.fn + 1) % 2 ^ 32 else s.frame.fn, started := true, troughTime := s.dev.counter
          m1Count := if !s.frame.started || decide (ratioK s.cfg ≤ s.frame.m1Count + 1) then 0 else s.frame.m1Count + 1
          m1Time := if !s.frame.started || decide (ratioK s.cfg ≤ s.frame.m1Count + 1) then s.dev.counter else s.frame.m1Time }
      ∧ Changes (faultParts ++ [.frame, .active, .sense, .mod, .hk]) s t)
  ∧ (∀ (m : Nat) (s : State), s.up = true → s.frame.started = true →
    ∃ t, exec (.crest m) s = .next t
      ∧ ((nth s.mod.m m {}).double = false → t.mod = s.mod)
      ∧ ((nth s.mod.m m {}).double = true →
          let l := upd s.mod.m m (modCrest s.cfg m)
          t.mod.m = (if m = 0 ∧ (nth l 0 {}).noDuty = true ∧ s.lanes.underTest = false then upd l 1 (fun x => { x with noDuty := true }) else l)
            ∧ t.mod = { s.mod with m := t.mod.m })
      ∧ t.active = s.active ∧ t.active2 = s.active2 ∧ t.frame = s.frame
      ∧ Changes (faultParts ++ [.sense, .mod]) s t))
  ∧ ((∀ (m t0 : Nat) (s : State), (nth s.ctl m {}).fadeFrom = some t0 → s.dev.state = 5 → t0 + 2000000 ≤ s.now →
    ∃ t, exec (.modeFadeEnd m) s = .next t ∧ t.ctl = upd s.ctl m MachCtl.off ∧ Changes [.ctl, .diag] s t)
  ∧ (∀ (t0 : Nat) (s : State), s.dev.exitFade = some t0 → s.dev.state = 5 → t0 + 2000000 ≤ s.now →
    exec .runExitFadeEnd s = .next { s with dev := { s.dev with fadeOver := true } }))

/-- R50, R53, R57: once its filter has run a full window at its clock (R49), a main path's window gives its value, the counter value of its centre and its
two stream checks. -/
def Obligations.WindowGivesValue : Prop :=
  (∀ (w : PathWindow) (mismatch : Bool) (s : State), s.sdRuns = true → w.sd < 28 → (s.dev.state = 7 → 24 ≤ w.sd) → s.twinPath w.sd = false →
    w.sd < s.sense.paths.length →
    (∀ t0, (if w.sd < 24 then s.sense.iChanged else s.sense.vChanged) = some t0 → t0 + (3 * sdDecimation s.cfg w.sd + 1) * sdDivider s.cfg w.sd ≤ s.now) →
    ∃ t, exec (.windowResult [w] mismatch) s = .next t
      ∧ (t.sense.path w.sd).r = sdValue (sdDecimation s.cfg w.sd)
          (if bit (sdCfg s.cfg w.sd) 1 then sdDecimation s.cfg w.sd ^ 3 - w.sum else w.sum)
      ∧ (t.sense.path w.sd).time = s.now - (3 * sdDecimation s.cfg w.sd * sdDivider s.cfg w.sd / 2 + sdDivider s.cfg w.sd)
      ∧ (t.sense.path w.sd).valid = true
      ∧ (t.sense.path w.sd).clip = sdClipped s.cfg w.sd
          (if bit (sdCfg s.cfg w.sd) 1 then 3 * sdDecimation s.cfg w.sd - w.ones else w.ones) (3 * sdDecimation s.cfg w.sd)
      ∧ (t.sense.path w.sd).stuck = decide (64 ≤ w.run)
      ∧ Reports [.sense] s t)
  ∧ (∀ (w : PathWindow) (s : State), s.full = true → s.dev.state ≠ 8 → 28 ≤ w.sd → w.sd < s.sense.paths.length →
    (∀ t0, s.sense.vChanged = some t0 → t0 + (3 * sdDecimation s.cfg w.sd + 1) * sdDivider s.cfg w.sd ≤ s.now) →
    ∃ t, exec (.speakerSenseResult w) s = .next t
      ∧ (t.sense.path w.sd).r = sdValue (sdDecimation s.cfg w.sd)
          (if bit (sdCfg s.cfg w.sd) 1 then sdDecimation s.cfg w.sd ^ 3 - w.sum else w.sum)
      ∧ (t.sense.path w.sd).time = s.now - (3 * sdDecimation s.cfg w.sd * sdDivider s.cfg w.sd / 2 + sdDivider s.cfg w.sd)
      ∧ (t.sense.path w.sd).valid = true
      ∧ (t.sense.path w.sd).stuck = decide (64 ≤ w.run)
      ∧ Reports [.sense, .loads, .diag] s t)

/-- R54, R55, R59, R61: the comparators, the confirmed ambiguity, and a restored path's eligibility. R66 to R70, R91: a resolver's loop step, an
encoder's edge, an SSI read, and the convergence of the injection observer. -/
def Obligations.SensingEvents : Prop :=
  ((∀ (sd sum : Nat) (s : State), s.sdRuns = true → s.twinPath sd = false →
    ∃ t, exec (.fastPathOutput sd sum) s = .next t ∧ t.sense = fastOutput s.cfg s.now sd sum s.sense
      ∧ Changes [.dev, .sense, .trip, .canc, .diag, .flash] s t)
  ∧ (∀ (hb : Nat) (s : State), s.full = true → (s.sense.pair hb).ambig = true → 100 ≤ (s.sense.pair hb).ambigCount →
    (s.sense.pair hb).ambigFault = false →
    exec (.currentPairAmbiguous hb) s
        = .next (State.raise (.fault 0x05 (hb + 1) hb) { s with sense := s.sense.setPair hb (fun x => { x with ambigFault := true }) })
      ∧ ∀ t, exec (.currentPairAmbiguous hb) s = .next t → Reports [.sense] s t)
  ∧ (∀ (sd n : Nat) (s : State), s.full = true → (s.sense.path sd).restoring = some n → 100 ≤ n →
    ∃ t, exec (.restoredPathEligible sd) s = .next t
      ∧ t.sense = s.sense.setPath sd (fun x => { x with restoring := none, failed := false })
      ∧ Changes [.sense, .fault] s t))
  ∧ ((∀ (n : Nat) (o : ResolverStep) (s : State), s.up = true → n < s.sense.res.length →
    ∃ t, exec (.resolverLoopStep n o) s = .next t ∧ nth t.sense.res n {} = resolverStep s.cfg s.now n (nth s.sense.res n {}) o
      ∧ t.sense.paths = s.sense.paths ∧ t.sense.enc = s.sense.enc ∧ Reports [.sense, .crust] s t)
  ∧ (∀ (n : Nat) (a b z : Bool) (s : State), s.full = true → s.cfg.u (0x6200 + 16 * n) 1 = 1 → n < s.sense.enc.length →
    ∃ t, exec (.encoderEdge n a b z) s = .next t ∧ nth t.sense.enc n {} = encoderEdge s.cfg s.now n (nth s.sense.enc n {}) a b z
      ∧ t.sense.paths = s.sense.paths ∧ t.sense.res = s.sense.res ∧ Reports [.sense] s t)
  ∧ (∀ (n : Nat) (o : SsiRead) (s : State), s.full = true → s.cfg.u (0x6200 + 16 * n) 1 = 2 → n < s.sense.enc.length →
    (nth s.sense.enc n {}).ssiSince.isSome = true →
    ∃ t, exec (.ssiReadDone n o) s = .next t ∧ nth t.sense.enc n {} = ssiDone s.cfg s.now n (nth s.sense.enc n {}) o
      ∧ (nth t.sense.enc n {}).ssiSince = none ∧ (nth t.sense.enc n {}).ssiFree = s.now + 4000
      ∧ t.sense.paths = s.sense.paths ∧ t.sense.res = s.sense.res ∧ Reports [.sense] s t)
  ∧ (∀ (m : Nat) (s : State), s.full = true → m < s.sense.pos.length → (nth s.sense.pos m {}).injRunning = true →
    exec (.injectionConverged m) s
      = .next { s with sense := { s.sense with pos := upd s.sense.pos m (fun x => { x with injConverged := true, held := none }) } }))

/-- R32, R98, R103: the three lanes start on the common input of the update; with no stored pair damaged each full lane that computes has its one result,
and no lane has reported. A report carries its duties and the cause of the first lane check that it fails; a lane that has reported, or has missed the
deadline, reports no more in the update; at the deadline a lane without a report has none, and the checker without one has failed with cause 4. -/
def Obligations.LaneUpdate : Prop :=
  (∀ s : State, s.up = true → s.dev.state ≠ 7 → s.lanes.running = false → s.frame.started = true →
    ∃ t, exec .laneStart s = .next t ∧ t.lanes.running = true ∧ t.lanes.startTime = s.now ∧ t.lanes.chk.report = false ∧ t.lanes.chk.cause = 0
      ∧ (∀ x, x < 2 → (t.lanes.lane x).report = none)
      ∧ (s.active.damaged = false → s.active2.damaged = false →
          ∀ x, x < 2 → ((t.lanes.lane x).computed.isSome = true ↔ (s.lanes.lane x).st = 0 ∨ (s.lanes.lane x).st = 1 ∨ (s.lanes.lane x).st = 4))
      ∧ t.mod = s.mod ∧ t.hk = s.hk
      ∧ Reports [.active, .sense, .ctl, .lanes, .hearth, .loads, .diag, .audio, .crust, .chain] s t)
  ∧ (∀ (x : Nat) (r : LaneReport) (upset : LaneUpset) (s : State), x < 2 → s.lanes.running = true → (s.lanes.lane x).computed = some r →
    (s.lanes.lane x).report = none →
    ∃ d cause, exec (.laneReport x upset) s
        = .next { s with lanes := s.lanes.setLane x (fun f =>
            { f with report := some { r with duties := d, cause := cause }, ecc := add32 f.ecc upset.corrected }) }
      ∧ d = upset.duties.foldl (fun d w => upd d w.1 (fun _ => w.2)) r.duties
      ∧ (let lost := s.lanePairLost || !(nth s.ctl 0 {}).env.pairsOk || !(nth s.ctl 1 {}).env.pairsOk
         (upset.cause ≠ 0 → cause = upset.cause)
          ∧ (upset.cause = 0 → lost = true → cause = 5)
          ∧ (upset.cause = 0 → lost = false → r.cause ≠ 0 → cause = r.cause)
          ∧ (upset.cause = 0 → lost = false → r.cause = 0 → (s.lanes.lane x).imageBad = true → cause = 8)
          ∧ (upset.cause = 0 → lost = false → r.cause = 0 → (s.lanes.lane x).imageBad = false →
              (cause = 0 ∨ cause = 3) ∧ (cause = 0 ↔ ∀ h, h < 12 → nth d h 0 ≤ 32 * (nth s.ctl (h / 6) {}).env.period))))
  ∧ (∀ (upset : LaneUpset) (s : State), s.lanes.running = true → s.lanes.chk.st = 1 → s.lanes.chk.report = false → s.lanes.chk.cause ≠ 4 →
    ∃ t, exec (.laneReport 2 upset) s = .next t ∧ t.lanes.chk.report = true
      ∧ (upset.cause ≠ 0 → t.lanes.chk.cause = upset.cause)
      ∧ (upset.cause = 0 → t.lanes.chk.cause = if s.lanePairLost || !(nth s.ctl 0 {}).env.pairsOk || !(nth s.ctl 1 {}).env.pairsOk then 5 else 0)
      ∧ t.lanes.a = s.lanes.a ∧ t.lanes.b = s.lanes.b ∧ Changes [.lanes] s t)
  ∧ (∀ (x : Nat) (upset : LaneUpset) (s : State), (x < 2 ∧ ((s.lanes.lane x).report.isSome = true ∨ (s.lanes.lane x).computed = none))
      ∨ (x = 2 ∧ (s.lanes.chk.report = true ∨ s.lanes.chk.cause = 4)) → exec (.laneReport x upset) s = .next s)
  ∧ (∀ s : State, s.lanes.running = true →
    exec .laneDeadline s = .next { s with lanes := { s.lanes with
      a := if s.lanes.a.report.isNone then { s.lanes.a with computed := none } else s.lanes.a
      b := if s.lanes.b.report.isNone then { s.lanes.b with computed := none } else s.lanes.b
      chk := if s.lanes.chk.report then s.lanes.chk else { s.lanes.chk with cause := 4 } } })

/-- R105, R32, R115: a vote that reports no fault ends the update with the lanes that it decides, and loads the duties of the report it chose, none where
it chose none; while no full lane is available because a host's lane test runs, it decides nothing and loads nothing. -/
def Obligations.VoteLoadsDuties : Prop :=
  (∀ s : State, s.lanes.running = true → s.lanes.underTest = false →
    (State.voted s.cfg s.frame.fn (s.ctl.map (·.env)) s.lanes).signals = [] →
    ∃ t v, exec (.vote false) s = .next t
      ∧ v = State.voted s.cfg s.frame.fn (s.ctl.map (·.env)) s.lanes
      ∧ t.lanes = { v.lanes with running := false, a := State.settle v.lanes.a, b := State.settle v.lanes.b }
      ∧ (∀ r, v.used = some r → 0 < s.mod.m.length → (nth t.mod.m 0 {}).shadow = some (r.duties.take 6))
      ∧ (∀ r, v.used = some r → 1 < s.mod.m.length →
          (nth t.mod.m 1 {}).shadow = if v.lanes.m1Update then some (r.duties.drop 6) else (nth s.mod.m 1 {}).shadow)
      ∧ (v.used = none → ∀ m, (nth t.mod.m m {}).shadow = none)
      ∧ t.crust = { s.crust with voteAt := some s.now }
      ∧ Changes [.dev, .ctl, .lanes, .mod, .trip, .canc, .loads, .diag, .crust, .flash] s t)
  ∧ (∀ (outvoted : Bool) (s : State), s.lanes.running = true → s.lanes.underTest = true →
    exec (.vote outvoted) s = .next { s with
      crust := { s.crust with voteAt := some s.now }
      lanes := { s.lanes with running := false, a := State.settle s.lanes.a, b := State.settle s.lanes.b } })

/-- R103, R109 to R115: the ends of a lane's self-test, resynchronisation and probation, and the check of the recipe banks. -/
def Obligations.LaneReadmission : Prop :=
  (∀ (x t0 : Nat) (s : State), x < 2 → s.full = true → (s.lanes.lane x).testing = some t0 → (s.lanes.lane x).st = 2 → t0 + 800000 ≤ s.now →
    (s.lanes.lane x).testPassed = false →
    exec (.laneSelftestDone x true) s = .next { s with lanes := { s.lanes.setLane x (fun f => { f with testPassed := true }) with
        testResult := if (s.lanes.lane x).hostTest then s.lanes.testResult ||| 2 ^ x else s.lanes.testResult } }
      ∧ exec (.laneSelftestDone x false) s = .next { s with lanes := { s.lanes.drop s.cfg x 0x0B with
        testResult := if (s.lanes.lane x).hostTest then s.lanes.testResult ||| 0 else s.lanes.testResult } })
  ∧ (∀ (t0 : Nat) (pass : Bool) (s : State), s.full = true → s.lanes.chk.testing = some t0 → s.lanes.chk.st = 2 → t0 + 200000 ≤ s.now →
    ∃ t, exec (.laneSelftestDone 2 pass) s = .next t ∧ t.lanes.chk.st = (if pass then 1 else 5) ∧ t.lanes.chk.testing = none
      ∧ t.lanes.a = s.lanes.a ∧ t.lanes.b = s.lanes.b ∧ Changes [.lanes] s t)
  ∧ (∀ (x : Nat) (s : State), s.full = true → (s.lanes.lane x).st = 3 →
    exec (.laneSyncDone x) s = .next { s with lanes := s.lanes.setLane x (fun f => { f with syncDone := true }) })
  ∧ (∀ (x : Nat) (s : State), s.full = true → (s.lanes.lane x).st = 4 → 1000 ≤ (s.lanes.lane x).probation →
    exec (.probationDone x) s = .next { s with lanes := s.lanes.setLane x (fun f => { f with testPassed := true }) })
  ∧ (∀ (okA okB : Bool) (s : State), s.full = true →
    exec (.recipeImageCheck okA okB) s
      = .next { s with lanes := { s.lanes with a := { s.lanes.a with imageBad := !okA }, b := { s.lanes.b with imageBad := !okB } } })

/-- R133 to R138: an event source whose machine's counter stands at its position, a converter trigger that the running period reaches, and a speaker's
carrier period. -/
def Obligations.ModulationEvents : Prop :=
  (∀ (k : Nat) (s : State), s.full = true → s.frame.started = true → eventOn s.cfg k = true → k < s.mod.events.length →
    s.now = (if k < 6 then s.frame.troughTime else s.frame.m1Time) + eventCount s.cfg k (nth s.mod.m (k / 6) {}).period →
    ∃ t, exec (.eventFire k) s = .next t
      ∧ (nth t.mod.events k {}).armed = true
      ∧ (nth t.mod.events k {}).count = (eventTick (eventPresc s.cfg k) (nth s.mod.events k {})).1.count
      ∧ ((eventTick (eventPresc s.cfg k) (nth s.mod.events k {})).2 = true → bit (eventDest s.cfg k) 3 = true → (nth t.mod.events k {}).last = s.now)
      ∧ ((eventTick (eventPresc s.cfg k) (nth s.mod.events k {})).2 = true → bit (eventDest s.cfg k) 0 = true → t.mod.lastTrigger = some s.now)
      ∧ t.mod.m = s.mod.m ∧ t.mod.spk = s.mod.spk ∧ Changes [.mod, .canc, .diag, .hk] s t)
  ∧ (∀ (k : Nat) (s : State), s.full = true → s.frame.started = true → bit (s.cfg.u 0x5440 (k + 1)) 31 = true →
    bits (s.cfg.u 0x5440 (k + 1)) 16 0 < (nth s.mod.m 0 {}).period → s.now = s.frame.troughTime + bits (s.cfg.u 0x5440 (k + 1)) 16 0 →
    (s.mod.lastTrigger ≠ some s.now →
      exec (.ctcFire k) s = .next { s with mod := { s.mod with lastTrigger := some s.now }, hk := s.hk.trigger s.cfg s.now })
    ∧ (s.mod.lastTrigger = some s.now → exec (.ctcFire k) s = .next s))
  ∧ (∀ (k : Nat) (s : State), s.full = true → s.dev.state ≠ 8 → (nth s.mod.spk k {}).started = true → k < s.mod.spk.length →
    ∃ t u, exec (.speakerCarrierPeriod k) s = .next t ∧ u = s.completeFor (s.now + (nth s.mod.spk k {}).ps / 2)
      ∧ t = { u with mod := t.mod }
      ∧ nth t.mod.spk k {} = { spkCarrier u.cfg k (u.shaperInput k) (nth s.mod.spk k {}) with enabled := u.cfg.b 0x5020 (5 + k) }
      ∧ (∀ j, j ≠ k → nth t.mod.spk j {} = nth s.mod.spk j {}) ∧ t.mod.m = s.mod.m
      ∧ (s.hearth.jobs = [] → u = s) ∧ Changes [.mod, .hearth, .loads, .audio, .crust] s t)

/-- R141, R142, R143, R148: a filtered FLT level is its input's, and the input's source becomes active in the groups of its target where it is enabled and
the level is its polarity's, and trips them; else it is inactive. R152: the end of a group's safe-pattern delay. R157, R159: a discharge is done after
ten cycles below the end voltage; its time limit ends the windings, and DCHG takes over under method 0; DCHG's maximum on-time locks it for ten times as
long, and the lockout ends. -/
def Obligations.TripsAndDischarge : Prop :=
  ((∀ (n : Nat) (level : Bool) (s : State), s.up = true → n < 12 → s.trip.flt.length = 12 → s.trip.g.length = 4 →
    ∃ t, exec (.fltInput n level) s = .next t ∧ t.trip.flt = upd s.trip.flt n (fun _ => level) ∧ nth t.trip.flt n true = level
      ∧ (∀ k, k < 4 →
          let on := bit (s.cfg.u 0x5450 (n + 1)) 31 && level == bit (s.cfg.u 0x5450 (n + 1)) 30 && bit (s.cfg.u 0x5450 (n + 1)) (20 + k)
          bit (t.trip.group k).active n = on
          ∧ (on = true → bit (s.trip.group k).active n = false →
              bit (t.trip.group k).latched n = true ∧ (t.trip.group k).state = if (s.trip.group k).state = 5 then 5 else 1))
      ∧ t.trip.gdl = s.trip.gdl ∧ Changes [.dev, .trip, .canc, .diag, .flash] s t)
  ∧ (∀ (n : Nat) (level : Bool) (s : State), s.up = false →
    exec (.fltInput n level) s = .next { s with trip := { s.trip with flt := upd s.trip.flt n (fun _ => level) } })
  ∧ (∀ (m t0 : Nat) (s : State), s.up = true → m < 2 → m < s.trip.g.length → (s.trip.group m).delayFrom = some t0 →
    s.cfg.pv (0x5050 + m) 4 * 200 * 97 ≤ (s.now - t0) * 100 + 1300 →
    exec (.safePatternDelayEnd m) s = .next { s with trip := { s.trip with g := upd s.trip.g m (fun g => { g with
      delayFrom := none, slow := 0
      pattern := if g.state ∈ [1, 2, 3, 5] then TripState.patternAt s.cfg m (s.crustSpeed m).1 (s.crustSpeed m).2 else 0 }) } }))
  ∧ ((∀ s : State, s.up = true → s.trip.dis.running = true → 10 ≤ s.trip.dis.below →
    exec .dischargeDone s = .next { s with trip := { s.trip with dis := { s.trip.dis with
      running := false, dchgSince := none, dchgWait := false, done := true, wind := s.trip.dis.wind.map (fun _ => {}) } } })
  ∧ (∀ (m : Nat) (s : State), s.up = true → m < 2 → (nth s.trip.dis.wind m {}).on = true →
    (nth s.trip.dis.wind m {}).since + s.cfg.u 0x5060 6 * 200000 ≤ s.now →
    ∃ t, exec .dischargeTimeLimit s = .next t ∧ (nth t.trip.dis.wind m {}).on = false ∧ t.trip.dis.windFail = true
      ∧ (s.cfg.u 0x5060 2 = 0 → s.trip.dis.dchgSince = none → s.trip.dis.lockUntil = none → t.trip.dis.dchgSince = some s.now)
      ∧ (s.cfg.u 0x5060 2 ≠ 0 → t.trip.dis.dchgSince = s.trip.dis.dchgSince)
      ∧ t.trip.g = s.trip.g ∧ t.trip.flt = s.trip.flt ∧ t.trip.gdl = s.trip.gdl ∧ Changes [.trip] s t)
  ∧ (∀ (t0 : Nat) (s : State), s.up = true → s.trip.dis.dchgSince = some t0 → t0 + s.cfg.u 0x5060 7 * 200000 ≤ s.now →
    exec .dchgTimeout s = .next { s with trip := { s.trip with dis := { s.trip.dis with
      dchgSince := none, timeout := true, lockUntil := some (s.now + 10 * (s.cfg.u 0x5060 7 * 200000)) } } })
  ∧ (∀ (e : Nat) (s : State), s.up = true → s.trip.dis.lockUntil = some e → e ≤ s.now → s.trip.dis.dchgWait = true →
    s.trip.dis.running = true → s.trip.dis.dchgSince = none →
    exec .dchgLockEnd s = .next { s with trip := { s.trip with dis := { s.trip.dis with
      lockUntil := none, dchgSince := some s.now, dchgWait := false } } })
  ∧ (∀ (e : Nat) (s : State), s.up = true → s.trip.dis.lockUntil = some e → e ≤ s.now → s.trip.dis.dchgWait = false →
    exec .dchgLockEnd s = .next { s with trip := { s.trip with dis := { s.trip.dis with lockUntil := none } } }))

/-- R160 to R163: a transfer's end: the link's own state, the response word of a request, and code 0x13 where a cyclic entry fails for the third time.
-/
def Obligations.LinkTransfers : Prop :=
  ∀ (link : Nat) (rx : List Nat) (s : State), link < s.trip.gdl.length → s.linksOn = true → (nth s.trip.gdl link {}).busy = true →
    ∃ t, exec (.gdlTransferDone link rx) s = .next t
      ∧ nth t.trip.gdl link {} = (gdlDone s.cfg link rx (nth s.trip.gdl link {})).1
      ∧ (∀ w, (gdlDone s.cfg link rx (nth s.trip.gdl link {})).2.2 = some w → t.trip.gdlLast = w)
      ∧ ((gdlDone s.cfg link rx (nth s.trip.gdl link {})).2.1 = false →
          t.fault = s.fault ∧ Changes [.dev, .trip, .canc, .diag, .flash] s t)
      ∧ (∀ k, k ≠ link → nth t.trip.gdl k {} = nth s.trip.gdl k {})

/-- R165, R168, R186: a block boundary moves the grid; an overrun replaces the oldest waiting block; an alignment shift moves a stream by one sample.
-/
def Obligations.HearthBlocks : Prop :=
  (∀ (pdm : List (List Bool)) (s : State), s.gridRuns = true →
    ∃ t, exec (.hearthBlockBoundary pdm) s = .next t
      ∧ (t.dev.state = s.dev.state →
          t.hearth.n = s.hearth.n + 1 ∧ t.hearth.cairn = s.now ∧ t.hearth.delta = (s.hearth.nextBlock s.now).delta)
      ∧ Reports [.dev, .active, .staged, .token, .commit, .persist, .table, .sense, .mod, .trip, .hearth, .canc, .loads, .diag, .audio, .crust, .hk, .chain] s t)
  ∧ (∀ s : State, s.working = true → s.hearth.running = true →
    exec .blockOverrun s = .next { s with hearth := s.hearth.overrunBlock })
  ∧ (∀ (k : Nat) (x y : RxStream) (rep : Bool) (s : State), s.working = true → s.inputStream (s.shiftSource k) = some x → x.shift = some (y, rep) →
    ∃ t, exec (.alignmentShift k) s = .next t
      ∧ t.hearth = { s.hearth with
          shifts := add32 s.hearth.shifts (s.hearth.inputs.filter (fun i => i.src / 256 == s.shiftSource k / 256)).length
          alignShift := s.hearth.alignShift || decide (0 < (s.hearth.inputs.filter (fun i => i.src / 256 == s.shiftSource k / 256)).length) }
      ∧ Changes [.hearth, .audio] s t)

/-- R191, R197, R199: the accelerometer reads, an identification point, and the end of a DIVERGED hold. R204, R214: every 100 ms an estimate of a voice coil's
resistance, which counts only where both paths deliver and the rms of the current exceeds its minimum. -/
def Obligations.CancellationEvents : Prop :=
  ((∀ (n : Nat) (s : State), s.working = true → accRate (s.cfg.u 0x7180 (n + 1)) ≠ 0 → (nth s.canc.acc n {}).reading = none →
    exec (.accReadStart n) s
      = .next { s with canc := { s.canc with acc := upd s.canc.acc n (fun _ =>
        { nth s.canc.acc n {} with reading := some s.now, command := s.cfg.u 0x7180 (4 + n) }) } })
  ∧ (∀ (n t0 : Nat) (s : State), s.working = true → accRate (s.cfg.u 0x7180 (n + 1)) ≠ 0 → (nth s.canc.acc n {}).reading = some t0 →
    ∃ t, exec (.accReadStart n) s = .next t ∧ t.canc.skips = inc32 s.canc.skips ∧ (∀ k, nth t.canc.acc k {} = nth s.canc.acc k {})
      ∧ Changes [.canc] s t)
  ∧ (∀ (n : Nat) (bytes : List Nat) (s : State), s.up = true →
    exec (.accReadDone n bytes) s
      = .next { s with canc := { s.canc with acc := upd s.canc.acc n (fun p => p.done (bit (s.cfg.u 0x7180 6) n) bytes) } })
  ∧ (∀ s : State, s.gridRuns = true → s.canc.ident.running = true →
    ∃ t, exec .identPointDone s = .next t
      ∧ (∃ table ending, t.canc = { s.canc with ident :=
          { (s.canc.ident.pointDone (identAmp s.cfg (s.dev.state == 5))).1 with table := table, ending := ending } })
      ∧ (t.canc.ident.running = false → t.diag.tap.done = true ∧ t.diag.tap.completed = inc32 s.diag.tap.completed)
      ∧ Changes [.dev, .canc, .diag, .flash] s t)
  ∧ (∀ (m k : Nat) (s : State), s.working = true →
    exec (.divergedHoldEnd m k) s = .next { s with canc := { s.canc with m := upd s.canc.m m (fun x =>
      { x with orders := upd x.orders k (fun o => holdEnd s.cfg m k (s.cancEnv m) (s.canc.sensorLost s.cfg m) o) }) } }))
  ∧ (∀ (k : Nat) (s : State), s.working = true → (nth s.loads (k + 2) {}).trackFrom + 20000000 ≤ s.now →
    let x := nth s.loads (k + 2) {}
    let least := s.cfg.f (0x8012 + k) 0x15
    exec (.speakerResistanceEstimate k) s = .next { s with loads := upd s.loads (k + 2) (fun y =>
      if s.pathDelivers (28 + 2 * k) = true ∧ s.pathDelivers (29 + 2 * k) = true ∧ least * least * (x.trackN : Rat) < x.trackIi then
        (y.track s.cfg (k + 2) s.now (x.trackVi / x.trackIi)).trackAnew s.now
      else y.trackAnew s.now) })

/-- R222 to R233: a tap test's step, the monitors' windows, and the end of a test signal's duration. -/
def Obligations.DiagnosisEvents : Prop :=
  (∀ s : State, s.gridRuns = true → s.diag.tap.running = true →
    ∃ t, exec .tapStepDone s = .next t
      ∧ (let l := s.diag.tap.load
         let amp := mkRat (s.cfg.u 0x8040 4) (if s.dev.state = 5 then 4000 else 1000) * iBase s.cfg l
         let still := (s.crustSpeed l).2 && decide (absR (s.crustSpeed l).1 < s.cfg.f 0x8040 7)
         let tap := s.diag.tap.stepDone s.cfg s.now amp still (s.tapAngle l).1 (s.tapAngle l).2 (motorCeiling s.cfg l) (s.tapTemp l)
         t.diag = { s.diag with tap := tap })
      ∧ Changes [.dev, .diag, .flash] s t)
  ∧ (∀ (m : Nat) (s : State), s.dev.state = 5 → (PassiveMon.driftEnd s.cfg m (nth s.diag.mon m {})).2 = none →
    exec (.driftWindowEnd m) s
      = .next { s with diag := { s.diag with mon := upd s.diag.mon m (fun _ => (PassiveMon.driftEnd s.cfg m (nth s.diag.mon m {})).1) } })
  ∧ (∀ (m : Nat) (x : Rat) (s : State), s.dev.state = 5 → (PassiveMon.driftEnd s.cfg m (nth s.diag.mon m {})).2 = some x →
    ∃ t, exec (.driftWindowEnd m) s = .next t
      ∧ t.diag = { s.diag with mon := upd s.diag.mon m (fun _ => (PassiveMon.driftEnd s.cfg m (nth s.diag.mon m {})).1) }
      ∧ t.loads = upd s.loads m (fun l => l.track t.cfg m s.now x) ∧ Changes [.diag, .loads] s t)
  ∧ (∀ (m : Nat) (s : State), s.dev.state = 5 →
    exec (.imbalanceWindowEnd m) s = .next { s with diag := { s.diag with mon := upd s.diag.mon m (fun x =>
      x.imbalanceEnd s.cfg (phaseCount s.cfg m) (iBase s.cfg m)) } })
  ∧ (∀ s : State, s.diag.sig.running = true → s.cfg.u 0xE010 7 ≠ 0 → s.cfg.u 0xE010 7 ≤ (s.frame.fn + 2 ^ 32 - s.diag.sig.startFn) % 2 ^ 32 →
    exec .testSignalDurationEnd s = .next { s with diag := { s.diag with sig := s.diag.sig.stop 1 } })

/-- R240 to R259: the audio serial ports, the microphones' wake, and the listeners. -/
def Obligations.AudioEvents : Prop :=
  (∀ (n : Nat) (cycles : List BitCycle) (s : State), s.working = true →
    aspFormat (nth s.audio.asp n {}).run = 0 ∨ aspStarts (nth s.audio.asp n {}).run cycles = true →
    ∃ t, exec (.aspFrame n cycles) s = .next t
      ∧ t = ((((s.setPort n ((nth s.audio.asp n {}).ended s.grid s.now cycles)).aspSettings n).aspLeadOut n).aspSend n)
      ∧ (s.commit.pending = [] → s.commit.writes = [] →
          (∀ k, k ≠ n → nth t.audio.asp k {} = nth s.audio.asp k {}) ∧ t.audio.lis = s.audio.lis ∧ t.audio.tal = s.audio.tal ∧ t.hearth = s.hearth
          ∧ (n < s.audio.asp.length →
              let p := (nth s.audio.asp n {}).ended s.grid s.now cycles
              let f := aspInForce s.cfg n
              nth t.audio.asp n {} = ((p.settings s.now f.1 f.2.1 f.2.2).leadOutEnd f.2.1 f.2.2).send s.now (s.hearth.pos s.now - 64)
                (fun k i => s.hearth.tapAt k i) (fun k => s.cfg.u (0x7204 + 16 * n) (k + 1))))
      ∧ Changes [.active, .staged, .commit, .persist, .sense, .mod, .trip, .hearth, .canc, .loads, .diag, .audio, .crust, .hk, .chain] s t)
  ∧ (∀ (n : Nat) (cycles : List BitCycle) (s : State), aspFormat (nth s.audio.asp n {}).run ≠ 0 →
    aspStarts (nth s.audio.asp n {}).run cycles = false → exec (.aspFrame n cycles) s = .next s)
  ∧ (∀ (n : Nat) (s : State), s.working = true → (nth s.audio.asp n {}).phase = 1 → 32 ≤ (nth s.audio.asp n {}).count → n < s.audio.asp.length →
    exec (.leadInEnd n) s = .next { s with audio := { s.audio with asp := upd s.audio.asp n (fun _ =>
      (nth s.audio.asp n {}).leadInEnd.send s.now (s.hearth.pos s.now - 64) (fun k i => s.hearth.tapAt k i)
        (fun k => s.cfg.u (0x7204 + 16 * n) (k + 1))) } }
      ∧ (nth s.audio.asp n {}).leadInEnd.phase = 2)
  ∧ (∀ (n : Nat) (s : State), s.working = true →
    exec (.leadOutEnd n) s
        = .next { s with audio := { s.audio with asp := upd s.audio.asp n (fun _ =>
            (nth s.audio.asp n {}).leadOutEnd (aspInForce s.cfg n).2.1 (aspInForce s.cfg n).2.2) } }
      ∧ exec (.aspClockLoss n) s
        = .next { s with audio := { s.audio with asp := upd s.audio.asp n (fun _ => (nth s.audio.asp n {}).clockLoss s.now) } })
  ∧ (∀ (k t0 : Nat) (s : State), s.working = true → nth s.audio.micWake k none = some t0 → t0 ≤ s.now →
    exec (.pdmWakeEnd k) s = .next { s with audio := { s.audio with micWake := upd s.audio.micWake k (fun _ => none) } })
  ∧ (∀ (n backlog : Nat) (p : AafPdu) (s : State), s.working = true → 32 ≤ backlog →
    exec (.listenerPdu n backlog p) s = .next { s with net := { s.net with received := inc32 s.net.received, drops := upd s.net.drops (3 + n) inc32 } })
  ∧ (∀ (n backlog : Nat) (p : AafPdu) (s : State), s.working = true → backlog < 32 → s.cfg.b (0x7260 + n) 1 = true → s.net.gptp.present = true →
    s.audio.gptpSeen = true →
    exec (.listenerPdu n backlog p) s = .next { s with
      net := { s.net with received := inc32 s.net.received }
      audio := { s.audio with lis := upd s.audio.lis n (fun l =>
        l.pdu { n := s.hearth.n, cairn := s.hearth.cairn, delta := s.hearth.delta } (s.cfg.u (0x7260 + n) 2) (s.cfg.u (0x7260 + n) 4) s.now
          (s.frame.gptpOffset : Int) p) } })
  ∧ (∀ (n : Nat) (s : State), s.working = true →
    exec (.listenerTimeout n) s = .next { s with audio := { s.audio with lis := upd s.audio.lis n (fun l =>
      if l.receiving = true ∧ 4 ≤ l.idle then l.stop s.now else l) } })

/-- R260 to R282: a sample of the safety inputs, and a Crust cycle on which no setting waits and no stored pair is damaged. R277, R278: Crust's
watchdogs: without the vote's heartbeat BEDROCK with cause 6, without Hearth's code 0x15 and a closed gate. -/
def Obligations.CrustEvents : Prop :=
  ((∀ (sin : Nat) (srst rbh rbl : Bool) (s : State), s.dev.npor = true → s.dev.nrst = true → 2 ≤ s.dev.state →
    exec (.crustInputSample sin srst rbh rbl) s = .next { s with crust := s.crust.sample s.cfg sin srst rbh rbl })
  ∧ (∀ s : State, s.up = true → s.commit.pending = [] → s.commit.writes = [] → s.active.damaged = false →
    s.active2.damaged = false →
    ∃ t, exec .crustCycle s = .next t
      ∧ (t.dev.state = s.dev.state →
          t.crust = (CrustState.cycle s.cfg s.crustEnv
              { s.crust with hostReq := if s.dev.state = 7 then 0 else s.cfg.pv 0x9000 6 }).1.tone s.cfg (s.dev.state == 7)
            ((s.trip.group 2).active != 0 || s.fault.hardLimit))
      ∧ t.hk = { s.hk with safeInUse := nth s.hk.trims 0 0 } ∧ t.active = s.active
      ∧ Reports [.dev, .trip, .canc, .diag, .crust, .hk] s t)
  ∧ (∀ (n : Nat) (s : State), s.up = true → n < s.crust.tpFrom.length → s.crust.testPulseDue s.cfg n = true →
    ∃ t, exec (.testPulse n) s = .next t ∧ t.crust = s.crust.testPulse s.cfg n ∧ nth t.crust.tpFrom n none = some s.crust.usec
      ∧ (∀ k, k ≠ n → nth t.crust.tpFrom k none = nth s.crust.tpFrom k none) ∧ Changes [.crust] s t)
  ∧ (∀ s : State, s.up = true → (s.crust.srst.long s.crust.usec).2 = true →
    exec .srstStuck s = .next (State.logEvent 8 (toBytes 4 ((s.crust.usec - (s.crust.srst.long s.crust.usec).1.rise) / 1000))
      { s with crust := { s.crust with srst := (s.crust.srst.long s.crust.usec).1 } })))
  ∧ ((∀ s : State, s.up = true → s.dev.state ≠ 7 → s.crust.armed = true → s.crust.laneWd = false →
    s.crust.laneLate s.now (nth s.mod.m 0 {}).period = true →
    ∃ t, exec .laneWatchdogExpiry s = .next t ∧ t.dev.state = 7 ∧ t.crust.laneWd = true ∧ t.crust.laneExpiries = inc32 s.crust.laneExpiries
      ∧ t.fault.cause = 0x600 ∧ Changes faultParts s t)
  ∧ (∀ s : State, s.working = true → s.crust.gateClosed = false → s.crust.hearthLate s.now = true →
    exec .hearthWatchdogExpiry s = .next (State.raise (.fault 0x15 0 0) { s with crust := s.crust.hearthExpire }))
  ∧ (∀ s : State, s.working = true → s.crust.gateClosed = true → 64 ≤ s.crust.onTime →
    exec .hearthGateReopen s = .next { s with crust := { s.crust with gateClosed := false, gateRamp := some s.now, hearthWd := false } }))

/-- R284: once safe-off has waited its maximum, and no off-pulse runs, both switches are commanded off. R286: a step of the readback test ends it where a
sample was wrong, or after the fourth step, and else commands the next step's levels. R287, R292: an off-pulse switches one of the two switches off, in
turn; at its end both are on again, the switch that did not fall is stuck on and a fault, and a pass clears SAFE_OFF once none is. -/
def Obligations.SafeOffEvents : Prop :=
  (∀ (w : Nat) (s : State), s.up = true → s.crust.soff.waitFrom = some w → w + s.cfg.pv 0x9030 5 * 1000 ≤ s.crust.usec → s.crust.soff.pulse = none →
    exec .safeOffMaxWait s
        = .next { s with crust := { s.crust with soff := ({ s.crust.soff with released := true } : SafeOff).command s.crust.usec false false } })
  ∧ (∀ (k : Nat) (s : State), s.up = true → s.crust.soff.test = some k → s.crust.soff.testFrom + 1940 ≤ s.crust.usec →
    ∃ t x, exec .safeOffTestStepEnd s = .next t ∧ t = { s with crust := { s.crust with soff := x } }
      ∧ (s.crust.soff.testBad = true → x.test = none ∧ x.testFail = true ∧ x.testPass = s.crust.soff.testPass ∧ x.hCmd = false ∧ x.lCmd = false)
      ∧ (s.crust.soff.testBad = false → k = 4 → x = { s.crust.soff with test := none, testPass := true })
      ∧ (s.crust.soff.testBad = false → k ≠ 4 → x.test = some (k + 1) ∧ x.testFrom = s.crust.usec
          ∧ x.hCmd = (k + 1 == 2 || k + 1 == 4) ∧ x.lCmd = (k + 1 == 3 || k + 1 == 4)))
  ∧ (∀ (b : Nat) (s : State), s.working = true → s.crust.soff.bothOnFrom = some b → s.crust.soff.hCmd = true → s.crust.soff.lCmd = true →
    s.crust.soff.pulse = none → s.crust.soff.test = none → b + s.cfg.pv 0x9030 2 * 970000 ≤ s.crust.usec →
    ∃ t x, exec .offPulseStart s = .next t ∧ t = { s with crust := { s.crust with soff := x } }
      ∧ x.pulse = some s.crust.soff.nextLow ∧ x.pulseFrom = s.crust.usec ∧ x.hCmd = s.crust.soff.nextLow ∧ x.lCmd = !s.crust.soff.nextLow)
  ∧ (∀ (low : Bool) (s : State), s.up = true → s.crust.soff.pulse = some low → s.crust.soff.pulseFrom + s.cfg.pv 0x9030 3 * 97 / 100 ≤ s.crust.usec →
    ∃ x : SafeOff, x.pulse = none ∧ x.nextLow = !low ∧ x.pulses = inc32 s.crust.soff.pulses ∧ x.hCmd = true ∧ x.lCmd = true
      ∧ x.hStuck = (if low then s.crust.soff.hStuck else !s.crust.soff.pulseFell) ∧ x.lStuck = (if low then !s.crust.soff.pulseFell else s.crust.soff.lStuck)
      ∧ exec .offPulseEnd s = .next
        (if s.crust.soff.pulseFell = false ∧ (if low then s.crust.soff.lStuck else s.crust.soff.hStuck) = false then
           State.raise (.fault 0x19 24 0) { s with crust := { s.crust with soff := x } }
         else if s.crust.soff.pulseFell = true ∧ x.hStuck = false ∧ x.lStuck = false then
           { s with crust := { s.crust with soff := x }, fault := { s.fault with standing := setBit s.fault.standing 23 false } }
         else { s with crust := { s.crust with soff := x } }))

/-- R290, R292, R293, R301: a single fault is counted, recorded and logged; where its group stands already, and R293 counts it, BEDROCK is entered
with the group in the cause. -/
def Obligations.SingleFaults : Prop :=
  (∀ (code group detail : Nat) (s : State), s.fault.isSecond code group = false → code ≠ 0x10 →
    ∃ t, State.raise (.fault code group detail) s = t
      ∧ t.fault = { s.fault with
          counters := upd s.fault.counters (code - 1) inc32, single := inc32 s.fault.single
          last := code * 2 ^ 24 + group * 2 ^ 16 + faultDetail code detail, lastFn := s.frame.fn, lastTime := s.now
          standing := if 1 ≤ group ∧ group ≤ 24 then setBit s.fault.standing (group - 1) true else s.fault.standing }
      ∧ Changes [.fault, .flash] s t)
  ∧ (∀ (code group detail : Nat) (s : State), s.fault.isSecond code group = true → s.up = true → s.dev.state ≠ 7 →
    (State.raise (.fault code group detail) s).dev.state = 7 ∧ (State.raise (.fault code group detail) s).fault.cause = 0x100 + group)

/-- R294, R296, R298, R299: a fault of Crust's own parts, and what BEDROCK entry leaves: every group locked, both modes 0, the host's sessions closed,
no commit pending, and the cause with its frame number and time. R288, R290, R299: the BEDROCK tone and status frame, and the reset service cores. -/
def Obligations.BedrockFunctions : Prop :=
  (∀ (kind : CrustFaultKind) (s : State), s.up = true → s.dev.state ≠ 7 →
    ∃ t, exec (.crustFault kind) s = .next t ∧ t.dev.state = 7 ∧ t.fault.cause = 0x700 ∧ t.fault.causeFn = s.frame.fn ∧ t.fault.causeTime = s.now
      ∧ (∀ g ∈ t.trip.g, g.state = 5) ∧ t.ctl = s.ctl.map MachCtl.off ∧ t.staged = s.active ∧ t.commit.pending = []
      ∧ (∀ k x, k < 16 → t.session k = some x → x.iface = 3) ∧ t.crust.soff.test = none ∧ t.crust.soff.pulse = none
      ∧ Changes faultParts s t)
  ∧ ((∀ s : State, s.up = true → s.dev.state = 7 → exec .bedrockToneAlternation s = .next { s with crust := s.crust.toneAlternate s.cfg })
  ∧ (∀ s : State, s.up = true → s.dev.state = 7 → nth s.net.canBusOff 0 false = false → s.fault.frameTime + 20000000 ≤ s.now →
    exec .bedrockStatusFrame s = .next { s with
      fault := { s.fault with frameCount := (s.fault.frameCount + 1) % 256, frameTime := s.now }
      net := { s.net with sent := [{ iface := 3, prio := s.cfg.u 0x2300 0xA
                                     bytes := s.fault.frame (s.tripStatus 0) (s.tripStatus 1) s.frameVolts s.trip.disStatus }] } })
  ∧ (∀ s : State, s.up = true →
    exec .lockstepMismatch s = .next (State.raise (.fault 0x14 0 0) { s with dev := { s.dev with coresReset := true } })
      ∧ exec .serviceCoresResume s = .next { s with dev := { s.dev with coresReset := false } }))

/-- R304 to R307: the end of a housekeeping round, a slot's conversion, and an event slot group. R317, R318, R319: THERMAL STOP at the confirmed
threshold and at the hard limit, and its release. -/
def Obligations.ThermalEvents : Prop :=
  ((∀ s : State, s.up = true → s.hk.running = true → s.now % 200000 = 0 → (s.hk.round s.cfg s.now).2.hard = false →
    s.commit.pending = [] → s.commit.writes = [] →
    ∃ t, exec .hkRoundBoundary s = .next t ∧ t.hk = (s.hk.round s.cfg s.now).1 ∧ Reports [.active, .loads, .hk] s t)
  ∧ (∀ (slot code : Nat) (s : State), s.up = true → (s.dev.state = 7 → slot < 8 ∨ s.cfg.u 0x6030 4 = slot + 1) →
    exec (.hkSlotConversion slot code) s = .next { s with hk := s.hk.convert s.cfg slot code })
  ∧ (∀ (codes : List Nat) (s : State), s.full = true →
    exec (.eventSlotGroup codes) s = .next { s with hk := s.hk.eventGroup s.cfg s.now codes }))
  ∧ ((∀ s : State, s.up = true → s.hk.hot = true → s.dev.state ≤ 6 →
    ∃ t, exec .thermalStopEntry s = .next t ∧ t.dev.state = 8 ∧ t.hk.stopAt = 1 ∧ t.hk.stops = inc32 s.hk.stops ∧ t.ctl = s.ctl.map MachCtl.off
      ∧ (∀ g ∈ t.trip.g, bit g.inhibit 29 = true) ∧ t.hearth = s.hearth.halt ∧ t.commit = s.commit ∧ t.active = s.active
      ∧ Changes [.mode, .dev, .persist, .ctl, .trip, .hearth, .canc, .loads, .diag, .audio, .crust, .hk, .chain, .flash] s t)
  ∧ (∀ s : State, s.up = true → s.hk.running = true → s.now % 200000 = 0 → (s.hk.round s.cfg s.now).2.hard = true →
    (s.hk.round s.cfg s.now).2.excluded = [] → s.dev.state ≤ 6 → s.loads.all (fun x => !x.running) = true → s.active.damaged = false →
    s.active2.damaged = false → s.commit.pending = [] → s.commit.writes = [] → s.cfg.u 0x6030 4 = 0 →
    ∃ t, exec .hkRoundBoundary s = .next t ∧ t.dev.state = 8 ∧ t.hk.stopAt = 2)
  ∧ (∀ s : State, s.up = true → s.dev.state = 8 → s.hk.stopAt = 1 → s.hk.hot = false →
    ∃ t, exec .thermalStopRelease s = .next t ∧ t.dev.state = 4 ∧ t.hk = { s.hk with stopAt := 0, hardSeen := false }
      ∧ (∀ g ∈ t.trip.g, bit g.inhibit 29 = false) ∧ t.ctl = s.ctl ∧ t.active = s.active
      ∧ Changes [.mode, .dev, .trip, .hearth, .canc, .loads, .diag, .audio, .crust, .hk, .flash] s t))

/-- R346, R354: an item's answer leaves the queue for the response, which goes out with the last answer of its request. -/
def Obligations.ItemAnswered : Prop :=
  (∀ (k : Nat) (a : Answer) (s : State), (s.answer k a).net.answers = [a] ∧ Changes answerParts s (s.answer k a))
  ∧ (∀ (k : Nat) (a : Answer) (x : Session) (r : Request) (rest : List Request) (i j : YItem) (l : List YItem) (s : State),
    s.session k = some x → x.queue = r :: rest → r.items = i :: j :: l → State.executable r.image j = true →
    (s.answer k a).session k = some { x with queue := { r with items := j :: l, resp := r.resp ++ [a] } :: rest }
      ∧ (s.answer k a).net.sent = s.net.sent ∧ (s.answer k a).table.aborts = (if a.abort = 0 then s.table.aborts else inc32 s.table.aborts))
  ∧ (∀ (k : Nat) (a : Answer) (x : Session) (r : Request) (i : YItem) (s : State),
    s.session k = some x → x.queue = [r] → r.items = [i] → r.tail = [] → (∀ b ∈ r.resp ++ [a], b.opcode ≠ 0x11 ∧ b.key / 256 ≠ 0x1410) →
    let parts := packItems (frameRoom r.iface x.authenticated) ((r.resp ++ [a]).map Answer.bytes)
    (s.answer k a).session k = some { x with queue := [], ownSeq := x.ownSeq + parts.length }
      ∧ ∃ out, (s.answer k a).net.sent = s.net.sent ++ out ∧ out.length = parts.length ∧ ∀ f ∈ out, f.iface = r.iface)

/-- R329, R333, R335: a READ item is answered with its object's value, or with the first abort that applies; nothing else changes. -/
def Obligations.ReadAnswers : Prop :=
  (∀ (k idx sub : Nat) (x : Session) (i : YItem) (s : State), s.session k = some x → x.front = some i → i.opcode = 1 → i.idx * 256 + i.sub = objKey idx sub →
    ∃ t, exec (.readItem k idx sub) s = .next t
      ∧ t.net.answers = [State.reply 1 (objKey idx sub) k (s.fresh.readAbort (objKey idx sub)) false
          (if (s.fresh.readAbort (objKey idx sub)).isNone then s.fresh.readData k (objKey idx sub) (x.viewActive == 1) else [])]
      ∧ Changes answerParts s t)
  ∧ (∀ (key : Nat) (s : State), s.readAbort key = none ↔
      4 ≤ s.dev.state ∧ State.objectAbort key = none ∧ (∀ r, findRow key = some r → r.acc ≠ .wo) ∧ (s.dev.state = 7 → bedrockReads key = true))
  ∧ (∀ (key : Nat) (s : State), s.dev.state < 4 → s.readAbort key = some .notReady)

/-- R355, R391: a segment of a BLOB is read from OFFSET, in the bytes that MAXLEN and the frame hold, and carries LAST with the BLOB's last byte.
R332, R355: a segment of a BLOB: the first opens the transfer, a later one extends it, the last one ends it with the object's new content; a refused
segment that is out of sequence or range drops it. -/
def Obligations.BlobSegments : Prop :=
  ((∀ (k idx sub offset maxLen : Nat) (x : Session) (i : YItem) (s : State), s.session k = some x → x.front = some i →
    State.isReadSeg (objKey idx sub) offset maxLen i = true → s.fresh.readSegRefusal (objKey idx sub) i = none →
    ∃ t r, exec (.readSeg k idx sub offset maxLen) s = .next t
      ∧ r = s.fresh.readSegment k (objKey idx sub) offset maxLen (x.viewActive == 1)
      ∧ t.net.answers = [State.reply 3 (objKey idx sub) k r.1 r.2.1 (toBytes 4 offset ++ r.2.2.1)] ∧ Changes (.diag :: answerParts) s t)
  ∧ (∀ (k idx sub offset maxLen : Nat) (x : Session) (i : YItem) (a : Abort) (s : State), s.session k = some x → x.front = some i →
    State.isReadSeg (objKey idx sub) offset maxLen i = true → s.fresh.readSegRefusal (objKey idx sub) i = some a →
    ∃ t, exec (.readSeg k idx sub offset maxLen) s = .next t ∧ t.net.answers = [State.reply 3 (objKey idx sub) k (some a) false []]
      ∧ Changes answerParts s t)
  ∧ (∀ (k key offset maxLen : Nat) (view : Bool) (s : State), key ≠ objKey 0xE002 1 → key ≠ objKey 0xB200 1 → key ≠ objKey 0xB400 1 →
    offset ≤ (s.blobValue view key).length →
    let r := s.readSegment k key offset maxLen view
    r.1 = none ∧ r.2.2.1 = ((s.blobValue view key).drop offset).take (min maxLen (s.room k - 4))
      ∧ (r.2.1 = true ↔ (s.blobValue view key).length ≤ offset + r.2.2.1.length)))
  ∧ ((∀ (k idx sub : Nat) (last : Bool) (data : List Byte) (x : Session) (i : YItem) (s : State), s.session k = some x → x.front = some i →
    State.isWriteSeg (objKey idx sub) 0 last data i = true → s.fresh.segRefusal k (objKey idx sub) 0 last data x i = none →
    objKey idx sub ≠ State.imageKey →
    exec (.writeSeg k idx sub 0 last data) s = .next
      (State.answer k (State.reply 4 (objKey idx sub) k none false [])
        (if last then (s.fresh.dropTransfer k (objKey idx sub)).storeBlob k (objKey idx sub) data
         else { s.fresh with table := { s.table with transfers := s.table.transfers.filter (fun t => !(t.key == objKey idx sub && t.session == k))
              ++ [{ key := objKey idx sub, session := k, bytes := data, time := s.now }] } })))
  ∧ (∀ (k idx sub offset : Nat) (last : Bool) (data : List Byte) (x : Session) (i : YItem) (tr : Transfer) (s : State), s.session k = some x →
    x.front = some i → State.isWriteSeg (objKey idx sub) offset last data i = true →
    s.fresh.segRefusal k (objKey idx sub) offset last data x i = none → objKey idx sub ≠ State.imageKey → offset ≠ 0 →
    s.transfer k (objKey idx sub) = some tr →
    exec (.writeSeg k idx sub offset last data) s = .next
      (State.answer k (State.reply 4 (objKey idx sub) k none false [])
        (if last then (s.fresh.dropTransfer k (objKey idx sub)).storeBlob k (objKey idx sub) (tr.bytes ++ data)
         else { s.fresh with table := { s.table with transfers := s.table.transfers.filter (fun t => !(t.key == objKey idx sub && t.session == k))
              ++ [{ key := objKey idx sub, session := k, bytes := tr.bytes ++ data, time := s.now }] } })))
  ∧ (∀ (k idx sub offset : Nat) (last : Bool) (data : List Byte) (x : Session) (i : YItem) (a : Abort) (s : State), s.session k = some x →
    x.front = some i → State.isWriteSeg (objKey idx sub) offset last data i = true →
    s.fresh.segRefusal k (objKey idx sub) offset last data x i = some a →
    exec (.writeSeg k idx sub offset last data) s = .next
      ((if State.segDrops a then s.fresh.dropTransfer k (objKey idx sub) else s.fresh).answer k (State.reply 4 (objKey idx sub) k (some a) false [])))
  ∧ (∀ (idx sub : Nat) (s : State), ∃ t, exec (.blobTransferTimeout idx sub) s = .next t
      ∧ t.table.transfers = s.table.transfers.filter (fun x => !(x.key == objKey idx sub && decide (x.time + 200000000 ≤ s.now)))
      ∧ Changes [.table] s t))

/-- R33, R37, R327, R330, R335: what an accepted WRITE of a staged, a persisted, a basic, a status or a BLOB object does, and that a refused one leaves its
object unchanged. -/
def Obligations.WriteItems : Prop :=
  (∀ (k idx sub : Nat) (data : List Byte) (r : ObjRow) (s : State), Accepted k (objKey idx sub) data s → findRow (objKey idx sub) = some r →
    r.ty.isBlob = false → r.acc = .rws → (∀ m, r.rng ≠ .flags m) →
    exec (.writeItem k idx sub data) s
      = .next (((s.fresh.stage (objKey idx sub) (storedRaw r.ty (ofBytes data))).starterStaged (objKey idx sub)).acked k (objKey idx sub)))
  ∧ (∀ (k idx sub : Nat) (data : List Byte) (r : ObjRow) (s : State), Accepted k (objKey idx sub) data s → findRow (objKey idx sub) = some r →
    r.ty.isBlob = false → r.acc = .rwp → (∀ m, r.rng ≠ .flags m) →
    exec (.writeItem k idx sub data) s
      = .next (((s.fresh.putActive (objKey idx sub) (storedRaw r.ty (ofBytes data))).moveToken).acked k (objKey idx sub)))
  ∧ (∀ (k idx sub : Nat) (data : List Byte) (r : ObjRow) (s : State), Accepted k (objKey idx sub) data s → findRow (objKey idx sub) = some r →
    r.ty.isBlob = false → r.acc = .rw → (∀ m, r.rng ≠ .flags m) → objKey idx sub ≠ objKey 0x2100 8 → objKey idx sub ≠ objKey 0x2100 9 →
    exec (.writeItem k idx sub data) s = .next ((s.fresh.acceptWrite (objKey idx sub) (storedRaw r.ty (ofBytes data))).acked k (objKey idx sub)))
  ∧ (∀ (k idx sub : Nat) (data : List Byte) (m : Nat) (r : ObjRow) (s : State), Accepted k (objKey idx sub) data s → findRow (objKey idx sub) = some r →
    r.ty.isBlob = false → r.acc ≠ .wo → r.rng = .flags m →
    exec (.writeItem k idx sub data) s
      = .next ((s.fresh.acceptAction (objKey idx sub) (storedRaw r.ty (ofBytes data) &&& flagsClear (objKey idx sub))).acked k (objKey idx sub)))
  ∧ (∀ (k idx sub : Nat) (data : List Byte) (r : ObjRow) (s : State), Accepted k (objKey idx sub) data s → findRow (objKey idx sub) = some r →
    r.ty.isBlob = true → objKey idx sub / 256 ∉ [0x1410, 0xB401, 0xB501] →
    exec (.writeItem k idx sub data) s
      = .next (((s.fresh.dropTransfer k (objKey idx sub)).stageBlob (objKey idx sub) data).acked k (objKey idx sub)))
  ∧ (∀ (k idx sub : Nat) (data : List Byte) (x : Session) (a : Abort) (s : State), s.session k = some x → s.atFront k 2 (objKey idx sub) data = true →
    s.fresh.writeAbort k x.level (objKey idx sub) data = some a →
    ∃ t, exec (.writeItem k idx sub data) s = .next t ∧ t.net.answers = [State.reply 2 (objKey idx sub) k (some a) false []]
      ∧ Changes answerParts s t)

/-- R335: the checks of a write in the order of Table 16-5: an abort is answered only where no check before it fails. -/
def Obligations.WriteChecksInOrder : Prop :=
  ∀ (k level key : Nat) (data : List Byte) (s : State),
    (s.dev.state < 4 → s.writeAbort k level key data = some .notReady)
    ∧ (4 ≤ s.dev.state → maxSub (key / 256) = 0 → s.writeAbort k level key data = some .noObject)
    ∧ (∀ r, 4 ≤ s.dev.state → maxSub (key / 256) ≠ 0 → findRow key = some r →
      (r.acc = .ro → s.writeAbort k level key data = some .access)
      ∧ (r.acc ≠ .ro → s.levelOk level key = false → s.writeAbort k level key data = some .level)
      ∧ (s.writeAbort k level key data = some .type → State.typeBad r data = true ∧ s.levelOk level key = true ∧ r.acc ≠ .ro)
      ∧ (s.writeAbort k level key data = some .busy → State.typeBad r data = false ∧ s.levelOk level key = true)
      ∧ (s.writeAbort k level key data = some .complement → pairOk (ofBytes data) = false ∧ s.busyFor k key (ofBytes data) level = false)
      ∧ (s.writeAbort k level key data = some .range → State.complementBad r (ofBytes data) = false ∧ State.typeBad r data = false)
      ∧ (s.writeAbort k level key data = some .state → s.rangeBad key r data = false ∧ State.complementBad r (ofBytes data) = false)
      ∧ (s.writeAbort k level key data = some .groupPending → s.stateOk key r (storedRaw r.ty (ofBytes data)) level = true ∧ s.rangeBad key r data = false))
    ∧ (s.writeAbort k level key data = none → 1 ≤ level ∧ (0x400 ≤ key / 256 % 0x1000 → 2 ≤ level) ∧ (key / 256 = 0x1410 → 3 ≤ level)
      ∧ (0xB400 ≤ key / 256 → key / 256 ≤ 0xBFFF → 3 ≤ level ∨ (2 ≤ level ∧ s.dev.state = 6)))

/-- R35, R36, R83, R131, R156, R326: the basic writes of a position source, a control mode, an output enable and the discharge demand wait for their
boundary, with the token moved. -/
def Obligations.BasicWriteRows : Prop :=
  (∀ (m k : Nat) (data : List Byte) (s : State), m < 2 → Accepted k (objKey 0x6300 (m + 1)) data s →
    exec (.positionSourceSelect m k data) s = .next ((s.fresh.acceptWrite (objKey 0x6300 (m + 1)) (ofBytes data)).acked k (objKey 0x6300 (m + 1))))
  ∧ (∀ (m k : Nat) (data : List Byte) (s : State), m < 2 → Accepted k (objKey (ctlIdx m 0x3000) 1) data s →
    exec (.controlMode m k data) s = .next ((s.fresh.acceptWrite (objKey (ctlIdx m 0x3000) 1) (ofBytes data)).acked k (objKey (ctlIdx m 0x3000) 1)))
  ∧ (∀ (out key k : Nat) (data : List Byte) (s : State), (out, key) ∈ [(0, objKey 0x5000 7), (1, objKey 0x5010 7), (2, objKey 0x5020 5), (3, objKey 0x5020 6)] →
    Accepted k key data s → exec (.outputEnable out k data) s = .next ((s.fresh.acceptWrite key (ofBytes data)).acked k key))
  ∧ (∀ (k : Nat) (data : List Byte) (s : State), Accepted k (objKey 0x5060 1) data s →
    exec (.dischargeDemand k data) s = .next ((s.fresh.acceptWrite (objKey 0x5060 1) (ofBytes data)).acked k (objKey 0x5060 1)))
  ∧ (∀ (key raw : Nat) (s : State),
    ∃ parts, (s.acceptWrite key raw).commit = { s.commit with
        writes := s.commit.writes ++ parts, token := if s.commit.token = 65535 then 1 else s.commit.token + 1 }
      ∧ (∀ p ∈ parts, p.key = key ∧ p.raw = raw ∧ p.accepted = s.now) ∧ (∃ p ∈ parts, p.own = true ∧ bit p.groups (objGroup key) = true)
      ∧ (State.actsAtBoundary key = false → (s.acceptWrite key raw).acceptedStore.raw key = raw) ∧ Changes [.staged, .token, .commit] s (s.acceptWrite key raw))

/-- R413, R418, R420: an accepted state request waits for its Trough, one for the present state changes nothing, and a refused one leaves its reason
in Last refusal; Clear shutdown cause clears the retained register. -/
def Obligations.StateRequests : Prop :=
  (∀ (code k : Nat) (c : Instr) (data : List Byte) (s : State),
    (code, c) ∈ [(1, Instr.stateRequestReady k data), (2, .stateRequestRun k data), (3, .stateRequestService k data), (4, .stateRequestStandby k data)] →
    ofBytes data = code → Accepted k (objKey 0x2000 2) data s →
    exec c s = .next ((if (code, s.dev.state) ∈ [(1, 4), (2, 5), (3, 6)] then s.fresh
      else { s.fresh with dev := { s.dev with request := some { code := code, time := s.now, session := k } } }).acked k (objKey 0x2000 2)))
  ∧ (∀ (code k : Nat) (c : Instr) (data : List Byte) (x : Session) (a : Abort) (s : State),
    (code, c) ∈ [(1, Instr.stateRequestReady k data), (2, .stateRequestRun k data), (3, .stateRequestService k data), (4, .stateRequestStandby k data)] →
    ofBytes data = code → s.atFront k 2 (objKey 0x2000 2) data = true → s.session k = some x →
    s.fresh.writeAbort k x.level (objKey 0x2000 2) data = some a → s.fresh.requestReason code x.level ≠ 0 →
    exec c s = .next ({ s.fresh with dev := { s.dev with refusal := s.fresh.requestReason code x.level } }.answer k
      (State.reply 2 (objKey 0x2000 2) k (some a) false [])))
  ∧ (∀ (k : Nat) (data : List Byte) (s : State), Accepted k (objKey 0x2000 7) data s →
    exec (.clearShutdownCause k data) s = .next ({ s.fresh with dev := { s.dev with retained := 0 } }.acked k (objKey 0x2000 7)))

/-- R37, R38, R336, R338: a Commit write starts its checks and is not answered yet; Discard staged makes staged copies equal to the active ones; a
save starts on the active copies; Restore defaults erases both stored copies. R38, R42, R334: the checks end: an accepted set is pending, a rejected
one counted, with its code, group and object kept; the token moves; a host's Commit is answered with the abort of Table 16-4. -/
def Obligations.SettingsRows : Prop :=
  ((∀ (k : Nat) (data : List Byte) (s : State), Accepted k (objKey 0x2100 1) data s → s.commit.checking = none →
    exec (.commitSets k data) s = .next { s.fresh with commit := { s.commit with
      checking := some { mask := ofBytes data % 0x4000, tokenOk := ofBytes data / 65536 == s.commit.token, target := s.commit.target, session := some k } } })
  ∧ (∀ (k : Nat) (data : List Byte) (s : State), Accepted k (objKey 0x2100 3) data s →
    ∃ u : State, exec (.discardStaged k data) s = .next (u.acked k (objKey 0x2100 3))
      ∧ u.staged = Store.merge (stagedKey (ofBytes data)) s.active s.staged
      ∧ u.commit = { s.commit with token := if s.commit.token = 65535 then 1 else s.commit.token + 1 }
      ∧ (bit (ofBytes data) 12 = true → u.flash.importUser = []) ∧ Changes [.staged, .token, .flash, .net] s u)
  ∧ (∀ (k : Nat) (data : List Byte) (s : State), Accepted k (objKey 0x2110 1) data s →
    exec (.saveGroups k data) s = .next ({ s.fresh with persist := { s.persist with
      running := some (ofBytes data % 0x4000, s.active), result := 0, done := false } }.acked k (objKey 0x2110 1)))
  ∧ (∀ (k : Nat) (data : List Byte) (s : State), Accepted k (objKey 0x2110 3) data s →
    exec (.restoreDefaults k data) s = .next ({ s.fresh with persist := { s.persist with
      copies := s.persist.copies.mapIdx (fun g x => if bit (ofBytes data % 0x4000) g then (none, none) else x) } }.acked k (objKey 0x2110 3))))
  ∧ ((∀ (a : Checking) (s : State), s.commit.checking = some a →
    (s.commitEnd a).2 = (s.commitOutcome a).1
    ∧ (s.commitEnd a).1 = { s with commit := { s.commit with
        checking := none, target := 0, lastCode := (s.commitOutcome a).1, rejGroup := (s.commitOutcome a).2.1, rejObject := (s.commitOutcome a).2.2
        token := if s.commit.token = 65535 then 1 else s.commit.token + 1
        pending := if (s.commitOutcome a).1 = 0 then s.commit.pending ++ [{ mask := a.mask, target := a.target, accepted := s.now }] else s.commit.pending
        rejected := if (s.commitOutcome a).1 = 0 then s.commit.rejected else inc32 s.commit.rejected } })
  ∧ (∀ (a : Checking) (k : Nat) (i : YItem) (s : State), s.commit.checking = some a → a.session = some k → s.frontItem k = some i → i.opcode = 2 →
    i.idx * 256 + i.sub = objKey 0x2100 1 →
    exec .commitChecksDone s = .next ((s.commitEnd a).1.fresh.answer k (State.reply 2 (objKey 0x2100 1) k
      (if (s.commitOutcome a).1 = 0 then none else some (commitAbort (s.commitOutcome a).1)) false [])))
  ∧ (∀ (a : Checking) (s : State), s.commit.checking = some a → a.session = none →
    exec .commitChecksDone s = .next { (s.commitEnd a).1 with bench := { s.bench with ctcCode := (s.commitOutcome a).1 } }))

/-- R38 to R42: a set is accepted only with the token in force, groups of one boundary kind, each open in the present state and none of them pending,
a target that R40 allows, and no consistency check that fails in a group named. R38, R334: a commit that applies makes the staged values of its groups
active in both copies, and no other value; it is no longer pending. -/
def Obligations.CommittedSets : Prop :=
  (∀ (a : Checking) (s : State), (s.commitOutcome a).1 = 0 →
    a.tokenOk = true ∧ oneKind a.mask = true
    ∧ (∀ g, g < 14 → bit a.mask g = true → groupState g s.dev.state = true ∧ bit s.commit.pendingMask g = false)
    ∧ s.targetOk a.mask a.target = true
    ∧ (∀ f ∈ commitFails (s.candidate a.mask) ++ complementFails a.mask s.staged, f.groups &&& a.mask = 0))
  ∧ (∀ (p : PendCommit) (s : State), s.staged.wf = true → s.active.wf = true → s.active2.wf = true →
    (∀ key, (s.applyCommit p).active.raw key = (if stagedKey p.mask key then s.staged else s.active).raw key)
    ∧ (∀ key, (s.applyCommit p).active2.raw key = (if stagedKey p.mask key then s.staged else s.active2).raw key)
    ∧ (∀ key, (s.applyCommit p).active.blob key = (if stagedKey p.mask key then s.staged else s.active).blob key)
    ∧ (s.applyCommit p).commit = { s.commit with
        pending := s.commit.pending.erase p, lastFn := s.frame.fn, lastTime := s.now, applied := inc32 s.commit.applied }
    ∧ Changes [.active, .sense, .commit] s (s.applyCommit p))

/-- R33, R61, R114, R115, R116: the rows of a host on sensing paths, whose restoring waits for its group's boundary, and on lanes. R149, R163, R286: the rows of a host on trips, gate-driver links and the
safe-off test. -/
def Obligations.SenseAndTripRows : Prop :=
  ((∀ (k : Nat) (data : List Byte) (s : State), Accepted k (objKey 0x6020 7) data s →
    exec (.restorePaths k data) s = .next ((s.fresh.acceptAction (objKey 0x6020 7) (ofBytes data)).acked k (objKey 0x6020 7)))
  ∧ (∀ (key raw : Nat) (s : State),
    ∃ parts, s.acceptAction key raw = { s with commit := { s.commit with writes := s.commit.writes ++ parts } }
      ∧ (∀ p ∈ parts, p.key = key ∧ p.raw = raw ∧ p.accepted = s.now) ∧ (∃ p ∈ parts, p.own = true ∧ bit p.groups (objGroup key) = true))
  ∧ (∀ (w : PendWrite) (s : State), w.key = objKey 0x6020 7 →
    Changes [.sense] s (s.applyPart w) ∧ (s.applyPart w).sense.pairs = s.sense.pairs
      ∧ (∀ sd, ((s.applyPart w).sense.path sd) = (if sd < 28 ∧ bit w.raw sd = true ∧ (s.sense.path sd).failed = true
          then { s.sense.path sd with failed := false, restoring := some 0, diff := 0 } else s.sense.path sd)))
  ∧ (∀ (k : Nat) (data : List Byte) (s : State), Accepted k (objKey 0x2200 0x13) data s →
    exec (.swapActive k data) s = .next ({ s.fresh with lanes := { s.lanes with swapPending := some s.now } }.acked k (objKey 0x2200 0x13)))
  ∧ (∀ (k : Nat) (data : List Byte) (s : State), Accepted k (objKey 0x2200 0x14) data s →
    ∃ u : State, exec (.laneTestRequest k data) s = .next (u.acked k (objKey 0x2200 0x14)) ∧ Changes [.lanes, .net] s u ∧ u.net = s.fresh.net
      ∧ u.lanes.testResult = s.frame.fn % 256 * 2 ^ 24 + ofBytes data * 16
      ∧ (∀ x, x < 2 → bit (ofBytes data) x = true → (u.lanes.lane x).st = 2 ∧ (u.lanes.lane x).testing = some s.now ∧ (u.lanes.lane x).hostTest = true)
      ∧ (∀ x, x < 2 → bit (ofBytes data) x = false → u.lanes.lane x = { s.lanes.lane x with st := (u.lanes.lane x).st })
      ∧ (bit (ofBytes data) 2 = true → u.lanes.chk.st = 2 ∧ u.lanes.chk.testing = some s.now))
  ∧ (∀ (k : Nat) (data : List Byte) (s : State), Accepted k (objKey 0x2200 0x16) data s →
    exec (.voteTest k data) s = .next ({ s.fresh with lanes := { s.lanes with
      voteTest := some (ofBytes data / 256 % 2, ofBytes data % 16) } }.acked k (objKey 0x2200 0x16))))
  ∧ ((∀ (k : Nat) (data : List Byte) (s : State), Accepted k (objKey 0x5040 7) data s →
    exec (.tripClear k data) s = .next ({ s.fresh with trip := (s.trip.clear s.now (ofBytes data)).1 }.answer k
      (State.reply 2 (objKey 0x5040 7) k (if (s.trip.clear s.now (ofBytes data)).2 then some .state else none) false [])))
  ∧ (∀ (k : Nat) (data : List Byte) (s : State), Accepted k (objKey 0x5070 5) data s → bit (ofBytes data) 14 = false →
    exec (.gdlRequestEntry k data) s
      = .next ((s.fresh.setLink (bits (ofBytes data) 15 15)
        (({ nth s.trip.gdl (bits (ofBytes data) 15 15) {} with request := some (bits (ofBytes data) 5 0) } : GdlLink).startWaiting s.cfg
          (bits (ofBytes data) 15 15))).acked k (objKey 0x5070 5)))
  ∧ (∀ (k : Nat) (data : List Byte) (s : State), Accepted k (objKey 0x5070 5) data s → bit (ofBytes data) 14 = true →
    ∃ u : State, exec (.gdlSetupRerun k data) s = .next (u.acked k (objKey 0x5070 5)) ∧ u.net = s.fresh.net
      ∧ u.trip.gdl = upd s.trip.gdl (bits (ofBytes data) 15 15) (fun _ =>
        ({ nth s.trip.gdl (bits (ofBytes data) 15 15) {} with rerun := true } : GdlLink).startWaiting s.cfg (bits (ofBytes data) 15 15))
      ∧ Changes [.dev, .trip, .canc, .diag, .flash, .net] s u)
  ∧ (∀ (k : Nat) (data : List Byte) (s : State), Accepted k (objKey 0x9030 6) data s →
    exec (.safeOffTestRequest k data) s
      = .next ({ s.fresh with crust := { s.crust with soff := s.crust.soff.testStart s.crust.usec } }.acked k (objKey 0x9030 6))))

/-- R170, R197, R216, R218, R221: the rows of a host on chimes, identifications and tap tests wait for their block boundary; an adoption is the basic
writes of its results. R233, R235: the rows of a host on test signals and the capture wait for their Trough. -/
def Obligations.HearthAndTestRows : Prop :=
  ((∀ (g k : Nat) (data : List Byte) (s : State), g < 2 → Accepted k (objKey (0x7020 + g) 1) data s →
    (bit (ofBytes data) 4 = false → exec (.chimePlay g k data) s
      = .next ({ s.fresh with hearth := { s.hearth with plays := s.hearth.plays ++ [(g, ofBytes data, s.now)] } }.acked k (objKey (0x7020 + g) 1)))
    ∧ (bit (ofBytes data) 4 = true → exec (.chimeStop g k data) s
      = .next ({ s.fresh with hearth := { s.hearth with plays := s.hearth.plays ++ [(g, ofBytes data, s.now)] } }.acked k (objKey (0x7020 + g) 1))))
  ∧ (∀ (k : Nat) (data : List Byte) (s : State), Accepted k (objKey 0x7100 2) data s →
    exec (.identificationRequest k data) s
      = .next ({ s.fresh with canc := { s.canc with ident := { s.canc.ident with queued := some (ofBytes data, s.now) } } }.acked k (objKey 0x7100 2)))
  ∧ (∀ (k : Nat) (data : List Byte) (s : State), Accepted k (objKey 0x8000 1) data s →
    exec (.adoptIdentification k data) s
      = .next (((s.adoptFields (ofBytes data)).foldl (fun (u : State) e => u.acceptWrite e.1 e.2) s.fresh).acked k (objKey 0x8000 1)))
  ∧ (∀ (k : Nat) (c : Instr) (data : List Byte) (s : State),
    (c = .tapTestSweep k data ∧ bit (ofBytes data) 6 = true ∧ bit (ofBytes data) 3 = false)
      ∨ (c = .tapTestStandstill k data ∧ bit (ofBytes data) 5 = true ∧ bit (ofBytes data) 3 = false)
      ∨ (c = .tapTestPhase k data ∧ bit (ofBytes data) 4 = true ∧ bit (ofBytes data) 3 = false)
      ∨ (c = .tapTestSpin k data ∧ bit (ofBytes data) 7 = true ∧ bit (ofBytes data) 3 = false)
      ∨ (c = .tapTestAbort k data ∧ bit (ofBytes data) 3 = true) →
    Accepted k (objKey 0x8040 1) data s →
    exec c s = .next ({ s.fresh with diag := { s.diag with tap := { s.diag.tap with
      queue := s.diag.tap.queue ++ [(ofBytes data, s.now)] } } }.acked k (objKey 0x8040 1))))
  ∧ ((∀ (k : Nat) (data : List Byte) (s : State), Accepted k (objKey 0xE010 8) data s →
    exec (.testSignalStart k data) s = .next ({ s.fresh with diag := { s.diag with sig := if ofBytes data = 0 then { s.diag.sig with dueTime := some s.now, dueFn := none }
        else { s.diag.sig with dueFn := some (ofBytes data), dueTime := none } } }.acked k (objKey 0xE010 8)))
  ∧ (∀ (k : Nat) (data : List Byte) (s : State), Accepted k (objKey 0xE010 9) data s →
    exec (.testSignalStop k data) s
      = .next ({ s.fresh with diag := { s.diag with sig := { s.diag.sig with dueStop := some s.now } } }.acked k (objKey 0xE010 9)))
  ∧ (∀ (code k : Nat) (c : Instr) (data : List Byte) (s : State),
    (code, c) ∈ [(1, Instr.captureStart k data), (2, .captureStop k data), (3, .captureDiscard k data)] → ofBytes data = code →
    Accepted k (objKey 0xE000 1) data s →
    exec c s = .next ({ s.fresh with diag := { s.diag with cap := { s.diag.cap with request := some (code, s.now) } } }.acked k (objKey 0xE000 1))))

/-- R398: an update action starts at its accepted write and ends with its result; the abort ends the running one at once. -/
def Obligations.FirmwareUpdates : Prop :=
  (∀ (k : Nat) (data : List Byte) (s : State), ofBytes data = 1 → Accepted k (objKey 0xB500 1) data s →
    exec (.updateErase k data) s = .next ({ s.fresh with flash := { s.flash with update := { s.flash.update with
      action := 1, result := 0, running := some 1, erased := false, verified := false, activated := false, ended := false
      staging := [], received := 0, programmed := 0 } } }.acked k (objKey 0xB500 1)))
  ∧ (∀ (code k : Nat) (c : Instr) (data : List Byte) (s : State),
    (code, c) ∈ [(2, Instr.updateVerify k data), (3, .updateActivate k data), (4, .updateConfirm k data)] → ofBytes data = code →
    Accepted k (objKey 0xB500 1) data s →
    exec c s = .next ({ s.fresh with flash := { s.flash with update := { s.flash.update with
      action := code, result := 0, running := some code } } }.acked k (objKey 0xB500 1)))
  ∧ (∀ (k : Nat) (data : List Byte) (s : State), ofBytes data = 5 → Accepted k (objKey 0xB500 1) data s →
    ∃ u : State, exec (.updateAbort k data) s = .next (u.acked k (objKey 0xB500 1))
      ∧ u.flash.update = { s.flash.update with
          action := 5, result := 5, running := none, erased := s.flash.update.erased && s.flash.update.running != some 1 }
      ∧ u.net = s.fresh.net ∧ Changes [.flash, .net] s u)
  ∧ (∀ (a : Nat) (ok : Bool) (s : State), s.working = true → s.flash.update.staging = [] → s.flash.update.running = some a →
    ∃ t, exec (.updateActionDone ok) s = .next t
      ∧ t.flash.update = (State.actionDone a ok s.flash).update ∧ t.flash.update.running = none
      ∧ t.flash.bankA = (State.actionDone a ok s.flash).bankA ∧ t.flash.bankB = (State.actionDone a ok s.flash).bankB
      ∧ t.flash.bank s.flash.runningB = { s.flash.bank s.flash.runningB with record := (t.flash.bank s.flash.runningB).record }
      ∧ Changes [.flash, .banks] s t)

/-- R353, R386: a key slot's new key and level end the slot's other sessions; Twin swap hands off from the active twin, and asks from the standby. -/
def Obligations.KeysAndTwins : Prop :=
  (∀ (slot k : Nat) (data : List Byte) (x : Session) (i : YItem) (s : State), slot < 8 → Accepted k (objKey 0x1410 (slot + 1)) data s →
    s.session k = some x → s.frontItem k = some i → i.opcode = 2 →
    ∃ u : State, exec (.keySlotWrite slot k data) s = .next (u.acked k (objKey 0x1410 (slot + 1)))
      ∧ u.net.slots = upd s.net.slots slot (fun y =>
          { level := ofBytes (data.take 1), writes := satInc 255 y.writes, key := unwrapKey x.key slot (data.map (·.toNat)) })
      ∧ (∀ j y, u.session j = some y → j ≠ k → j < 16 → y.authenticated = true → y.slot ≠ slot)
      ∧ u.session k = s.session k ∧ Changes [.dev, .table, .net, .flash] s u)
  ∧ (∀ (k : Nat) (data : List Byte) (s : State), Accepted k (objKey 0xD000 0xC) data s →
    ∃ u : State, exec (.twinSwap k data) s = .next (u.acked k (objKey 0xD000 0xC)) ∧ u.net = s.fresh.net
      ∧ (∀ m, m < 2 → bit (ofBytes data) m = true → (nth s.chain.m m {}).twin = 2 → m < s.chain.m.length → (nth u.chain.m m {}).asked = true)
      ∧ (∀ m, m < 2 → bit (ofBytes data) m = true → (nth s.chain.m m {}).twin = 1 → m < s.chain.m.length → (nth u.chain.m m {}).twin = 2)
      ∧ (∀ m, bit (ofBytes data) m = false → nth u.chain.m m {} = nth s.chain.m m {}))

/-- R341, R342: a frame that brings no YOAP datagram to the device is ignored, one of an unsupported kind is counted. R346 to R348, R351, R352, R354: a frame of a session with a good MAC and a new SEQ joins its queue; a wrong MAC, a duplicate and a SEQ outside the
window are counted and execute nothing. -/
def Obligations.YoapFrames : Prop :=
  (∀ (p : Packet) (bytes : List Byte) (s : State), s.yoapOn p.iface = true →
    (s.datagram p bytes = .ignored → exec (.yoapFrame p bytes) s = .next s.fresh)
    ∧ (s.datagram p bytes = .unsupported → exec (.yoapFrame p bytes) s
      = .next { s.fresh with net := { s.fresh.net with received := inc32 s.net.received, unsupported := inc32 s.net.unsupported } }))
  ∧ (∀ (p : Packet) (bytes : List Byte) (s : State), s.yoapOn p.iface = true → s.datagram p bytes = .served → p.iface < 3 → 1472 < bytes.length →
    exec (.yoapFrame p bytes) s
      = .next { s.fresh with net := { s.fresh.net with received := inc32 s.net.received, oversize := inc32 s.net.oversize } })
  ∧ (∀ (p : Packet) (bytes : List Byte) (s : State), s.yoapOn p.iface = true → s.datagram p bytes = .served →
    (p.iface < 3 → bytes.length ≤ 1472) → State.parseFrame p.iface bytes = none →
    exec (.yoapFrame p bytes) s
      = .next { s.fresh with net := { s.fresh.net with received := inc32 s.net.received, malformed := inc32 s.net.malformed } })
  ∧ (∀ (p : Packet) (bytes : List Byte) (f : RxFrame) (x : Session) (s : State), s.yoapOn p.iface = true → s.datagram p bytes = .served →
    (p.iface < 3 → bytes.length ≤ 1472) → State.parseFrame p.iface bytes = some f → s.frameSession f = some x →
    p.backlog < (State.rxQueue p (s.arrivalPcp p.vlan p.pcp) f.image (!x.authenticated)).2 →
    (x.macOk f = false → ∃ t, exec (.yoapFrame p bytes) s = .next t ∧ t.net.authFails = inc32 s.net.authFails ∧ t.net.sessions = s.net.sessions
      ∧ Changes [.table, .net] s t)
    ∧ (x.macOk f = true → x.duplicate (if f.can then extendSeq x.h f.seq else f.seq) p.iface s.now = true → f.image = false →
      exec (.yoapFrame p bytes) s
        = .next { s.fresh with net := { s.fresh.net with received := inc32 s.net.received, duplicates := inc32 s.net.duplicates } })
    ∧ (x.macOk f = true → x.duplicate (if f.can then extendSeq x.h f.seq else f.seq) p.iface s.now = false →
      x.accepts (if f.can then extendSeq x.h f.seq else f.seq) = false →
      ∃ t, exec (.yoapFrame p bytes) s = .next t ∧ t.net.replays = inc32 s.net.replays ∧ t.net.sessions = s.net.sessions ∧ Changes [.table, .net] s t)
    ∧ (x.macOk f = true → x.duplicate (if f.can then extendSeq x.h f.seq else f.seq) p.iface s.now = false →
      x.accepts (if f.can then extendSeq x.h f.seq else f.seq) = true →
      ∃ t, exec (.yoapFrame p bytes) s = .next t
        ∧ (∀ y, t.session f.session = some y → y.h = max x.h (if f.can then extendSeq x.h f.seq else f.seq) ∧ y.last = s.now)
        ∧ (x.queue = [] → f.items.length ≤ 128 → (∀ z, z ∈ s.net.sessions → ∀ y, z = some y → y.queue = []) →
          (∀ i, f.items.head? = some i → State.executable f.image i = true) → f.items ≠ [] →
          ∃ y r, t.session f.session = some y ∧ y.queue = [r] ∧ r.items = f.items ∧ r.iface = p.iface ∧ r.source = p.source ∧ r.image = f.image
            ∧ r.seq = (if f.can then extendSeq x.h f.seq else f.seq) ∧ r.resp = [] ∧ r.tail = [])
        ∧ Changes answerParts s t))
  ∧ (∀ (seq b iface source now : Nat) (x : Session), x.accepts seq = true →
    0 < seq ∧ seq ≤ x.h + 2 ^ 31 ∧ x.h ≤ seq + 63 ∧ (x.take seq iface source now).accepts seq = false
      ∧ (b ≤ x.h → x.accepts b = false → (x.take seq iface source now).accepts b = false))

/-- R349, R350: OPEN opens the lowest free session at its slot's level, under a key derived from both nonces, or answers with its abort; CLOSE and NOP
are answered with no data. -/
def Obligations.SessionItems : Prop :=
  (∀ (p : Packet) (slot nonce k : Nat) (o : Opening) (s : State), s.openMatch p slot nonce = some o → s.openAbort o = none → s.freeSession = some k →
    k < s.net.sessions.length →
    ∃ t, exec (.openSession p slot nonce) s = .next t
      ∧ t.session k = some { level := if o.slot = 0xFF then 0 else (nth s.net.slots o.slot {}).level
                             slot := o.slot
                             key := if (if o.slot = 0xFF then 0 else (nth s.net.slots o.slot {}).level) = 0 then [] else
                               sessionKey (nth s.net.slots o.slot {}).key o.slot k (ofBytes o.data) (Config.nonce s.net.draws % 2 ^ 64)
                             iface := o.iface, last := s.now, ownSeq := 1, source := (o.iface, o.source), opened := s.net.opens }
      ∧ t.net.opens = s.net.opens + 1 ∧ t.net.opening = s.net.opening.erase o ∧ t.net.sent.length = 1
      ∧ (∀ j, j ≠ k → t.session j = s.session j) ∧ Changes [.dev, .table, .net] s t)
  ∧ (∀ (p : Packet) (slot nonce : Nat) (o : Opening) (a : Abort) (s : State), s.openMatch p slot nonce = some o → s.openAbort o = some a →
    ∃ t, exec (.openSession p slot nonce) s = .next t ∧ t.net.sessions = s.net.sessions ∧ t.net.opening = s.net.opening.erase o
      ∧ t.net.answers = [State.reply 0x10 (o.slot * 256) 0xFF (some a) false []] ∧ t.net.sent.length = 1 ∧ Changes [.table, .net] s t)
  ∧ (∀ (k : Nat) (i : YItem) (s : State), s.frontItem k = some i →
    (i.opcode = 0x11 → exec (.closeSession k) s = .next (s.fresh.answer k (State.reply 0x11 (i.idx * 256 + i.sub) k none false [])))
      ∧ (i.opcode = 0x12 → exec (.nopItem k) s = .next (s.fresh.answer k (State.reply 0x12 (i.idx * 256 + i.sub) k none false []))))
  ∧ (∀ (k : Nat) (x : Session) (r : Request) (i : YItem) (s : State), k < 16 → s.session k = some x → x.queue = [r] → r.items = [i] → i.opcode = 0x11 →
    ∃ t, exec (.closeSession k) s = .next t ∧ t.session k = none ∧ Changes answerParts s t)
  ∧ (∀ (k : Nat) (x : Session) (s : State), s.session k = some x → x.last + 200000 * s.cfg.u 0x1050 2 ≤ s.now →
    exec (.sessionIdleTimeout k) s = .next (s.closeSession k) ∧ (s.closeSession k).session k = none ∧ Changes [.dev, .table, .net] s (s.closeSession k))

/-- R357 to R359: a received image of its slot with good values applies them in one step, counts the refused ones, and delivers on its port; a stale
one is counted and changes no setting; a timeout of all ports and the loss of one. -/
def Obligations.CyclicImages : Prop :=
  (∀ (k n seq : Nat) (p : Packet) (data : List Byte) (x : Session) (r : Request) (i : YItem) (l : List (Nat × List Byte)) (s : State),
    s.session k = some x → x.frontRequest = some r → x.front = some i → r.image = true → i.opcode = 0x20 → i.idx = n → i.data = data → r.seq = seq →
    r.iface = p.iface → bit (s.imageCfg n) 31 = true → bit (s.imageCfg n) 30 = false → x.authenticated = true → x.slot = bits (s.imageCfg n) 19 17 →
    4 ≤ s.dev.state → s.dev.state ≠ 7 → x.imgSeq ≤ seq → State.imageValues (s.imageMap n) data = some l →
    (∀ e ∈ l, s.fresh.imageValueBad x.level e = false) →
    exec (.imageItem k n p seq data) s = .next
      ((((((s.fresh.applyImage k n x.level l).setSession k (fun y => { y with imgSeq := seq })).setImage n (fun y =>
        { y with active := true, timeout := false }))).deliver n p.iface).unanswered k))
  ∧ (∀ (k n seq : Nat) (p : Packet) (data : List Byte) (x : Session) (r : Request) (i : YItem) (s : State),
    s.session k = some x → x.frontRequest = some r → x.front = some i → r.image = true → i.opcode = 0x20 → i.idx = n → i.data = data → r.seq = seq →
    r.iface = p.iface → bit (s.imageCfg n) 31 = true → bit (s.imageCfg n) 30 = false → x.authenticated = true → x.slot = bits (s.imageCfg n) 19 17 →
    4 ≤ s.dev.state → s.dev.state ≠ 7 → seq < x.imgSeq →
    exec (.imageItem k n p seq data) s = .next ((s.fresh.setImage n (fun y => { y with rejects := inc32 y.rejects })).unanswered k))
  ∧ (∀ (n : Nat) (s : State), n ∈ s.recvImages → s.working = true →
    (∀ q ∈ s.imagePorts n, max (nth (nth s.net.images n {}).times q 0) (nth s.net.images n {}).since + s.imageLimit n ≤ s.now) →
    (nth s.net.images n {}).timeout = false →
    ∃ t, exec (.imageTimeout n) s = .next t
      ∧ t.net = { s.net with images := upd s.net.images n (fun y => { y with timeout := true, active := false }) }
      ∧ (s.cfg.u 0x106B (n + 1) = 2 → t.acceptedStore.raw (State.modeKey 0) = 0 ∧ t.acceptedStore.raw (State.modeKey 1) = 0)
      ∧ (s.cfg.u 0x106B (n + 1) ∉ [1, 2] → t = { s with net := t.net }) ∧ Changes [.staged, .token, .commit, .net] s t)

/-- R343 to R346, Table 17-1: what the internal port answers, and what the switch forwards, learns and forgets. R30, R359 to R361: the SGMII links,
gPTP, and the CAN controllers' bus-off. -/
def Obligations.NetworkEvents : Prop :=
  ((∀ (p : Packet) (ip : Nat) (sender : List Byte) (s : State), s.plainOn p.iface = true → s.linkLayer p = .served →
    p.backlog < (State.icmpQueue p.iface).2 → ip = s.ownIp p.iface →
    exec (.arpRequest p ip sender) s = .next { s.fresh with net := { s.fresh.net with
      received := inc32 s.net.received
      sent := [{ iface := p.iface, prio := s.responsePrio p.iface, peer := p.source, vlan := if p.iface < 2 then some (s.cfg.u 0x1012 0xA) else none
                 bytes := toBytes 8 0x0001080006040002 ++ toBytes 6 (State.ownMac p.iface) ++ toBytes 4 ip ++ sender }] } })
  ∧ (∀ (p : Packet) (payload : List Byte) (s : State), s.plainOn p.iface = true → s.linkLayer p = .served → s.networkLayer p = .served →
    p.backlog < (State.icmpQueue p.iface).2 → payload.length ≤ 1472 →
    exec (.icmpEcho p payload) s = .next { s.fresh with net := { s.fresh.net with
      received := inc32 s.net.received
      sent := [{ iface := p.iface, prio := s.responsePrio p.iface, peer := p.source, vlan := if p.iface < 2 then some (s.cfg.u 0x1012 0xA) else none
                 bytes := payload }] } })
  ∧ (∀ (f : EthFrame) (s : State), s.netServes = true → f.port < 2 → bit (s.cfg.u 0x1010 6) f.port = true → bit s.net.links f.port = true →
    64 ≤ f.length → f.length ≤ 1522 → f.twoTags = false →
    ∃ t, exec (.frameForward f) s = .next t
      ∧ (∀ e ∈ t.net.sent, e.iface = 7 ∨ (e.iface < 2 ∧ e.iface ≠ f.port ∧ bit s.net.links e.iface = true))
      ∧ t.net.sent.map (·.iface) = (if f.backlog < 8 then (s.fresh.learn f.source f.port).egressPorts f else [])
          ++ (if s.dev.state ≠ 7 ∧ s.internalTakes f.dest f.vlan = true then [7] else [])
      ∧ (∀ e ∈ t.net.sent, e.prio = (if f.vlan.isSome then f.pcp else s.cfg.u 0x1012 9) ∧ e.vlan = f.vlan)
      ∧ (bit f.source 40 = false → ∃ e ∈ t.net.learned, e.mac = f.source ∧ e.port = f.port ∧ e.time = s.now)
      ∧ t.net.sessions = s.net.sessions ∧ Changes [.net] s t)
  ∧ (∀ (mac : Nat) (s : State), exec (.learningTableAgeing mac) s = .next { s with net := { s.net with
      learned := s.net.learned.filter (fun e => !(e.mac == mac && decide (e.time + 60000000000 ≤ s.now))) } }))
  ∧ ((∀ (port : Nat) (s : State), bit s.net.links port = true →
    ∃ t, exec (.sgmiiLinkDown port) s = .next t ∧ t.net.links = setBit s.net.links port false ∧ Reports [.net] s t)
  ∧ (∀ (port : Nat) (s : State), s.netServes = true →
    ∃ t, exec (.sgmiiLinkUp port) s = .next t ∧ t.net = { s.net with links := setBit s.net.links port true } ∧ Changes [.net, .fault] s t)
  ∧ (∀ (port backlog origin correction interval : Nat) (rate : Int) (s : State), s.gptpOn port = true → backlog < 8 →
    ∃ t, exec (.gptpSync port backlog (s.cfg.u 0x1040 2) origin correction interval rate) s = .next t
      ∧ t.frame.gptpOffset = (origin + correction + s.net.gptp.linkDelay + (2 ^ 64 - 5 * s.now % 2 ^ 64)) % 2 ^ 64
      ∧ t.net.gptp.lastSync = some s.now ∧ t.net.gptp.interval = interval ∧ t.net.received = inc32 s.net.received
      ∧ (t.net.gptp.present = true → 7 ≤ s.net.gptp.good)
      ∧ t.frame.fn = s.frame.fn ∧ Changes [.frame, .net] s t)
  ∧ (∀ (port backlog : Nat) (c : Instr) (s : State), s.full = true → port < 2 → s.ifaceOn port = true → 8 ≤ backlog →
    ((∃ domain origin correction interval rate, c = .gptpSync port backlog domain origin correction interval rate)
      ∨ (∃ body, c = .pdelayRequest port backlog body) ∨ ∃ t1 t2 t3 t4, c = .pdelayResponse port backlog t1 t2 t3 t4) →
    exec c s = .next { s with net := { s.net with received := inc32 s.net.received, drops := upd s.net.drops 2 inc32 } })
  ∧ (∀ (t0 : Nat) (s : State), s.net.gptp.lastSync = some t0 → t0 + 3 * s.net.gptp.interval ≤ s.now → s.shoulder = false →
    exec .gptpLoss s = .next { s with net := { s.net with gptp := { s.net.gptp with
      present := false, good := 0, lastSync := none, losses := if s.net.gptp.present then inc32 s.net.gptp.losses else s.net.gptp.losses } } })
  ∧ (∀ (port backlog : Nat) (body : List Byte) (s : State), s.full = true → port < 2 → s.ifaceOn port = true → backlog < 8 →
    exec (.pdelayRequest port backlog body) s = .next { s.fresh with net := { s.fresh.net with
      received := inc32 s.net.received
      sent := [{ iface := port, prio := 0, vlan := some (s.cfg.u 0x1012 0xA), bytes := toBytes 8 (5 * s.now) ++ body }] } })
  ∧ (∀ (port backlog t1 t2 t3 t4 : Nat) (s : State), s.gptpOn port = true → backlog < 8 →
    exec (.pdelayResponse port backlog t1 t2 t3 t4) s = .next { s with net := { s.net with
      received := inc32 s.net.received, gptp := { s.net.gptp with linkDelay := ((t4 - t1) - (t3 - t2)) / 2 } } })
  ∧ (∀ (n : Nat) (s : State),
    (s.ifaceOn (3 + n) = true → exec (.canBusOff n) s = .next { s with net := { s.net with
      canBusOff := s.net.canBusOff.set n true, busOffs := upd s.net.busOffs n inc32 } })
    ∧ exec (.canBusOffRecovery n) s = .next { s with net := { s.net with canBusOff := s.net.canBusOff.set n false } }))

/-- R365: every frame that the device drives on the Bench port ends in the CRC of its first seven bytes. R364 to R366: a transaction shifts out the
oldest result that is ready, or the idle frame, and takes a request while fewer than four are held; a wrong length or CRC is counted. -/
def Obligations.BenchTransactions : Prop :=
  (∀ (payload : Nat), benchCrc payload < 256 ∧ benchCrc (benchFrame payload / 256) = benchFrame payload % 256)
  ∧ (∀ (clocks word : Nat) (s : State), s.benchOn = true →
    (clocks ≠ 64 → exec (.benchTransaction clocks word) s
      = .next { s with bench := { s.bench with frameErr := min 255 (s.bench.frameErr + 1) } })
    ∧ (clocks = 64 → (∀ r l, s.bench.queue = r :: l → r.result = none) →
      ∃ t, exec (.benchTransaction clocks word) s = .next t ∧ t.bench.miso = benchFrame 0
        ∧ t.bench.queue = (if 4 ≤ s.bench.queue.length then s.bench.queue else s.bench.queue ++
            [{ cmd := bits word 63 48, data := bits word 47 16, result := if benchCrc (word / 256) = word % 256 then none else some (2, 0) }])
        ∧ t.bench.crcErr = (if benchCrc (word / 256) = word % 256 then s.bench.crcErr else min 255 (s.bench.crcErr + 1))
        ∧ t.bench.lost = (s.bench.lost || decide (4 ≤ s.bench.queue.length))
        ∧ t.net = (if 4 ≤ s.bench.queue.length then { s.net with drops := upd s.net.drops 47 inc32 } else s.net) ∧ Changes [.net, .bench] s t)
    ∧ (∀ (r : BenchReq) (l : List BenchReq) (code data : Nat), clocks = 64 → s.bench.queue = r :: l → r.result = some (code, data) →
      s.bench.queue.length ≤ 4 →
      ∃ t, exec (.benchTransaction clocks word) s = .next t ∧ t.bench.miso = resultFrame s.bench.lost r.cmd code data ∧ t.bench.lost = false
        ∧ t.bench.queue = l ++
            [{ cmd := bits word 63 48, data := bits word 47 16, result := if benchCrc (word / 256) = word % 256 then none else some (2, 0) }]
        ∧ Changes [.bench] s t))

/-- R366 to R368: a register is read, or refused with code 3 where the address has none and with code 4 where it may not be read. R372: the unlock
code in two writes; a wrong one locks for one second. -/
def Obligations.BenchRegisters : Prop :=
  ((∀ (a : Nat) (r : BenchReq) (s : State), s.benchOn = true → s.bench.front = some r → bit r.cmd 15 = false → bits r.cmd 11 0 = a →
    exec (.benchRead a) s = .next (if State.benchHas a = false then s.benchAnswer 3 0
      else if s.benchReads a = true then s.benchAnswer 1 (s.benchValue a) else s.benchAnswer 4 0))
  ∧ (∀ (a data : Nat) (s : State), BenchWrites a data s → a ≠ 0x013 →
    (State.benchHas a = false → exec (.benchWrite a data) s = .next (s.benchDone 3 0))
    ∧ (State.benchHas a = true → s.benchWrites a = false → exec (.benchWrite a data) s = .next (s.benchDone 4 0))
    ∧ (0x100 ≤ a → a ≤ 0x1FF → s.dev.state = 2 → s.bench.recovery = none →
      exec (.benchWrite a data) s
        = .next (State.benchDone 1 (nth (s.bench.buffer.set (a - 0x100) data) (a - 0x100) 0) { s with bench := { s.bench with
            buffer := s.bench.buffer.set (a - 0x100) data } })))
  ∧ (∀ (data : Nat) (s : State), BenchWrites 0x00A data s → s.dev.state = 2 →
    ∃ t, exec (.benchWrite 0x00A data) s = .next t ∧ t.bench.crcErr = (if bits data 15 8 = 0 then 0 else s.bench.crcErr)
      ∧ t.bench.frameErr = (if bits data 7 0 = 0 then 0 else s.bench.frameErr) ∧ Changes [.bench] s t)
  ∧ (∀ (k data : Nat) (s : State), k < 4 → BenchWrites (0x800 + k) data s → s.benchWrites (0x800 + k) = true → bit s.commit.pendingMask 1 = false →
    ∃ t, exec (.benchWrite (0x800 + k) data) s = .next t ∧ t.staged = s.staged.put (objKey 0x5440 (k + 1)) (data &&& 0x8001FFFF)
      ∧ t.commit.token = (if s.commit.token = 65535 then 1 else s.commit.token + 1) ∧ Changes [.staged, .token, .bench] s t))
  ∧ ((∀ (data : Nat) (s : State), BenchWrites 0x013 data s → s.dev.state = 2 → s.bench.lockUntil = none →
    exec (.unlockHi data) s = .next (State.benchAnswer 1 0 { s with bench := { s.bench with unlockHi := some data } }))
  ∧ (∀ (data : Nat) (s : State), BenchWrites 0x014 data s → s.dev.state = 2 → s.bench.lockUntil = none →
    ∃ t, exec (.unlockLo data) s = .next t ∧ t.bench.unlockHi = none ∧ Changes [.bench] s t
      ∧ (s.bench.unlockHi.map (fun h => h * 2 ^ 32 + data) = some (Config.recoveryCode % 2 ^ 64) →
          t.bench.unlocked = true ∧ t.bench.lockUntil = none ∧ t.bench.queue = BenchState.fill 1 0 s.bench.queue)
      ∧ (s.bench.unlockHi.map (fun h => h * 2 ^ 32 + data) ≠ some (Config.recoveryCode % 2 ^ 64) →
          t.bench.unlocked = s.bench.unlocked ∧ t.bench.lockUntil = some (s.now + 200000000) ∧ t.bench.queue = BenchState.fill 5 0 s.bench.queue))
  ∧ (∀ (data t0 : Nat) (s : State), BenchWrites 0x014 data s → s.dev.state = 2 → s.bench.lockUntil = some t0 → s.now < t0 →
    exec (.unlockLo data) s = .next (s.benchDone 4 0))
  ∧ (∀ (t0 : Nat) (s : State), s.bench.lockUntil = some t0 → t0 ≤ s.now →
    exec .unlockLockoutEnd s = .next { s with bench := { s.bench with lockUntil := none } }))

/-- R369, R373: HOLD and GO in BOOT, and the compatibility view's commit and start. -/
def Obligations.BootControl : Prop :=
  (∀ (data : Nat) (s : State), BenchWrites 0x010 data s → s.dev.state = 2 → bit data 0 = true → bit data 1 = false → s.dev.bankStarted = false →
    exec .bootHold s = .next (State.benchDone 1 1 { s with bench := { s.bench with hold := true } }))
  ∧ (∀ (data : Nat) (b : Bool) (s : State), BenchWrites 0x010 data s → s.dev.state = 2 → bit data 1 = true → s.bench.verifying = false →
    s.bench.recovery = none → s.dev.bankStarted = false → s.flash.admitted s.bootSel = some b →
    ∃ t, exec .bootGo s = .next t ∧ t.dev.bankStarted = true ∧ t.bench.hold = false ∧ t.flash.runningB = b
      ∧ t.bench.queue = BenchState.fill 1 0 s.bench.queue ∧ Changes [.dev, .bench, .banks, .flash] s t)
  ∧ (∀ (data : Nat) (s : State), BenchWrites 0x010 data s → s.dev.state = 2 → bit data 1 = true → s.bench.verifying = true →
    exec .bootGo s = .next (s.benchDone 6 0))
  ∧ (∀ (s : State), BenchWrites 0x804 1 s → s.benchWrites 0x804 = true → s.dev.state ≠ 2 → s.commit.checking = none →
    exec (.ctcCommit 1) s = .next (State.benchDone 1 0 { s with commit := { s.commit with
      checking := some { mask := 2, tokenOk := true, target := s.commit.target, session := none } } }))
  ∧ (∀ (data : Nat) (s : State), BenchWrites 0x808 data s → s.benchWrites 0x808 = true → s.dev.state ≠ 2 →
    ∃ t, exec (.benchStart data) s = .next t ∧ t.bench.queue = BenchState.fill 1 1 s.bench.queue ∧ Changes [.bench] s t)

/-- R370 to R372: the recovery actions start in BOOT where their preconditions hold, each in the one form of its command, and end with their effect
and their result. -/
def Obligations.RecoveryActions : Prop :=
  (∀ (a bank chunk data : Nat) (c : Instr) (s : State),
    (a, c) ∈ [(1, Instr.eraseBank bank), (2, .programChunk bank chunk), (3, .verifyBank bank), (4, .starterImportChunk chunk), (5, .starterImportCommit),
      (6, .keySlotReset), (7, .persistedSetErase)] →
    BenchWrites 0x011 data s → s.dev.state = 2 → bits data 31 24 = a → bits data 11 11 = bank → bits data 10 0 = chunk →
    s.recoveryCode a bank chunk = 1 →
    ∃ t, exec c s = .next t ∧ t.bench.recovery = some (a, bank, chunk) ∧ t.bench.recCode = a ∧ t.bench.recResult = 0
      ∧ t.bench.queue = BenchState.fill 1 0 s.bench.queue
      ∧ (a ≠ 1 → t.flash.bankA = s.flash.bankA ∧ t.flash.bankB = s.flash.bankB)
      ∧ (a = 1 → t.flash.bank (bank == 1) = { s.flash.bank (bank == 1) with passes := false }
          ∧ t.flash.bank (bank != 1) = s.flash.bank (bank != 1))
      ∧ (a ≠ 5 → Changes [.bench, .banks] s t) ∧ (a = 5 → s.importedSet = none → Changes [.bench] s t)
      ∧ (a = 5 → ∀ l, s.importedSet = some l → ∀ i, i < 130 → t.active.raw (nth starterKeys i 0) = (nth l i (0, true, 0)).1))
  ∧ (∀ (a bank chunk data : Nat) (c : Instr) (s : State),
    (a, c) ∈ [(1, Instr.eraseBank bank), (2, .programChunk bank chunk), (3, .verifyBank bank), (4, .starterImportChunk chunk), (5, .starterImportCommit),
      (6, .keySlotReset), (7, .persistedSetErase)] →
    BenchWrites 0x011 data s → s.dev.state = 2 → bits data 31 24 = a → bits data 11 11 = bank → bits data 10 0 = chunk →
    s.recoveryCode a bank chunk ≠ 1 → exec c s = .next (s.benchDone (s.recoveryCode a bank chunk) 0))
  ∧ (∀ (a bank chunk : Nat) (ok : Bool) (s : State), s.benchOn = true → s.bench.recovery = some (a, bank, chunk) → (a = 5 → s.flash.storing = false) →
    ∃ t, exec (.recoveryActionDone ok) s = .next t ∧ t.bench.recovery = none ∧ (t.bench.recResult = 1 ∨ t.bench.recResult = 2)
      ∧ (a = 1 → ok = true → (t.flash.bank (bank == 1)).image = [])
      ∧ (a = 2 → (t.bench.recResult = 1 ↔ ok = true ∧ flashErased (s.flash.bank (bank == 1)).image (chunk * 1024) 1024 = true))
      ∧ (a = 2 → t.bench.recResult = 1 → (t.flash.bank (bank == 1)).image
          = flashProgram (s.flash.bank (bank == 1)).image (chunk * 1024) s.bufferBytes)
      ∧ (a = 3 → ((t.flash.bank (bank == 1)).passes = true ↔ bankCheck s.flash.epoch (!ok) (s.flash.bank (bank == 1)).image = 1))
      ∧ (a = 4 → t.bench.imports = s.bench.imports.set chunk s.bufferBytes)
      ∧ (a = 6 → ok = true → (nth t.net.slots 0 {}).level = (if 0 < s.net.slots.length then 3 else 0)
          ∧ ∀ k, 0 < k → (nth t.net.slots k {}).level = 0)
      ∧ (a = 7 → ok = true → ∀ g, g < 14 → nth t.persist.copies g (none, none) = (none, none))
      ∧ Changes [.dev, .persist, .net, .bench, .banks, .flash] s t)

/-- R337, R369, R394, R396: the end of the banks' verification judges both banks and loads the persisted set; no bank starts
in a hold or in recovery mode. R300, R412, R420: BOOT ends with the start of a bank: PROOFING begins, or BEDROCK where the retained register keeps
one. -/
def Obligations.BootSequence : Prop :=
  (∀ (eccA eccB : Bool) (s : State), s.dev.npor = true → s.dev.nrst = true → s.dev.state = 2 → s.bench.verifying = true →
    ∃ t, exec (.bankVerificationDone eccA eccB) s = .next t ∧ t.dev.state = 2 ∧ t.bench.verifying = false ∧ t.bench.key0Ok = true
      ∧ t.flash.bankA.passes = (bankCheck s.flash.epoch eccA t.flash.bankA.image == 1)
      ∧ t.flash.bankB.passes = (bankCheck s.flash.epoch eccB t.flash.bankB.image == 1)
      ∧ (s.flash.marked = [] → t.flash.bankA.image = s.flash.bankA.image ∧ t.flash.bankB.image = s.flash.bankB.image)
      ∧ t.flash.marked = [] ∧ t.flash.bootCount = inc32 s.flash.bootCount
      ∧ t.active2 = t.active ∧ t.staged = t.active ∧ t.persist.loaded = s.loadedGroups ∧ t.dev.shutdown = s.dev.retained
      ∧ (s.dev.bankStarted = false → (s.bench.hold = true ∨ s.bootSel = 3) → t.dev.bankStarted = false)
      ∧ (s.bench.hold = false → s.bootSel ≠ 3 → ∀ b, t.flash.admitted s.bootSel = some b → t.dev.bankStarted = true)
      ∧ Changes [.dev, .active, .staged, .persist, .fault, .bench, .banks, .flash] s t)
  ∧ ((∀ s : State, s.dev.npor = true → s.dev.nrst = true → s.dev.state = 2 → s.dev.bankStarted = true → s.dev.refOk = true →
    bits s.dev.retained 63 60 ≠ 3 → (bits s.dev.retained 63 60 = 1 → bit s.dev.retained 59 = false) →
    ∃ t, exec .bankStarted s = .next t ∧ t.dev.state = 3 ∧ t.dev.step = 1 ∧ t.dev.bankStarted = false ∧ t.hk.running = true
      ∧ t.dev.retained = (if bits s.dev.retained 63 60 = 1 then s.dev.retained else 0))
  ∧ (∀ s : State, s.dev.npor = true → s.dev.nrst = true → s.dev.state = 2 → s.dev.bankStarted = true →
    (bits s.dev.retained 63 60 = 1 ∧ bit s.dev.retained 59 = true) ∨ bits s.dev.retained 63 60 = 3 →
    ∃ t, exec .bankStarted s = .next t ∧ t.dev.state = 7 ∧ t.dev.bankStarted = false ∧ t.dev.timebase = true
      ∧ (bits s.dev.retained 63 60 = 1 → t.fault.cause = bits s.dev.retained 55 40)))

/-- R416, R417: each step of PROOFING ends once what it started is over, marks its DONE bit, and starts the next one. -/
def Obligations.ProofingSteps : Prop :=
  (∀ (r : ProofResult) (s : State), s.up = true → s.dev.state = 3 → s.dev.step = 1 → 16 ≤ s.hk.rounds →
    ∃ t, exec (.proofingStepDone r) s = .next t ∧ t.dev.step = 2 ∧ t.dev.timebase = true ∧ t.dev.stepDone = setBit s.dev.stepDone 0 true
      ∧ t.frame.started = false ∧ Changes [.dev, .frame] s t)
  ∧ (∀ (r : ProofResult) (s : State), s.up = true → s.dev.state = 3 → s.dev.step = 2 → s.frame.started = true →
    ∃ t, exec (.proofingStepDone r) s = .next t ∧ t.dev.step = 3 ∧ t.dev.stepDone = setBit s.dev.stepDone 1 true
      ∧ (s.chain.role = 2 → s.chain.up.up = true → r.fail = false → r.trips.length = 64 → hopOk (hopOf r.trips) = true →
          t.chain.calibrated = true ∧ t.chain.hop = hopOf r.trips ∧ t.frame.fn = r.summitFn % 2 ^ 32)
      ∧ (s.chain.role = 2 → hopOk (hopOf r.trips) = false ∨ r.trips.length ≠ 64 → t.chain.role = 0 ∧ t.chain.calFail = true ∧ t.frame = s.frame)
      ∧ Changes [.dev, .frame, .chain] s t)
  ∧ (∀ (r : ProofResult) (s : State), s.up = true → s.dev.state = 3 → s.dev.step = 3 → r.lanes % 8 = 0 →
    ∃ t, exec (.proofingStepDone r) s = .next t ∧ t.dev.step = 4 ∧ t.dev.stepDone = setBit s.dev.stepDone 2 true
      ∧ t.lanes.active = 0 ∧ t.lanes.a.st = 0 ∧ t.lanes.b.st ≤ 1 ∧ t.lanes.chk.st = 1 ∧ Changes [.dev, .lanes] s t)
  ∧ (∀ (r : ProofResult) (s : State), s.up = true → s.dev.state = 3 → s.dev.step = 4 →
    ∃ t, exec (.proofingStepDone r) s = .next t ∧ (t.dev.state = 3 → t.dev.step = 5 ∧ bit t.dev.stepDone 3 = true)
      ∧ Reports [.dev, .sense, .loads, .crust] s t)
  ∧ (∀ (r : ProofResult) (s : State), s.up = true → s.dev.state = 3 → s.dev.step = 5 → s.crust.soff.test = none →
    ∃ t, exec (.proofingStepDone r) s = .next t
      ∧ (s.crust.soff.testFail = false → t.dev.step = 6 ∧ t.dev.stepDone = setBit s.dev.stepDone 4 true)
      ∧ (s.crust.soff.testFail = true → t.dev.step = 0 ∧ t.dev.stepDone = 255 ∧ bit t.dev.stepFailed 4 = true ∧ Changes [.dev] s t)
      ∧ Changes [.dev, .trip, .canc, .diag, .flash] s t)
  ∧ (∀ (r : ProofResult) (n : Nat) (s : State), s.up = true → s.dev.state = 3 → s.dev.step = n → 6 ≤ n → n ≤ 8 → s.stepOver = true →
    ∃ t, exec (.proofingStepDone r) s = .next t ∧ t.dev.step = (if n = 8 then 0 else n + 1) ∧ t.dev.stepDone = setBit s.dev.stepDone (n - 1) true
      ∧ (n = 6 → t.diag.tap.queue = (State.proofTaps s.dev.tapDepth).map (fun w => (w, 0)))
      ∧ Changes [.dev, .diag] s t)

/-- R293, R403, R404: a lost reference moves the PLLs to the backup oscillator, a large deviation ends in BEDROCK, and the end of the slew back clears
what the loss set. R405, R407, R418, R419: the always-on domain, and the wake from STANDBY. -/
def Obligations.ClocksAndWake : Prop :=
  ((∀ (d : Int) (s : State), s.dev.npor = true → s.dev.refOk = true →
    ∃ t, exec (.refLost d) s = .next t ∧ t.dev.refOk = false ∧ t.dev.refLost = true ∧ t.dev.backup = true ∧ t.dev.slewing = true
      ∧ t.dev.ethHold = true ∧ t.dev.refLosses = inc32 s.dev.refLosses ∧ t.dev.backupDev = d
      ∧ (s.up = true → 30000 < d.natAbs → t.dev.state = 7) ∧ (s.up = false → Changes [.dev] s t)
      ∧ Changes faultParts s t)
  ∧ (∀ s : State, s.dev.npor = true → s.dev.refOk = false →
    exec .refReturn s = .next { s with dev := { s.dev with refOk := true, ethHold := false, slewing := s.dev.backup, toRef := s.dev.backup } })
  ∧ (∀ s : State, s.dev.npor = true → s.dev.slewing = true → s.dev.toRef = true →
    ∃ t, exec .pllSlewComplete s = .next t
      ∧ t.dev = { s.dev with slewing := false, toRef := false, refLost := false, backup := false, backupDev := 0 }
      ∧ t.fault.standing = setBit s.fault.standing 18 false ∧ Changes [.dev, .fault] s t)
  ∧ (∀ s : State, s.dev.npor = true → s.dev.slewing = true → s.dev.toRef = false →
    exec .pllSlewComplete s = .next { s with dev := { s.dev with slewing := false } }))
  ∧ ((∀ s : State, s.dev.vaon = true →
    ∃ t, exec .vaonLost s = .next t ∧ t.dev.state = 0 ∧ t.dev.vaon = false ∧ t.dev.strapsHeld = false ∧ t.dev.pwrReq = false ∧ t.dev.retained = 0
      ∧ t.dev.histogram = ({} : DevState).histogram ∧ t.persist.copies = s.persist.copies)
  ∧ (∀ s : State, s.dev.vaon = false → exec .vaonApplied s = .next { s with dev := { s.dev with vaon := true, pwrReq := true } })
  ∧ (∀ (pin t1s : Bool) (s : State), s.dev.state = 1 → s.dev.pwrReq = false →
    (pin = true ∧ bit s.dev.wakeEnable 0 = true) ∨ (t1s = true ∧ s.cfg.b 0x1030 3 = true) →
    ∃ t, exec (.wakeUp pin t1s) s = .next t ∧ t.dev.pwrReq = true ∧ t.dev.wakeAt = some s.now ∧ bits t.dev.retained 63 60 = 4
      ∧ bit t.dev.retained 40 = (pin && bit s.dev.wakeEnable 0) ∧ bit t.dev.retained 41 = (t1s && s.cfg.b 0x1030 3) ∧ Changes [.dev] s t)
  ∧ (∀ (pin t1s : Bool) (s : State), (pin && bit s.dev.wakeEnable 0) = false → (t1s && s.cfg.b 0x1030 3) = false → exec (.wakeUp pin t1s) s = .next s)
  ∧ (∀ (t0 : Nat) (s : State), s.dev.state = 1 → s.dev.wakeAt = some t0 →
    exec .failedWake s = .next { s with dev := { s.dev with pwrReq := false, wakeAt := none, failedWakes := inc32 s.dev.failedWakes } }))

/-- R406 to R410: what nPOR and nRST do: the domains that they reset, the counter and the straps, and the hold histogram. -/
def Obligations.Resets : Prop :=
  (∀ (straps : Nat) (ref : Bool) (s : State), s.dev.vaon = true → s.dev.npor = false → s.dev.state ≠ 1 → s.flash.current = none →
    ∃ t, exec (.nporRise straps ref) s = .next t ∧ t.dev.state = 2 ∧ t.dev.counter = 0 ∧ t.dev.counting = true ∧ t.dev.npor = true
      ∧ t.dev.straps = (if s.dev.strapsHeld then s.dev.straps else straps % 64) ∧ t.dev.bootFrom = 0
      ∧ t.active = {} ∧ t.staged = {} ∧ t.commit = {} ∧ t.fault = {} ∧ t.trip = {} ∧ t.frame = {}
      ∧ t.flash.bankA.image = s.flash.bankA.image ∧ t.flash.bankB.image = s.flash.bankB.image ∧ t.persist.copies = s.persist.copies
      ∧ t.pending = s.pending)
  ∧ (∀ s : State, 2 ≤ s.dev.state →
    ∃ t, exec .nporFall s = .next t ∧ t.dev.state = 0 ∧ t.dev.npor = false ∧ t.dev.counting = false ∧ t.dev.counter = s.dev.counter
      ∧ t.dev.retained = s.dev.retained ∧ t.dev.histogram = s.dev.histogram ∧ t.persist.copies = s.persist.copies ∧ t.net.slots = s.net.slots)
  ∧ (∀ s : State, s.dev.state ≤ 1 → exec .nporFall s = .next { s with dev := { s.dev with npor := false } })
  ∧ (∀ s : State, s.dev.nrst = true → 2 ≤ s.dev.state →
    ∃ t, exec .nrstLow s = .next t ∧ t.dev.state = 2 ∧ t.dev.nrst = false ∧ t.dev.counter = s.dev.counter ∧ t.dev.straps = s.dev.straps
      ∧ t.dev.retained = s.dev.retained ∧ t.dev.backup = s.dev.backup ∧ t.dev.slewing = s.dev.slewing ∧ t.chain.up = s.chain.up ∧ t.chain.dn = s.chain.dn
      ∧ t.bench.lockUntil = s.bench.lockUntil ∧ t.frame = {} ∧ t.active = {} ∧ t.commit = {} ∧ t.fault = {} ∧ t.persist.copies = s.persist.copies)
  ∧ (∀ (aon : Nat) (s : State), s.dev.nrst = false →
    ∃ t, exec (.nrstRise aon) s = .next t ∧ t.dev.nrst = true ∧ t.dev.lastHold = min (aon * 1000 / 32768) (2 ^ 32 - 1)
      ∧ t.dev.histogram = upd s.dev.histogram (State.holdBin aon) (fun n => min 65535 (n + 1))
      ∧ (2 ≤ s.dev.state → t.dev.state = 2 ∧ t.dev.bootFrom = s.dev.resetFrom) ∧ (s.dev.state ≤ 1 → t.dev.state = s.dev.state)
      ∧ Changes [.mode, .dev] s t)

/-- R374 to R377, R380: the Ridge links' marks, measurements, trips, losses and returns. R384 to R386: a partner's record, and the hand-off of a
machine between twins. -/
def Obligations.ChainEvents : Prop :=
  ((∀ (fn period : Nat) (gptp : Option Nat) (summit : Bool) (s : State), s.full = true → s.shoulder = true → s.chain.up.up = true →
    ∃ t, exec (.troughMark fn period gptp summit) s = .next t
      ∧ t.chain = { s.chain with markSeen := true, markPeriod := period, holdover := false, upSummit := summit }
      ∧ t.frame = { s.frame with gptpOffset := t.frame.gptpOffset } ∧ (∀ g, gptp = some g → t.frame.gptpOffset = (g + 5 * s.chain.offset) % 2 ^ 64)
      ∧ t.net.gptp.present = gptp.isSome ∧ Changes [.frame, .net, .chain] s t)
  ∧ (∀ s : State, s.full = true → s.shoulder = true → s.frame.started = true → s.chain.markSeen = false → s.chain.holdover = false →
    s.frame.troughTime + 20 ≤ s.now →
    ∃ t, exec .timebaseLoss s = .next t ∧ t.chain.timebaseLoss = true ∧ t.chain.holdover = true
      ∧ (t.chain.role = 3 ↔ s.chain.up.up = false ∨ s.chain.upSummit = true) ∧ (s.fault.isSecond 0x0E 21 = false → bit t.fault.standing 20 = true)
      ∧ Reports [.chain] s t)
  ∧ (∀ (upper : Bool) (s : State), s.up = true → (if upper then s.chain.up else s.chain.dn).up = true →
    ∃ t, exec (.ridgeLinkLoss upper) s = .next t ∧ (if upper then t.chain.up else t.chain.dn) = {}
      ∧ (if upper then t.chain.dn = s.chain.dn else t.chain.up = s.chain.up) ∧ t.chain.losses = inc32 s.chain.losses
      ∧ (t.chain.succeeded = true → s.chain.succeeded = true ∨ (upper = true ∧ s.chain.role = 2 ∧ s.chain.holdover = true))
      ∧ Changes [.dev, .trip, .canc, .diag, .chain, .flash] s t)
  ∧ (∀ s : State, s.up = true → s.chain.strapErr = false → bit s.dev.straps 0 = true →
    ∃ t, exec (.ridgeLinkUp true) s = .next t ∧ t.chain.strapErr = true ∧ t.chain.role = 0 ∧ t.chain.dn = {}
      ∧ Changes [.dev, .trip, .canc, .diag, .chain, .flash] s t)
  ∧ (∀ (upper : Bool) (s : State), s.up = true → s.chain.strapErr = false → (upper = true → bit s.dev.straps 0 = false) →
    ∃ t, exec (.ridgeLinkUp upper) s = .next t ∧ (if upper then t.chain.up else t.chain.dn).up = true
      ∧ (upper = false → s.working = true → s.chain.role = 0 → bit s.dev.straps 0 = true → t.chain.role = 1) ∧ Changes [.chain] s t)
  ∧ (∀ (trips : List Nat) (s : State), s.full = true → s.dev.state ≠ 3 → s.shoulder = true → s.chain.up.up = true →
    ∃ t, exec (.ridgeHopRemeasure trips) s = .next t ∧ t.chain.hop = hopOf trips ∧ (t.chain.placement - s.chain.placement).natAbs ≤ 1 ∧ Changes [.chain] s t)
  ∧ (∀ (upper on : Bool) (s : State), s.up = true → (if upper then s.chain.up else s.chain.dn).up = true → s.chain.role ≠ 0 →
    ∃ t, exec (.ridgeTrip upper on) s = .next t ∧ (if upper then t.chain.up else t.chain.dn).rx = on
      ∧ Changes [.dev, .trip, .canc, .diag, .chain, .flash] s t))
  ∧ ((∀ (m : Nat) (r : SplitRecord) (s : State), s.full = true → s.chainUse m ≠ 0 → s.partnerLink m = true → m < s.chain.m.length →
    ∃ t, exec (.splitMachineRecord m r) s = .next t
      ∧ (nth t.chain.m m {} = { nth s.chain.m m {} with id := r.id, iq := r.iq, torque := r.torque, fresh := true, partner := true, agree := r.agree }
          ∨ t.dev.state = 7)
      ∧ (s.chainUse m ≠ 2 → Changes [.chain] s t))
  ∧ (∀ (m : Nat) (s : State), s.full = true → s.partnerLink m = true → (nth s.chain.m m {}).twin = 2 →
    exec (.handOff m) s = .next { s with chain := { s.chain with m := upd s.chain.m m (fun x => { x with handoff := true, asked := false }) } })
  ∧ (∀ (m : Nat) (s : State), s.full = true → s.partnerLink m = true → (nth s.chain.m m {}).twin = 1 → (nth s.chain.m m {}).agree = true →
    exec (.handOff m) s
      = .next { s with chain := { s.chain with m := upd s.chain.m m (fun x => { x with twin := 2, handoff := false, asked := false }) } }))

/-- R388, R393, R399: the end of a flash operation: the record of the ring, the Starter set entry and the update bytes that it completes.
R336, R337: a save writes the older copy of each of its groups; it ends with the last group, or with a failed write. -/
def Obligations.FlashAndSaves : Prop :=
  ((∀ (ok : Bool) (j : FlashJob) (s : State), s.dev.npor = true → s.flash.current = some j → FlashState.classOf j.kind ≠ 3 → s.dev.state ≠ 1 →
    exec (.flashOperationDone ok) s = .next { s with flash := (s.flash.operationDone s.stopped ok).wantUpdate s.stopped })
  ∧ (∀ (ok : Bool) (s : State), s.dev.npor = true → s.flash.current.isSome = true → s.dev.state = 1 →
    ∃ t, exec (.flashOperationDone ok) s = .next t
      ∧ (t.flash.current = none → t.flash.jobs = [] → t.dev.pwrReq = false ∧ t.dev.counting = false) ∧ Changes [.dev, .banks, .flash] s t)
  ∧ (∀ (r : List Byte) (stopped : Bool) (f : FlashState), f.current = some ⟨.event r, 1⟩ →
    (f.operationDone stopped true).ring = f.ring ++ [r] ∧ (f.operationDone stopped true).logWritten = inc32 f.logWritten)
  ∧ (∀ (e pair count : Nat) (user restore stopped : Bool) (f : FlashState), f.current = some ⟨.starter e pair user count restore, 5⟩ → 1 ≤ e →
    e ≤ f.entries.length →
    (let x := nth (f.operationDone stopped true).entries (e - 1) { pair := 0 }
     x.pair = pair ∧ x.user = user ∧ x.count = count ∧ x.ok = true ∧ x.lost = false)
      ∧ ∀ k, k ≠ e - 1 → nth (f.operationDone stopped true).entries k { pair := 0 } = nth f.entries k { pair := 0 })
  ∧ (∀ (stopped : Bool) (left : Nat) (f : FlashState), f.current = some ⟨.update, left⟩ →
    ((f.operationDone stopped true).bank (!f.runningB)).image
        = flashProgram (f.bank (!f.runningB)).image f.update.programmed (f.update.staging.take 8)
      ∧ (f.operationDone stopped true).bank f.runningB = f.bank f.runningB
      ∧ (f.operationDone stopped false).update.result = 6 ∧ (f.operationDone stopped false).bankA = f.bankA))
  ∧ ((∀ (groups mask : Nat) (c : Store) (s : State), s.full = true → s.dev.state ≠ 8 → s.persist.running = some (mask, c) →
    exec (.saveDone groups false) s = .next { s with persist := { s.persist with running := none, result := 2 } })
  ∧ (∀ (groups mask : Nat) (c : Store) (s : State), s.full = true → s.dev.state ≠ 8 → s.persist.running = some (mask, c) →
    ∃ t, exec (.saveDone groups true) s = .next t
      ∧ (∀ g, g < s.persist.copies.length → nth t.persist.copies g (none, none)
          = (if bit mask g = true ∧ bit groups g = true then overwrite g c (nth s.persist.copies g (none, none)) else nth s.persist.copies g (none, none)))
      ∧ ((∀ g, g < 14 → bit mask g = true → bit groups g = true) → t.persist.running = none ∧ t.persist.result = 1 ∧ t.persist.done = true
          ∧ t.persist.completed = inc32 s.persist.completed)
      ∧ ((∃ g, g < 14 ∧ bit mask g = true ∧ bit groups g = false) → ∃ left, t.persist.running = some (left, c)
          ∧ ∀ g, g < 14 → bit left g = (bit mask g && !bit groups g))
      ∧ Changes [.persist] s t)
  ∧ (∀ (g : Nat) (c : Store) (p : Option SavedCopy × Option SavedCopy), newerCopy (overwrite g c p) = some (savedCopy g
      (match newerCopy p with | some x => x.seq + 1 | none => 1) c)
    ∧ (∀ x, newerCopy p = some x → (overwrite g c p).1 = some x ∨ (overwrite g c p).2 = some x)))
end

