-- ==== Sys2Proof/Laws/Flash.lean ====
section
/-! SUPPORT. What the flash operations leave of the firmware banks, and the canonical form of their images. -/

namespace Sys2Proof.Machine

set_option Elab.async false

namespace FlashState

/-- The two firmware banks. -/
def banks (f : FlashState) : FlashBank × FlashBank := (f.bankA, f.bankB)

theorem begun_banks (j : FlashJob) (f : FlashState) : (begun j f).banks = f.banks := by
  unfold begun
  split
  · split <;> rfl
  · rfl

theorem startNext_banks (b : Bool) (f : FlashState) : (startNext b f).banks = f.banks := by
  unfold startNext
  split
  · rfl
  · simp only
    split
    · rfl
    · exact begun_banks ..

theorem push_banks (b : Bool) (k : FlashKind) (f : FlashState) : (push b k f).banks = f.banks := startNext_banks ..

theorem logRecord_banks (b : Bool) (r : List Byte) (f : FlashState) : (logRecord b r f).banks = f.banks := by
  unfold logRecord
  split
  · rfl
  · exact push_banks ..

theorem abandonStarter_banks (f : FlashState) : (f.abandonStarter).banks = f.banks := rfl

theorem stopUpdate_banks (f : FlashState) : f.stopUpdate.banks = f.banks := by
  unfold stopUpdate
  simp only
  split <;> rfl

theorem cut_banks (b : Bool) (f : FlashState) : (f.cut b).banks = f.banks := by
  unfold cut
  simp only
  (repeat' split) <;> rfl

theorem wantUpdate_banks (b : Bool) (f : FlashState) : (f.wantUpdate b).banks = f.banks := by
  unfold wantUpdate
  simp only
  (repeat' split) <;> first | rfl | exact push_banks ..

theorem writeEntry_banks (b : Bool) (e p : Nat) (u : Bool) (f : FlashState) : (f.writeEntry b e p u).banks = f.banks := push_banks ..

theorem store_banks (r : List Byte) (f : FlashState) : (f.store r).banks = f.banks := by
  unfold store
  simp only
  split <;> rfl

theorem starterPhase_banks (e p : Nat) (u : Bool) (c l : Nat) (r : Bool) (f : FlashState) : (f.starterPhase e p u c l r).banks = f.banks := by
  unfold starterPhase
  (repeat' split) <;> rfl

theorem checkEntry_banks (e : Nat) (f : FlashState) : (f.checkEntry e).1.banks = f.banks := by
  unfold checkEntry
  simp only
  split
  · rfl
  · split
    · exact push_banks ..
    · rfl

/-! The same, bank by bank. -/

@[simp] theorem begun_bankA (j : FlashJob) (f : FlashState) : (begun j f).bankA = f.bankA := congrArg Prod.fst (begun_banks ..)
@[simp] theorem begun_bankB (j : FlashJob) (f : FlashState) : (begun j f).bankB = f.bankB := congrArg Prod.snd (begun_banks ..)
@[simp] theorem startNext_bankA (b : Bool) (f : FlashState) : (startNext b f).bankA = f.bankA := congrArg Prod.fst (startNext_banks ..)
@[simp] theorem startNext_bankB (b : Bool) (f : FlashState) : (startNext b f).bankB = f.bankB := congrArg Prod.snd (startNext_banks ..)
@[simp] theorem push_bankA (b : Bool) (k : FlashKind) (f : FlashState) : (push b k f).bankA = f.bankA := congrArg Prod.fst (push_banks ..)
@[simp] theorem push_bankB (b : Bool) (k : FlashKind) (f : FlashState) : (push b k f).bankB = f.bankB := congrArg Prod.snd (push_banks ..)
@[simp] theorem logRecord_bankA (b : Bool) (r : List Byte) (f : FlashState) : (logRecord b r f).bankA = f.bankA := congrArg Prod.fst (logRecord_banks ..)
@[simp] theorem logRecord_bankB (b : Bool) (r : List Byte) (f : FlashState) : (logRecord b r f).bankB = f.bankB := congrArg Prod.snd (logRecord_banks ..)
@[simp] theorem cut_bankA (b : Bool) (f : FlashState) : (f.cut b).bankA = f.bankA := congrArg Prod.fst (cut_banks ..)
@[simp] theorem cut_bankB (b : Bool) (f : FlashState) : (f.cut b).bankB = f.bankB := congrArg Prod.snd (cut_banks ..)
@[simp] theorem wantUpdate_bankA (b : Bool) (f : FlashState) : (f.wantUpdate b).bankA = f.bankA := congrArg Prod.fst (wantUpdate_banks ..)
@[simp] theorem wantUpdate_bankB (b : Bool) (f : FlashState) : (f.wantUpdate b).bankB = f.bankB := congrArg Prod.snd (wantUpdate_banks ..)
@[simp] theorem writeEntry_bankA (b : Bool) (e p : Nat) (u : Bool) (f : FlashState) : (f.writeEntry b e p u).bankA = f.bankA := congrArg Prod.fst (writeEntry_banks ..)
@[simp] theorem writeEntry_bankB (b : Bool) (e p : Nat) (u : Bool) (f : FlashState) : (f.writeEntry b e p u).bankB = f.bankB := congrArg Prod.snd (writeEntry_banks ..)
@[simp] theorem store_bankA (r : List Byte) (f : FlashState) : (f.store r).bankA = f.bankA := congrArg Prod.fst (store_banks ..)
@[simp] theorem store_bankB (r : List Byte) (f : FlashState) : (f.store r).bankB = f.bankB := congrArg Prod.snd (store_banks ..)
@[simp] theorem starterPhase_bankA (e p : Nat) (u : Bool) (c l : Nat) (r : Bool) (f : FlashState) : (f.starterPhase e p u c l r).bankA = f.bankA := congrArg Prod.fst (starterPhase_banks ..)
@[simp] theorem starterPhase_bankB (e p : Nat) (u : Bool) (c l : Nat) (r : Bool) (f : FlashState) : (f.starterPhase e p u c l r).bankB = f.bankB := congrArg Prod.snd (starterPhase_banks ..)
@[simp] theorem abandonStarter_bankA (f : FlashState) : f.abandonStarter.bankA = f.bankA := rfl
@[simp] theorem abandonStarter_bankB (f : FlashState) : f.abandonStarter.bankB = f.bankB := rfl
@[simp] theorem stopUpdate_bankA (f : FlashState) : f.stopUpdate.bankA = f.bankA := congrArg Prod.fst (stopUpdate_banks f)
@[simp] theorem stopUpdate_bankB (f : FlashState) : f.stopUpdate.bankB = f.bankB := congrArg Prod.snd (stopUpdate_banks f)

@[simp] theorem checkEntry_bankA (e : Nat) (f : FlashState) : (f.checkEntry e).1.bankA = f.bankA := congrArg Prod.fst (checkEntry_banks ..)
@[simp] theorem checkEntry_bankB (e : Nat) (f : FlashState) : (f.checkEntry e).1.bankB = f.bankB := congrArg Prod.snd (checkEntry_banks ..)

theorem foldl_banks {α : Type} {g : FlashState → α → FlashState} {l : List α} (f : FlashState) (h : ∀ f x, (g f x).banks = f.banks) :
    (l.foldl g f).banks = f.banks := by
  induction l generalizing f with
  | nil => rfl
  | cons x l ih => exact (ih _).trans (h f x)

theorem bankA_of {f g : FlashState} (h : f.banks = g.banks) : f.bankA = g.bankA := congrArg Prod.fst h

theorem bankB_of {f g : FlashState} (h : f.banks = g.banks) : f.bankB = g.bankB := congrArg Prod.snd h

end FlashState

end Sys2Proof.Machine
end

