-- ==== Sys2Proof/Laws/Changes.lean ====
section
/-! SUPPORT. How claims of the form "only these parts change" compose: along the steps of a definition, its branches and its folds. -/

namespace Sys2Proof.Machine

set_option Elab.async false

theorem Part.same_refl (p : Part) (s : State) : p.same s s := by cases p <;> simp [Part.same]

theorem Part.same_trans (p : Part) {s t u : State} (h : p.same s t) (k : p.same t u) : p.same s u := by
  cases p <;> simp only [Part.same] at h k ⊢
  case active => exact ⟨k.1.trans h.1, k.2.1.trans h.2.1, k.2.2.trans h.2.2⟩
  case banks => exact ⟨k.1.trans h.1, k.2.trans h.2⟩
  case dev => rw [k, h]
  case commit => rw [k, h]
  case flash => rw [k, h]
  all_goals exact k.trans h

namespace Changes

theorem refl (ps : List Part) (s : State) : Changes ps s s := ⟨fun p _ => p.same_refl s⟩

theorem trans {ps : List Part} {s t u : State} (h : Changes ps s t) (k : Changes ps t u) : Changes ps s u :=
  ⟨fun p hp => p.same_trans (h.same p hp) (k.same p hp)⟩

theorem mono {ps qs : List Part} {s t : State} (h : Changes ps s t) (hs : ps ⊆ qs) : Changes qs s t := ⟨fun p hp => h.same p (fun q => hp (hs q))⟩

/-- A step whose changes are known follows others. -/
theorem then_ {ps qs : List Part} {s t u : State} (h : Changes ps s t) (k : Changes qs t u) (hs : qs ⊆ ps := by decide) : Changes ps s u :=
  h.trans (k.mono hs)

/-- The same, the last step first. -/
theorem after {ps qs : List Part} {s t u : State} (k : Changes qs t u) (h : Changes ps s t) (hs : qs ⊆ ps) : Changes ps s u := h.trans (k.mono hs)

theorem ite {ps : List Part} {s t u : State} {c : Prop} [Decidable c] (h : Changes ps s t) (k : Changes ps s u) : Changes ps s (if c then t else u) := by
  split
  · exact h
  · exact k

theorem foldl {α : Type} {ps : List Part} {s t : State} {f : State → α → State} {l : List α} (h : Changes ps s t)
    (k : ∀ x u, Changes ps s u → Changes ps s (f u x)) : Changes ps s (l.foldl f t) := by
  induction l generalizing t with
  | nil => exact h
  | cons x l ih => exact ih (k x t h)

/-- A record update changes the fields it writes; the parts of dev, commit and flash that it keeps follow from the fields kept. -/
theorem update {ps : List Part} {s t : State} (h : Changes ps s t) {v : DevState} {fr : FrameState} {a a2 pa st : Store} {c : CommitState} {pe : PersistState}
    {ta : TableState} {se : SenseState} {ct : List MachCtl} {la : LaneState} {mo : ModState} {tr : TripState} {he : HearthState} {ca : CancState}
    {lo : List LoadModel} {di : DiagState} {au : AudioState} {cr : CrustState} {fa : FaultState} {hk : HkState} {ne : NetState} {be : BenchState}
    {ch : ChainState} {fl : FlashState}
    (h1 : .mode ∈ ps ∨ v.state = t.dev.state := by first | exact .inl (by decide) | with_reducible exact .inr rfl)
    (h2 : .clock ∈ ps ∨ v.counter = t.dev.counter := by first | exact .inl (by decide) | with_reducible exact .inr rfl)
    (h3 : .dev ∈ ps ∨ v = { t.dev with state := v.state, counter := v.counter } := by first | exact .inl (by decide) | with_reducible exact .inr rfl)
    (h4 : .frame ∈ ps ∨ fr = t.frame := by first | exact .inl (by decide) | with_reducible exact .inr rfl)
    (h5 : .active ∈ ps ∨ a = t.active ∧ a2 = t.active2 ∧ pa = t.passed := by first | exact .inl (by decide) | with_reducible exact .inr ⟨rfl, rfl, rfl⟩)
    (h6 : .staged ∈ ps ∨ st = t.staged := by first | exact .inl (by decide) | with_reducible exact .inr rfl)
    (h7 : .token ∈ ps ∨ c.token = t.commit.token := by first | exact .inl (by decide) | with_reducible exact .inr rfl)
    (h8 : .commit ∈ ps ∨ c = { t.commit with token := c.token } := by first | exact .inl (by decide) | with_reducible exact .inr rfl)
    (h9 : .persist ∈ ps ∨ pe = t.persist := by first | exact .inl (by decide) | with_reducible exact .inr rfl)
    (h10 : .table ∈ ps ∨ ta = t.table := by first | exact .inl (by decide) | with_reducible exact .inr rfl)
    (h11 : .sense ∈ ps ∨ se = t.sense := by first | exact .inl (by decide) | with_reducible exact .inr rfl)
    (h12 : .ctl ∈ ps ∨ ct = t.ctl := by first | exact .inl (by decide) | with_reducible exact .inr rfl)
    (h13 : .lanes ∈ ps ∨ la = t.lanes := by first | exact .inl (by decide) | with_reducible exact .inr rfl)
    (h14 : .mod ∈ ps ∨ mo = t.mod := by first | exact .inl (by decide) | with_reducible exact .inr rfl)
    (h15 : .trip ∈ ps ∨ tr = t.trip := by first | exact .inl (by decide) | with_reducible exact .inr rfl)
    (h16 : .hearth ∈ ps ∨ he = t.hearth := by first | exact .inl (by decide) | with_reducible exact .inr rfl)
    (h17 : .canc ∈ ps ∨ ca = t.canc := by first | exact .inl (by decide) | with_reducible exact .inr rfl)
    (h18 : .loads ∈ ps ∨ lo = t.loads := by first | exact .inl (by decide) | with_reducible exact .inr rfl)
    (h19 : .diag ∈ ps ∨ di = t.diag := by first | exact .inl (by decide) | with_reducible exact .inr rfl)
    (h20 : .audio ∈ ps ∨ au = t.audio := by first | exact .inl (by decide) | with_reducible exact .inr rfl)
    (h21 : .crust ∈ ps ∨ cr = t.crust := by first | exact .inl (by decide) | with_reducible exact .inr rfl)
    (h22 : .fault ∈ ps ∨ fa = t.fault := by first | exact .inl (by decide) | with_reducible exact .inr rfl)
    (h23 : .hk ∈ ps ∨ hk = t.hk := by first | exact .inl (by decide) | with_reducible exact .inr rfl)
    (h24 : .net ∈ ps ∨ ne = t.net := by first | exact .inl (by decide) | with_reducible exact .inr rfl)
    (h25 : .bench ∈ ps ∨ be = t.bench := by first | exact .inl (by decide) | with_reducible exact .inr rfl)
    (h26 : .chain ∈ ps ∨ ch = t.chain := by first | exact .inl (by decide) | with_reducible exact .inr rfl)
    (h27 : .banks ∈ ps ∨ fl.bankA = t.flash.bankA ∧ fl.bankB = t.flash.bankB := by
      first
        | exact .inl (by decide)
        | with_reducible exact .inr ⟨rfl, rfl⟩
        | (refine .inr ⟨?_, ?_⟩ <;> (simp; done))
        | (refine .inr ⟨?_, ?_⟩ <;> (simp +zetaDelta; done)))
    (h28 : .flash ∈ ps ∨ fl = { t.flash with bankA := fl.bankA, bankB := fl.bankB } := by first | exact .inl (by decide) | with_reducible exact .inr rfl) :
    Changes ps s ⟨t.pending, v, fr, a, a2, pa, st, c, pe, ta, se, ct, la, mo, tr, he, ca, lo, di, au, cr, fa, hk, ne, be, ch, fl⟩ := by
  refine h.trans ⟨fun p hp => ?_⟩
  have out {P : Prop} {q : Part} (h : q ∈ ps ∨ P) (hq : q ∉ ps) : P := h.resolve_left hq
  cases p
  case pending => exact rfl
  case mode => exact out h1 hp
  case clock => exact out h2 hp
  case dev => exact out h3 hp
  case frame => exact out h4 hp
  case active => exact out h5 hp
  case staged => exact out h6 hp
  case token => exact out h7 hp
  case commit => exact out h8 hp
  case persist => exact out h9 hp
  case table => exact out h10 hp
  case sense => exact out h11 hp
  case ctl => exact out h12 hp
  case lanes => exact out h13 hp
  case mod => exact out h14 hp
  case trip => exact out h15 hp
  case hearth => exact out h16 hp
  case canc => exact out h17 hp
  case loads => exact out h18 hp
  case diag => exact out h19 hp
  case audio => exact out h20 hp
  case crust => exact out h21 hp
  case fault => exact out h22 hp
  case hk => exact out h23 hp
  case net => exact out h24 hp
  case bench => exact out h25 hp
  case chain => exact out h26 hp
  case banks => exact out h27 hp
  case flash => exact out h28 hp

end Changes

end Sys2Proof.Machine
end

