-- ==== Sys2Proof/Laws/Ops.lean ====
section
/-! SUPPORT. What the operations over the whole state may change, part by part; and that each command answers a next state. -/

namespace Sys2Proof.Machine

set_option Elab.async false

theorem State.onActive_changes (f : Store → Store) (s : State) : Changes [.active] s (State.onActive f s) := (Changes.refl _ s).update

theorem State.putActive_changes (key raw : Nat) (s : State) :
    Changes [.active] s (State.putActive key raw s) := by
  unfold State.putActive
  exact (Changes.refl _ s).update

theorem State.zeroModes_changes (s : State) : Changes [.active] s (State.zeroModes s) :=
  .ite (.refl ..) ((State.putActive_changes ..).trans (State.putActive_changes ..))

theorem State.moveToken_changes (s : State) :
    Changes [.token] s (State.moveToken s) := by
  unfold State.moveToken
  exact (Changes.refl _ s).update

theorem State.logEvent_changes (kind : Nat) (payload : List Byte) (s : State) :
    Changes [.flash] s (State.logEvent kind payload s) := by
  unfold State.logEvent
  exact (Changes.refl _ s).update

theorem State.closeSession_changes (k : Nat) (s : State) :
    Changes [.dev, .table, .net] s (State.closeSession k s) := by
  unfold State.closeSession
  repeat' first
    | with_reducible exact .refl ..
    | with_reducible assumption
    | extract_lets
    | with_reducible refine Changes.ite ?_ ?_
    | (with_reducible refine Changes.foldl ?_ (fun _ _ _ => ?_))
    | with_reducible refine Changes.update ?_
    | decide
    | split
    | dsimp only

theorem State.closeSessions_changes (p : Session → Bool) (s : State) :
    Changes [.dev, .table, .net] s (State.closeSessions p s) := by
  unfold State.closeSessions
  repeat' first
    | with_reducible exact .refl .. | with_reducible assumption | with_reducible apply Changes.after (State.closeSession_changes ..) | extract_lets
    | split | with_reducible refine Changes.ite ?_ ?_ | with_reducible refine Changes.foldl ?_ (fun _ _ _ => ?_)
    | with_reducible refine Changes.update ?_ | decide

theorem State.tapLog_changes (before s : State) :
    Changes [.dev, .flash] s (State.tapLog before s) := by
  unfold State.tapLog
  exact .ite (.refl ..) (Changes.refl _ s).update

theorem State.goState_changes (dst cause : Nat) (own : Bool) (s : State) :
    Changes [.mode, .dev, .hearth, .canc, .loads, .diag, .audio, .crust, .flash] s (State.goState dst cause own s) := by
  unfold State.goState
  repeat' first
    | with_reducible exact .refl .. | with_reducible apply Changes.after (State.tapLog_changes ..) | extract_lets
    | with_reducible refine Changes.ite ?_ ?_ | with_reducible refine Changes.update ?_ | decide

theorem State.retainBedrock_changes (word : Nat) (s : State) :
    Changes [.dev] s (State.retainBedrock word s) := by
  unfold State.retainBedrock
  exact .ite (.refl ..) (Changes.refl _ s).update

theorem State.hardStates_changes (s : State) :
    Changes [.trip, .crust, .fault] s (State.hardStates s) := by
  unfold State.hardStates
  exact (Changes.refl _ s).update

theorem State.handOffTo_changes (m : Nat) (s : State) :
    Changes [.chain] s (State.handOffTo m s) := by
  unfold State.handOffTo
  exact (Changes.refl _ s).update

theorem State.twinHandOff_changes (m : Nat) (s : State) :
    Changes [.trip, .chain] s (State.twinHandOff m s) := by
  unfold State.twinHandOff
  exact .ite (Changes.refl _ s).update (.refl ..)

theorem State.twinLeave_changes (m : Nat) (s : State) :
    Changes [.chain] s (State.twinLeave m s) := by
  unfold State.twinLeave
  exact .ite (Changes.refl _ s).update (.refl ..)

theorem State.bedrockStops_changes (byVote : Bool) (s : State) :
    Changes [.staged, .commit, .persist, .ctl, .lanes, .trip, .diag, .audio, .crust, .flash] s (State.bedrockStops byVote s) := by
  unfold State.bedrockStops
  exact (Changes.refl _ s).update

theorem State.enterBedrock_changes (cause group : Nat) (byVote : Bool) (s : State) :
    Changes [.mode, .dev, .staged, .commit, .persist, .table, .ctl, .lanes, .trip, .hearth, .canc, .loads, .diag, .audio, .crust, .fault, .net, .chain, .flash] s (State.enterBedrock cause group byVote s) := by
  unfold State.enterBedrock
  repeat' first
    | with_reducible exact .refl .. | with_reducible apply Changes.after (State.logEvent_changes ..)
    | with_reducible apply Changes.after (State.closeSessions_changes ..) | with_reducible apply Changes.after (State.goState_changes ..)
    | with_reducible apply Changes.after (State.retainBedrock_changes ..) | with_reducible apply Changes.after (State.hardStates_changes ..)
    | with_reducible apply Changes.after (State.twinHandOff_changes ..) | with_reducible apply Changes.after (State.bedrockStops_changes ..)
    | extract_lets | with_reducible refine Changes.ite ?_ ?_ | with_reducible refine Changes.update ?_ | decide

theorem State.singleFault_changes (code group detail : Nat) (s : State) :
    Changes [.mode, .dev, .staged, .commit, .persist, .table, .ctl, .lanes, .trip, .hearth, .canc, .loads, .diag, .audio, .crust, .fault, .net, .chain, .flash] s (State.singleFault code group detail s) := by
  unfold State.singleFault
  repeat' first
    | with_reducible exact .refl .. | with_reducible apply Changes.after (State.logEvent_changes ..)
    | with_reducible apply Changes.after (State.enterBedrock_changes ..) | extract_lets | with_reducible refine Changes.ite ?_ ?_
    | with_reducible refine Changes.update ?_ | decide

theorem State.raise_changes (g : Signal) (s : State) :
    Changes [.mode, .dev, .staged, .commit, .persist, .table, .ctl, .lanes, .trip, .hearth, .canc, .loads, .diag, .audio, .crust, .fault, .net, .chain, .flash] s (State.raise g s) := by
  unfold State.raise
  repeat' first
    | with_reducible exact .refl .. | with_reducible apply Changes.after (State.enterBedrock_changes ..)
    | with_reducible apply Changes.after (State.singleFault_changes ..) | extract_lets | split | with_reducible refine Changes.update ?_ | decide

theorem State.raiseAll_changes (l : List Signal) (s : State) :
    Changes [.mode, .dev, .staged, .commit, .persist, .table, .ctl, .lanes, .trip, .hearth, .canc, .loads, .diag, .audio, .crust, .fault, .net, .chain, .flash] s (State.raiseAll l s) := by
  unfold State.raiseAll
  repeat' first
    | with_reducible exact .refl .. | with_reducible assumption | with_reducible apply Changes.after (State.raise_changes ..)
    | with_reducible refine Changes.foldl ?_ (fun _ _ _ => ?_) | with_reducible refine Changes.update ?_ | decide

theorem State.thermalStop_changes (hard : Bool) (s : State) :
    Changes [.mode, .dev, .persist, .ctl, .trip, .hearth, .canc, .loads, .diag, .audio, .crust, .hk, .chain, .flash] s (State.thermalStop hard s) := by
  unfold State.thermalStop
  repeat' first
    | with_reducible exact .refl .. | with_reducible apply Changes.after (State.goState_changes ..)
    | with_reducible apply Changes.after (State.twinLeave_changes ..) | extract_lets | with_reducible refine Changes.ite ?_ ?_
    | with_reducible refine Changes.update ?_ | decide

theorem State.hardenStop_changes (s : State) :
    Changes [.dev, .hk, .flash] s (State.hardenStop s) := by
  unfold State.hardenStop
  exact (Changes.refl _ s).update

theorem State.thermalRelease_changes (s : State) :
    Changes [.mode, .dev, .trip, .hearth, .canc, .loads, .diag, .audio, .crust, .hk, .flash] s (State.thermalRelease s) := by
  unfold State.thermalRelease
  repeat' first
    | with_reducible exact .refl .. | with_reducible apply Changes.after (State.goState_changes ..) | extract_lets
    | with_reducible refine Changes.update ?_ | decide

theorem State.tripTo_changes (t : TripState) (s : State) :
    Changes [.dev, .trip, .canc, .diag, .flash] s (State.tripTo t s) := by
  unfold State.tripTo
  repeat' first
    | with_reducible exact .refl .. | with_reducible apply Changes.after (State.tapLog_changes ..) | extract_lets
    | with_reducible refine Changes.ite ?_ ?_ | with_reducible refine Changes.update ?_ | decide

theorem State.voteSource_changes (m : Nat) (on : Bool) (s : State) :
    Changes [.dev, .trip, .canc, .diag, .flash] s (State.voteSource m on s) := by
  unfold State.voteSource
  repeat' first
    | with_reducible exact .refl .. | with_reducible apply Changes.after (State.tripTo_changes ..) | with_reducible refine Changes.update ?_ | decide

end Sys2Proof.Machine
end

