-- ==== Sys2Proof/Laws/Commit.lean ====
section
/-! SUPPORT. What commits and basic writes may change, part by part; and that each command answers a next state. -/

namespace Sys2Proof.Machine

set_option Elab.async false

theorem State.acceptWrite_changes (key raw : Nat) (s : State) :
    Changes [.staged, .token, .commit] s (State.acceptWrite key raw s) := by
  unfold State.acceptWrite State.moveToken
  extract_lets
  exact Changes.update (Changes.refl _ s)

theorem State.acceptAction_changes (key raw : Nat) (s : State) : Changes [.commit] s (State.acceptAction key raw s) := (Changes.refl _ s).update

theorem State.clearFlags_changes (key w : Nat) (s : State) :
    Changes [.persist, .sense, .mod, .trip, .hearth, .canc, .loads, .diag, .audio, .crust, .hk, .chain] s (State.clearFlags key w s) := by
  unfold State.clearFlags
  repeat' first
    | with_reducible exact .refl .. | extract_lets | split
    | with_reducible refine Changes.ite ?_ ?_ | with_reducible refine Changes.update ?_ | decide

theorem State.restorePaths_changes (mask : Nat) (s : State) :
    Changes [.sense] s (State.restorePaths mask s) := by
  unfold State.restorePaths
  exact (Changes.refl _ s).update

theorem State.actAtBoundary_changes (key raw : Nat) (s : State) :
    Changes [.persist, .sense, .mod, .trip, .hearth, .canc, .loads, .diag, .audio, .crust, .hk, .chain] s (State.actAtBoundary key raw s) := by
  unfold State.actAtBoundary
  exact .ite ((restorePaths_changes ..).mono (by decide)) (clearFlags_changes ..)

theorem State.applyValue_changes (w : PendWrite) (s : State) :
    Changes [.active, .staged, .sense] s (State.applyValue w s) := by
  unfold State.applyValue
  repeat' first
    | with_reducible exact .refl .. | with_reducible assumption | with_reducible apply Changes.after (State.putActive_changes ..) | extract_lets
    | with_reducible refine Changes.ite ?_ ?_ | with_reducible refine Changes.foldl ?_ (fun _ _ _ => ?_) | with_reducible refine Changes.update ?_
    | decide

theorem State.applyPart_changes (w : PendWrite) (s : State) :
    Changes [.active, .staged, .persist, .sense, .mod, .trip, .hearth, .canc, .loads, .diag, .audio, .crust, .hk, .chain] s (State.applyPart w s) := by
  unfold State.applyPart
  exact .ite ((actAtBoundary_changes ..).mono (by decide)) ((applyValue_changes ..).mono (by decide))

theorem State.applyCommit_changes (p : PendCommit) (s : State) :
    Changes [.active, .commit, .sense] s (State.applyCommit p s) := by
  unfold State.applyCommit
  exact (Changes.refl _ s).update

theorem State.boundary_changes (groups wait : Nat) (s : State) :
    Changes [.active, .staged, .commit, .persist, .sense, .mod, .trip, .hearth, .canc, .loads, .diag, .audio, .crust, .hk, .chain] s (State.boundary groups wait s).1 := by
  unfold State.boundary
  repeat' first
    | with_reducible exact .refl .. | with_reducible assumption | with_reducible apply Changes.after (State.applyPart_changes ..)
    | with_reducible apply Changes.after (State.applyCommit_changes ..) | extract_lets | split | dsimp only
    | with_reducible refine Changes.foldl ?_ (fun _ _ _ => ?_) | with_reducible refine Changes.update ?_ | decide

theorem State.commitEnd_changes (k : Checking) (s : State) :
    Changes [.token, .commit] s (State.commitEnd k s).1 := by
  unfold State.commitEnd
  exact (Changes.refl _ s).update

theorem State.discardStaged_changes (mask : Nat) (s : State) :
    Changes [.staged, .token] s (State.discardStaged mask s) := by
  unfold State.discardStaged
  exact (Changes.refl _ s).update

theorem State.stage_changes (key raw : Nat) (s : State) :
    Changes [.staged, .token] s (State.stage key raw s) := by
  unfold State.stage
  exact (Changes.refl _ s).update

theorem State.stageBlob_changes (key : Nat) (v : List Byte) (s : State) :
    Changes [.staged, .token] s (State.stageBlob key v s) := by
  unfold State.stageBlob
  exact (Changes.refl _ s).update

end Sys2Proof.Machine
end

