-- ==== Sys2Proof/Laws/SenseCmds.lean ====
section
/-! SUPPORT. What the sensing commands may change, part by part; and that each command answers a next state. -/

namespace Sys2Proof.Machine

set_option Elab.async false

theorem State.sensed_changes (r : SenseState × List Signal) (s : State) :
    Changes [.mode, .dev, .staged, .commit, .persist, .table, .sense, .ctl, .lanes, .trip, .hearth, .canc, .loads, .diag, .audio, .crust, .fault, .net, .chain, .flash] s (State.sensed r s) := by
  unfold State.sensed
  repeat' first
    | with_reducible exact .refl .. | with_reducible apply Changes.after (State.raiseAll_changes ..) | extract_lets
    | with_reducible refine Changes.ite ?_ ?_ | with_reducible refine Changes.update ?_ | decide

theorem State.windows_changes (ws : List PathWindow) (mismatch : Bool) (s : State) :
    Changes [.mode, .dev, .staged, .commit, .persist, .table, .sense, .ctl, .lanes, .trip, .hearth, .canc, .loads, .diag, .audio, .crust, .fault, .net, .chain, .flash] s (State.windows ws mismatch s) := by
  unfold State.windows
  repeat' first
    | with_reducible exact .refl .. | with_reducible apply Changes.after (State.sensed_changes ..) | extract_lets | split
    | with_reducible refine Changes.update ?_ | decide

theorem State.twinRecord_changes (m : Nat) (paths : List (Nat × Int)) (hits : List (Nat × Bool × Bool)) (s : State) :
    Changes [.mode, .dev, .staged, .commit, .persist, .table, .sense, .ctl, .lanes, .trip, .hearth, .canc, .loads, .diag, .audio, .crust, .fault, .net, .chain, .flash] s (State.twinRecord m paths hits s) := by
  unfold State.twinRecord
  repeat' first
    | with_reducible exact .refl .. | with_reducible assumption | with_reducible apply Changes.after (State.tripTo_changes ..)
    | with_reducible apply Changes.after (State.sensed_changes ..) | extract_lets | with_reducible refine Changes.foldl ?_ (fun _ _ _ => ?_)
    | with_reducible refine Changes.update ?_ | decide

theorem State.reportAmbiguous_changes (hb : Nat) (s : State) :
    Changes [.mode, .dev, .staged, .commit, .persist, .table, .sense, .ctl, .lanes, .trip, .hearth, .canc, .loads, .diag, .audio, .crust, .fault, .net, .chain, .flash] s (State.reportAmbiguous hb s) := by
  unfold State.reportAmbiguous
  repeat' first
    | with_reducible exact .refl .. | with_reducible apply Changes.after (State.raise_changes ..) | extract_lets
    | with_reducible refine Changes.ite ?_ ?_ | with_reducible refine Changes.update ?_ | decide

theorem State.pathEligible_changes (sd : Nat) (s : State) :
    Changes [.mode, .dev, .staged, .commit, .persist, .table, .sense, .ctl, .lanes, .trip, .hearth, .canc, .loads, .diag, .audio, .crust, .fault, .net, .chain, .flash] s (State.pathEligible sd s) := by
  unfold State.pathEligible
  repeat' first
    | with_reducible exact .refl .. | with_reducible apply Changes.after (State.raiseAll_changes ..) | extract_lets | split
    | with_reducible refine Changes.ite ?_ ?_ | with_reducible refine Changes.update ?_ | decide

theorem State.speakerSense_changes (w : PathWindow) (s : State) :
    Changes [.mode, .dev, .staged, .commit, .persist, .table, .sense, .ctl, .lanes, .trip, .hearth, .canc, .loads, .diag, .audio, .crust, .fault, .net, .chain, .flash] s (State.speakerSense w s) := by
  unfold State.speakerSense
  repeat' first
    | with_reducible exact .refl .. | with_reducible apply Changes.after (State.raise_changes ..) | extract_lets
    | with_reducible refine Changes.ite ?_ ?_ | with_reducible refine Changes.update ?_ | decide

theorem State.fastPath_changes (sd sum : Nat) (s : State) :
    Changes [.dev, .sense, .trip, .canc, .diag, .flash] s (State.fastPath sd sum s) := by
  unfold State.fastPath
  repeat' first
    | with_reducible exact .refl .. | with_reducible apply Changes.after (State.tripTo_changes ..) | extract_lets
    | with_reducible refine Changes.ite ?_ ?_ | with_reducible refine Changes.update ?_ | decide

theorem State.resolver_changes (n : Nat) (o : ResolverStep) (s : State) :
    Changes [.mode, .dev, .staged, .commit, .persist, .table, .sense, .ctl, .lanes, .trip, .hearth, .canc, .loads, .diag, .audio, .crust, .fault, .net, .chain, .flash] s (State.resolver n o s) := by
  unfold State.resolver
  repeat' first
    | with_reducible exact .refl .. | with_reducible apply Changes.after (State.raiseAll_changes ..) | extract_lets
    | with_reducible refine Changes.update ?_ | decide

theorem State.encoder_changes (n : Nat) (a b z : Bool) (s : State) :
    Changes [.mode, .dev, .staged, .commit, .persist, .table, .sense, .ctl, .lanes, .trip, .hearth, .canc, .loads, .diag, .audio, .crust, .fault, .net, .chain, .flash] s (State.encoder n a b z s) := by
  unfold State.encoder
  repeat' first
    | with_reducible exact .refl .. | with_reducible apply Changes.after (State.raiseAll_changes ..) | extract_lets
    | with_reducible refine Changes.ite ?_ ?_ | with_reducible refine Changes.update ?_ | decide

theorem State.ssi_changes (n : Nat) (o : SsiRead) (s : State) :
    Changes [.mode, .dev, .staged, .commit, .persist, .table, .sense, .ctl, .lanes, .trip, .hearth, .canc, .loads, .diag, .audio, .crust, .fault, .net, .chain, .flash] s (State.ssi n o s) := by
  unfold State.ssi
  repeat' first
    | with_reducible exact .refl .. | with_reducible apply Changes.after (State.raiseAll_changes ..) | extract_lets
    | with_reducible refine Changes.ite ?_ ?_ | with_reducible refine Changes.update ?_ | decide

theorem State.positionApply_changes (m : Nat) (s : State) :
    Changes [.sense] s (State.positionApply m s) := by
  unfold State.positionApply
  repeat' first
    | with_reducible exact .refl .. | extract_lets | with_reducible refine Changes.ite ?_ ?_ | with_reducible refine Changes.update ?_

theorem State.injectionDone_changes (m : Nat) (s : State) :
    Changes [.sense] s (State.injectionDone m s) := by
  unfold State.injectionDone
  exact (Changes.refl _ s).update

theorem State.latchPos_changes (m tc : Nat) (s : State) :
    Changes [.mode, .dev, .staged, .commit, .persist, .table, .sense, .ctl, .lanes, .trip, .hearth, .canc, .loads, .diag, .audio, .crust, .fault, .net, .chain, .flash] s (State.latchPos m tc s) := by
  unfold State.latchPos
  repeat' first
    | with_reducible exact .refl .. | with_reducible apply Changes.after (State.raise_changes ..) | extract_lets
    | with_reducible refine Changes.ite ?_ ?_ | with_reducible refine Changes.update ?_ | decide

theorem State.observe_changes (m : Nat) (volts i : List Rat) (iq phase tUpd : Rat) (s : State) :
    Changes [.sense] s (State.observe m volts i iq phase tUpd s) := by
  unfold State.observe
  exact (Changes.refl _ s).update

theorem execWindowResult_changes (ws : List PathWindow) (mismatch : Bool) (s : State) :
    ∃ t, execWindowResult ws mismatch s = .next t ∧ Changes [.mode, .dev, .staged, .commit, .persist, .table, .sense, .ctl, .lanes, .trip, .hearth, .canc, .loads, .diag, .audio, .crust, .fault, .net, .chain, .flash] s t :=
  ⟨_, rfl, .ite (State.windows_changes ..) (.refl ..)⟩

theorem execCurrentPairAmbiguous_changes (hb : Nat) (s : State) :
    ∃ t, execCurrentPairAmbiguous hb s = .next t ∧ Changes [.mode, .dev, .staged, .commit, .persist, .table, .sense, .ctl, .lanes, .trip, .hearth, .canc, .loads, .diag, .audio, .crust, .fault, .net, .chain, .flash] s t :=
  ⟨_, rfl, .ite (State.reportAmbiguous_changes ..) (.refl ..)⟩

theorem execRestoredPathEligible_changes (sd : Nat) (s : State) :
    ∃ t, execRestoredPathEligible sd s = .next t ∧ Changes [.mode, .dev, .staged, .commit, .persist, .table, .sense, .ctl, .lanes, .trip, .hearth, .canc, .loads, .diag, .audio, .crust, .fault, .net, .chain, .flash] s t :=
  ⟨_, rfl, .ite (State.pathEligible_changes ..) (.refl ..)⟩

theorem execSpeakerSenseResult_changes (w : PathWindow) (s : State) :
    ∃ t, execSpeakerSenseResult w s = .next t ∧ Changes [.mode, .dev, .staged, .commit, .persist, .table, .sense, .ctl, .lanes, .trip, .hearth, .canc, .loads, .diag, .audio, .crust, .fault, .net, .chain, .flash] s t :=
  ⟨_, rfl, .ite (State.speakerSense_changes ..) (.refl ..)⟩

theorem execFastPathOutput_changes (sd sum : Nat) (s : State) :
    ∃ t, execFastPathOutput sd sum s = .next t ∧ Changes [.dev, .sense, .trip, .canc, .diag, .flash] s t :=
  ⟨_, rfl, .ite (State.fastPath_changes ..) (.refl ..)⟩

theorem execResolverLoopStep_changes (n : Nat) (o : ResolverStep) (s : State) :
    ∃ t, execResolverLoopStep n o s = .next t ∧ Changes [.mode, .dev, .staged, .commit, .persist, .table, .sense, .ctl, .lanes, .trip, .hearth, .canc, .loads, .diag, .audio, .crust, .fault, .net, .chain, .flash] s t :=
  ⟨_, rfl, .ite (State.resolver_changes ..) (.refl ..)⟩

theorem execEncoderEdge_changes (n : Nat) (a b z : Bool) (s : State) :
    ∃ t, execEncoderEdge n a b z s = .next t ∧ Changes [.mode, .dev, .staged, .commit, .persist, .table, .sense, .ctl, .lanes, .trip, .hearth, .canc, .loads, .diag, .audio, .crust, .fault, .net, .chain, .flash] s t :=
  ⟨_, rfl, .ite (State.encoder_changes ..) (.refl ..)⟩

theorem execSsiReadDone_changes (n : Nat) (o : SsiRead) (s : State) :
    ∃ t, execSsiReadDone n o s = .next t ∧ Changes [.mode, .dev, .staged, .commit, .persist, .table, .sense, .ctl, .lanes, .trip, .hearth, .canc, .loads, .diag, .audio, .crust, .fault, .net, .chain, .flash] s t :=
  ⟨_, rfl, .ite (State.ssi_changes ..) (.refl ..)⟩

theorem execInjectionConverged_changes (m : Nat) (s : State) :
    ∃ t, execInjectionConverged m s = .next t ∧ Changes [.sense] s t :=
  ⟨_, rfl, .ite (State.injectionDone_changes ..) (.refl ..)⟩

end Sys2Proof.Machine
end

