-- ==== Sys2Proof/Laws/LaneCmds.lean ====
section
/-! SUPPORT. What the lane commands may change, part by part; and that each command answers a next state. -/

namespace Sys2Proof.Machine

set_option Elab.async false

theorem State.splitUpdate_changes (m : Nat) (s : State) :
    Changes [.chain] s (State.splitUpdate m s) := by
  unfold State.splitUpdate
  exact .ite (.refl ..) (Changes.refl _ s).update

theorem State.repairStore_changes (s : State) :
    Changes [.mode, .dev, .active, .staged, .commit, .persist, .table, .ctl, .lanes, .trip, .hearth, .canc, .loads, .diag, .audio, .crust, .fault, .net, .chain, .flash] s (State.repairStore s) := by
  unfold State.repairStore
  extract_lets a b u
  have h : Changes [.active, .staged] s { s with active := a, active2 := b } := (Changes.refl _ s).update
  exact .ite (.refl ..) (.ite (.after (State.raise_changes ..) (h.mono (by decide)) (by decide))
    (.after (State.raise_changes ..) (.after (State.raise_changes ..) (h.mono (by decide)) (by decide)) (by decide)))

theorem State.observeMachine_changes (m : Nat) (s : State) :
    Changes [.sense] s (State.observeMachine m s) := by
  unfold State.observeMachine
  exact State.observe_changes ..

theorem State.latchMachine_changes (m : Nat) (s : State) :
    Changes [.sense, .ctl, .loads, .diag, .chain] s (State.latchMachine m s) := by
  unfold State.latchMachine
  repeat' first
    | with_reducible exact .refl .. | with_reducible apply Changes.after (State.splitUpdate_changes ..)
    | with_reducible apply Changes.after (State.observeMachine_changes ..) | extract_lets
    | with_reducible refine Changes.ite ?_ ?_ | with_reducible refine Changes.update ?_ | decide

theorem State.laneStart_changes (s : State) :
    Changes [.mode, .dev, .active, .staged, .commit, .persist, .table, .sense, .ctl, .lanes, .trip, .hearth, .canc, .loads, .diag, .audio, .crust, .fault, .net, .chain, .flash] s (State.laneStart s) := by
  unfold State.laneStart
  repeat' first
    | with_reducible exact .refl .. | with_reducible apply Changes.after (State.repairStore_changes ..)
    | with_reducible apply Changes.after (State.latchMachine_changes ..) | extract_lets | with_reducible refine Changes.ite ?_ ?_
    | with_reducible refine Changes.update ?_ | decide

theorem State.laneReport_changes (x : Nat) (upset : LaneUpset) (s : State) :
    Changes [.lanes] s (State.laneReport x upset s) := by
  unfold State.laneReport
  repeat' first
    | with_reducible exact .refl .. | with_reducible assumption | extract_lets | split | with_reducible refine Changes.ite ?_ ?_
    | with_reducible refine Changes.foldl ?_ (fun _ _ _ => ?_) | with_reducible refine Changes.update ?_

theorem State.laneDeadline_changes (s : State) :
    Changes [.lanes] s (State.laneDeadline s) := by
  unfold State.laneDeadline
  exact .ite (.refl ..) (Changes.refl _ s).update

theorem State.voteMachine_changes (m : Nat) (f : FullLane) (s : State) :
    Changes [.ctl, .canc, .loads, .diag] s (State.voteMachine m f s) := by
  unfold State.voteMachine
  exact (Changes.refl _ s).update

theorem State.loadShadow_changes (r : LaneReport) (s : State) :
    Changes [.mod] s (State.loadShadow r s) := by
  unfold State.loadShadow
  exact (Changes.refl _ s).update

theorem State.voteUse_changes (used : Option LaneReport) (ul : FullLane) (s : State) :
    Changes [.dev, .ctl, .mod, .trip, .canc, .loads, .diag, .flash] s (State.voteUse used ul s) := by
  unfold State.voteUse
  repeat' first
    | with_reducible exact .refl .. | with_reducible apply Changes.after (State.voteSource_changes ..)
    | with_reducible apply Changes.after (State.voteMachine_changes ..) | with_reducible apply Changes.after (State.loadShadow_changes ..)
    | extract_lets | split | with_reducible refine Changes.ite ?_ ?_ | with_reducible refine Changes.update ?_ | decide

theorem State.voteEnds_changes (s : State) :
    Changes [.lanes] s (State.voteEnds s) := by
  unfold State.voteEnds
  exact (Changes.refl _ s).update

theorem State.vote_changes (copies : Bool) (s : State) :
    Changes [.mode, .dev, .staged, .commit, .persist, .table, .ctl, .lanes, .mod, .trip, .hearth, .canc, .loads, .diag, .audio, .crust, .fault, .net, .chain, .flash] s (State.vote copies s) := by
  unfold State.vote
  repeat' first
    | with_reducible exact .refl .. | with_reducible apply Changes.after (State.raise_changes ..)
    | with_reducible apply Changes.after (State.raiseAll_changes ..) | with_reducible apply Changes.after (State.voteUse_changes ..)
    | with_reducible apply Changes.after (State.voteEnds_changes ..) | extract_lets | with_reducible refine Changes.ite ?_ ?_
    | with_reducible refine Changes.update ?_ | decide

theorem State.selftestDone_changes (x : Nat) (pass : Bool) (s : State) :
    Changes [.lanes] s (State.selftestDone x pass s) := by
  unfold State.selftestDone
  repeat' first
    | with_reducible exact .refl .. | extract_lets | split | with_reducible refine Changes.ite ?_ ?_ | with_reducible refine Changes.update ?_

theorem State.syncDone_changes (x : Nat) (s : State) :
    Changes [.lanes] s (State.syncDone x s) := by
  unfold State.syncDone
  exact .ite (Changes.refl _ s).update (.refl ..)

theorem State.probationDone_changes (x : Nat) (s : State) :
    Changes [.lanes] s (State.probationDone x s) := by
  unfold State.probationDone
  exact .ite (Changes.refl _ s).update (.refl ..)

theorem State.imageCheck_changes (okA okB : Bool) (s : State) :
    Changes [.lanes] s (State.imageCheck okA okB s) := by
  unfold State.imageCheck
  exact (Changes.refl _ s).update

theorem State.swapRequest_changes (s : State) :
    Changes [.lanes] s (State.swapRequest s) := by
  unfold State.swapRequest
  exact (Changes.refl _ s).update

theorem State.laneTest_changes (mask : Nat) (s : State) :
    Changes [.lanes] s (State.laneTest mask s) := by
  unfold State.laneTest
  exact (Changes.refl _ s).update

theorem State.voteTestRequest_changes (w : Nat) (s : State) :
    Changes [.lanes] s (State.voteTestRequest w s) := by
  unfold State.voteTestRequest
  exact (Changes.refl _ s).update

theorem execLaneReport_changes (x : Nat) (upset : LaneUpset) (s : State) :
    ∃ t, execLaneReport x upset s = .next t ∧ Changes [.lanes] s t :=
  ⟨_, rfl, State.laneReport_changes ..⟩

theorem execLaneDeadline_changes (s : State) :
    ∃ t, execLaneDeadline s = .next t ∧ Changes [.lanes] s t :=
  ⟨_, rfl, State.laneDeadline_changes ..⟩

theorem execVote_changes (outvoted : Bool) (s : State) :
    ∃ t, execVote outvoted s = .next t ∧ Changes [.mode, .dev, .staged, .commit, .persist, .table, .ctl, .lanes, .mod, .trip, .hearth, .canc, .loads, .diag, .audio, .crust, .fault, .net, .chain, .flash] s t :=
  ⟨_, rfl, State.vote_changes ..⟩

theorem execLaneSelftestDone_changes (x : Nat) (pass : Bool) (s : State) :
    ∃ t, execLaneSelftestDone x pass s = .next t ∧ Changes [.lanes] s t :=
  ⟨_, rfl, .ite (State.selftestDone_changes ..) (.refl ..)⟩

theorem execLaneSyncDone_changes (x : Nat) (s : State) :
    ∃ t, execLaneSyncDone x s = .next t ∧ Changes [.lanes] s t :=
  ⟨_, rfl, .ite (State.syncDone_changes ..) (.refl ..)⟩

theorem execProbationDone_changes (x : Nat) (s : State) :
    ∃ t, execProbationDone x s = .next t ∧ Changes [.lanes] s t :=
  ⟨_, rfl, .ite (State.probationDone_changes ..) (.refl ..)⟩

theorem execRecipeImageCheck_changes (okA okB : Bool) (s : State) :
    ∃ t, execRecipeImageCheck okA okB s = .next t ∧ Changes [.lanes] s t :=
  ⟨_, rfl, .ite (State.imageCheck_changes ..) (.refl ..)⟩

end Sys2Proof.Machine
end

