-- ==== Sys2Proof/Laws/HearthCmds.lean ====
section
/-! SUPPORT. What the Hearth commands may change, part by part; and that each command answers a next state. -/

namespace Sys2Proof.Machine

set_option Elab.async false

theorem State.chimePlays_changes (s : State) :
    Changes [.hearth] s (State.chimePlays s) := by
  unfold State.chimePlays
  exact (Changes.refl _ s).update

theorem State.chimeChange_changes (old : Store) (s : State) :
    Changes [.hearth] s (State.chimeChange old s) := by
  unfold State.chimeChange
  exact .ite (Changes.refl _ s).update (.refl ..)

theorem State.micSettings_changes (s : State) :
    Changes [.audio] s (State.micSettings s) := by
  unfold State.micSettings
  exact (Changes.refl _ s).update

theorem State.identTable_changes (s : State) :
    Changes [.active, .staged, .token, .canc] s (State.identTable s) := by
  unfold State.identTable State.moveToken
  split
  · exact .refl ..
  · exact ((State.onActive_changes _ s).mono (by decide)).update

theorem State.aspSettings_changes (n : Nat) (s : State) :
    Changes [.active, .staged, .commit, .persist, .sense, .mod, .trip, .hearth, .canc, .loads, .diag, .audio, .crust, .hk, .chain] s (State.aspSettings n s) := by
  unfold State.aspSettings
  repeat' first
    | with_reducible exact .refl .. | with_reducible apply Changes.after (State.boundary_changes ..) | extract_lets
    | with_reducible refine Changes.update ?_ | decide

theorem State.aspAtBlock_changes (s : State) :
    Changes [.active, .staged, .commit, .persist, .sense, .mod, .trip, .hearth, .canc, .loads, .diag, .audio, .crust, .hk, .chain] s (State.aspAtBlock s) := by
  unfold State.aspAtBlock
  repeat' first
    | with_reducible exact .refl .. | with_reducible assumption | with_reducible apply Changes.after (State.aspSettings_changes ..) | extract_lets
    | with_reducible refine Changes.ite ?_ ?_ | with_reducible refine Changes.foldl ?_ (fun _ _ _ => ?_) | with_reducible refine Changes.update ?_
    | decide

theorem State.hearthSettings_changes (s : State) :
    Changes [.dev, .active, .staged, .token, .commit, .persist, .table, .sense, .mod, .trip, .hearth, .canc, .loads, .diag, .audio, .crust, .hk, .chain] s (State.hearthSettings s).1 := by
  unfold State.hearthSettings
  repeat' first
    | with_reducible exact .refl .. | with_reducible apply Changes.after (State.boundary_changes ..)
    | with_reducible apply Changes.after (State.chimePlays_changes ..) | with_reducible apply Changes.after (State.chimeChange_changes ..)
    | with_reducible apply Changes.after (State.micSettings_changes ..) | with_reducible apply Changes.after (State.identTable_changes ..)
    | with_reducible apply Changes.after (State.aspAtBlock_changes ..) | extract_lets | split | dsimp only | with_reducible refine Changes.update ?_
    | decide

theorem State.sensorBoundary_changes (o : List MicChain.MicOut) (s : State) :
    Changes [.sense, .canc] s (State.sensorBoundary o s) := by
  unfold State.sensorBoundary
  exact (Changes.refl _ s).update

theorem State.cancellers_changes (blocks : List SensorBlock) (s : State) :
    Changes [.canc] s (State.cancellers blocks s).1 := by
  unfold State.cancellers
  exact (Changes.refl _ s).update

theorem State.orderMonitors_changes (blocks : List SensorBlock) (s : State) :
    Changes [.diag] s (State.orderMonitors blocks s) := by
  unfold State.orderMonitors
  exact (Changes.refl _ s).update

theorem State.sensorFaults_changes (s : State) :
    Changes [.mode, .dev, .staged, .commit, .persist, .table, .ctl, .lanes, .trip, .hearth, .canc, .loads, .diag, .audio, .crust, .fault, .net, .chain, .flash] s (State.sensorFaults s) := by
  unfold State.sensorFaults
  repeat' first
    | with_reducible exact .refl .. | with_reducible apply Changes.after (State.raiseAll_changes ..) | extract_lets
    | with_reducible refine Changes.ite ?_ ?_ | with_reducible refine Changes.update ?_ | decide

theorem State.identAbort_changes (cause : Nat) (s : State) :
    Changes [.dev, .canc, .diag, .flash] s (State.identAbort cause s) := by
  unfold State.identAbort
  repeat' first
    | with_reducible exact .refl .. | with_reducible apply Changes.after (State.tapLog_changes ..) | extract_lets
    | with_reducible refine Changes.ite ?_ ?_ | with_reducible refine Changes.update ?_ | decide

theorem State.identStart_changes (req : Nat) (s : State) :
    Changes [.dev, .canc, .diag, .flash] s (State.identStart req s) := by
  unfold State.identStart
  repeat' first
    | with_reducible exact .refl .. | with_reducible apply Changes.after (State.tapLog_changes ..) | extract_lets
    | with_reducible refine Changes.ite ?_ ?_ | with_reducible refine Changes.update ?_ | decide

theorem State.tapStart_changes (w : Nat) (s : State) :
    Changes [.dev, .diag, .flash] s (State.tapStart w s) := by
  unfold State.tapStart
  repeat' first
    | with_reducible exact .refl .. | with_reducible apply Changes.after (State.tapLog_changes ..) | extract_lets
    | with_reducible refine Changes.ite ?_ ?_ | with_reducible refine Changes.update ?_ | decide

theorem State.tapChecks_changes (s : State) :
    Changes [.dev, .diag, .flash] s (State.tapChecks s) := by
  unfold State.tapChecks
  repeat' first
    | with_reducible exact .refl .. | with_reducible apply Changes.after (State.tapLog_changes ..) | extract_lets
    | with_reducible refine Changes.ite ?_ ?_ | with_reducible refine Changes.update ?_ | decide

theorem State.tapAborts_changes (s : State) :
    Changes [.dev, .canc, .diag, .flash] s (State.tapAborts s) := by
  unfold State.tapAborts
  repeat' first
    | with_reducible exact .refl .. | with_reducible apply Changes.after (State.tapLog_changes ..)
    | with_reducible apply Changes.after (State.identAbort_changes ..) | extract_lets | with_reducible refine Changes.ite ?_ ?_
    | with_reducible refine Changes.update ?_ | decide

theorem State.tapNext_changes (s : State) :
    Changes [.dev, .canc, .diag, .flash] s (State.tapNext s) := by
  unfold State.tapNext
  repeat' first
    | with_reducible exact .refl .. | with_reducible apply Changes.after (State.identStart_changes ..)
    | with_reducible apply Changes.after (State.tapStart_changes ..) | extract_lets | split | with_reducible refine Changes.ite ?_ ?_
    | with_reducible refine Changes.update ?_ | decide

theorem State.tapRequests_changes (s : State) :
    Changes [.dev, .canc, .diag, .flash] s (State.tapRequests s) := by
  unfold State.tapRequests
  repeat' first
    | with_reducible exact .refl .. | with_reducible apply Changes.after (State.tapAborts_changes ..)
    | with_reducible apply Changes.after (State.tapNext_changes ..) | extract_lets | with_reducible refine Changes.ite ?_ ?_
    | with_reducible refine Changes.update ?_ | decide

theorem State.tapBoundary_changes (blocks : List SensorBlock) (s : State) :
    Changes [.dev, .canc, .diag, .flash] s (State.tapBoundary blocks s) := by
  unfold State.tapBoundary
  repeat' first
    | with_reducible exact .refl .. | with_reducible apply Changes.after (State.boundary_changes ..)
    | with_reducible apply Changes.after (State.identAbort_changes ..) | with_reducible apply Changes.after (State.tapChecks_changes ..)
    | with_reducible apply Changes.after (State.tapRequests_changes ..) | extract_lets | with_reducible refine Changes.ite ?_ ?_
    | with_reducible refine Changes.update ?_ | decide

theorem State.blockJob_changes (new : Bool) (s : State) :
    Changes [.hearth] s (State.blockJob new s) := by
  unfold State.blockJob
  exact (Changes.refl _ s).update

theorem State.blockParts_changes (mics : List (List Int)) (flux torq : List (List Rat)) (s : State) :
    Changes [.hearth] s (State.blockParts mics flux torq s) := by
  unfold State.blockParts
  exact (Changes.refl _ s).update

theorem State.processJob_changes (j : HearthJob) (s : State) :
    Changes [.hearth, .loads, .audio, .crust] s (State.processJob j s) := by
  unfold State.processJob
  exact (Changes.refl _ s).update

theorem State.blockProcess_changes (s : State) :
    Changes [.hearth, .loads, .audio, .crust] s (State.blockProcess s) := by
  unfold State.blockProcess
  repeat' first
    | with_reducible exact .refl .. | with_reducible apply Changes.after (State.processJob_changes ..) | extract_lets | split
    | with_reducible refine Changes.ite ?_ ?_ | with_reducible refine Changes.update ?_ | decide

theorem State.completeFor_changes (n : Nat) (s : State) :
    Changes [.hearth, .loads, .audio, .crust] s (State.completeFor n s) := by
  unfold State.completeFor
  repeat' first
    | with_reducible exact .refl .. | with_reducible apply Changes.after (State.processJob_changes ..) | split
    | with_reducible refine Changes.update ?_ | decide

theorem State.updateStart_changes (s : State) :
    Changes [.mode, .dev, .active, .staged, .commit, .persist, .table, .sense, .ctl, .lanes, .trip, .hearth, .canc, .loads, .diag, .audio, .crust, .fault, .net, .chain, .flash] s (State.updateStart s) := by
  unfold State.updateStart
  extract_lets t
  exact .ite (.refl ..) (.after (State.laneStart_changes ..) ((State.completeFor_changes ..).mono (by decide)) (by decide))

theorem State.streamBoundary_changes (s : State) :
    Changes [.audio] s (State.streamBoundary s) := by
  unfold State.streamBoundary
  exact (Changes.refl _ s).update

theorem State.meanCurrents_changes (s : State) :
    Changes [.loads] s (State.meanCurrents s) := by
  unfold State.meanCurrents
  exact (Changes.refl _ s).update

theorem State.hearthStep_changes (mics : List (List Int)) (blocks : List SensorBlock) (s : State) :
    Changes [.mode, .dev, .active, .staged, .token, .commit, .persist, .table, .sense, .ctl, .lanes, .mod, .trip, .hearth, .canc, .loads, .diag, .audio, .crust, .fault, .hk, .net, .chain, .flash] s (State.hearthStep mics blocks s) := by
  unfold State.hearthStep
  repeat' first
    | with_reducible exact .refl .. | with_reducible apply Changes.after (State.hearthSettings_changes ..)
    | with_reducible apply Changes.after (State.cancellers_changes ..) | with_reducible apply Changes.after (State.orderMonitors_changes ..)
    | with_reducible apply Changes.after (State.sensorFaults_changes ..) | with_reducible apply Changes.after (State.tapBoundary_changes ..)
    | with_reducible apply Changes.after (State.blockJob_changes ..) | with_reducible apply Changes.after (State.blockParts_changes ..)
    | with_reducible apply Changes.after (State.blockProcess_changes ..) | with_reducible apply Changes.after (State.streamBoundary_changes ..)
    | with_reducible apply Changes.after (State.meanCurrents_changes ..) | extract_lets | with_reducible refine Changes.update ?_ | decide

theorem State.hearthBoundary_changes (pdm : List (List Bool)) (s : State) :
    Changes [.mode, .dev, .active, .staged, .token, .commit, .persist, .table, .sense, .ctl, .lanes, .mod, .trip, .hearth, .canc, .loads, .diag, .audio, .crust, .fault, .hk, .net, .chain, .flash] s (State.hearthBoundary pdm s) := by
  unfold State.hearthBoundary
  repeat' first
    | with_reducible exact .refl .. | with_reducible apply Changes.after (State.identTable_changes ..)
    | with_reducible apply Changes.after (State.sensorBoundary_changes ..) | with_reducible apply Changes.after (State.sensorFaults_changes ..)
    | with_reducible apply Changes.after (State.tapBoundary_changes ..) | with_reducible apply Changes.after (State.hearthStep_changes ..)
    | extract_lets | with_reducible refine Changes.ite ?_ ?_ | with_reducible refine Changes.update ?_ | decide

theorem State.alignShift_changes (k : Nat) (s : State) :
    Changes [.hearth, .audio] s (State.alignShift k s) := by
  unfold State.alignShift
  repeat' first
    | with_reducible exact .refl .. | extract_lets | split | with_reducible refine Changes.ite ?_ ?_ | with_reducible refine Changes.update ?_

theorem State.chimeWrite_changes (g w : Nat) (s : State) :
    Changes [.hearth] s (State.chimeWrite g w s) := by
  unfold State.chimeWrite
  exact (Changes.refl _ s).update

theorem execLaneStart_changes (s : State) :
    ∃ t, execLaneStart s = .next t ∧ Changes [.mode, .dev, .active, .staged, .commit, .persist, .table, .sense, .ctl, .lanes, .trip, .hearth, .canc, .loads, .diag, .audio, .crust, .fault, .net, .chain, .flash] s t :=
  ⟨_, rfl, State.updateStart_changes ..⟩

theorem execHearthBlockBoundary_changes (pdm : List (List Bool)) (s : State) :
    ∃ t, execHearthBlockBoundary pdm s = .next t ∧ Changes [.mode, .dev, .active, .staged, .token, .commit, .persist, .table, .sense, .ctl, .lanes, .mod, .trip, .hearth, .canc, .loads, .diag, .audio, .crust, .fault, .hk, .net, .chain, .flash] s t :=
  ⟨_, rfl, State.hearthBoundary_changes ..⟩

theorem execBlockOverrun_changes (s : State) :
    ∃ t, execBlockOverrun s = .next t ∧ Changes [.hearth] s t :=
  ⟨_, rfl, .ite (Changes.refl _ s).update (.refl ..)⟩

theorem execAlignmentShift_changes (k : Nat) (s : State) :
    ∃ t, execAlignmentShift k s = .next t ∧ Changes [.hearth, .audio] s t :=
  ⟨_, rfl, .ite (State.alignShift_changes ..) (.refl ..)⟩

end Sys2Proof.Machine
end

