-- ==== Sys2Proof/Laws/AudioCmds.lean ====
section
/-! SUPPORT. What the audio commands may change, part by part; and that each command answers a next state. -/

namespace Sys2Proof.Machine

set_option Elab.async false

theorem State.setPort_changes (n : Nat) (p : AspPort) (s : State) :
    Changes [.audio] s (State.setPort n p s) := by
  unfold State.setPort
  exact (Changes.refl _ s).update

theorem State.aspSend_changes (n : Nat) (s : State) :
    Changes [.audio] s (State.aspSend n s) := by
  unfold State.aspSend
  exact State.setPort_changes ..

theorem State.aspLeadOut_changes (n : Nat) (s : State) :
    Changes [.audio] s (State.aspLeadOut n s) := by
  unfold State.aspLeadOut
  exact State.setPort_changes ..

theorem State.aspFrame_changes (n : Nat) (cycles : List BitCycle) (s : State) :
    Changes [.active, .staged, .commit, .persist, .sense, .mod, .trip, .hearth, .canc, .loads, .diag, .audio, .crust, .hk, .chain] s (State.aspFrame n cycles s) := by
  unfold State.aspFrame
  exact .ite (.refl ..) (.after (State.aspSend_changes ..) (.after (State.aspLeadOut_changes ..) (.after (State.aspSettings_changes ..)
    ((State.setPort_changes ..).mono (by decide)) (by decide)) (by decide)) (by decide))

theorem State.aspLeadIn_changes (n : Nat) (s : State) :
    Changes [.audio] s (State.aspLeadIn n s) := by
  unfold State.aspLeadIn
  exact .ite (.refl ..) (.after (State.aspSend_changes ..) (State.setPort_changes ..) (by decide))

theorem State.pdmWake_changes (k : Nat) (s : State) :
    Changes [.audio] s (State.pdmWake k s) := by
  unfold State.pdmWake
  repeat' first
    | with_reducible exact .refl .. | extract_lets | split | with_reducible refine Changes.ite ?_ ?_ | with_reducible refine Changes.update ?_

theorem State.listenerPdu_changes (n backlog : Nat) (p : AafPdu) (s : State) :
    Changes [.audio, .net] s (State.listenerPdu n backlog p s) := by
  unfold State.listenerPdu
  repeat' first
    | with_reducible exact .refl .. | extract_lets | with_reducible refine Changes.ite ?_ ?_ | with_reducible refine Changes.update ?_

theorem State.listenerTimeout_changes (n : Nat) (s : State) :
    Changes [.audio] s (State.listenerTimeout n s) := by
  unfold State.listenerTimeout
  exact (Changes.refl _ s).update

theorem execAspFrame_changes (n : Nat) (cycles : List BitCycle) (s : State) :
    ∃ t, execAspFrame n cycles s = .next t ∧ Changes [.active, .staged, .commit, .persist, .sense, .mod, .trip, .hearth, .canc, .loads, .diag, .audio, .crust, .hk, .chain] s t :=
  ⟨_, rfl, .ite (State.aspFrame_changes ..) (.refl ..)⟩

theorem execLeadInEnd_changes (n : Nat) (s : State) :
    ∃ t, execLeadInEnd n s = .next t ∧ Changes [.audio] s t :=
  ⟨_, rfl, .ite (State.aspLeadIn_changes ..) (.refl ..)⟩

theorem execLeadOutEnd_changes (n : Nat) (s : State) :
    ∃ t, execLeadOutEnd n s = .next t ∧ Changes [.audio] s t :=
  ⟨_, rfl, .ite (State.aspLeadOut_changes ..) (.refl ..)⟩

theorem execAspClockLoss_changes (n : Nat) (s : State) :
    ∃ t, execAspClockLoss n s = .next t ∧ Changes [.audio] s t :=
  ⟨_, rfl, .ite (State.setPort_changes ..) (.refl ..)⟩

theorem execPdmWakeEnd_changes (k : Nat) (s : State) :
    ∃ t, execPdmWakeEnd k s = .next t ∧ Changes [.audio] s t :=
  ⟨_, rfl, .ite (State.pdmWake_changes ..) (.refl ..)⟩

theorem execListenerPdu_changes (n backlog : Nat) (pdu : AafPdu) (s : State) :
    ∃ t, execListenerPdu n backlog pdu s = .next t ∧ Changes [.audio, .net] s t :=
  ⟨_, rfl, .ite (State.listenerPdu_changes ..) (.refl ..)⟩

theorem execListenerTimeout_changes (n : Nat) (s : State) :
    ∃ t, execListenerTimeout n s = .next t ∧ Changes [.audio] s t :=
  ⟨_, rfl, .ite (State.listenerTimeout_changes ..) (.refl ..)⟩

end Sys2Proof.Machine
end

