-- ==== Sys2Proof/Laws/TripCmds.lean ====
section
/-! SUPPORT. What the trip and discharge commands may change, part by part; and that each command answers a next state. -/

namespace Sys2Proof.Machine

set_option Elab.async false

theorem State.discharge_changes (host crust : Bool) (s : State) :
    Changes [.trip] s (State.discharge host crust s) := by
  unfold State.discharge
  exact .ite (.refl ..) (Changes.refl _ s).update

theorem State.fltLevel_changes (n : Nat) (level : Bool) (s : State) :
    Changes [.dev, .trip, .canc, .diag, .flash] s (State.fltLevel n level s) := by
  unfold State.fltLevel
  repeat' first
    | with_reducible exact .refl .. | with_reducible apply Changes.after (State.tripTo_changes ..) | extract_lets
    | with_reducible refine Changes.ite ?_ ?_ | with_reducible refine Changes.update ?_ | decide

theorem State.fltApply_changes (s : State) :
    Changes [.dev, .trip, .canc, .diag, .flash] s (State.fltApply s) := by
  unfold State.fltApply
  repeat' first
    | with_reducible exact .refl .. | with_reducible apply Changes.after (State.tripTo_changes ..) | with_reducible refine Changes.update ?_ | decide

theorem State.ridgeApply_changes (s : State) :
    Changes [.dev, .trip, .canc, .diag, .flash] s (State.ridgeApply s) := by
  unfold State.ridgeApply
  repeat' first
    | with_reducible exact .refl .. | with_reducible apply Changes.after (State.tripTo_changes ..) | with_reducible refine Changes.update ?_ | decide

theorem State.patternDelayEnd_changes (m : Nat) (s : State) :
    Changes [.trip] s (State.patternDelayEnd m s) := by
  unfold State.patternDelayEnd
  exact (Changes.refl _ s).update

theorem State.tripClear_changes (mask : Nat) (s : State) :
    Changes [.trip] s (State.tripClear mask s).1 := by
  unfold State.tripClear
  exact (Changes.refl _ s).update

theorem State.gdlSource_changes (link : Nat) (s : State) :
    Changes [.dev, .trip, .canc, .diag, .flash] s (State.gdlSource link s) := by
  unfold State.gdlSource
  repeat' first
    | with_reducible exact .refl .. | with_reducible apply Changes.after (State.tripTo_changes ..) | with_reducible refine Changes.update ?_ | decide

theorem State.setLink_changes (link : Nat) (x : GdlLink) (s : State) :
    Changes [.trip] s (State.setLink link x s) := by
  unfold State.setLink
  exact (Changes.refl _ s).update

theorem State.linkDone_changes (link : Nat) (rx : List Nat) (s : State) :
    Changes [.mode, .dev, .staged, .commit, .persist, .table, .ctl, .lanes, .trip, .hearth, .canc, .loads, .diag, .audio, .crust, .fault, .net, .chain, .flash] s (State.linkDone link rx s) := by
  unfold State.linkDone
  repeat' first
    | with_reducible exact .refl .. | with_reducible apply Changes.after (State.raise_changes ..)
    | with_reducible apply Changes.after (State.gdlSource_changes ..) | with_reducible apply Changes.after (State.setLink_changes ..) | extract_lets
    | split | with_reducible refine Changes.ite ?_ ?_ | with_reducible refine Changes.update ?_ | decide

theorem State.linkRequest_changes (link k : Nat) (s : State) :
    Changes [.trip] s (State.linkRequest link k s) := by
  unfold State.linkRequest
  exact (Changes.refl _ s).update

theorem State.linkRerun_changes (link : Nat) (s : State) :
    Changes [.dev, .trip, .canc, .diag, .flash] s (State.linkRerun link s) := by
  unfold State.linkRerun
  repeat' first
    | with_reducible exact .refl .. | with_reducible apply Changes.after (State.gdlSource_changes ..)
    | with_reducible apply Changes.after (State.setLink_changes ..) | extract_lets | with_reducible refine Changes.update ?_ | decide

theorem State.linkSetup_changes (s : State) :
    Changes [.trip] s (State.linkSetup s) := by
  unfold State.linkSetup
  exact (Changes.refl _ s).update

theorem execFltInput_changes (n : Nat) (level : Bool) (s : State) :
    ∃ t, execFltInput n level s = .next t ∧ Changes [.dev, .trip, .canc, .diag, .flash] s t :=
  ⟨_, rfl, State.fltLevel_changes ..⟩

theorem execSafePatternDelayEnd_changes (m : Nat) (s : State) :
    ∃ t, execSafePatternDelayEnd m s = .next t ∧ Changes [.trip] s t :=
  ⟨_, rfl, .ite (State.patternDelayEnd_changes ..) (.refl ..)⟩

theorem execDischargeDone_changes (s : State) :
    ∃ t, execDischargeDone s = .next t ∧ Changes [.trip] s t :=
  ⟨_, rfl, .ite (Changes.refl _ s).update (.refl ..)⟩

theorem execDischargeTimeLimit_changes (s : State) :
    ∃ t, execDischargeTimeLimit s = .next t ∧ Changes [.trip] s t :=
  ⟨_, rfl, .ite (Changes.refl _ s).update (.refl ..)⟩

theorem execDchgTimeout_changes (s : State) :
    ∃ t, execDchgTimeout s = .next t ∧ Changes [.trip] s t :=
  ⟨_, rfl, .ite (Changes.refl _ s).update (.refl ..)⟩

theorem execDchgLockEnd_changes (s : State) :
    ∃ t, execDchgLockEnd s = .next t ∧ Changes [.trip] s t :=
  ⟨_, rfl, .ite (Changes.refl _ s).update (.refl ..)⟩

theorem execGdlTransferDone_changes (link : Nat) (rx : List Nat) (s : State) :
    ∃ t, execGdlTransferDone link rx s = .next t ∧ Changes [.mode, .dev, .staged, .commit, .persist, .table, .ctl, .lanes, .trip, .hearth, .canc, .loads, .diag, .audio, .crust, .fault, .net, .chain, .flash] s t :=
  ⟨_, rfl, .ite (State.linkDone_changes ..) (.refl ..)⟩

end Sys2Proof.Machine
end

