-- ==== Sys2Proof/Laws/BootCmds.lean ====
section
/-! SUPPORT. What the reset and boot commands may change, part by part; and that each command answers a next state. -/

namespace Sys2Proof.Machine

set_option Elab.async false

theorem State.afterReset_changes (s : State) :
    Changes [.mode, .clock, .dev, .frame, .active, .staged, .token, .commit, .persist, .table, .sense, .ctl, .lanes, .mod, .trip, .hearth, .canc, .loads, .diag, .audio, .crust, .fault, .hk, .net, .bench, .chain, .banks, .flash] s (State.afterReset s) := by
  unfold State.afterReset
  exact (Changes.refl _ s).update

theorem State.strapped_changes (s : State) :
    Changes [.chain] s (State.strapped s) := by
  unfold State.strapped
  exact (Changes.refl _ s).update

theorem State.toBoot_changes (from_ cause : Nat) (s : State) :
    Changes [.mode, .dev] s (State.toBoot from_ cause s) := by
  unfold State.toBoot
  exact (Changes.refl _ s).update

theorem State.nporRise_changes (straps : Nat) (ref : Bool) (s : State) :
    Changes [.mode, .clock, .dev, .frame, .active, .staged, .token, .commit, .persist, .table, .sense, .ctl, .lanes, .mod, .trip, .hearth, .canc, .loads, .diag, .audio, .crust, .fault, .hk, .net, .bench, .chain, .banks, .flash] s (State.nporRise straps ref s) := by
  unfold State.nporRise
  repeat' first
    | with_reducible exact .refl .. | with_reducible apply Changes.after (State.afterReset_changes ..)
    | with_reducible apply Changes.after (State.strapped_changes ..) | with_reducible apply Changes.after (State.toBoot_changes ..) | extract_lets
    | with_reducible refine Changes.ite ?_ ?_ | with_reducible refine Changes.update ?_ | decide

theorem State.nporFall_changes (s : State) :
    Changes [.mode, .clock, .dev, .frame, .active, .staged, .token, .commit, .persist, .table, .sense, .ctl, .lanes, .mod, .trip, .hearth, .canc, .loads, .diag, .audio, .crust, .fault, .hk, .net, .bench, .chain, .banks, .flash] s (State.nporFall s) := by
  unfold State.nporFall
  repeat' first
    | with_reducible exact .refl .. | with_reducible apply Changes.after (State.afterReset_changes ..) | extract_lets
    | with_reducible refine Changes.ite ?_ ?_ | with_reducible refine Changes.update ?_ | decide

theorem State.nrstLow_changes (s : State) :
    Changes [.mode, .clock, .dev, .frame, .active, .staged, .token, .commit, .persist, .table, .sense, .ctl, .lanes, .mod, .trip, .hearth, .canc, .loads, .diag, .audio, .crust, .fault, .hk, .net, .bench, .chain, .banks, .flash] s (State.nrstLow s) := by
  unfold State.nrstLow
  repeat' first
    | with_reducible exact .refl .. | with_reducible apply Changes.after (State.afterReset_changes ..)
    | with_reducible apply Changes.after (State.strapped_changes ..) | extract_lets | with_reducible refine Changes.ite ?_ ?_
    | with_reducible refine Changes.update ?_ | decide

theorem State.nrstRise_changes (aon : Nat) (s : State) :
    Changes [.mode, .dev] s (State.nrstRise aon s) := by
  unfold State.nrstRise
  repeat' first
    | with_reducible exact .refl .. | with_reducible apply Changes.after (State.toBoot_changes ..) | extract_lets
    | with_reducible refine Changes.ite ?_ ?_ | with_reducible refine Changes.update ?_ | decide

theorem State.vaonLost_changes (s : State) :
    Changes [.mode, .clock, .dev, .frame, .active, .staged, .token, .commit, .persist, .table, .sense, .ctl, .lanes, .mod, .trip, .hearth, .canc, .loads, .diag, .audio, .crust, .fault, .hk, .net, .bench, .chain, .banks, .flash] s (State.vaonLost s) := by
  unfold State.vaonLost
  exact .ite (.refl ..) (Changes.refl _ s).update

theorem State.vaonApplied_changes (s : State) :
    Changes [.dev] s (State.vaonApplied s) := by
  unfold State.vaonApplied
  exact .ite (.refl ..) (Changes.refl _ s).update

theorem State.wake_changes (pin t1s : Bool) (s : State) :
    Changes [.dev] s (State.wake pin t1s s) := by
  unfold State.wake
  exact .ite (.refl ..) (Changes.refl _ s).update

theorem State.failedWake_changes (s : State) :
    Changes [.dev] s (State.failedWake s) := by
  unfold State.failedWake
  exact .ite (Changes.refl _ s).update (.refl ..)

theorem State.loadPersisted_changes (s : State) :
    Changes [.dev, .active, .staged, .persist] s (State.loadPersisted s) := by
  unfold State.loadPersisted
  exact (Changes.refl _ s).update

theorem State.checkStarter_changes (s : State) :
    Changes [.mode, .dev, .staged, .commit, .persist, .table, .ctl, .lanes, .trip, .hearth, .canc, .loads, .diag, .audio, .crust, .fault, .net, .chain, .flash] s (State.checkStarter s) := by
  unfold State.checkStarter
  repeat' first
    | with_reducible exact .refl .. | with_reducible assumption | with_reducible apply Changes.after (State.raise_changes ..) | extract_lets
    | with_reducible refine Changes.ite ?_ ?_ | with_reducible refine Changes.foldl ?_ (fun _ _ _ => ?_) | with_reducible refine Changes.update ?_
    | decide

theorem State.bootThermal_changes (s : State) :
    Changes [.flash] s (State.bootThermal s) := by
  unfold State.bootThermal
  exact .ite (.refl ..) (Changes.refl _ s).update

theorem State.startBank_changes (b : Bool) (s : State) :
    Changes [.dev, .banks, .flash] s (State.startBank b s) := by
  unfold State.startBank
  exact (Changes.refl _ s).update

theorem State.startAdmitted_changes (s : State) :
    Changes [.dev, .banks, .flash] s (State.startAdmitted s) := by
  unfold State.startAdmitted
  repeat' first
    | with_reducible exact .refl .. | with_reducible apply Changes.after (State.startBank_changes ..) | extract_lets | split
    | with_reducible refine Changes.ite ?_ ?_ | with_reducible refine Changes.update ?_ | decide

theorem State.verificationDone_changes (eccA eccB : Bool) (s : State) :
    Changes [.mode, .dev, .active, .staged, .commit, .persist, .table, .ctl, .lanes, .trip, .hearth, .canc, .loads, .diag, .audio, .crust, .fault, .net, .bench, .chain, .banks, .flash] s (State.verificationDone eccA eccB s) := by
  unfold State.verificationDone
  repeat' first
    | with_reducible exact .refl .. | with_reducible apply Changes.after (State.loadPersisted_changes ..)
    | with_reducible apply Changes.after (State.checkStarter_changes ..) | with_reducible apply Changes.after (State.bootThermal_changes ..)
    | with_reducible apply Changes.after (State.startAdmitted_changes ..) | extract_lets | with_reducible refine Changes.ite ?_ ?_
    | with_reducible refine Changes.update ?_ | decide

theorem State.startRounds_changes (s : State) :
    Changes [.dev, .sense, .trip, .canc, .diag, .hk, .flash] s (State.startRounds s) := by
  unfold State.startRounds
  repeat' first
    | with_reducible exact .refl .. | with_reducible apply Changes.after (State.fltApply_changes ..)
    | with_reducible apply Changes.after (State.boundary_changes ..) | with_reducible apply Changes.after (State.positionApply_changes ..)
    | extract_lets | with_reducible refine Changes.update ?_ | decide

theorem State.startTimebase_changes (s : State) :
    Changes [.dev, .frame] s (State.startTimebase s) := by
  unfold State.startTimebase
  exact (Changes.refl _ s).update

theorem State.bootBedrock_changes (word : Nat) (s : State) :
    Changes [.mode, .dev, .frame, .staged, .commit, .persist, .sense, .ctl, .lanes, .trip, .hearth, .canc, .loads, .diag, .audio, .crust, .fault, .hk, .flash] s (State.bootBedrock word s) := by
  unfold State.bootBedrock
  repeat' first
    | with_reducible exact .refl .. | with_reducible apply Changes.after (State.logEvent_changes ..)
    | with_reducible apply Changes.after (State.goState_changes ..) | with_reducible apply Changes.after (State.retainBedrock_changes ..)
    | with_reducible apply Changes.after (State.bedrockStops_changes ..) | with_reducible apply Changes.after (State.startRounds_changes ..)
    | with_reducible apply Changes.after (State.startTimebase_changes ..) | extract_lets | with_reducible refine Changes.update ?_ | decide

theorem State.enterProofing_changes (s : State) :
    Changes [.mode, .dev, .staged, .commit, .persist, .table, .sense, .ctl, .lanes, .trip, .hearth, .canc, .loads, .diag, .audio, .crust, .fault, .hk, .net, .chain, .flash] s (State.enterProofing s) := by
  unfold State.enterProofing
  repeat' first
    | with_reducible exact .refl .. | with_reducible apply Changes.after (State.goState_changes ..)
    | with_reducible apply Changes.after (State.raise_changes ..) | with_reducible apply Changes.after (State.startRounds_changes ..) | extract_lets
    | with_reducible refine Changes.ite ?_ ?_ | with_reducible refine Changes.update ?_ | decide

theorem State.leaveBoot_changes (s : State) :
    Changes [.mode, .dev, .frame, .staged, .commit, .persist, .table, .sense, .ctl, .lanes, .trip, .hearth, .canc, .loads, .diag, .audio, .crust, .fault, .hk, .net, .chain, .flash] s (State.leaveBoot s) := by
  unfold State.leaveBoot
  repeat' first
    | with_reducible exact .refl .. | with_reducible apply Changes.after (State.logEvent_changes ..)
    | with_reducible apply Changes.after (State.bootBedrock_changes ..) | with_reducible apply Changes.after (State.enterProofing_changes ..)
    | extract_lets | with_reducible refine Changes.ite ?_ ?_ | with_reducible refine Changes.update ?_ | decide

theorem execNporRise_changes (straps : Nat) (ref : Bool) (s : State) :
    ∃ t, execNporRise straps ref s = .next t ∧ Changes [.mode, .clock, .dev, .frame, .active, .staged, .token, .commit, .persist, .table, .sense, .ctl, .lanes, .mod, .trip, .hearth, .canc, .loads, .diag, .audio, .crust, .fault, .hk, .net, .bench, .chain, .banks, .flash] s t :=
  ⟨_, rfl, State.nporRise_changes ..⟩

theorem execNporFall_changes (s : State) :
    ∃ t, execNporFall s = .next t ∧ Changes [.mode, .clock, .dev, .frame, .active, .staged, .token, .commit, .persist, .table, .sense, .ctl, .lanes, .mod, .trip, .hearth, .canc, .loads, .diag, .audio, .crust, .fault, .hk, .net, .bench, .chain, .banks, .flash] s t :=
  ⟨_, rfl, State.nporFall_changes ..⟩

theorem execNrstLow_changes (s : State) :
    ∃ t, execNrstLow s = .next t ∧ Changes [.mode, .clock, .dev, .frame, .active, .staged, .token, .commit, .persist, .table, .sense, .ctl, .lanes, .mod, .trip, .hearth, .canc, .loads, .diag, .audio, .crust, .fault, .hk, .net, .bench, .chain, .banks, .flash] s t :=
  ⟨_, rfl, State.nrstLow_changes ..⟩

theorem execNrstRise_changes (aon : Nat) (s : State) :
    ∃ t, execNrstRise aon s = .next t ∧ Changes [.mode, .dev] s t :=
  ⟨_, rfl, State.nrstRise_changes ..⟩

theorem execVaonLost_changes (s : State) :
    ∃ t, execVaonLost s = .next t ∧ Changes [.mode, .clock, .dev, .frame, .active, .staged, .token, .commit, .persist, .table, .sense, .ctl, .lanes, .mod, .trip, .hearth, .canc, .loads, .diag, .audio, .crust, .fault, .hk, .net, .bench, .chain, .banks, .flash] s t :=
  ⟨_, rfl, State.vaonLost_changes ..⟩

theorem execVaonApplied_changes (s : State) :
    ∃ t, execVaonApplied s = .next t ∧ Changes [.dev] s t :=
  ⟨_, rfl, State.vaonApplied_changes ..⟩

theorem execWakeUp_changes (pin t1s : Bool) (s : State) :
    ∃ t, execWakeUp pin t1s s = .next t ∧ Changes [.dev] s t :=
  ⟨_, rfl, State.wake_changes ..⟩

theorem execFailedWake_changes (s : State) :
    ∃ t, execFailedWake s = .next t ∧ Changes [.dev] s t :=
  ⟨_, rfl, State.failedWake_changes ..⟩

theorem execBankVerificationDone_changes (eccA eccB : Bool) (s : State) :
    ∃ t, execBankVerificationDone eccA eccB s = .next t ∧ Changes [.mode, .dev, .active, .staged, .commit, .persist, .table, .ctl, .lanes, .trip, .hearth, .canc, .loads, .diag, .audio, .crust, .fault, .net, .bench, .chain, .banks, .flash] s t :=
  ⟨_, rfl, .ite (State.verificationDone_changes ..) (.refl ..)⟩

theorem execBankStarted_changes (s : State) :
    ∃ t, execBankStarted s = .next t ∧ Changes [.mode, .dev, .frame, .staged, .commit, .persist, .table, .sense, .ctl, .lanes, .trip, .hearth, .canc, .loads, .diag, .audio, .crust, .fault, .hk, .net, .chain, .flash] s t :=
  ⟨_, rfl, .ite (State.leaveBoot_changes ..) (.refl ..)⟩

end Sys2Proof.Machine
end

