-- ==== Sys2Proof/Laws/BenchCmds.lean ====
section
/-! SUPPORT. What the Bench commands may change, part by part; and that each command answers a next state. -/

namespace Sys2Proof.Machine

set_option Elab.async false

theorem FlashState.importFlash_banks (l : List (Nat × Bool × Nat)) (f : FlashState) : (State.importFlash l f).banks = f.banks :=
  FlashState.foldl_banks f fun _ _ => FlashState.writeEntry_banks ..

@[simp] theorem FlashState.importFlash_bankA (l : List (Nat × Bool × Nat)) (f : FlashState) : (State.importFlash l f).bankA = f.bankA :=
  FlashState.bankA_of (FlashState.importFlash_banks l f)
@[simp] theorem FlashState.importFlash_bankB (l : List (Nat × Bool × Nat)) (f : FlashState) : (State.importFlash l f).bankB = f.bankB :=
  FlashState.bankB_of (FlashState.importFlash_banks l f)

theorem State.bootEnds_changes (s : State) :
    Changes [.dev, .banks, .flash] s (State.bootEnds s) := by
  unfold State.bootEnds
  repeat' first
    | with_reducible exact .refl .. | with_reducible apply Changes.after (State.startBank_changes ..) | extract_lets | split
    | with_reducible refine Changes.ite ?_ ?_ | with_reducible refine Changes.update ?_ | decide

theorem State.bootGo_changes (s : State) :
    Changes [.dev, .bench, .banks, .flash] s (State.bootGo s).2 := by
  unfold State.bootGo
  repeat' first
    | with_reducible exact .refl .. | with_reducible apply Changes.after (State.startBank_changes ..) | extract_lets | split | dsimp only
    | with_reducible refine Changes.ite ?_ ?_ | with_reducible refine Changes.update ?_ | decide

theorem State.bootCtl_changes (data : Nat) (s : State) :
    Changes [.dev, .bench, .banks, .flash] s (State.bootCtl data s).2 := by
  unfold State.bootCtl
  repeat' first
    | with_reducible exact .refl .. | with_reducible apply Changes.after (State.bootEnds_changes ..)
    | with_reducible apply Changes.after (State.bootGo_changes ..) | extract_lets | split | dsimp only | with_reducible refine Changes.ite ?_ ?_
    | with_reducible refine Changes.update ?_ | decide

theorem State.importWrite_changes (l : List (Nat × Bool × Nat)) (s : State) :
    Changes [.active, .staged, .flash] s (State.importWrite l s) := by
  unfold State.importWrite
  exact (Changes.refl _ s).update (h27 := .inr ⟨FlashState.importFlash_bankA l s.flash, FlashState.importFlash_bankB l s.flash⟩)

theorem State.recoveryStart_changes (action bank chunk : Nat) (s : State) :
    Changes [.active, .staged, .bench, .banks, .flash] s (State.recoveryStart action bank chunk s) := by
  unfold State.recoveryStart
  repeat' first
    | with_reducible exact .refl .. | with_reducible apply Changes.after (State.importWrite_changes ..) | extract_lets | split
    | with_reducible refine Changes.ite ?_ ?_ | with_reducible refine Changes.update ?_ | decide

theorem State.recoveryCmd_changes (data : Nat) (s : State) :
    Changes [.active, .staged, .bench, .banks, .flash] s (State.recoveryCmd data s).2 := by
  unfold State.recoveryCmd
  repeat' first
    | with_reducible exact .refl .. | with_reducible apply Changes.after (State.recoveryStart_changes ..) | extract_lets | split | dsimp only
    | with_reducible refine Changes.ite ?_ ?_ | with_reducible refine Changes.update ?_ | decide

theorem State.recoveryEffect_changes (action bank chunk : Nat) (ok : Bool) (s : State) :
    Changes [.persist, .net, .bench, .banks, .flash] s (State.recoveryEffect action bank chunk ok s).2 := by
  unfold State.recoveryEffect
  repeat' first
    | with_reducible exact .refl .. | extract_lets | split | dsimp only | with_reducible refine Changes.ite ?_ ?_
    | with_reducible refine Changes.update ?_

theorem State.recoveryDone_changes (ok : Bool) (s : State) :
    Changes [.dev, .persist, .net, .bench, .banks, .flash] s (State.recoveryDone ok s) := by
  unfold State.recoveryDone
  repeat' first
    | with_reducible exact .refl .. | with_reducible apply Changes.after (State.bootEnds_changes ..)
    | with_reducible apply Changes.after (State.recoveryEffect_changes ..) | extract_lets | split | with_reducible refine Changes.ite ?_ ?_
    | with_reducible refine Changes.update ?_ | decide

theorem State.unlock_changes (hi : Bool) (data : Nat) (s : State) :
    Changes [.bench] s (State.unlock hi data s).2 := by
  unfold State.unlock
  repeat' first
    | with_reducible exact .refl .. | extract_lets | split | dsimp only | with_reducible refine Changes.ite ?_ ?_
    | with_reducible refine Changes.update ?_

theorem State.ctcWrite_changes (k data : Nat) (s : State) :
    Changes [.staged, .token] s (State.ctcWrite k data s).2 := by
  unfold State.ctcWrite
  repeat' first
    | with_reducible exact .refl .. | with_reducible apply Changes.after (State.stage_changes ..) | split | dsimp only
    | with_reducible refine Changes.ite ?_ ?_ | with_reducible refine Changes.update ?_ | decide

theorem State.ctcCommitWrite_changes (data : Nat) (s : State) :
    Changes [.commit] s (State.ctcCommitWrite data s).2 := by
  unfold State.ctcCommitWrite
  repeat' first
    | with_reducible exact .refl .. | extract_lets | split | dsimp only | with_reducible refine Changes.ite ?_ ?_
    | with_reducible refine Changes.update ?_

theorem State.startWrite_changes (data : Nat) (s : State) :
    Changes [.dev, .bench, .banks, .flash] s (State.startWrite data s).2 := by
  unfold State.startWrite
  repeat' first
    | with_reducible exact .refl .. | with_reducible apply Changes.after (State.bootGo_changes ..) | split | dsimp only
    | with_reducible refine Changes.ite ?_ ?_ | with_reducible refine Changes.update ?_ | decide

theorem State.statusWrite_changes (data : Nat) (s : State) :
    Changes [.bench] s (State.statusWrite data s) := by
  unfold State.statusWrite
  exact (Changes.refl _ s).update

theorem State.benchEffect_changes (a data : Nat) (s : State) :
    Changes [.dev, .active, .staged, .token, .commit, .bench, .banks, .flash] s (State.benchEffect a data s).2 := by
  unfold State.benchEffect
  repeat' first
    | with_reducible exact .refl .. | with_reducible apply Changes.after (State.bootCtl_changes ..)
    | with_reducible apply Changes.after (State.recoveryCmd_changes ..) | with_reducible apply Changes.after (State.unlock_changes ..)
    | with_reducible apply Changes.after (State.ctcWrite_changes ..) | with_reducible apply Changes.after (State.ctcCommitWrite_changes ..)
    | with_reducible apply Changes.after (State.startWrite_changes ..) | with_reducible apply Changes.after (State.statusWrite_changes ..)
    | extract_lets | split | dsimp only | with_reducible refine Changes.ite ?_ ?_ | with_reducible refine Changes.update ?_ | decide

theorem State.benchAnswer_changes (code data : Nat) (s : State) :
    Changes [.bench] s (State.benchAnswer code data s) := by
  unfold State.benchAnswer
  exact (Changes.refl _ s).update

theorem State.benchReadAt_changes (a : Nat) (s : State) :
    Changes [.bench] s (State.benchReadAt a s) := by
  unfold State.benchReadAt
  repeat' first
    | with_reducible exact .refl .. | with_reducible apply Changes.after (State.benchAnswer_changes ..) | with_reducible refine Changes.ite ?_ ?_
    | with_reducible refine Changes.update ?_ | decide

theorem State.benchWriteAt_changes (a data : Nat) (s : State) :
    Changes [.dev, .active, .staged, .token, .commit, .bench, .banks, .flash] s (State.benchWriteAt a data s) := by
  unfold State.benchWriteAt
  repeat' first
    | with_reducible exact .refl .. | with_reducible apply Changes.after (State.benchEffect_changes ..)
    | with_reducible apply Changes.after (State.benchAnswer_changes ..) | extract_lets | with_reducible refine Changes.ite ?_ ?_
    | with_reducible refine Changes.update ?_ | decide

theorem State.benchRead_changes (a : Nat) (s : State) :
    Changes [.bench] s (State.benchRead a s) := by
  unfold State.benchRead
  repeat' first
    | with_reducible exact .refl .. | with_reducible apply Changes.after (State.benchReadAt_changes ..) | extract_lets | split
    | with_reducible refine Changes.ite ?_ ?_ | with_reducible refine Changes.update ?_ | decide

theorem State.benchWriteIf_changes (a : Nat) (p : Nat → Bool) (s : State) :
    Changes [.dev, .active, .staged, .token, .commit, .bench, .banks, .flash] s (State.benchWriteIf a p s) := by
  unfold State.benchWriteIf
  repeat' first
    | with_reducible exact .refl .. | with_reducible apply Changes.after (State.benchWriteAt_changes ..) | extract_lets | split
    | with_reducible refine Changes.ite ?_ ?_ | with_reducible refine Changes.update ?_ | decide

theorem State.recoveryIf_changes (action : Nat) (p : Nat → Bool) (s : State) :
    Changes [.dev, .active, .staged, .token, .commit, .bench, .banks, .flash] s (State.recoveryIf action p s) := by
  unfold State.recoveryIf
  repeat' first
    | with_reducible exact .refl .. | with_reducible apply Changes.after (State.benchWriteIf_changes ..) | with_reducible refine Changes.update ?_
    | decide

theorem State.lockoutEnd_changes (s : State) :
    Changes [.bench] s (State.lockoutEnd s) := by
  unfold State.lockoutEnd
  repeat' first
    | with_reducible exact .refl .. | extract_lets | split | with_reducible refine Changes.ite ?_ ?_ | with_reducible refine Changes.update ?_

theorem execBenchTransaction_changes (clocks word : Nat) (s : State) :
    ∃ t, execBenchTransaction clocks word s = .next t ∧ Changes [.net, .bench] s t :=
  ⟨_, rfl, .ite (Changes.refl _ s).update (.refl ..)⟩

theorem execBenchRead_changes (addr : Nat) (s : State) :
    ∃ t, execBenchRead addr s = .next t ∧ Changes [.bench] s t :=
  ⟨_, rfl, State.benchRead_changes ..⟩

theorem execBenchWrite_changes (addr data : Nat) (s : State) :
    ∃ t, execBenchWrite addr data s = .next t ∧ Changes [.dev, .active, .staged, .token, .commit, .bench, .banks, .flash] s t :=
  ⟨_, rfl, State.benchWriteIf_changes ..⟩

theorem execBootHold_changes (s : State) :
    ∃ t, execBootHold s = .next t ∧ Changes [.dev, .active, .staged, .token, .commit, .bench, .banks, .flash] s t :=
  ⟨_, rfl, State.benchWriteIf_changes ..⟩

theorem execBootGo_changes (s : State) :
    ∃ t, execBootGo s = .next t ∧ Changes [.dev, .active, .staged, .token, .commit, .bench, .banks, .flash] s t :=
  ⟨_, rfl, State.benchWriteIf_changes ..⟩

theorem execEraseBank_changes (bank : Nat) (s : State) :
    ∃ t, execEraseBank bank s = .next t ∧ Changes [.dev, .active, .staged, .token, .commit, .bench, .banks, .flash] s t :=
  ⟨_, rfl, State.recoveryIf_changes ..⟩

theorem execProgramChunk_changes (bank chunk : Nat) (s : State) :
    ∃ t, execProgramChunk bank chunk s = .next t ∧ Changes [.dev, .active, .staged, .token, .commit, .bench, .banks, .flash] s t :=
  ⟨_, rfl, State.recoveryIf_changes ..⟩

theorem execVerifyBank_changes (bank : Nat) (s : State) :
    ∃ t, execVerifyBank bank s = .next t ∧ Changes [.dev, .active, .staged, .token, .commit, .bench, .banks, .flash] s t :=
  ⟨_, rfl, State.recoveryIf_changes ..⟩

theorem execStarterImportChunk_changes (chunk : Nat) (s : State) :
    ∃ t, execStarterImportChunk chunk s = .next t ∧ Changes [.dev, .active, .staged, .token, .commit, .bench, .banks, .flash] s t :=
  ⟨_, rfl, State.recoveryIf_changes ..⟩

theorem execStarterImportCommit_changes (s : State) :
    ∃ t, execStarterImportCommit s = .next t ∧ Changes [.dev, .active, .staged, .token, .commit, .bench, .banks, .flash] s t :=
  ⟨_, rfl, State.recoveryIf_changes ..⟩

theorem execKeySlotReset_changes (s : State) :
    ∃ t, execKeySlotReset s = .next t ∧ Changes [.dev, .active, .staged, .token, .commit, .bench, .banks, .flash] s t :=
  ⟨_, rfl, State.recoveryIf_changes ..⟩

theorem execPersistedSetErase_changes (s : State) :
    ∃ t, execPersistedSetErase s = .next t ∧ Changes [.dev, .active, .staged, .token, .commit, .bench, .banks, .flash] s t :=
  ⟨_, rfl, State.recoveryIf_changes ..⟩

theorem execRecoveryActionDone_changes (ok : Bool) (s : State) :
    ∃ t, execRecoveryActionDone ok s = .next t ∧ Changes [.dev, .persist, .net, .bench, .banks, .flash] s t :=
  ⟨_, rfl, .ite (State.recoveryDone_changes ..) (.refl ..)⟩

theorem execUnlockHi_changes (data : Nat) (s : State) :
    ∃ t, execUnlockHi data s = .next t ∧ Changes [.dev, .active, .staged, .token, .commit, .bench, .banks, .flash] s t :=
  ⟨_, rfl, State.benchWriteIf_changes ..⟩

theorem execUnlockLo_changes (data : Nat) (s : State) :
    ∃ t, execUnlockLo data s = .next t ∧ Changes [.dev, .active, .staged, .token, .commit, .bench, .banks, .flash] s t :=
  ⟨_, rfl, State.benchWriteIf_changes ..⟩

theorem execUnlockLockoutEnd_changes (s : State) :
    ∃ t, execUnlockLockoutEnd s = .next t ∧ Changes [.bench] s t :=
  ⟨_, rfl, State.lockoutEnd_changes ..⟩

theorem execCtcCommit_changes (data : Nat) (s : State) :
    ∃ t, execCtcCommit data s = .next t ∧ Changes [.dev, .active, .staged, .token, .commit, .bench, .banks, .flash] s t :=
  ⟨_, rfl, State.benchWriteIf_changes ..⟩

theorem execBenchStart_changes (data : Nat) (s : State) :
    ∃ t, execBenchStart data s = .next t ∧ Changes [.dev, .active, .staged, .token, .commit, .bench, .banks, .flash] s t :=
  ⟨_, rfl, State.benchWriteIf_changes ..⟩

end Sys2Proof.Machine
end

