-- ==== Sys2Proof/Laws/CancCmds.lean ====
section
/-! SUPPORT. What the canceller commands may change, part by part; and that each command answers a next state. -/

namespace Sys2Proof.Machine

set_option Elab.async false

theorem State.accStart_changes (n : Nat) (s : State) :
    Changes [.canc] s (State.accStart n s) := by
  unfold State.accStart
  exact (Changes.refl _ s).update

theorem State.accTimed_changes (n : Nat) (s : State) :
    Changes [.canc] s (State.accTimed n s) := by
  unfold State.accTimed
  exact .ite (Changes.refl _ s).update (.refl ..)

theorem State.accDone_changes (n : Nat) (b : List Nat) (s : State) :
    Changes [.canc] s (State.accDone n b s) := by
  unfold State.accDone
  exact (Changes.refl _ s).update

theorem State.identRequest_changes (w : Nat) (s : State) :
    Changes [.canc] s (State.identRequest w s) := by
  unfold State.identRequest
  exact (Changes.refl _ s).update

theorem State.identPoint_changes (s : State) :
    Changes [.dev, .table, .canc, .diag, .flash] s (State.identPoint s) := by
  unfold State.identPoint
  repeat' first
    | with_reducible exact .refl .. | with_reducible apply Changes.after (State.tapLog_changes ..) | extract_lets | split
    | with_reducible refine Changes.ite ?_ ?_ | with_reducible refine Changes.update ?_ | decide

theorem State.holdOver_changes (m k : Nat) (s : State) :
    Changes [.canc] s (State.holdOver m k s) := by
  unfold State.holdOver
  exact (Changes.refl _ s).update

theorem State.speakerEstimate_changes (k : Nat) (s : State) :
    Changes [.loads] s (State.speakerEstimate k s) := by
  unfold State.speakerEstimate
  extract_lets c x least ok
  exact .ite (.refl ..) (Changes.refl _ s).update

theorem State.adopt_changes (w : Nat) (s : State) :
    Changes [.staged, .token, .commit] s (State.adopt w s) := by
  unfold State.adopt
  repeat' first
    | with_reducible exact .refl .. | with_reducible assumption | with_reducible apply Changes.after (State.acceptWrite_changes ..)
    | with_reducible refine Changes.foldl ?_ (fun _ _ _ => ?_) | with_reducible refine Changes.update ?_ | decide

theorem execAccReadStart_changes (n : Nat) (s : State) :
    ∃ t, execAccReadStart n s = .next t ∧ Changes [.canc] s t :=
  ⟨_, rfl, State.accTimed_changes ..⟩

theorem execAccReadDone_changes (n : Nat) (bytes : List Nat) (s : State) :
    ∃ t, execAccReadDone n bytes s = .next t ∧ Changes [.canc] s t :=
  ⟨_, rfl, .ite (State.accDone_changes ..) (.refl ..)⟩

theorem execIdentPointDone_changes (s : State) :
    ∃ t, execIdentPointDone s = .next t ∧ Changes [.dev, .table, .canc, .diag, .flash] s t :=
  ⟨_, rfl, .ite (State.identPoint_changes ..) (.refl ..)⟩

theorem execDivergedHoldEnd_changes (m k : Nat) (s : State) :
    ∃ t, execDivergedHoldEnd m k s = .next t ∧ Changes [.canc] s t :=
  ⟨_, rfl, .ite (State.holdOver_changes ..) (.refl ..)⟩

theorem execSpeakerResistanceEstimate_changes (k : Nat) (s : State) :
    ∃ t, execSpeakerResistanceEstimate k s = .next t ∧ Changes [.loads] s t :=
  ⟨_, rfl, .ite (State.speakerEstimate_changes ..) (.refl ..)⟩

end Sys2Proof.Machine
end

