-- ==== Sys2Proof/Laws/ChainCmds.lean ====
section
/-! SUPPORT. What the chain commands may change, part by part; and that each command answers a next state. -/

namespace Sys2Proof.Machine

set_option Elab.async false

theorem State.calibrate_changes (hop summitFn summitCounter mask : Nat) (failed : Bool) (s : State) :
    Changes [.frame, .chain] s (State.calibrate hop summitFn summitCounter mask failed s) := by
  unfold State.calibrate
  repeat' first
    | with_reducible exact .refl .. | extract_lets | with_reducible refine Changes.ite ?_ ?_ | with_reducible refine Changes.update ?_

theorem State.summitAlone_changes (s : State) :
    Changes [.chain] s (State.summitAlone s) := by
  unfold State.summitAlone
  exact .ite (Changes.refl _ s).update (.refl ..)

theorem State.twinLinks_changes (s : State) :
    Changes [.chain] s (State.twinLinks s) := by
  unfold State.twinLinks
  exact (Changes.refl _ s).update

theorem State.succeed_changes (s : State) :
    Changes [.chain] s (State.succeed s) := by
  unfold State.succeed
  exact (Changes.refl _ s).update

theorem State.twinsRun_changes (s : State) :
    Changes [.chain] s (State.twinsRun s) := by
  unfold State.twinsRun
  exact (Changes.refl _ s).update

theorem State.takeOver_changes (m : Nat) (edges : Nat) (s : State) :
    Changes [.chain] s (State.takeOver m edges s) := by
  unfold State.takeOver
  exact .ite (Changes.refl _ s).update (.refl ..)

theorem State.chainSettings_changes (old : Store) (s : State) :
    Changes [.chain] s (State.chainSettings old s) := by
  unfold State.chainSettings
  exact (Changes.refl _ s).update

theorem State.chainTrough_changes (edges : Nat) (s : State) :
    Changes [.chain] s (State.chainTrough edges s) := by
  unfold State.chainTrough
  repeat' first
    | with_reducible exact .refl .. | with_reducible apply Changes.after (State.takeOver_changes ..) | extract_lets
    | with_reducible refine Changes.ite ?_ ?_ | with_reducible refine Changes.update ?_ | decide

theorem State.troughMark_changes (period : Nat) (gptp : Option Nat) (summit : Bool) (s : State) :
    Changes [.frame, .net, .chain] s (State.troughMark period gptp summit s) := by
  unfold State.troughMark
  exact .ite (.refl ..) (Changes.refl _ s).update

theorem State.lossOfMark_changes (s : State) :
    Changes [.mode, .dev, .staged, .commit, .persist, .table, .ctl, .lanes, .trip, .hearth, .canc, .loads, .diag, .audio, .crust, .fault, .net, .chain, .flash] s (State.lossOfMark s) := by
  unfold State.lossOfMark
  repeat' first
    | with_reducible exact .refl .. | with_reducible apply Changes.after (State.raise_changes ..)
    | with_reducible apply Changes.after (State.succeed_changes ..) | extract_lets | with_reducible refine Changes.ite ?_ ?_
    | with_reducible refine Changes.update ?_ | decide

theorem State.linkLoss_changes (upper : Bool) (s : State) :
    Changes [.dev, .trip, .canc, .diag, .chain, .flash] s (State.linkLoss upper s) := by
  unfold State.linkLoss
  repeat' first
    | with_reducible exact .refl .. | with_reducible apply Changes.after (State.logEvent_changes ..)
    | with_reducible apply Changes.after (State.ridgeApply_changes ..) | with_reducible apply Changes.after (State.twinLinks_changes ..)
    | with_reducible apply Changes.after (State.succeed_changes ..) | extract_lets | with_reducible refine Changes.ite ?_ ?_
    | with_reducible refine Changes.update ?_ | decide

theorem State.linkUp_changes (upper : Bool) (s : State) :
    Changes [.dev, .trip, .canc, .diag, .chain, .flash] s (State.linkUp upper s) := by
  unfold State.linkUp
  repeat' first
    | with_reducible exact .refl .. | with_reducible apply Changes.after (State.ridgeApply_changes ..)
    | with_reducible apply Changes.after (State.twinLinks_changes ..) | extract_lets | with_reducible refine Changes.ite ?_ ?_
    | with_reducible refine Changes.update ?_ | decide

theorem State.hopMeasured_changes (hop : Nat) (s : State) :
    Changes [.chain] s (State.hopMeasured hop s) := by
  unfold State.hopMeasured
  exact .ite (.refl ..) (Changes.refl _ s).update

theorem State.ridgeTrip_changes (upper on : Bool) (s : State) :
    Changes [.dev, .trip, .canc, .diag, .chain, .flash] s (State.ridgeTrip upper on s) := by
  unfold State.ridgeTrip
  repeat' first
    | with_reducible exact .refl .. | with_reducible apply Changes.after (State.ridgeApply_changes ..) | extract_lets
    | with_reducible refine Changes.ite ?_ ?_ | with_reducible refine Changes.update ?_ | decide

theorem State.splitRecord_changes (m : Nat) (r : SplitRecord) (s : State) :
    Changes [.mode, .dev, .staged, .commit, .persist, .table, .sense, .ctl, .lanes, .trip, .hearth, .canc, .loads, .diag, .audio, .crust, .fault, .net, .chain, .flash] s (State.splitRecord m r s) := by
  unfold State.splitRecord
  repeat' first
    | with_reducible exact .refl .. | with_reducible apply Changes.after (State.twinRecord_changes ..) | extract_lets
    | with_reducible refine Changes.ite ?_ ?_ | with_reducible refine Changes.update ?_ | decide

theorem State.handOffCome_changes (m : Nat) (s : State) :
    Changes [.chain] s (State.handOffCome m s) := by
  unfold State.handOffCome
  repeat' first
    | with_reducible exact .refl .. | with_reducible apply Changes.after (State.handOffTo_changes ..) | extract_lets
    | with_reducible refine Changes.ite ?_ ?_ | with_reducible refine Changes.update ?_ | decide

theorem State.swapTwins_changes (mask : Nat) (s : State) :
    Changes [.chain] s (State.swapTwins mask s) := by
  unfold State.swapTwins
  repeat' first
    | with_reducible exact .refl .. | with_reducible assumption | with_reducible apply Changes.after (State.handOffTo_changes ..) | extract_lets
    | with_reducible refine Changes.ite ?_ ?_ | with_reducible refine Changes.foldl ?_ (fun _ _ _ => ?_) | with_reducible refine Changes.update ?_
    | decide

theorem execTroughMark_changes (fn period : Nat) (gptp : Option Nat) (summit : Bool) (s : State) :
    ∃ t, execTroughMark fn period gptp summit s = .next t ∧ Changes [.frame, .net, .chain] s t :=
  ⟨_, rfl, State.troughMark_changes ..⟩

theorem execTimebaseLoss_changes (s : State) :
    ∃ t, execTimebaseLoss s = .next t ∧ Changes [.mode, .dev, .staged, .commit, .persist, .table, .ctl, .lanes, .trip, .hearth, .canc, .loads, .diag, .audio, .crust, .fault, .net, .chain, .flash] s t :=
  ⟨_, rfl, State.lossOfMark_changes ..⟩

theorem execRidgeLinkLoss_changes (upper : Bool) (s : State) :
    ∃ t, execRidgeLinkLoss upper s = .next t ∧ Changes [.dev, .trip, .canc, .diag, .chain, .flash] s t :=
  ⟨_, rfl, State.linkLoss_changes ..⟩

theorem execRidgeLinkUp_changes (upper : Bool) (s : State) :
    ∃ t, execRidgeLinkUp upper s = .next t ∧ Changes [.dev, .trip, .canc, .diag, .chain, .flash] s t :=
  ⟨_, rfl, State.linkUp_changes ..⟩

theorem execRidgeHopRemeasure_changes (trips : List Nat) (s : State) :
    ∃ t, execRidgeHopRemeasure trips s = .next t ∧ Changes [.chain] s t :=
  ⟨_, rfl, State.hopMeasured_changes ..⟩

theorem execRidgeTrip_changes (upper on : Bool) (s : State) :
    ∃ t, execRidgeTrip upper on s = .next t ∧ Changes [.dev, .trip, .canc, .diag, .chain, .flash] s t :=
  ⟨_, rfl, State.ridgeTrip_changes ..⟩

theorem execSplitMachineRecord_changes (m : Nat) (r : SplitRecord) (s : State) :
    ∃ t, execSplitMachineRecord m r s = .next t ∧ Changes [.mode, .dev, .staged, .commit, .persist, .table, .sense, .ctl, .lanes, .trip, .hearth, .canc, .loads, .diag, .audio, .crust, .fault, .net, .chain, .flash] s t :=
  ⟨_, rfl, State.splitRecord_changes ..⟩

theorem execHandOff_changes (m : Nat) (s : State) :
    ∃ t, execHandOff m s = .next t ∧ Changes [.chain] s t :=
  ⟨_, rfl, State.handOffCome_changes ..⟩

end Sys2Proof.Machine
end

