-- ==== Sys2Proof/Laws/CrustCmds.lean ====
section
/-! SUPPORT. What the Crust commands may change, part by part; and that each command answers a next state. -/

namespace Sys2Proof.Machine

set_option Elab.async false

theorem State.crustFault_changes (kind : CrustFaultKind) (s : State) :
    Changes [.mode, .dev, .staged, .commit, .persist, .table, .ctl, .lanes, .trip, .hearth, .canc, .loads, .diag, .audio, .crust, .fault, .net, .chain, .flash] s (State.crustFault kind s) := by
  unfold State.crustFault
  repeat' first
    | with_reducible exact .refl .. | with_reducible apply Changes.after (State.enterBedrock_changes ..) | extract_lets | split
    | with_reducible refine Changes.update ?_ | decide

theorem State.crustSettings_changes (s : State) :
    Changes [.active, .staged, .commit, .persist, .sense, .mod, .trip, .hearth, .canc, .loads, .diag, .audio, .crust, .hk, .chain] s (State.crustSettings s) := by
  unfold State.crustSettings
  repeat' first
    | with_reducible exact .refl .. | with_reducible apply Changes.after (State.boundary_changes ..) | extract_lets
    | with_reducible refine Changes.ite ?_ ?_ | with_reducible refine Changes.update ?_ | decide

theorem State.crustSource_changes (trip inhibit : Nat) (s : State) :
    Changes [.dev, .trip, .canc, .diag, .flash] s (State.crustSource trip inhibit s) := by
  unfold State.crustSource
  repeat' first
    | with_reducible exact .refl .. | with_reducible assumption | with_reducible apply Changes.after (State.tripTo_changes ..)
    | with_reducible refine Changes.foldl ?_ (fun _ _ _ => ?_) | with_reducible refine Changes.update ?_ | decide

theorem State.crustTrips_changes (s : State) :
    Changes [.trip] s (State.crustTrips s) := by
  unfold State.crustTrips
  exact (Changes.refl _ s).update

theorem State.crustCycle_changes (s : State) :
    Changes [.mode, .dev, .active, .staged, .commit, .persist, .table, .sense, .ctl, .lanes, .mod, .trip, .hearth, .canc, .loads, .diag, .audio, .crust, .fault, .hk, .net, .chain, .flash] s (State.crustCycle s) := by
  unfold State.crustCycle
  repeat' first
    | with_reducible exact .refl .. | with_reducible apply Changes.after (State.enterBedrock_changes ..)
    | with_reducible apply Changes.after (State.raise_changes ..) | with_reducible apply Changes.after (State.raiseAll_changes ..)
    | with_reducible apply Changes.after (State.repairStore_changes ..) | with_reducible apply Changes.after (State.discharge_changes ..)
    | with_reducible apply Changes.after (State.crustFault_changes ..) | with_reducible apply Changes.after (State.crustSettings_changes ..)
    | with_reducible apply Changes.after (State.crustSource_changes ..) | with_reducible apply Changes.after (State.crustTrips_changes ..)
    | extract_lets | with_reducible refine Changes.ite ?_ ?_ | with_reducible refine Changes.update ?_ | decide

theorem State.laneWatchdog_changes (s : State) :
    Changes [.mode, .dev, .staged, .commit, .persist, .table, .ctl, .lanes, .trip, .hearth, .canc, .loads, .diag, .audio, .crust, .fault, .net, .chain, .flash] s (State.laneWatchdog s) := by
  unfold State.laneWatchdog
  repeat' first
    | with_reducible exact .refl .. | with_reducible apply Changes.after (State.enterBedrock_changes ..)
    | with_reducible apply Changes.after (State.crustSource_changes ..) | extract_lets | with_reducible refine Changes.ite ?_ ?_
    | with_reducible refine Changes.update ?_ | decide

theorem State.hearthWatchdog_changes (s : State) :
    Changes [.mode, .dev, .staged, .commit, .persist, .table, .ctl, .lanes, .trip, .hearth, .canc, .loads, .diag, .audio, .crust, .fault, .net, .chain, .flash] s (State.hearthWatchdog s) := by
  unfold State.hearthWatchdog
  exact .ite (.refl ..) (Changes.refl _ s).update

theorem State.srstStuck_changes (s : State) :
    Changes [.crust, .flash] s (State.srstStuck s) := by
  unfold State.srstStuck
  repeat' first
    | with_reducible exact .refl .. | with_reducible apply Changes.after (State.logEvent_changes ..) | extract_lets
    | with_reducible refine Changes.ite ?_ ?_ | with_reducible refine Changes.update ?_ | decide

theorem State.soffTest_changes (s : State) :
    Changes [.crust] s (State.soffTest s) := by
  unfold State.soffTest
  exact (Changes.refl _ s).update

theorem State.offPulseEnd_changes (s : State) :
    Changes [.mode, .dev, .staged, .commit, .persist, .table, .ctl, .lanes, .trip, .hearth, .canc, .loads, .diag, .audio, .crust, .fault, .net, .chain, .flash] s (State.offPulseEnd s) := by
  unfold State.offPulseEnd
  repeat' first
    | with_reducible exact .refl .. | with_reducible apply Changes.after (State.raise_changes ..) | extract_lets
    | with_reducible refine Changes.ite ?_ ?_ | with_reducible refine Changes.update ?_ | decide

theorem execCrustInputSample_changes (sin : Nat) (srst rbh rbl : Bool) (s : State) :
    ∃ t, execCrustInputSample sin srst rbh rbl s = .next t ∧ Changes [.crust] s t :=
  ⟨_, rfl, .ite (Changes.refl _ s).update (.refl ..)⟩

theorem execCrustCycle_changes (s : State) :
    ∃ t, execCrustCycle s = .next t ∧ Changes [.mode, .dev, .active, .staged, .commit, .persist, .table, .sense, .ctl, .lanes, .mod, .trip, .hearth, .canc, .loads, .diag, .audio, .crust, .fault, .hk, .net, .chain, .flash] s t :=
  ⟨_, rfl, .ite (State.crustCycle_changes ..) (.refl ..)⟩

theorem execTestPulse_changes (n : Nat) (s : State) :
    ∃ t, execTestPulse n s = .next t ∧ Changes [.crust] s t :=
  ⟨_, rfl, .ite (Changes.refl _ s).update (.refl ..)⟩

theorem execSrstStuck_changes (s : State) :
    ∃ t, execSrstStuck s = .next t ∧ Changes [.crust, .flash] s t :=
  ⟨_, rfl, .ite (State.srstStuck_changes ..) (.refl ..)⟩

theorem execLaneWatchdogExpiry_changes (s : State) :
    ∃ t, execLaneWatchdogExpiry s = .next t ∧ Changes [.mode, .dev, .staged, .commit, .persist, .table, .ctl, .lanes, .trip, .hearth, .canc, .loads, .diag, .audio, .crust, .fault, .net, .chain, .flash] s t :=
  ⟨_, rfl, .ite (State.laneWatchdog_changes ..) (.refl ..)⟩

theorem execHearthWatchdogExpiry_changes (s : State) :
    ∃ t, execHearthWatchdogExpiry s = .next t ∧ Changes [.mode, .dev, .staged, .commit, .persist, .table, .ctl, .lanes, .trip, .hearth, .canc, .loads, .diag, .audio, .crust, .fault, .net, .chain, .flash] s t :=
  ⟨_, rfl, State.hearthWatchdog_changes ..⟩

theorem execHearthGateReopen_changes (s : State) :
    ∃ t, execHearthGateReopen s = .next t ∧ Changes [.crust] s t :=
  ⟨_, rfl, .ite (Changes.refl _ s).update (.refl ..)⟩

theorem execSafeOffMaxWait_changes (s : State) :
    ∃ t, execSafeOffMaxWait s = .next t ∧ Changes [.crust] s t :=
  ⟨_, rfl, .ite (Changes.refl _ s).update (.refl ..)⟩

theorem execSafeOffTestStepEnd_changes (s : State) :
    ∃ t, execSafeOffTestStepEnd s = .next t ∧ Changes [.crust] s t :=
  ⟨_, rfl, .ite (Changes.refl _ s).update (.refl ..)⟩

theorem execOffPulseStart_changes (s : State) :
    ∃ t, execOffPulseStart s = .next t ∧ Changes [.crust] s t :=
  ⟨_, rfl, .ite (Changes.refl _ s).update (.refl ..)⟩

theorem execOffPulseEnd_changes (s : State) :
    ∃ t, execOffPulseEnd s = .next t ∧ Changes [.mode, .dev, .staged, .commit, .persist, .table, .ctl, .lanes, .trip, .hearth, .canc, .loads, .diag, .audio, .crust, .fault, .net, .chain, .flash] s t :=
  ⟨_, rfl, .ite (State.offPulseEnd_changes ..) (.refl ..)⟩

theorem execCrustFault_changes (kind : CrustFaultKind) (s : State) :
    ∃ t, execCrustFault kind s = .next t ∧ Changes [.mode, .dev, .staged, .commit, .persist, .table, .ctl, .lanes, .trip, .hearth, .canc, .loads, .diag, .audio, .crust, .fault, .net, .chain, .flash] s t :=
  ⟨_, rfl, .ite (State.crustFault_changes ..) (.refl ..)⟩

theorem execBedrockToneAlternation_changes (s : State) :
    ∃ t, execBedrockToneAlternation s = .next t ∧ Changes [.crust] s t :=
  ⟨_, rfl, .ite (Changes.refl _ s).update (.refl ..)⟩

end Sys2Proof.Machine
end

