-- ==== Sys2Proof/Laws/DiagCmds.lean ====
section
/-! SUPPORT. What the diagnosis commands may change, part by part; and that each command answers a next state. -/

namespace Sys2Proof.Machine

set_option Elab.async false

theorem State.tapRequest_changes (w : Nat) (s : State) :
    Changes [.diag] s (State.tapRequest w s) := by
  unfold State.tapRequest
  exact (Changes.refl _ s).update

theorem State.tapStep_changes (s : State) :
    Changes [.dev, .diag, .flash] s (State.tapStep s) := by
  unfold State.tapStep
  repeat' first
    | with_reducible exact .refl .. | with_reducible apply Changes.after (State.tapLog_changes ..) | extract_lets
    | with_reducible refine Changes.ite ?_ ?_ | with_reducible refine Changes.update ?_ | decide

theorem State.driftEnd_changes (m : Nat) (s : State) :
    Changes [.loads, .diag] s (State.driftEnd m s) := by
  unfold State.driftEnd
  repeat' first
    | with_reducible exact .refl .. | extract_lets | split | with_reducible refine Changes.update ?_

theorem State.imbalanceEnd_changes (m : Nat) (s : State) :
    Changes [.diag] s (State.imbalanceEnd m s) := by
  unfold State.imbalanceEnd
  exact (Changes.refl _ s).update

theorem State.testStart_changes (w : Nat) (s : State) :
    Changes [.diag] s (State.testStart w s) := by
  unfold State.testStart
  exact (Changes.refl _ s).update

theorem State.testStop_changes (s : State) :
    Changes [.diag] s (State.testStop s) := by
  unfold State.testStop
  exact (Changes.refl _ s).update

theorem State.testTrough_changes (s : State) :
    Changes [.diag] s (State.testTrough s) := by
  unfold State.testTrough
  repeat' first
    | with_reducible exact .refl .. | extract_lets | split | with_reducible refine Changes.ite ?_ ?_ | with_reducible refine Changes.update ?_

theorem State.testModeChange_changes (m : Nat) (s : State) :
    Changes [.diag] s (State.testModeChange m s) := by
  unfold State.testModeChange
  exact .ite (Changes.refl _ s).update (.refl ..)

theorem State.testDuration_changes (s : State) :
    Changes [.diag] s (State.testDuration s) := by
  unfold State.testDuration
  exact .ite (Changes.refl _ s).update (.refl ..)

theorem State.captureWrite_changes (w : Nat) (s : State) :
    Changes [.diag] s (State.captureWrite w s) := by
  unfold State.captureWrite
  exact (Changes.refl _ s).update

theorem State.captureTrough_changes (s : State) :
    Changes [.diag] s (State.captureTrough s) := by
  unfold State.captureTrough
  repeat' first
    | with_reducible exact .refl .. | extract_lets | split | with_reducible refine Changes.ite ?_ ?_ | with_reducible refine Changes.update ?_

theorem State.captureSample_changes (time : Nat) (s : State) :
    Changes [.diag] s (State.captureSample time s) := by
  unfold State.captureSample
  exact (Changes.refl _ s).update

theorem State.captureInstant_changes (s : State) :
    Changes [.diag] s (State.captureInstant s) := by
  unfold State.captureInstant
  repeat' first
    | with_reducible exact .refl .. | with_reducible apply Changes.after (State.captureSample_changes ..) | extract_lets
    | with_reducible refine Changes.ite ?_ ?_ | with_reducible refine Changes.update ?_ | decide

theorem State.captureStrobe_changes (s : State) :
    Changes [.diag] s (State.captureStrobe s) := by
  unfold State.captureStrobe
  exact .ite (State.captureSample_changes ..) (.refl ..)

theorem execTapStepDone_changes (s : State) :
    ∃ t, execTapStepDone s = .next t ∧ Changes [.dev, .diag, .flash] s t :=
  ⟨_, rfl, .ite (State.tapStep_changes ..) (.refl ..)⟩

theorem execDriftWindowEnd_changes (m : Nat) (s : State) :
    ∃ t, execDriftWindowEnd m s = .next t ∧ Changes [.loads, .diag] s t :=
  ⟨_, rfl, .ite (State.driftEnd_changes ..) (.refl ..)⟩

theorem execImbalanceWindowEnd_changes (m : Nat) (s : State) :
    ∃ t, execImbalanceWindowEnd m s = .next t ∧ Changes [.diag] s t :=
  ⟨_, rfl, .ite (State.imbalanceEnd_changes ..) (.refl ..)⟩

theorem execTestSignalDurationEnd_changes (s : State) :
    ∃ t, execTestSignalDurationEnd s = .next t ∧ Changes [.diag] s t :=
  ⟨_, rfl, State.testDuration_changes ..⟩

end Sys2Proof.Machine
end

