-- ==== Sys2Proof/Laws/FaultCmds.lean ====
section
/-! SUPPORT. What the fault and clock commands may change, part by part; and that each command answers a next state. -/

namespace Sys2Proof.Machine

set_option Elab.async false

theorem State.statusFrame_changes (s : State) :
    Changes [.fault, .net] s (State.statusFrame s) := by
  unfold State.statusFrame
  exact .ite (.refl ..) (Changes.refl _ s).update

theorem State.lockstep_changes (s : State) :
    Changes [.mode, .dev, .staged, .commit, .persist, .table, .ctl, .lanes, .trip, .hearth, .canc, .loads, .diag, .audio, .crust, .fault, .net, .chain, .flash] s (State.lockstep s) := by
  unfold State.lockstep
  exact (Changes.refl _ s).update

theorem State.refLoss_changes (deviation : Int) (s : State) :
    Changes [.mode, .dev, .staged, .commit, .persist, .table, .ctl, .lanes, .trip, .hearth, .canc, .loads, .diag, .audio, .crust, .fault, .net, .chain, .flash] s (State.refLoss deviation s) := by
  unfold State.refLoss
  repeat' first
    | with_reducible exact .refl .. | with_reducible apply Changes.after (State.enterBedrock_changes ..)
    | with_reducible apply Changes.after (State.raise_changes ..) | extract_lets | with_reducible refine Changes.ite ?_ ?_
    | with_reducible refine Changes.update ?_ | decide

theorem State.refBack_changes (s : State) :
    Changes [.dev] s (State.refBack s) := by
  unfold State.refBack
  exact .ite (.refl ..) (Changes.refl _ s).update

theorem State.slewDone_changes (s : State) :
    Changes [.mode, .dev, .staged, .commit, .persist, .table, .ctl, .lanes, .trip, .hearth, .canc, .loads, .diag, .audio, .crust, .fault, .net, .chain, .flash] s (State.slewDone s) := by
  unfold State.slewDone
  repeat' first
    | with_reducible exact .refl .. | with_reducible apply Changes.after (State.raise_changes ..) | extract_lets
    | with_reducible refine Changes.ite ?_ ?_ | with_reducible refine Changes.update ?_ | decide

theorem execBedrockStatusFrame_changes (s : State) :
    ∃ t, execBedrockStatusFrame s = .next t ∧ Changes [.fault, .net] s t :=
  ⟨_, rfl, .ite (State.statusFrame_changes ..) (.refl ..)⟩

theorem execLockstepMismatch_changes (s : State) :
    ∃ t, execLockstepMismatch s = .next t ∧ Changes [.mode, .dev, .staged, .commit, .persist, .table, .ctl, .lanes, .trip, .hearth, .canc, .loads, .diag, .audio, .crust, .fault, .net, .chain, .flash] s t :=
  ⟨_, rfl, .ite (State.lockstep_changes ..) (.refl ..)⟩

theorem execServiceCoresResume_changes (s : State) :
    ∃ t, execServiceCoresResume s = .next t ∧ Changes [.dev] s t :=
  ⟨_, rfl, .ite (Changes.refl _ s).update (.refl ..)⟩

theorem execRefLost_changes (deviation : Int) (s : State) :
    ∃ t, execRefLost deviation s = .next t ∧ Changes [.mode, .dev, .staged, .commit, .persist, .table, .ctl, .lanes, .trip, .hearth, .canc, .loads, .diag, .audio, .crust, .fault, .net, .chain, .flash] s t :=
  ⟨_, rfl, .ite (State.refLoss_changes ..) (.refl ..)⟩

theorem execRefReturn_changes (s : State) :
    ∃ t, execRefReturn s = .next t ∧ Changes [.dev] s t :=
  ⟨_, rfl, .ite (State.refBack_changes ..) (.refl ..)⟩

theorem execPllSlewComplete_changes (s : State) :
    ∃ t, execPllSlewComplete s = .next t ∧ Changes [.mode, .dev, .staged, .commit, .persist, .table, .ctl, .lanes, .trip, .hearth, .canc, .loads, .diag, .audio, .crust, .fault, .net, .chain, .flash] s t :=
  ⟨_, rfl, .ite (State.slewDone_changes ..) (.refl ..)⟩

end Sys2Proof.Machine
end

