-- ==== Sys2Proof/Laws/FlashCmds.lean ====
section
/-! SUPPORT. What the flash commands may change, part by part; and that each command answers a next state. -/

namespace Sys2Proof.Machine

set_option Elab.async false

theorem State.flashDone_changes (ok : Bool) (s : State) :
    Changes [.dev, .banks, .flash] s (State.flashDone ok s) := by
  unfold State.flashDone
  repeat' first
    | with_reducible exact .refl .. | with_reducible apply Changes.after (State.logEvent_changes ..) | extract_lets | split
    | with_reducible refine Changes.ite ?_ ?_ | with_reducible refine Changes.update ?_ | decide

theorem State.starterApply_changes (old : Store) (s : State) :
    Changes [.flash] s (State.starterApply old s) := by
  unfold State.starterApply
  extract_lets f
  have h : f.banks = s.flash.banks := by
    refine FlashState.foldl_banks _ fun f i => ?_
    dsimp only
    split
    · exact FlashState.writeEntry_banks ..
    · rfl
  clear_value f
  exact (Changes.refl _ s).update (h27 := .inr ⟨FlashState.bankA_of h, FlashState.bankB_of h⟩)

theorem State.starterStaged_changes (key : Nat) (s : State) :
    Changes [.flash] s (State.starterStaged key s) := by
  unfold State.starterStaged
  repeat' first
    | with_reducible exact .refl .. | extract_lets | split | with_reducible refine Changes.update ?_

theorem State.starterImport_changes (l : List (Nat × Bool × Nat)) (s : State) :
    Changes [.staged, .token, .flash] s (State.starterImport l s) := by
  unfold State.starterImport
  exact (Changes.refl _ s).update

theorem State.updateLog_changes (s : State) :
    Changes [.flash] s (State.updateLog s) := by
  unfold State.updateLog
  exact (Changes.refl _ s).update

theorem State.updateAction_changes (code : Nat) (s : State) :
    Changes [.flash] s (State.updateAction code s) := by
  unfold State.updateAction
  repeat' first
    | with_reducible exact .refl .. | with_reducible apply Changes.after (State.updateLog_changes ..) | extract_lets | split
    | with_reducible refine Changes.update ?_ | decide

theorem State.updateDone_changes (ok : Bool) (s : State) :
    Changes [.banks, .flash] s (State.updateDone ok s) := by
  unfold State.updateDone
  repeat' first
    | with_reducible exact .refl .. | with_reducible apply Changes.after (State.updateLog_changes ..) | extract_lets | split
    | with_reducible refine Changes.update ?_ | decide

theorem State.updateSegment_changes (data : List Byte) (last : Bool) (s : State) :
    Changes [.flash] s (State.updateSegment data last s) := by
  unfold State.updateSegment
  exact (Changes.refl _ s).update

theorem execFlashOperationDone_changes (ok : Bool) (s : State) :
    ∃ t, execFlashOperationDone ok s = .next t ∧ Changes [.dev, .banks, .flash] s t :=
  ⟨_, rfl, .ite (State.flashDone_changes ..) (.refl ..)⟩

theorem execSaveDone_changes (groups : Nat) (ok : Bool) (s : State) :
    ∃ t, execSaveDone groups ok s = .next t ∧ Changes [.persist] s t :=
  ⟨_, rfl, .ite (Changes.refl _ s).update (.refl ..)⟩

theorem execUpdateActionDone_changes (ok : Bool) (s : State) :
    ∃ t, execUpdateActionDone ok s = .next t ∧ Changes [.banks, .flash] s t :=
  ⟨_, rfl, .ite (State.updateDone_changes ..) (.refl ..)⟩

end Sys2Proof.Machine
end

