-- ==== Sys2Proof/Laws/Yoap.lean ====
section
/-! SUPPORT. What the answers of the networks may change, part by part; and that each command answers a next state. -/

namespace Sys2Proof.Machine

set_option Elab.async false

theorem State.setSession_changes (k : Nat) (f : Session → Session) (s : State) :
    Changes [.net] s (State.setSession k f s) := by
  unfold State.setSession
  exact (Changes.refl _ s).update

theorem State.noteAbort_changes (k code key : Nat) (s : State) :
    Changes [.table] s (State.noteAbort k code key s) := by
  unfold State.noteAbort
  exact (Changes.refl _ s).update

theorem State.send_changes (f : TxFrame) (s : State) :
    Changes [.net] s (State.send f s) := by
  unfold State.send
  exact (Changes.refl _ s).update

theorem State.respond_changes (k : Nat) (r : Request) (s : State) :
    Changes [.net] s (State.respond k r s) := by
  unfold State.respond
  repeat' first
    | with_reducible exact .refl .. | with_reducible assumption | with_reducible apply Changes.after (State.setSession_changes ..)
    | with_reducible apply Changes.after (State.send_changes ..) | extract_lets | split | with_reducible refine Changes.foldl ?_ (fun _ _ _ => ?_)
    | with_reducible refine Changes.update ?_ | decide

theorem State.netBoundary_changes (r : Request) (s : State) :
    Changes [.active, .staged, .commit, .sense] s (State.netBoundary r s) := by
  unfold State.netBoundary
  repeat' first
    | with_reducible exact .refl .. | with_reducible assumption | with_reducible apply Changes.after (State.applyValue_changes ..)
    | with_reducible apply Changes.after (State.applyCommit_changes ..) | extract_lets | with_reducible refine Changes.ite ?_ ?_
    | with_reducible refine Changes.foldl ?_ (fun _ _ _ => ?_) | with_reducible refine Changes.update ?_ | decide

theorem State.settleFront_changes (k : Nat) (x : Session) (r : Request) (rest : List Request) (s : State) :
    Changes [.dev, .active, .staged, .commit, .table, .sense, .net] s (State.settleFront k x r rest s).1 := by
  unfold State.settleFront
  repeat' first
    | with_reducible exact .refl .. | with_reducible assumption | with_reducible apply Changes.after (State.closeSession_changes ..)
    | with_reducible apply Changes.after (State.setSession_changes ..) | with_reducible apply Changes.after (State.noteAbort_changes ..)
    | with_reducible apply Changes.after (State.respond_changes ..) | with_reducible apply Changes.after (State.netBoundary_changes ..)
    | extract_lets | split | dsimp only | with_reducible refine Changes.ite ?_ ?_ | with_reducible refine Changes.foldl ?_ (fun _ _ _ => ?_)
    | with_reducible refine Changes.update ?_ | decide

theorem State.settleAll_changes (k : Nat) (s : State) :
    Changes [.dev, .active, .staged, .commit, .table, .sense, .net] s (State.settleAll k s) := by
  have key : ∀ n s, Changes [.dev, .active, .staged, .commit, .table, .sense, .net] s (State.settleRequests k n s) := by
    intro n
    induction n with
    | zero => exact fun s => .refl ..
    | succ n ih =>
      intro s
      unfold State.settleRequests
      split
      · exact .refl ..
      · split
        · exact .refl ..
        · dsimp only
          split
          · exact ((State.settleFront_changes ..).mono (by decide)).trans (ih _)
          · exact (State.settleFront_changes ..).mono (by decide)
  exact key _ _

theorem State.frameAbort_changes (session seq : Nat) (iface source : Nat) (a : Abort) (s : State) :
    Changes [.table, .net] s (State.frameAbort session seq iface source a s) := by
  unfold State.frameAbort
  repeat' first
    | with_reducible exact .refl .. | with_reducible apply Changes.after (State.noteAbort_changes ..)
    | with_reducible apply Changes.after (State.send_changes ..) | extract_lets | with_reducible refine Changes.ite ?_ ?_
    | with_reducible refine Changes.update ?_ | decide

theorem State.answer_changes (k : Nat) (a : Answer) (s : State) :
    Changes [.dev, .active, .staged, .commit, .table, .sense, .net] s (State.answer k a s) := by
  unfold State.answer
  repeat' first
    | with_reducible exact .refl .. | with_reducible apply Changes.after (State.setSession_changes ..)
    | with_reducible apply Changes.after (State.noteAbort_changes ..) | with_reducible apply Changes.after (State.settleAll_changes ..)
    | extract_lets | split | with_reducible refine Changes.ite ?_ ?_ | with_reducible refine Changes.update ?_ | decide

theorem State.unanswered_changes (k : Nat) (s : State) :
    Changes [.dev, .active, .staged, .commit, .table, .sense, .net] s (State.unanswered k s) := by
  unfold State.unanswered
  repeat' first
    | with_reducible exact .refl .. | with_reducible apply Changes.after (State.setSession_changes ..)
    | with_reducible apply Changes.after (State.settleAll_changes ..) | extract_lets | split | with_reducible refine Changes.update ?_ | decide

theorem State.sendImage_changes (s : State) (n : Nat) :
    Changes [.net] s (State.sendImage s n) := by
  unfold State.sendImage
  repeat' first
    | with_reducible exact .refl .. | with_reducible assumption | with_reducible apply Changes.after (State.setSession_changes ..)
    | with_reducible apply Changes.after (State.send_changes ..) | extract_lets | split | with_reducible refine Changes.ite ?_ ?_
    | with_reducible refine Changes.foldl ?_ (fun _ _ _ => ?_) | with_reducible refine Changes.update ?_ | decide

theorem State.sendImages_changes (s : State) :
    Changes [.net] s (State.sendImages s) := by
  unfold State.sendImages
  repeat' first
    | with_reducible exact .refl .. | with_reducible assumption | with_reducible apply Changes.after (State.sendImage_changes ..)
    | with_reducible refine Changes.foldl ?_ (fun _ _ _ => ?_) | with_reducible refine Changes.update ?_ | decide

end Sys2Proof.Machine
end

