-- ==== Sys2Proof/Laws/FrameCmds.lean ====
section
/-! SUPPORT. What the frame commands may change, part by part; and that each command answers a next state. -/

namespace Sys2Proof.Machine

set_option Elab.async false

theorem State.setCtl_changes (m : Nat) (f : MachCtl → MachCtl) (s : State) :
    Changes [.ctl] s (State.setCtl m f s) := by
  unfold State.setCtl
  exact (Changes.refl _ s).update

theorem State.modeOff_changes (m : Nat) (s : State) :
    Changes [.active, .ctl, .diag] s (State.modeOff m s) := by
  unfold State.modeOff
  repeat' first
    | with_reducible exact .refl .. | with_reducible apply Changes.after (State.putActive_changes ..)
    | with_reducible apply Changes.after (State.testModeChange_changes ..) | with_reducible apply Changes.after (State.setCtl_changes ..)
    | extract_lets | with_reducible refine Changes.ite ?_ ?_ | with_reducible refine Changes.update ?_ | decide

theorem State.modeApply_changes (m : Nat) (s : State) :
    Changes [.active, .ctl, .diag] s (State.modeApply m s) := by
  unfold State.modeApply
  repeat' first
    | with_reducible exact .refl .. | with_reducible apply Changes.after (State.putActive_changes ..)
    | with_reducible apply Changes.after (State.testModeChange_changes ..) | with_reducible apply Changes.after (State.setCtl_changes ..)
    | extract_lets | with_reducible refine Changes.ite ?_ ?_ | with_reducible refine Changes.update ?_ | decide

theorem State.enableApply_changes (m : Nat) (s : State) :
    Changes [.active, .ctl, .mod, .diag] s (State.enableApply m s) := by
  unfold State.enableApply
  repeat' first
    | with_reducible exact .refl .. | with_reducible apply Changes.after (State.modeOff_changes ..) | extract_lets
    | with_reducible refine Changes.ite ?_ ?_ | with_reducible refine Changes.update ?_ | decide

theorem State.machineSettings_changes (m : Nat) (old : Store) (keys : List Nat) (s : State) :
    Changes [.active, .ctl, .mod, .diag] s (State.machineSettings m old keys s) := by
  unfold State.machineSettings
  repeat' first
    | with_reducible exact .refl .. | with_reducible apply Changes.after (State.setCtl_changes ..)
    | with_reducible apply Changes.after (State.modeApply_changes ..) | with_reducible apply Changes.after (State.enableApply_changes ..)
    | extract_lets | with_reducible refine Changes.ite ?_ ?_ | with_reducible refine Changes.update ?_ | decide

theorem State.voteInstant_changes (m : Nat) (loaded had : Bool) (s : State) :
    Changes [.dev, .trip, .canc, .diag, .flash] s (State.voteInstant m loaded had s) := by
  unfold State.voteInstant
  exact .ite (.refl ..) (.ite (State.voteSource_changes ..) (.ite (State.voteSource_changes ..) (.refl ..)))

theorem State.dropHeld_changes (loaded : Bool) (s : State) :
    Changes [.dev, .mod, .trip, .canc, .diag, .flash] s (State.dropHeld loaded s) := by
  unfold State.dropHeld
  exact .ite (.refl ..) (.after (State.voteInstant_changes ..) (Changes.refl _ s).update (by decide))

theorem State.periodMismatch_changes (marked : Option Nat) (own : Nat) (s : State) :
    Changes [.dev, .trip, .canc, .diag, .chain, .flash] s (State.periodMismatch marked own s) := by
  unfold State.periodMismatch
  exact .ite (.refl ..) (.after (State.voteSource_changes ..) (.after (State.voteSource_changes ..) (Changes.refl _ s).update (by decide)) (by decide))

theorem State.modulate_changes (old : Store) (keys : List Nat) (marked : Option Nat) (m1 nextM1 : Bool) (s : State) :
    Changes [.dev, .mod, .trip, .canc, .diag, .chain, .flash] s (State.modulate old keys marked m1 nextM1 s) := by
  unfold State.modulate
  extract_lets own had u loaded v w
  have hu : Changes [.dev, .mod, .trip, .canc, .diag, .chain, .flash] s u := (Changes.refl _ s).update
  have hv : Changes [.dev, .mod, .trip, .canc, .diag, .chain, .flash] s v := .after (State.voteInstant_changes ..) hu (by decide)
  exact .after (State.periodMismatch_changes ..)
    (.ite (.after (State.voteInstant_changes ..) hv (by decide)) (.after (State.dropHeld_changes ..) hv (by decide))) (by decide)

theorem State.recipeSettings_changes (old : Store) (s : State) : Changes [.lanes] s (State.recipeSettings old s) := by
  unfold State.recipeSettings
  repeat' first
    | with_reducible exact .refl .. | extract_lets | with_reducible refine Changes.ite ?_ ?_ | with_reducible refine Changes.update ?_

theorem State.clockSettings_changes (old : Store) (s : State) : Changes [.sense] s (State.clockSettings old s) := by
  unfold State.clockSettings
  exact (Changes.refl _ s).update

theorem State.deviceSettings_changes (old : Store) (a : Applied) (s : State) :
    Changes [.dev, .sense, .lanes, .mod, .trip, .canc, .diag, .chain, .flash] s (State.deviceSettings old a s) := by
  unfold State.deviceSettings
  repeat' first
    | with_reducible exact .refl .. | with_reducible apply Changes.after (State.discharge_changes ..)
    | with_reducible apply Changes.after (State.clockSettings_changes ..)
    | with_reducible apply Changes.after (State.fltApply_changes ..) | with_reducible apply Changes.after (State.ridgeApply_changes ..)
    | with_reducible apply Changes.after (State.positionApply_changes ..) | with_reducible apply Changes.after (State.chainSettings_changes ..)
    | with_reducible apply Changes.after (State.starterApply_changes ..) | with_reducible apply Changes.after (State.recipeSettings_changes ..)
    | extract_lets | with_reducible refine Changes.ite ?_ ?_ | with_reducible refine Changes.update ?_ | decide

theorem State.windTrough_changes (m : Nat) (s : State) :
    Changes [.sense, .trip] s (State.windTrough m s) := by
  unfold State.windTrough
  exact (Changes.refl _ s).update

theorem State.tripTrough_changes (m1 : Bool) (s : State) :
    Changes [.sense, .trip] s (State.tripTrough m1 s) := by
  unfold State.tripTrough
  repeat' first
    | with_reducible exact .refl .. | with_reducible apply Changes.after (State.windTrough_changes ..) | extract_lets
    | with_reducible refine Changes.ite ?_ ?_ | with_reducible refine Changes.update ?_ | decide

theorem State.voteDue_changes (trough : Bool) (s : State) :
    Changes [.mode, .dev, .staged, .commit, .persist, .table, .ctl, .lanes, .trip, .hearth, .canc, .loads, .diag, .audio, .crust, .fault, .net, .chain, .flash] s (State.voteDue trough s) := by
  unfold State.voteDue
  repeat' first
    | with_reducible exact .refl .. | with_reducible apply Changes.after (State.enterBedrock_changes ..)
    | with_reducible apply Changes.after (State.voteSource_changes ..) | extract_lets | with_reducible refine Changes.ite ?_ ?_
    | with_reducible refine Changes.update ?_ | decide

theorem State.lanesTrough_changes (s : State) :
    Changes [.lanes] s (State.lanesTrough s) := by
  unfold State.lanesTrough
  exact .ite (.refl ..) (Changes.refl _ s).update

theorem State.centre_changes (m : Nat) (s : State) :
    Changes [.mode, .dev, .staged, .commit, .persist, .table, .sense, .ctl, .lanes, .trip, .hearth, .canc, .loads, .diag, .audio, .crust, .fault, .net, .chain, .flash] s (State.centre m s) := by
  unfold State.centre
  repeat' first
    | with_reducible exact .refl .. | with_reducible apply Changes.after (State.latchPos_changes ..) | extract_lets
    | with_reducible refine Changes.ite ?_ ?_ | with_reducible refine Changes.update ?_ | decide

theorem State.enterRun_changes (s : State) :
    Changes [.mode, .dev, .hearth, .canc, .loads, .diag, .audio, .crust, .chain, .flash] s (State.enterRun s) := by
  unfold State.enterRun
  repeat' first
    | with_reducible exact .refl .. | with_reducible apply Changes.after (State.goState_changes ..)
    | with_reducible apply Changes.after (State.twinsRun_changes ..) | extract_lets | with_reducible refine Changes.update ?_ | decide

theorem State.leaveRun_changes (s : State) :
    Changes [.mode, .dev, .active, .commit, .ctl, .hearth, .canc, .loads, .diag, .audio, .crust, .flash] s (State.leaveRun s) := by
  unfold State.leaveRun
  repeat' first
    | with_reducible exact .refl .. | with_reducible apply Changes.after (State.goState_changes ..)
    | with_reducible apply Changes.after (State.modeOff_changes ..) | extract_lets
    | with_reducible refine Changes.update ?_ | decide

theorem State.enterService_changes (session : Nat) (s : State) :
    Changes [.mode, .dev, .hearth, .canc, .loads, .diag, .audio, .crust, .flash] s (State.enterService session s) := by
  unfold State.enterService
  repeat' first
    | with_reducible exact .refl .. | with_reducible apply Changes.after (State.goState_changes ..) | extract_lets
    | with_reducible refine Changes.ite ?_ ?_ | with_reducible refine Changes.update ?_ | decide

theorem State.enterStandby_changes (s : State) :
    Changes [.mode, .dev, .table, .hearth, .canc, .loads, .diag, .audio, .crust, .net, .flash] s (State.enterStandby s) := by
  unfold State.enterStandby
  repeat' first
    | with_reducible exact .refl .. | with_reducible apply Changes.after (State.closeSessions_changes ..)
    | with_reducible apply Changes.after (State.goState_changes ..) | extract_lets | with_reducible refine Changes.update ?_ | decide

theorem State.requestTrough_changes (held : Bool) (s : State) :
    Changes [.mode, .dev, .active, .commit, .table, .ctl, .hearth, .canc, .loads, .diag, .audio, .crust, .net, .chain, .flash] s (State.requestTrough held s) := by
  unfold State.requestTrough
  repeat' first
    | with_reducible exact .refl .. | with_reducible apply Changes.after (State.goState_changes ..)
    | with_reducible apply Changes.after (State.summitAlone_changes ..) | with_reducible apply Changes.after (State.enterRun_changes ..)
    | with_reducible apply Changes.after (State.leaveRun_changes ..) | with_reducible apply Changes.after (State.enterService_changes ..)
    | with_reducible apply Changes.after (State.enterStandby_changes ..) | extract_lets | split | with_reducible refine Changes.ite ?_ ?_
    | with_reducible refine Changes.update ?_ | decide

theorem State.beginFrame_changes (m1 : Bool) (s : State) :
    Changes [.frame, .sense] s (State.beginFrame m1 s) := by
  unfold State.beginFrame
  exact (Changes.refl _ s).update

theorem State.troughBoundary_changes (m1 : Bool) (s : State) :
    Changes [.active, .staged, .commit, .persist, .sense, .mod, .trip, .hearth, .canc, .loads, .diag, .audio, .crust, .hk, .chain] s (State.troughBoundary m1 s).1 := by
  unfold State.troughBoundary
  repeat' first
    | with_reducible exact .refl .. | with_reducible apply Changes.after (State.boundary_changes ..) | split | dsimp only
    | with_reducible refine Changes.ite ?_ ?_ | with_reducible refine Changes.update ?_ | decide

theorem State.troughSettings_changes (old : Store) (a : Applied) (m1 : Bool) (s : State) :
    Changes [.dev, .active, .sense, .ctl, .lanes, .mod, .trip, .canc, .diag, .chain, .flash] s (State.troughSettings old a m1 s) := by
  unfold State.troughSettings
  repeat' first
    | with_reducible exact .refl .. | with_reducible apply Changes.after (State.zeroModes_changes ..) | with_reducible apply Changes.after (State.machineSettings_changes ..)
    | with_reducible apply Changes.after (State.deviceSettings_changes ..) | extract_lets | with_reducible refine Changes.ite ?_ ?_
    | with_reducible refine Changes.update ?_ | decide

theorem State.engineTrough_changes (m : Nat) (s : State) : Changes [.diag] s (State.engineTrough m s) := by
  unfold State.engineTrough
  exact (Changes.refl _ s).update

theorem State.troughBody_changes (edges : Nat) (m1 : Bool) (s : State) :
    Changes [.mode, .dev, .staged, .commit, .persist, .table, .sense, .ctl, .lanes, .trip, .hearth, .canc, .loads, .diag, .audio, .crust, .fault, .net, .chain, .flash] s (State.troughBody edges m1 s) := by
  unfold State.troughBody
  repeat' first
    | with_reducible exact .refl .. | with_reducible apply Changes.after (State.chainTrough_changes ..)
    | with_reducible apply Changes.after (State.engineTrough_changes ..)
    | with_reducible apply Changes.after (State.testTrough_changes ..) | with_reducible apply Changes.after (State.captureTrough_changes ..)
    | with_reducible apply Changes.after (State.captureInstant_changes ..) | with_reducible apply Changes.after (State.tripTrough_changes ..)
    | with_reducible apply Changes.after (State.voteDue_changes ..) | with_reducible apply Changes.after (State.lanesTrough_changes ..)
    | with_reducible apply Changes.after (State.centre_changes ..) | extract_lets | with_reducible refine Changes.ite ?_ ?_
    | with_reducible refine Changes.update ?_ | decide

theorem State.m0Trough_changes (edges : Nat) (s : State) :
    Changes [.mode, .dev, .frame, .active, .staged, .commit, .persist, .table, .sense, .ctl, .lanes, .mod, .trip, .hearth, .canc, .loads, .diag, .audio, .crust, .fault, .hk, .net, .chain, .flash] s (State.m0Trough edges s) := by
  unfold State.m0Trough
  repeat' first
    | with_reducible exact .refl .. | with_reducible apply Changes.after (State.repairStore_changes ..)
    | with_reducible apply Changes.after (State.sendImages_changes ..) | with_reducible apply Changes.after (State.modulate_changes ..)
    | with_reducible apply Changes.after (State.requestTrough_changes ..) | with_reducible apply Changes.after (State.beginFrame_changes ..)
    | with_reducible apply Changes.after (State.troughBoundary_changes ..) | with_reducible apply Changes.after (State.troughSettings_changes ..)
    | with_reducible apply Changes.after (State.troughBody_changes ..) | extract_lets | with_reducible refine Changes.ite ?_ ?_
    | with_reducible refine Changes.update ?_ | decide

theorem State.crest_changes (m : Nat) (s : State) :
    Changes [.mode, .dev, .staged, .commit, .persist, .table, .sense, .ctl, .lanes, .mod, .trip, .hearth, .canc, .loads, .diag, .audio, .crust, .fault, .net, .chain, .flash] s (State.crest m s) := by
  unfold State.crest
  repeat' first
    | with_reducible exact .refl .. | with_reducible apply Changes.after (State.captureInstant_changes ..)
    | with_reducible apply Changes.after (State.setCtl_changes ..) | with_reducible apply Changes.after (State.voteDue_changes ..)
    | with_reducible apply Changes.after (State.voteInstant_changes ..) | with_reducible apply Changes.after (State.dropHeld_changes ..)
    | with_reducible apply Changes.after (State.centre_changes ..) | extract_lets | with_reducible refine Changes.ite ?_ ?_
    | with_reducible refine Changes.update ?_ | decide

theorem State.modeFadeEnd_changes (m : Nat) (s : State) :
    Changes [.ctl, .diag] s (State.modeFadeEnd m s) := by
  unfold State.modeFadeEnd
  repeat' first
    | with_reducible exact .refl .. | with_reducible apply Changes.after (State.testModeChange_changes ..)
    | with_reducible apply Changes.after (State.setCtl_changes ..) | extract_lets | split | with_reducible refine Changes.ite ?_ ?_
    | with_reducible refine Changes.update ?_ | decide

theorem State.runFadeEnd_changes (s : State) :
    Changes [.dev] s (State.runFadeEnd s) := by
  unfold State.runFadeEnd
  repeat' first
    | with_reducible exact .refl .. | extract_lets | split | with_reducible refine Changes.ite ?_ ?_ | with_reducible refine Changes.update ?_

theorem execM0Trough_changes (edges : Nat) (s : State) :
    ∃ t, execM0Trough edges s = .next t ∧ Changes [.mode, .dev, .frame, .active, .staged, .commit, .persist, .table, .sense, .ctl, .lanes, .mod, .trip, .hearth, .canc, .loads, .diag, .audio, .crust, .fault, .hk, .net, .chain, .flash] s t :=
  ⟨_, rfl, State.m0Trough_changes ..⟩

theorem execCrest_changes (m : Nat) (s : State) :
    ∃ t, execCrest m s = .next t ∧ Changes [.mode, .dev, .staged, .commit, .persist, .table, .sense, .ctl, .lanes, .mod, .trip, .hearth, .canc, .loads, .diag, .audio, .crust, .fault, .net, .chain, .flash] s t :=
  ⟨_, rfl, State.crest_changes ..⟩

theorem execModeFadeEnd_changes (m : Nat) (s : State) :
    ∃ t, execModeFadeEnd m s = .next t ∧ Changes [.ctl, .diag] s t :=
  ⟨_, rfl, State.modeFadeEnd_changes ..⟩

theorem execRunExitFadeEnd_changes (s : State) :
    ∃ t, execRunExitFadeEnd s = .next t ∧ Changes [.dev] s t :=
  ⟨_, rfl, State.runFadeEnd_changes ..⟩

end Sys2Proof.Machine
end

