-- ==== Sys2Proof/Laws/HkCmds.lean ====
section
/-! SUPPORT. What the housekeeping commands may change, part by part; and that each command answers a next state. -/

namespace Sys2Proof.Machine

set_option Elab.async false

theorem State.loadStep_changes (s : State) :
    Changes [.mode, .dev, .staged, .commit, .persist, .table, .ctl, .lanes, .trip, .hearth, .canc, .loads, .diag, .audio, .crust, .fault, .net, .chain, .flash] s (State.loadStep s) := by
  unfold State.loadStep
  repeat' first
    | with_reducible exact .refl .. | with_reducible apply Changes.after (State.raiseAll_changes ..) | extract_lets
    | with_reducible refine Changes.update ?_ | decide

theorem State.backupLost_changes (s : State) :
    Changes [.mode, .dev, .staged, .commit, .persist, .table, .ctl, .lanes, .trip, .hearth, .canc, .loads, .diag, .audio, .crust, .fault, .net, .chain, .flash] s (State.backupLost s) := by
  unfold State.backupLost
  repeat' first
    | with_reducible exact .refl .. | with_reducible apply Changes.after (State.enterBedrock_changes ..) | extract_lets | split
    | with_reducible refine Changes.ite ?_ ?_ | with_reducible refine Changes.update ?_ | decide

theorem State.hkRecords_changes (r : HkState.Report) (s : State) :
    Changes [.flash] s (State.hkRecords r s) := by
  unfold State.hkRecords
  repeat' first
    | with_reducible exact .refl .. | with_reducible assumption | with_reducible apply Changes.after (State.logEvent_changes ..) | extract_lets
    | with_reducible refine Changes.ite ?_ ?_ | with_reducible refine Changes.foldl ?_ (fun _ _ _ => ?_) | with_reducible refine Changes.update ?_
    | decide

theorem State.hardLimit_changes (s : State) :
    Changes [.mode, .dev, .persist, .ctl, .trip, .hearth, .canc, .loads, .diag, .audio, .crust, .fault, .hk, .chain, .flash] s (State.hardLimit s) := by
  unfold State.hardLimit
  repeat' first
    | with_reducible exact .refl .. | with_reducible apply Changes.after (State.hardStates_changes ..)
    | with_reducible apply Changes.after (State.thermalStop_changes ..) | with_reducible apply Changes.after (State.hardenStop_changes ..)
    | extract_lets | with_reducible refine Changes.ite ?_ ?_ | with_reducible refine Changes.update ?_ | decide

theorem State.hkRound_changes (s : State) :
    Changes [.mode, .dev, .active, .staged, .commit, .persist, .table, .sense, .ctl, .lanes, .mod, .trip, .hearth, .canc, .loads, .diag, .audio, .crust, .fault, .hk, .net, .chain, .flash] s (State.hkRound s) := by
  unfold State.hkRound
  repeat' first
    | with_reducible exact .refl .. | with_reducible apply Changes.after (State.raiseAll_changes ..)
    | with_reducible apply Changes.after (State.repairStore_changes ..) | with_reducible apply Changes.after (State.boundary_changes ..)
    | with_reducible apply Changes.after (State.loadStep_changes ..) | with_reducible apply Changes.after (State.backupLost_changes ..)
    | with_reducible apply Changes.after (State.hkRecords_changes ..) | with_reducible apply Changes.after (State.hardLimit_changes ..)
    | extract_lets | with_reducible refine Changes.ite ?_ ?_ | with_reducible refine Changes.update ?_ | decide

theorem State.thermalEntry_changes (s : State) :
    Changes [.mode, .dev, .persist, .ctl, .trip, .hearth, .canc, .loads, .diag, .audio, .crust, .hk, .chain, .flash] s (State.thermalEntry s) := by
  unfold State.thermalEntry
  repeat' first
    | with_reducible exact .refl .. | with_reducible apply Changes.after (State.thermalStop_changes ..) | with_reducible refine Changes.ite ?_ ?_
    | with_reducible refine Changes.update ?_ | decide

theorem State.thermalExit_changes (s : State) :
    Changes [.mode, .dev, .trip, .hearth, .canc, .loads, .diag, .audio, .crust, .hk, .flash] s (State.thermalExit s) := by
  unfold State.thermalExit
  repeat' first
    | with_reducible exact .refl .. | with_reducible apply Changes.after (State.thermalRelease_changes ..) | with_reducible refine Changes.ite ?_ ?_
    | with_reducible refine Changes.update ?_ | decide

theorem execHkRoundBoundary_changes (s : State) :
    ∃ t, execHkRoundBoundary s = .next t ∧ Changes [.mode, .dev, .active, .staged, .commit, .persist, .table, .sense, .ctl, .lanes, .mod, .trip, .hearth, .canc, .loads, .diag, .audio, .crust, .fault, .hk, .net, .chain, .flash] s t :=
  ⟨_, rfl, .ite (State.hkRound_changes ..) (.refl ..)⟩

theorem execHkSlotConversion_changes (slot code : Nat) (s : State) :
    ∃ t, execHkSlotConversion slot code s = .next t ∧ Changes [.hk] s t :=
  ⟨_, rfl, .ite (Changes.refl _ s).update (.refl ..)⟩

theorem execEventSlotGroup_changes (codes : List Nat) (s : State) :
    ∃ t, execEventSlotGroup codes s = .next t ∧ Changes [.hk] s t :=
  ⟨_, rfl, .ite (Changes.refl _ s).update (.refl ..)⟩

theorem execThermalStopEntry_changes (s : State) :
    ∃ t, execThermalStopEntry s = .next t ∧ Changes [.mode, .dev, .persist, .ctl, .trip, .hearth, .canc, .loads, .diag, .audio, .crust, .hk, .chain, .flash] s t :=
  ⟨_, rfl, .ite (State.thermalEntry_changes ..) (.refl ..)⟩

theorem execThermalStopRelease_changes (s : State) :
    ∃ t, execThermalStopRelease s = .next t ∧ Changes [.mode, .dev, .trip, .hearth, .canc, .loads, .diag, .audio, .crust, .hk, .flash] s t :=
  ⟨_, rfl, .ite (State.thermalExit_changes ..) (.refl ..)⟩

end Sys2Proof.Machine
end

