-- ==== Sys2Proof/Laws/HostGuards.lean ====
section
/-! SUPPORT. What the host guards may change, part by part; and that each command answers a next state. -/

namespace Sys2Proof.Machine

set_option Elab.async false

theorem State.requestState_changes (k code : Nat) (s : State) :
    Changes [.dev] s (State.requestState k code s) := by
  unfold State.requestState
  exact .ite (.refl ..) (Changes.refl _ s).update

theorem State.dropTransfer_changes (k key : Nat) (s : State) :
    Changes [.table] s (State.dropTransfer k key s) := by
  unfold State.dropTransfer
  exact (Changes.refl _ s).update

end Sys2Proof.Machine
end

