-- ==== Sys2Proof/Laws/Host.lean ====
section
/-! SUPPORT. What the host items may change, part by part; and that each command answers a next state. -/

namespace Sys2Proof.Machine

set_option Elab.async false

theorem State.discardSets_changes (mask : Nat) (s : State) :
    Changes [.staged, .token, .flash] s (State.discardSets mask s) := by
  unfold State.discardSets
  repeat' first
    | with_reducible exact .refl .. | with_reducible apply Changes.after (State.discardStaged_changes ..) | extract_lets
    | with_reducible refine Changes.ite ?_ ?_ | with_reducible refine Changes.update ?_ | decide

theorem State.keySlotStore_changes (k slot : Nat) (v : List Byte) (s : State) :
    Changes [.dev, .table, .net, .flash] s (State.keySlotStore k slot v s) := by
  unfold State.keySlotStore
  repeat' first
    | with_reducible exact .refl .. | with_reducible assumption | with_reducible apply Changes.after (State.closeSession_changes ..) | extract_lets
    | split | with_reducible refine Changes.ite ?_ ?_ | with_reducible refine Changes.foldl ?_ (fun _ _ _ => ?_)
    | with_reducible refine Changes.update ?_ | decide

theorem State.act_changes (k key raw : Nat) (s : State) :
    Changes [.dev, .staged, .token, .commit, .persist, .sense, .lanes, .trip, .hearth, .canc, .diag, .crust, .chain, .flash] s (State.act k key raw s).1 := by
  unfold State.act
  repeat' first
    | with_reducible exact .refl .. | with_reducible apply Changes.after (State.swapRequest_changes ..)
    | with_reducible apply Changes.after (State.laneTest_changes ..) | with_reducible apply Changes.after (State.voteTestRequest_changes ..)
    | with_reducible apply Changes.after (State.tripClear_changes ..) | with_reducible apply Changes.after (State.linkRequest_changes ..)
    | with_reducible apply Changes.after (State.linkRerun_changes ..) | with_reducible apply Changes.after (State.acceptAction_changes ..)
    | with_reducible apply Changes.after (State.chimeWrite_changes ..) | with_reducible apply Changes.after (State.swapTwins_changes ..)
    | with_reducible apply Changes.after (State.updateAction_changes ..) | with_reducible apply Changes.after (State.identRequest_changes ..)
    | with_reducible apply Changes.after (State.adopt_changes ..) | with_reducible apply Changes.after (State.soffTest_changes ..)
    | with_reducible apply Changes.after (State.tapRequest_changes ..) | with_reducible apply Changes.after (State.testStart_changes ..)
    | with_reducible apply Changes.after (State.testStop_changes ..) | with_reducible apply Changes.after (State.captureWrite_changes ..)
    | with_reducible apply Changes.after (State.requestState_changes ..) | with_reducible apply Changes.after (State.discardSets_changes ..)
    | extract_lets | split | dsimp only | with_reducible refine Changes.ite ?_ ?_ | with_reducible refine Changes.update ?_ | decide

theorem State.storeBlob_changes (k key : Nat) (v : List Byte) (s : State) :
    Changes [.dev, .staged, .token, .table, .net, .flash] s (State.storeBlob k key v s) := by
  unfold State.storeBlob
  repeat' first
    | with_reducible exact .refl .. | with_reducible apply Changes.after (State.stageBlob_changes ..)
    | with_reducible apply Changes.after (State.starterImport_changes ..) | with_reducible apply Changes.after (State.updateSegment_changes ..)
    | with_reducible apply Changes.after (State.keySlotStore_changes ..) | extract_lets | split | with_reducible refine Changes.update ?_ | decide

theorem State.imageOpen_changes (s : State) :
    Changes [.flash] s (State.imageOpen s) := by
  unfold State.imageOpen
  exact (Changes.refl _ s).update

theorem State.writeValue_changes (k key : Nat) (data : List Byte) (s : State) :
    Changes [.dev, .active, .staged, .token, .commit, .persist, .table, .sense, .lanes, .mod, .trip, .hearth, .canc, .loads, .diag, .audio, .crust, .hk, .net, .chain, .flash] s (State.writeValue k key data s).1 := by
  unfold State.writeValue
  repeat' first
    | with_reducible exact .refl .. | with_reducible apply Changes.after (State.putActive_changes ..)
    | with_reducible apply Changes.after (State.moveToken_changes ..) | with_reducible apply Changes.after (State.acceptWrite_changes ..)
    | with_reducible apply Changes.after (State.stage_changes ..) | with_reducible apply Changes.after (State.starterStaged_changes ..)
    | with_reducible apply Changes.after (State.setSession_changes ..) | with_reducible apply Changes.after (State.dropTransfer_changes ..)
    | with_reducible apply Changes.after (State.acceptAction_changes ..) | with_reducible apply Changes.after (State.act_changes ..)
    | with_reducible apply Changes.after (State.storeBlob_changes ..) | with_reducible apply Changes.after (State.imageOpen_changes ..)
    | extract_lets | split | dsimp only | with_reducible refine Changes.ite ?_ ?_ | with_reducible refine Changes.update ?_ | decide

theorem State.noteRefusal_changes (key level : Nat) (data : List Byte) (s : State) :
    Changes [.dev] s (State.noteRefusal key level data s) := by
  unfold State.noteRefusal
  exact .ite (Changes.refl _ s).update (.refl ..)

theorem State.fresh_changes (s : State) :
    Changes [.net] s (State.fresh s) := by
  unfold State.fresh
  exact (Changes.refl _ s).update

theorem State.startCommit_changes (k raw : Nat) (s : State) :
    Changes [.commit] s (State.startCommit k raw s) := by
  unfold State.startCommit
  exact .ite (.refl ..) (Changes.refl _ s).update

theorem State.hostWrite_changes (k key : Nat) (data : List Byte) (s : State) :
    Changes [.dev, .active, .staged, .token, .commit, .persist, .table, .sense, .lanes, .mod, .trip, .hearth, .canc, .loads, .diag, .audio, .crust, .hk, .net, .chain, .flash] s (State.hostWrite k key data s) := by
  unfold State.hostWrite
  repeat' first
    | with_reducible exact .refl .. | with_reducible apply Changes.after (State.answer_changes ..)
    | with_reducible apply Changes.after (State.writeValue_changes ..) | with_reducible apply Changes.after (State.noteRefusal_changes ..)
    | with_reducible apply Changes.after (State.fresh_changes ..) | with_reducible apply Changes.after (State.startCommit_changes ..) | extract_lets
    | split | with_reducible refine Changes.ite ?_ ?_ | with_reducible refine Changes.update ?_ | decide

theorem State.commitDecided_changes (s : State) :
    Changes [.dev, .active, .staged, .token, .commit, .persist, .table, .sense, .mod, .trip, .hearth, .canc, .loads, .diag, .audio, .crust, .hk, .net, .bench, .chain] s (State.commitDecided s) := by
  unfold State.commitDecided
  repeat' first
    | with_reducible exact .refl .. | with_reducible apply Changes.after (State.commitEnd_changes ..)
    | with_reducible apply Changes.after (State.answer_changes ..) | with_reducible apply Changes.after (State.fresh_changes ..) | extract_lets
    | split | with_reducible refine Changes.ite ?_ ?_ | with_reducible refine Changes.update ?_ | decide

theorem State.segment_changes (k key offset : Nat) (last : Bool) (data : List Byte) (s : State) :
    Changes [.dev, .staged, .token, .table, .net, .flash] s (State.segment k key offset last data s) := by
  unfold State.segment
  repeat' first
    | with_reducible exact .refl .. | with_reducible apply Changes.after (State.updateSegment_changes ..)
    | with_reducible apply Changes.after (State.dropTransfer_changes ..) | with_reducible apply Changes.after (State.storeBlob_changes ..)
    | with_reducible apply Changes.after (State.imageOpen_changes ..) | extract_lets | split | with_reducible refine Changes.ite ?_ ?_
    | with_reducible refine Changes.update ?_ | decide

theorem State.segmentWrite_changes (k key offset : Nat) (last : Bool) (data : List Byte) (bad : Option Abort) (s : State) :
    Changes [.dev, .active, .staged, .token, .commit, .persist, .table, .sense, .mod, .trip, .hearth, .canc, .loads, .diag, .audio, .crust, .hk, .net, .chain, .flash] s (State.segmentWrite k key offset last data bad s) := by
  unfold State.segmentWrite
  repeat' first
    | with_reducible exact .refl .. | with_reducible apply Changes.after (State.answer_changes ..)
    | with_reducible apply Changes.after (State.dropTransfer_changes ..) | with_reducible apply Changes.after (State.segment_changes ..)
    | extract_lets | split | with_reducible refine Changes.ite ?_ ?_ | with_reducible refine Changes.update ?_ | decide

theorem State.hostWriteSeg_changes (k key offset : Nat) (last : Bool) (data : List Byte) (s : State) :
    Changes [.dev, .active, .staged, .token, .commit, .persist, .table, .sense, .mod, .trip, .hearth, .canc, .loads, .diag, .audio, .crust, .hk, .net, .chain, .flash] s (State.hostWriteSeg k key offset last data s) := by
  unfold State.hostWriteSeg
  repeat' first
    | with_reducible exact .refl .. | with_reducible apply Changes.after (State.fresh_changes ..)
    | with_reducible apply Changes.after (State.segmentWrite_changes ..) | extract_lets | split | with_reducible refine Changes.ite ?_ ?_
    | with_reducible refine Changes.update ?_ | decide

theorem State.hostRead_changes (k key : Nat) (s : State) :
    Changes [.dev, .active, .staged, .commit, .persist, .table, .sense, .mod, .trip, .hearth, .canc, .loads, .diag, .audio, .crust, .hk, .net, .chain] s (State.hostRead k key s) := by
  unfold State.hostRead
  repeat' first
    | with_reducible exact .refl .. | with_reducible apply Changes.after (State.answer_changes ..)
    | with_reducible apply Changes.after (State.fresh_changes ..) | extract_lets | split | with_reducible refine Changes.ite ?_ ?_
    | with_reducible refine Changes.update ?_ | decide

theorem State.servedBlob_changes (k key offset : Nat) (view : Bool) (s : State) :
    Changes [.table] s (State.servedBlob k key offset view s).2 := by
  unfold State.servedBlob
  repeat' first
    | with_reducible exact .refl .. | extract_lets | split | dsimp only | with_reducible refine Changes.ite ?_ ?_
    | with_reducible refine Changes.update ?_

theorem State.readEnds_changes (k key : Nat) (s : State) :
    Changes [.table] s (State.readEnds k key s) := by
  unfold State.readEnds
  exact (Changes.refl _ s).update

theorem State.readSegment_changes (k key offset maxLen : Nat) (view : Bool) (s : State) :
    Changes [.table, .diag] s (State.readSegment k key offset maxLen view s).2.2.2 := by
  unfold State.readSegment
  repeat' first
    | with_reducible exact .refl .. | with_reducible apply Changes.after (State.servedBlob_changes ..)
    | with_reducible apply Changes.after (State.readEnds_changes ..) | extract_lets | split | dsimp only | with_reducible refine Changes.ite ?_ ?_
    | with_reducible refine Changes.update ?_ | decide

theorem State.segmentRead_changes (k key offset maxLen : Nat) (view : Bool) (bad : Option Abort) (s : State) :
    Changes [.dev, .active, .staged, .commit, .persist, .table, .sense, .mod, .trip, .hearth, .canc, .loads, .diag, .audio, .crust, .hk, .net, .chain] s (State.segmentRead k key offset maxLen view bad s) := by
  unfold State.segmentRead
  repeat' first
    | with_reducible exact .refl .. | with_reducible apply Changes.after (State.answer_changes ..)
    | with_reducible apply Changes.after (State.readSegment_changes ..) | extract_lets | split | with_reducible refine Changes.update ?_ | decide

theorem State.hostReadSeg_changes (k key offset maxLen : Nat) (s : State) :
    Changes [.dev, .active, .staged, .commit, .persist, .table, .sense, .mod, .trip, .hearth, .canc, .loads, .diag, .audio, .crust, .hk, .net, .chain] s (State.hostReadSeg k key offset maxLen s) := by
  unfold State.hostReadSeg
  repeat' first
    | with_reducible exact .refl .. | with_reducible apply Changes.after (State.fresh_changes ..)
    | with_reducible apply Changes.after (State.segmentRead_changes ..) | extract_lets | split | with_reducible refine Changes.ite ?_ ?_
    | with_reducible refine Changes.update ?_ | decide

theorem State.hostAction_changes (k idx sub : Nat) (data : List Byte) (p : Nat → Bool) (s : State) :
    Changes [.dev, .active, .staged, .token, .commit, .persist, .table, .sense, .lanes, .mod, .trip, .hearth, .canc, .loads, .diag, .audio, .crust, .hk, .net, .chain, .flash] s (State.hostAction k idx sub data p s) := by
  unfold State.hostAction
  repeat' first
    | with_reducible exact .refl .. | with_reducible apply Changes.after (State.hostWrite_changes ..) | with_reducible refine Changes.ite ?_ ?_
    | with_reducible refine Changes.update ?_ | decide

end Sys2Proof.Machine
end

