-- ==== Sys2Proof/Laws/HostCmds.lean ====
section
/-! SUPPORT. What the host commands may change, part by part; and that each command answers a next state. -/

namespace Sys2Proof.Machine

set_option Elab.async false

theorem State.hostKeySlot_changes (k slot : Nat) (data : List Byte) (s : State) :
    Changes [.dev, .active, .staged, .token, .commit, .persist, .table, .sense, .lanes, .mod, .trip, .hearth, .canc, .loads, .diag, .audio, .crust, .hk, .net, .chain, .flash] s (State.hostKeySlot k slot data s) := by
  unfold State.hostKeySlot
  repeat' first
    | with_reducible exact .refl .. | with_reducible apply Changes.after (State.hostWrite_changes ..)
    | with_reducible apply Changes.after (State.hostWriteSeg_changes ..) | extract_lets | split | with_reducible refine Changes.ite ?_ ?_
    | with_reducible refine Changes.update ?_ | decide

theorem execRestorePaths_changes (sess : Nat) (data : List Byte) (s : State) :
    ∃ t, execRestorePaths sess data s = .next t ∧ Changes [.dev, .active, .staged, .token, .commit, .persist, .table, .sense, .lanes, .mod, .trip, .hearth, .canc, .loads, .diag, .audio, .crust, .hk, .net, .chain, .flash] s t :=
  ⟨_, rfl, State.hostAction_changes ..⟩

theorem execPositionSourceSelect_changes (m : Nat) (sess : Nat) (data : List Byte) (s : State) :
    ∃ t, execPositionSourceSelect m sess data s = .next t ∧ Changes [.dev, .active, .staged, .token, .commit, .persist, .table, .sense, .lanes, .mod, .trip, .hearth, .canc, .loads, .diag, .audio, .crust, .hk, .net, .chain, .flash] s t :=
  ⟨_, rfl, State.hostAction_changes ..⟩

theorem execSwapActive_changes (sess : Nat) (data : List Byte) (s : State) :
    ∃ t, execSwapActive sess data s = .next t ∧ Changes [.dev, .active, .staged, .token, .commit, .persist, .table, .sense, .lanes, .mod, .trip, .hearth, .canc, .loads, .diag, .audio, .crust, .hk, .net, .chain, .flash] s t :=
  ⟨_, rfl, State.hostAction_changes ..⟩

theorem execLaneTestRequest_changes (sess : Nat) (data : List Byte) (s : State) :
    ∃ t, execLaneTestRequest sess data s = .next t ∧ Changes [.dev, .active, .staged, .token, .commit, .persist, .table, .sense, .lanes, .mod, .trip, .hearth, .canc, .loads, .diag, .audio, .crust, .hk, .net, .chain, .flash] s t :=
  ⟨_, rfl, State.hostAction_changes ..⟩

theorem execVoteTest_changes (sess : Nat) (data : List Byte) (s : State) :
    ∃ t, execVoteTest sess data s = .next t ∧ Changes [.dev, .active, .staged, .token, .commit, .persist, .table, .sense, .lanes, .mod, .trip, .hearth, .canc, .loads, .diag, .audio, .crust, .hk, .net, .chain, .flash] s t :=
  ⟨_, rfl, State.hostAction_changes ..⟩

theorem execControlMode_changes (m : Nat) (sess : Nat) (data : List Byte) (s : State) :
    ∃ t, execControlMode m sess data s = .next t ∧ Changes [.dev, .active, .staged, .token, .commit, .persist, .table, .sense, .lanes, .mod, .trip, .hearth, .canc, .loads, .diag, .audio, .crust, .hk, .net, .chain, .flash] s t :=
  ⟨_, rfl, State.hostAction_changes ..⟩

theorem execOutputEnable_changes (out : Nat) (sess : Nat) (data : List Byte) (s : State) :
    ∃ t, execOutputEnable out sess data s = .next t ∧ Changes [.dev, .active, .staged, .token, .commit, .persist, .table, .sense, .lanes, .mod, .trip, .hearth, .canc, .loads, .diag, .audio, .crust, .hk, .net, .chain, .flash] s t :=
  ⟨_, rfl, State.hostAction_changes ..⟩

theorem execTripClear_changes (sess : Nat) (data : List Byte) (s : State) :
    ∃ t, execTripClear sess data s = .next t ∧ Changes [.dev, .active, .staged, .token, .commit, .persist, .table, .sense, .lanes, .mod, .trip, .hearth, .canc, .loads, .diag, .audio, .crust, .hk, .net, .chain, .flash] s t :=
  ⟨_, rfl, State.hostAction_changes ..⟩

theorem execDischargeDemand_changes (sess : Nat) (data : List Byte) (s : State) :
    ∃ t, execDischargeDemand sess data s = .next t ∧ Changes [.dev, .active, .staged, .token, .commit, .persist, .table, .sense, .lanes, .mod, .trip, .hearth, .canc, .loads, .diag, .audio, .crust, .hk, .net, .chain, .flash] s t :=
  ⟨_, rfl, State.hostAction_changes ..⟩

theorem execGdlRequestEntry_changes (sess : Nat) (data : List Byte) (s : State) :
    ∃ t, execGdlRequestEntry sess data s = .next t ∧ Changes [.dev, .active, .staged, .token, .commit, .persist, .table, .sense, .lanes, .mod, .trip, .hearth, .canc, .loads, .diag, .audio, .crust, .hk, .net, .chain, .flash] s t :=
  ⟨_, rfl, State.hostAction_changes ..⟩

theorem execGdlSetupRerun_changes (sess : Nat) (data : List Byte) (s : State) :
    ∃ t, execGdlSetupRerun sess data s = .next t ∧ Changes [.dev, .active, .staged, .token, .commit, .persist, .table, .sense, .lanes, .mod, .trip, .hearth, .canc, .loads, .diag, .audio, .crust, .hk, .net, .chain, .flash] s t :=
  ⟨_, rfl, State.hostAction_changes ..⟩

theorem execChimePlay_changes (g : Nat) (sess : Nat) (data : List Byte) (s : State) :
    ∃ t, execChimePlay g sess data s = .next t ∧ Changes [.dev, .active, .staged, .token, .commit, .persist, .table, .sense, .lanes, .mod, .trip, .hearth, .canc, .loads, .diag, .audio, .crust, .hk, .net, .chain, .flash] s t :=
  ⟨_, rfl, State.hostAction_changes ..⟩

theorem execChimeStop_changes (g : Nat) (sess : Nat) (data : List Byte) (s : State) :
    ∃ t, execChimeStop g sess data s = .next t ∧ Changes [.dev, .active, .staged, .token, .commit, .persist, .table, .sense, .lanes, .mod, .trip, .hearth, .canc, .loads, .diag, .audio, .crust, .hk, .net, .chain, .flash] s t :=
  ⟨_, rfl, State.hostAction_changes ..⟩

theorem execIdentificationRequest_changes (sess : Nat) (data : List Byte) (s : State) :
    ∃ t, execIdentificationRequest sess data s = .next t ∧ Changes [.dev, .active, .staged, .token, .commit, .persist, .table, .sense, .lanes, .mod, .trip, .hearth, .canc, .loads, .diag, .audio, .crust, .hk, .net, .chain, .flash] s t :=
  ⟨_, rfl, State.hostAction_changes ..⟩

theorem execAdoptIdentification_changes (sess : Nat) (data : List Byte) (s : State) :
    ∃ t, execAdoptIdentification sess data s = .next t ∧ Changes [.dev, .active, .staged, .token, .commit, .persist, .table, .sense, .lanes, .mod, .trip, .hearth, .canc, .loads, .diag, .audio, .crust, .hk, .net, .chain, .flash] s t :=
  ⟨_, rfl, State.hostAction_changes ..⟩

theorem execTapTestSweep_changes (sess : Nat) (data : List Byte) (s : State) :
    ∃ t, execTapTestSweep sess data s = .next t ∧ Changes [.dev, .active, .staged, .token, .commit, .persist, .table, .sense, .lanes, .mod, .trip, .hearth, .canc, .loads, .diag, .audio, .crust, .hk, .net, .chain, .flash] s t :=
  ⟨_, rfl, State.hostAction_changes ..⟩

theorem execTapTestStandstill_changes (sess : Nat) (data : List Byte) (s : State) :
    ∃ t, execTapTestStandstill sess data s = .next t ∧ Changes [.dev, .active, .staged, .token, .commit, .persist, .table, .sense, .lanes, .mod, .trip, .hearth, .canc, .loads, .diag, .audio, .crust, .hk, .net, .chain, .flash] s t :=
  ⟨_, rfl, State.hostAction_changes ..⟩

theorem execTapTestPhase_changes (sess : Nat) (data : List Byte) (s : State) :
    ∃ t, execTapTestPhase sess data s = .next t ∧ Changes [.dev, .active, .staged, .token, .commit, .persist, .table, .sense, .lanes, .mod, .trip, .hearth, .canc, .loads, .diag, .audio, .crust, .hk, .net, .chain, .flash] s t :=
  ⟨_, rfl, State.hostAction_changes ..⟩

theorem execTapTestSpin_changes (sess : Nat) (data : List Byte) (s : State) :
    ∃ t, execTapTestSpin sess data s = .next t ∧ Changes [.dev, .active, .staged, .token, .commit, .persist, .table, .sense, .lanes, .mod, .trip, .hearth, .canc, .loads, .diag, .audio, .crust, .hk, .net, .chain, .flash] s t :=
  ⟨_, rfl, State.hostAction_changes ..⟩

theorem execTapTestAbort_changes (sess : Nat) (data : List Byte) (s : State) :
    ∃ t, execTapTestAbort sess data s = .next t ∧ Changes [.dev, .active, .staged, .token, .commit, .persist, .table, .sense, .lanes, .mod, .trip, .hearth, .canc, .loads, .diag, .audio, .crust, .hk, .net, .chain, .flash] s t :=
  ⟨_, rfl, State.hostAction_changes ..⟩

theorem execTestSignalStart_changes (sess : Nat) (data : List Byte) (s : State) :
    ∃ t, execTestSignalStart sess data s = .next t ∧ Changes [.dev, .active, .staged, .token, .commit, .persist, .table, .sense, .lanes, .mod, .trip, .hearth, .canc, .loads, .diag, .audio, .crust, .hk, .net, .chain, .flash] s t :=
  ⟨_, rfl, State.hostAction_changes ..⟩

theorem execTestSignalStop_changes (sess : Nat) (data : List Byte) (s : State) :
    ∃ t, execTestSignalStop sess data s = .next t ∧ Changes [.dev, .active, .staged, .token, .commit, .persist, .table, .sense, .lanes, .mod, .trip, .hearth, .canc, .loads, .diag, .audio, .crust, .hk, .net, .chain, .flash] s t :=
  ⟨_, rfl, State.hostAction_changes ..⟩

theorem execCaptureStart_changes (sess : Nat) (data : List Byte) (s : State) :
    ∃ t, execCaptureStart sess data s = .next t ∧ Changes [.dev, .active, .staged, .token, .commit, .persist, .table, .sense, .lanes, .mod, .trip, .hearth, .canc, .loads, .diag, .audio, .crust, .hk, .net, .chain, .flash] s t :=
  ⟨_, rfl, State.hostAction_changes ..⟩

theorem execCaptureStop_changes (sess : Nat) (data : List Byte) (s : State) :
    ∃ t, execCaptureStop sess data s = .next t ∧ Changes [.dev, .active, .staged, .token, .commit, .persist, .table, .sense, .lanes, .mod, .trip, .hearth, .canc, .loads, .diag, .audio, .crust, .hk, .net, .chain, .flash] s t :=
  ⟨_, rfl, State.hostAction_changes ..⟩

theorem execCaptureDiscard_changes (sess : Nat) (data : List Byte) (s : State) :
    ∃ t, execCaptureDiscard sess data s = .next t ∧ Changes [.dev, .active, .staged, .token, .commit, .persist, .table, .sense, .lanes, .mod, .trip, .hearth, .canc, .loads, .diag, .audio, .crust, .hk, .net, .chain, .flash] s t :=
  ⟨_, rfl, State.hostAction_changes ..⟩

theorem execSafeOffTestRequest_changes (sess : Nat) (data : List Byte) (s : State) :
    ∃ t, execSafeOffTestRequest sess data s = .next t ∧ Changes [.dev, .active, .staged, .token, .commit, .persist, .table, .sense, .lanes, .mod, .trip, .hearth, .canc, .loads, .diag, .audio, .crust, .hk, .net, .chain, .flash] s t :=
  ⟨_, rfl, State.hostAction_changes ..⟩

theorem execReadItem_changes (sess idx sub : Nat) (s : State) :
    ∃ t, execReadItem sess idx sub s = .next t ∧ Changes [.dev, .active, .staged, .commit, .persist, .table, .sense, .mod, .trip, .hearth, .canc, .loads, .diag, .audio, .crust, .hk, .net, .chain] s t :=
  ⟨_, rfl, State.hostRead_changes ..⟩

theorem execWriteItem_changes (sess idx sub : Nat) (data : List Byte) (s : State) :
    ∃ t, execWriteItem sess idx sub data s = .next t ∧ Changes [.dev, .active, .staged, .token, .commit, .persist, .table, .sense, .lanes, .mod, .trip, .hearth, .canc, .loads, .diag, .audio, .crust, .hk, .net, .chain, .flash] s t :=
  ⟨_, rfl, State.hostWrite_changes ..⟩

theorem execReadSeg_changes (sess idx sub offset maxLen : Nat) (s : State) :
    ∃ t, execReadSeg sess idx sub offset maxLen s = .next t ∧ Changes [.dev, .active, .staged, .commit, .persist, .table, .sense, .mod, .trip, .hearth, .canc, .loads, .diag, .audio, .crust, .hk, .net, .chain] s t :=
  ⟨_, rfl, State.hostReadSeg_changes ..⟩

theorem execWriteSeg_changes (sess idx sub offset : Nat) (last : Bool) (data : List Byte) (s : State) :
    ∃ t, execWriteSeg sess idx sub offset last data s = .next t ∧ Changes [.dev, .active, .staged, .token, .commit, .persist, .table, .sense, .mod, .trip, .hearth, .canc, .loads, .diag, .audio, .crust, .hk, .net, .chain, .flash] s t :=
  ⟨_, rfl, State.hostWriteSeg_changes ..⟩

theorem execCommitSets_changes (sess : Nat) (data : List Byte) (s : State) :
    ∃ t, execCommitSets sess data s = .next t ∧ Changes [.dev, .active, .staged, .token, .commit, .persist, .table, .sense, .lanes, .mod, .trip, .hearth, .canc, .loads, .diag, .audio, .crust, .hk, .net, .chain, .flash] s t :=
  ⟨_, rfl, State.hostAction_changes ..⟩

theorem execCommitChecksDone_changes (s : State) :
    ∃ t, execCommitChecksDone s = .next t ∧ Changes [.dev, .active, .staged, .token, .commit, .persist, .table, .sense, .mod, .trip, .hearth, .canc, .loads, .diag, .audio, .crust, .hk, .net, .bench, .chain] s t :=
  ⟨_, rfl, State.commitDecided_changes ..⟩

theorem execDiscardStaged_changes (sess : Nat) (data : List Byte) (s : State) :
    ∃ t, execDiscardStaged sess data s = .next t ∧ Changes [.dev, .active, .staged, .token, .commit, .persist, .table, .sense, .lanes, .mod, .trip, .hearth, .canc, .loads, .diag, .audio, .crust, .hk, .net, .chain, .flash] s t :=
  ⟨_, rfl, State.hostAction_changes ..⟩

theorem execSaveGroups_changes (sess : Nat) (data : List Byte) (s : State) :
    ∃ t, execSaveGroups sess data s = .next t ∧ Changes [.dev, .active, .staged, .token, .commit, .persist, .table, .sense, .lanes, .mod, .trip, .hearth, .canc, .loads, .diag, .audio, .crust, .hk, .net, .chain, .flash] s t :=
  ⟨_, rfl, State.hostAction_changes ..⟩

theorem execRestoreDefaults_changes (sess : Nat) (data : List Byte) (s : State) :
    ∃ t, execRestoreDefaults sess data s = .next t ∧ Changes [.dev, .active, .staged, .token, .commit, .persist, .table, .sense, .lanes, .mod, .trip, .hearth, .canc, .loads, .diag, .audio, .crust, .hk, .net, .chain, .flash] s t :=
  ⟨_, rfl, State.hostAction_changes ..⟩

theorem execKeySlotWrite_changes (k : Nat) (sess : Nat) (data : List Byte) (s : State) :
    ∃ t, execKeySlotWrite k sess data s = .next t ∧ Changes [.dev, .active, .staged, .token, .commit, .persist, .table, .sense, .lanes, .mod, .trip, .hearth, .canc, .loads, .diag, .audio, .crust, .hk, .net, .chain, .flash] s t :=
  ⟨_, rfl, State.hostKeySlot_changes ..⟩

theorem execStateRequestReady_changes (sess : Nat) (data : List Byte) (s : State) :
    ∃ t, execStateRequestReady sess data s = .next t ∧ Changes [.dev, .active, .staged, .token, .commit, .persist, .table, .sense, .lanes, .mod, .trip, .hearth, .canc, .loads, .diag, .audio, .crust, .hk, .net, .chain, .flash] s t :=
  ⟨_, rfl, State.hostAction_changes ..⟩

theorem execStateRequestRun_changes (sess : Nat) (data : List Byte) (s : State) :
    ∃ t, execStateRequestRun sess data s = .next t ∧ Changes [.dev, .active, .staged, .token, .commit, .persist, .table, .sense, .lanes, .mod, .trip, .hearth, .canc, .loads, .diag, .audio, .crust, .hk, .net, .chain, .flash] s t :=
  ⟨_, rfl, State.hostAction_changes ..⟩

theorem execStateRequestService_changes (sess : Nat) (data : List Byte) (s : State) :
    ∃ t, execStateRequestService sess data s = .next t ∧ Changes [.dev, .active, .staged, .token, .commit, .persist, .table, .sense, .lanes, .mod, .trip, .hearth, .canc, .loads, .diag, .audio, .crust, .hk, .net, .chain, .flash] s t :=
  ⟨_, rfl, State.hostAction_changes ..⟩

theorem execStateRequestStandby_changes (sess : Nat) (data : List Byte) (s : State) :
    ∃ t, execStateRequestStandby sess data s = .next t ∧ Changes [.dev, .active, .staged, .token, .commit, .persist, .table, .sense, .lanes, .mod, .trip, .hearth, .canc, .loads, .diag, .audio, .crust, .hk, .net, .chain, .flash] s t :=
  ⟨_, rfl, State.hostAction_changes ..⟩

theorem execClearShutdownCause_changes (sess : Nat) (data : List Byte) (s : State) :
    ∃ t, execClearShutdownCause sess data s = .next t ∧ Changes [.dev, .active, .staged, .token, .commit, .persist, .table, .sense, .lanes, .mod, .trip, .hearth, .canc, .loads, .diag, .audio, .crust, .hk, .net, .chain, .flash] s t :=
  ⟨_, rfl, State.hostAction_changes ..⟩

theorem execTwinSwap_changes (sess : Nat) (data : List Byte) (s : State) :
    ∃ t, execTwinSwap sess data s = .next t ∧ Changes [.dev, .active, .staged, .token, .commit, .persist, .table, .sense, .lanes, .mod, .trip, .hearth, .canc, .loads, .diag, .audio, .crust, .hk, .net, .chain, .flash] s t :=
  ⟨_, rfl, State.hostAction_changes ..⟩

theorem execUpdateErase_changes (sess : Nat) (data : List Byte) (s : State) :
    ∃ t, execUpdateErase sess data s = .next t ∧ Changes [.dev, .active, .staged, .token, .commit, .persist, .table, .sense, .lanes, .mod, .trip, .hearth, .canc, .loads, .diag, .audio, .crust, .hk, .net, .chain, .flash] s t :=
  ⟨_, rfl, State.hostAction_changes ..⟩

theorem execUpdateVerify_changes (sess : Nat) (data : List Byte) (s : State) :
    ∃ t, execUpdateVerify sess data s = .next t ∧ Changes [.dev, .active, .staged, .token, .commit, .persist, .table, .sense, .lanes, .mod, .trip, .hearth, .canc, .loads, .diag, .audio, .crust, .hk, .net, .chain, .flash] s t :=
  ⟨_, rfl, State.hostAction_changes ..⟩

theorem execUpdateActivate_changes (sess : Nat) (data : List Byte) (s : State) :
    ∃ t, execUpdateActivate sess data s = .next t ∧ Changes [.dev, .active, .staged, .token, .commit, .persist, .table, .sense, .lanes, .mod, .trip, .hearth, .canc, .loads, .diag, .audio, .crust, .hk, .net, .chain, .flash] s t :=
  ⟨_, rfl, State.hostAction_changes ..⟩

theorem execUpdateConfirm_changes (sess : Nat) (data : List Byte) (s : State) :
    ∃ t, execUpdateConfirm sess data s = .next t ∧ Changes [.dev, .active, .staged, .token, .commit, .persist, .table, .sense, .lanes, .mod, .trip, .hearth, .canc, .loads, .diag, .audio, .crust, .hk, .net, .chain, .flash] s t :=
  ⟨_, rfl, State.hostAction_changes ..⟩

theorem execUpdateAbort_changes (sess : Nat) (data : List Byte) (s : State) :
    ∃ t, execUpdateAbort sess data s = .next t ∧ Changes [.dev, .active, .staged, .token, .commit, .persist, .table, .sense, .lanes, .mod, .trip, .hearth, .canc, .loads, .diag, .audio, .crust, .hk, .net, .chain, .flash] s t :=
  ⟨_, rfl, State.hostAction_changes ..⟩

end Sys2Proof.Machine
end

