-- ==== Sys2Proof/Laws/ModCmds.lean ====
section
/-! SUPPORT. What the modulation commands may change, part by part; and that each command answers a next state. -/

namespace Sys2Proof.Machine

set_option Elab.async false

theorem State.hkTrigger_changes (s : State) :
    Changes [.mod, .hk] s (State.hkTrigger s) := by
  unfold State.hkTrigger
  exact .ite (.refl ..) (Changes.refl _ s).update

theorem State.accEvent_changes (n : Nat) (s : State) :
    Changes [.canc] s (State.accEvent n s) := by
  unfold State.accEvent
  exact .ite (Changes.refl _ s).update (.refl ..)

theorem State.eventFire_changes (k : Nat) (s : State) :
    Changes [.mod, .canc, .diag, .hk] s (State.eventFire k s) := by
  unfold State.eventFire
  repeat' first
    | with_reducible exact .refl .. | with_reducible apply Changes.after (State.captureStrobe_changes ..)
    | with_reducible apply Changes.after (State.hkTrigger_changes ..) | with_reducible apply Changes.after (State.accEvent_changes ..) | extract_lets
    | with_reducible refine Changes.ite ?_ ?_ | with_reducible refine Changes.update ?_ | decide

theorem State.ctcFire_changes (k : Nat) (s : State) :
    Changes [.mod, .hk] s (State.ctcFire k s) := by
  unfold State.ctcFire
  repeat' first
    | with_reducible exact .refl .. | with_reducible apply Changes.after (State.hkTrigger_changes ..) | extract_lets
    | with_reducible refine Changes.ite ?_ ?_ | with_reducible refine Changes.update ?_ | decide

theorem State.carrierPeriod_changes (k : Nat) (s : State) :
    Changes [.mod, .hearth, .loads, .audio, .crust] s (State.carrierPeriod k s) := by
  unfold State.carrierPeriod
  extract_lets b u
  have h : Changes [.mod, .hearth, .loads, .audio, .crust] s u := (State.completeFor_changes ..).mono (by decide)
  exact .ite (.refl ..) h.update

theorem execEventFire_changes (k : Nat) (s : State) :
    ∃ t, execEventFire k s = .next t ∧ Changes [.mod, .canc, .diag, .hk] s t :=
  ⟨_, rfl, .ite (State.eventFire_changes ..) (.refl ..)⟩

theorem execCtcFire_changes (k : Nat) (s : State) :
    ∃ t, execCtcFire k s = .next t ∧ Changes [.mod, .hk] s t :=
  ⟨_, rfl, .ite (State.ctcFire_changes ..) (.refl ..)⟩

theorem execSpeakerCarrierPeriod_changes (k : Nat) (s : State) :
    ∃ t, execSpeakerCarrierPeriod k s = .next t ∧ Changes [.mod, .hearth, .loads, .audio, .crust] s t :=
  ⟨_, rfl, State.carrierPeriod_changes ..⟩

end Sys2Proof.Machine
end

