-- ==== Sys2Proof/Laws/NetCmds.lean ====
section
/-! SUPPORT. What the network commands may change, part by part; and that each command answers a next state. -/

namespace Sys2Proof.Machine

set_option Elab.async false

theorem State.networkRestored_changes (s : State) :
    Changes [.mode, .dev, .staged, .commit, .persist, .table, .ctl, .lanes, .trip, .hearth, .canc, .loads, .diag, .audio, .crust, .fault, .net, .chain, .flash] s (State.networkRestored s) := by
  unfold State.networkRestored
  exact .ite (Changes.refl _ s).update (.refl ..)

theorem State.deliver_changes (n port : Nat) (s : State) :
    Changes [.mode, .dev, .staged, .commit, .persist, .table, .ctl, .lanes, .trip, .hearth, .canc, .loads, .diag, .audio, .crust, .fault, .net, .chain, .flash] s (State.deliver n port s) := by
  unfold State.deliver
  repeat' first
    | with_reducible exact .refl .. | with_reducible assumption | with_reducible apply Changes.after (State.networkRestored_changes ..)
    | extract_lets | with_reducible refine Changes.ite ?_ ?_ | with_reducible refine Changes.foldl ?_ (fun _ _ _ => ?_)
    | with_reducible refine Changes.update ?_ | decide

theorem State.setImage_changes (n : Nat) (f : ImageState → ImageState) (s : State) :
    Changes [.net] s (State.setImage n f s) := by
  unfold State.setImage
  exact (Changes.refl _ s).update

theorem State.applyImage_changes (k n level : Nat) (l : List (Nat × List Byte)) (s : State) :
    Changes [.dev, .active, .staged, .token, .commit, .persist, .table, .sense, .lanes, .mod, .trip, .hearth, .canc, .loads, .diag, .audio, .crust, .hk, .net, .chain, .flash] s (State.applyImage k n level l s) := by
  unfold State.applyImage
  repeat' first
    | with_reducible exact .refl .. | with_reducible assumption | with_reducible apply Changes.after (State.applyPart_changes ..)
    | with_reducible apply Changes.after (State.writeValue_changes ..) | with_reducible apply Changes.after (State.setImage_changes ..)
    | extract_lets | with_reducible refine Changes.foldl ?_ (fun _ _ _ => ?_) | with_reducible refine Changes.update ?_ | decide

theorem State.imageCome_changes (k n seq port : Nat) (data : List Byte) (s : State) :
    Changes [.mode, .dev, .active, .staged, .token, .commit, .persist, .table, .sense, .ctl, .lanes, .mod, .trip, .hearth, .canc, .loads, .diag, .audio, .crust, .fault, .hk, .net, .chain, .flash] s (State.imageCome k n seq port data s) := by
  unfold State.imageCome
  repeat' first
    | with_reducible exact .refl .. | with_reducible apply Changes.after (State.setSession_changes ..)
    | with_reducible apply Changes.after (State.deliver_changes ..) | with_reducible apply Changes.after (State.setImage_changes ..)
    | with_reducible apply Changes.after (State.applyImage_changes ..) | extract_lets | split | with_reducible refine Changes.ite ?_ ?_
    | with_reducible refine Changes.update ?_ | decide

theorem State.timeoutReaction_changes (n : Nat) (s : State) :
    Changes [.staged, .token, .commit] s (State.timeoutReaction n s) := by
  unfold State.timeoutReaction
  repeat' first
    | with_reducible exact .refl .. | with_reducible assumption | with_reducible apply Changes.after (State.acceptWrite_changes ..) | extract_lets
    | split | with_reducible refine Changes.ite ?_ ?_ | with_reducible refine Changes.foldl ?_ (fun _ _ _ => ?_)
    | with_reducible refine Changes.update ?_ | decide

theorem State.imageLate_changes (n : Nat) (s : State) :
    Changes [.mode, .dev, .staged, .token, .commit, .persist, .table, .ctl, .lanes, .trip, .hearth, .canc, .loads, .diag, .audio, .crust, .fault, .net, .chain, .flash] s (State.imageLate n s) := by
  unfold State.imageLate
  repeat' first
    | with_reducible exact .refl .. | with_reducible assumption | with_reducible apply Changes.after (State.raise_changes ..)
    | with_reducible apply Changes.after (State.setImage_changes ..) | with_reducible apply Changes.after (State.timeoutReaction_changes ..)
    | extract_lets | with_reducible refine Changes.ite ?_ ?_ | with_reducible refine Changes.foldl ?_ (fun _ _ _ => ?_)
    | with_reducible refine Changes.update ?_ | decide

theorem State.duplicateFrame_changes (f : RxFrame) (iface : Nat) (s : State) :
    Changes [.mode, .dev, .staged, .commit, .persist, .table, .ctl, .lanes, .trip, .hearth, .canc, .loads, .diag, .audio, .crust, .fault, .net, .chain, .flash] s (State.duplicateFrame f iface s) := by
  unfold State.duplicateFrame
  repeat' first
    | with_reducible exact .refl .. | with_reducible apply Changes.after (State.deliver_changes ..) | extract_lets | split
    | with_reducible refine Changes.ite ?_ ?_ | with_reducible refine Changes.update ?_ | decide

theorem State.enqueue_changes (k : Nat) (f : RxFrame) (seq : Nat) (p : Packet) (s : State) :
    Changes [.dev, .active, .staged, .commit, .persist, .table, .sense, .mod, .trip, .hearth, .canc, .loads, .diag, .audio, .crust, .hk, .net, .chain] s (State.enqueue k f seq p s) := by
  unfold State.enqueue
  repeat' first
    | with_reducible exact .refl .. | with_reducible assumption | with_reducible apply Changes.after (State.setSession_changes ..)
    | with_reducible apply Changes.after (State.noteAbort_changes ..) | with_reducible apply Changes.after (State.settleAll_changes ..)
    | extract_lets | split | with_reducible refine Changes.ite ?_ ?_ | with_reducible refine Changes.foldl ?_ (fun _ _ _ => ?_)
    | with_reducible refine Changes.update ?_ | decide

theorem State.checkFrame_changes (k : Nat) (x : Session) (f : RxFrame) (p : Packet) (s : State) :
    Changes [.mode, .dev, .active, .staged, .commit, .persist, .table, .sense, .ctl, .lanes, .mod, .trip, .hearth, .canc, .loads, .diag, .audio, .crust, .fault, .hk, .net, .chain, .flash] s (State.checkFrame k x f p s) := by
  unfold State.checkFrame
  repeat' first
    | with_reducible exact .refl .. | with_reducible apply Changes.after (State.frameAbort_changes ..)
    | with_reducible apply Changes.after (State.duplicateFrame_changes ..) | with_reducible apply Changes.after (State.enqueue_changes ..)
    | extract_lets | with_reducible refine Changes.ite ?_ ?_ | with_reducible refine Changes.update ?_ | decide

theorem State.noteOpening_changes (f : RxFrame) (i : YItem) (p : Packet) (s : State) :
    Changes [.net] s (State.noteOpening f i p s) := by
  unfold State.noteOpening
  exact (Changes.refl _ s).update

theorem State.strangeFrame_changes (f : RxFrame) (p : Packet) (s : State) :
    Changes [.table, .net] s (State.strangeFrame f p s) := by
  unfold State.strangeFrame
  repeat' first
    | with_reducible exact .refl .. | with_reducible apply Changes.after (State.frameAbort_changes ..)
    | with_reducible apply Changes.after (State.noteOpening_changes ..) | extract_lets | split | with_reducible refine Changes.ite ?_ ?_
    | with_reducible refine Changes.update ?_ | decide

theorem State.parsedFrame_changes (f : RxFrame) (p : Packet) (s : State) :
    Changes [.mode, .dev, .active, .staged, .commit, .persist, .table, .sense, .ctl, .lanes, .mod, .trip, .hearth, .canc, .loads, .diag, .audio, .crust, .fault, .hk, .net, .chain, .flash] s (State.parsedFrame f p s) := by
  unfold State.parsedFrame
  dsimp only
  refine Changes.ite ((Changes.refl _ s).update) ?_
  split
  · exact (State.checkFrame_changes ..).mono (by decide)
  · exact (State.strangeFrame_changes ..).mono (by decide)

theorem State.notSupported_changes (s : State) : Changes [.net] s (State.notSupported s) := (Changes.refl _ s).update

theorem State.counted_changes (s : State) : Changes [.net] s (State.counted s) := (Changes.refl _ s).update

theorem State.takeYoap_changes (p : Packet) (bytes : List Byte) (s : State) :
    Changes [.mode, .dev, .active, .staged, .commit, .persist, .table, .sense, .ctl, .lanes, .mod, .trip, .hearth, .canc, .loads, .diag, .audio, .crust, .fault, .hk, .net, .chain, .flash] s (State.takeYoap p bytes s) := by
  unfold State.takeYoap
  refine Changes.ite ((Changes.refl _ s).update) ?_
  split
  · exact (Changes.refl _ s).update
  · exact State.parsedFrame_changes ..

theorem State.yoapFrame_changes (p : Packet) (bytes : List Byte) (s : State) :
    Changes [.mode, .dev, .active, .staged, .commit, .persist, .table, .sense, .ctl, .lanes, .mod, .trip, .hearth, .canc, .loads, .diag, .audio, .crust, .fault, .hk, .net, .chain, .flash] s (State.yoapFrame p bytes s) := by
  unfold State.yoapFrame
  extract_lets u
  have h : Changes [.mode, .dev, .active, .staged, .commit, .persist, .table, .sense, .ctl, .lanes, .mod, .trip, .hearth, .canc, .loads, .diag, .audio, .crust, .fault, .hk, .net, .chain, .flash] s u := (State.fresh_changes s).mono (by decide)
  refine Changes.ite (.refl ..) ?_
  split
  · exact h
  · exact .after (State.notSupported_changes _) (.after (State.counted_changes _) h (by decide)) (by decide)
  · exact .after (State.takeYoap_changes ..) (.after (State.counted_changes _) h (by decide)) (List.Subset.refl _)

theorem State.openDone_changes (o : Opening) (s : State) :
    Changes [.dev, .table, .net] s (State.openDone o s) := by
  unfold State.openDone
  repeat' first
    | with_reducible exact .refl .. | with_reducible apply Changes.after (State.closeSession_changes ..)
    | with_reducible apply Changes.after (State.noteAbort_changes ..) | with_reducible apply Changes.after (State.send_changes ..)
    | with_reducible apply Changes.after (State.fresh_changes ..) | extract_lets | split | with_reducible refine Changes.ite ?_ ?_
    | with_reducible refine Changes.update ?_ | decide

theorem State.plainItem_changes (op k : Nat) (s : State) :
    Changes [.dev, .active, .staged, .commit, .persist, .table, .sense, .mod, .trip, .hearth, .canc, .loads, .diag, .audio, .crust, .hk, .net, .chain] s (State.plainItem op k s) := by
  unfold State.plainItem
  repeat' first
    | with_reducible exact .refl .. | with_reducible apply Changes.after (State.answer_changes ..)
    | with_reducible apply Changes.after (State.fresh_changes ..) | extract_lets | split | with_reducible refine Changes.ite ?_ ?_
    | with_reducible refine Changes.update ?_ | decide

theorem State.imageItem_changes (k n seq : Nat) (p : Packet) (data : List Byte) (s : State) :
    Changes [.mode, .dev, .active, .staged, .token, .commit, .persist, .table, .sense, .ctl, .lanes, .mod, .trip, .hearth, .canc, .loads, .diag, .audio, .crust, .fault, .hk, .net, .chain, .flash] s (State.imageItem k n seq p data s) := by
  unfold State.imageItem
  repeat' first
    | with_reducible exact .refl .. | with_reducible apply Changes.after (State.unanswered_changes ..)
    | with_reducible apply Changes.after (State.fresh_changes ..) | with_reducible apply Changes.after (State.imageCome_changes ..) | extract_lets
    | split | with_reducible refine Changes.ite ?_ ?_ | with_reducible refine Changes.update ?_ | decide

theorem State.idleOut_changes (k : Nat) (s : State) :
    Changes [.dev, .table, .net] s (State.idleOut k s) := by
  unfold State.idleOut
  repeat' first
    | with_reducible exact .refl .. | with_reducible apply Changes.after (State.closeSession_changes ..) | extract_lets | split
    | with_reducible refine Changes.ite ?_ ?_ | with_reducible refine Changes.update ?_ | decide

theorem State.transferOut_changes (key : Nat) (s : State) :
    Changes [.table] s (State.transferOut key s) := by
  unfold State.transferOut
  exact (Changes.refl _ s).update

theorem State.takePlain_changes (p : Packet) (s : State) :
    Changes [.net] s (State.takePlain p s).1 := by
  have h : Changes [.net] s (State.counted (State.fresh s)) := .after (State.counted_changes _) (State.fresh_changes s) (by decide)
  exact h.update

theorem State.arp_changes (p : Packet) (ip : Nat) (sender : List Byte) (s : State) :
    Changes [.net] s (State.arp p ip sender s) := by
  unfold State.arp
  refine Changes.ite (.refl ..) ?_
  split
  · exact .refl ..
  · exact .after (State.notSupported_changes _) (.after (State.counted_changes _) (State.fresh_changes s) (by decide)) (by decide)
  · exact .ite (.after (State.send_changes ..) (State.takePlain_changes ..) (by decide)) (State.takePlain_changes ..)

theorem State.echo_changes (p : Packet) (payload : List Byte) (s : State) :
    Changes [.net] s (State.echo p payload s) := by
  unfold State.echo
  have h : Changes [.net] s (State.notSupported (State.counted (State.fresh s))) :=
    .after (State.notSupported_changes _) (.after (State.counted_changes _) (State.fresh_changes s) (by decide)) (by decide)
  refine Changes.ite (.refl ..) ?_
  split
  · exact .ite (State.takePlain_changes ..) (.ite (.after (State.notSupported_changes _) (State.takePlain_changes ..) (by decide))
      (.after (State.send_changes ..) (State.takePlain_changes ..) (by decide)))
  · exact h
  · exact h
  · exact .refl ..

theorem State.learn_changes (mac port : Nat) (s : State) :
    Changes [.net] s (State.learn mac port s) := by
  unfold State.learn
  exact .ite (.refl ..) (Changes.refl _ s).update

theorem State.forward_changes (f : EthFrame) (s : State) :
    Changes [.net] s (State.forward f s) := by
  unfold State.forward
  repeat' first
    | with_reducible exact .refl .. | with_reducible assumption | with_reducible apply Changes.after (State.send_changes ..)
    | with_reducible apply Changes.after (State.fresh_changes ..) | with_reducible apply Changes.after (State.learn_changes ..) | extract_lets
    | with_reducible refine Changes.ite ?_ ?_ | with_reducible refine Changes.foldl ?_ (fun _ _ _ => ?_) | with_reducible refine Changes.update ?_
    | decide

theorem State.forget_changes (mac : Nat) (s : State) :
    Changes [.net] s (State.forget mac s) := by
  unfold State.forget
  exact (Changes.refl _ s).update

theorem State.linkDown_changes (port : Nat) (s : State) :
    Changes [.mode, .dev, .staged, .commit, .persist, .table, .ctl, .lanes, .trip, .hearth, .canc, .loads, .diag, .audio, .crust, .fault, .net, .chain, .flash] s (State.linkDown port s) := by
  unfold State.linkDown
  repeat' first
    | with_reducible exact .refl .. | with_reducible apply Changes.after (State.raise_changes ..) | extract_lets
    | with_reducible refine Changes.ite ?_ ?_ | with_reducible refine Changes.update ?_ | decide

theorem State.linkUpSgmii_changes (port : Nat) (s : State) :
    Changes [.mode, .dev, .staged, .commit, .persist, .table, .ctl, .lanes, .trip, .hearth, .canc, .loads, .diag, .audio, .crust, .fault, .net, .chain, .flash] s (State.linkUpSgmii port s) := by
  unfold State.linkUpSgmii
  repeat' first
    | with_reducible exact .refl .. | with_reducible apply Changes.after (State.networkRestored_changes ..) | extract_lets
    | with_reducible refine Changes.ite ?_ ?_ | with_reducible refine Changes.update ?_ | decide

theorem State.gptpFrame_changes {ps : List Part} (port backlog : Nat) (take : State → State) (s : State) (ht : ∀ u, Changes ps u (take u))
    (hp : [.net] ⊆ ps) : Changes ps s (State.gptpFrame port backlog take s) := by
  have h : Changes ps s (State.counted s) := (State.counted_changes s).mono hp
  have h2 : Changes ps s { State.counted s with net := (State.counted s).net.dropAt 2 } := h.trans (.mono (Changes.refl [.net] _).update hp)
  exact .ite (.refl ..) (.ite (.after (State.notSupported_changes _) h hp) (.ite h2 (h.trans (ht _))))

theorem State.sync_changes (port domain origin correction interval : Nat) (rate : Int) (s : State) :
    Changes [.frame, .net] s (State.sync port domain origin correction interval rate s) := by
  unfold State.sync
  exact .ite (.refl ..) (Changes.refl _ s).update

theorem State.syncLost_changes (s : State) :
    Changes [.net] s (State.syncLost s) := by
  unfold State.syncLost
  repeat' first
    | with_reducible exact .refl .. | extract_lets | split | with_reducible refine Changes.ite ?_ ?_ | with_reducible refine Changes.update ?_

theorem State.pdelayAsked_changes (port : Nat) (body : List Byte) (s : State) :
    Changes [.net] s (State.pdelayAsked port body s) := by
  unfold State.pdelayAsked
  exact .after (State.send_changes ..) (State.fresh_changes ..) (by decide)

theorem State.pdelayCome_changes (port t1 t2 t3 t4 : Nat) (s : State) :
    Changes [.net] s (State.pdelayCome port t1 t2 t3 t4 s) := by
  unfold State.pdelayCome
  exact .ite (.refl ..) (Changes.refl _ s).update

theorem State.busOff_changes (n : Nat) (s : State) :
    Changes [.net] s (State.busOff n s) := by
  unfold State.busOff
  exact .ite (Changes.refl _ s).update (.refl ..)

theorem State.busOn_changes (n : Nat) (s : State) :
    Changes [.net] s (State.busOn n s) := by
  unfold State.busOn
  exact (Changes.refl _ s).update

theorem execYoapFrame_changes (p : Packet) (bytes : List Byte) (s : State) :
    ∃ t, execYoapFrame p bytes s = .next t ∧ Changes [.mode, .dev, .active, .staged, .commit, .persist, .table, .sense, .ctl, .lanes, .mod, .trip, .hearth, .canc, .loads, .diag, .audio, .crust, .fault, .hk, .net, .chain, .flash] s t :=
  ⟨_, rfl, State.yoapFrame_changes ..⟩

theorem execOpenSession_changes (p : Packet) (slot nonce : Nat) (s : State) :
    ∃ t, execOpenSession p slot nonce s = .next t ∧ Changes [.dev, .table, .net] s t := by
  refine ⟨_, rfl, ?_⟩
  repeat' first
    | with_reducible exact .refl .. | with_reducible apply Changes.after (State.openDone_changes ..) | extract_lets | split
    | with_reducible refine Changes.update ?_ | decide

theorem execCloseSession_changes (sess : Nat) (s : State) :
    ∃ t, execCloseSession sess s = .next t ∧ Changes [.dev, .active, .staged, .commit, .persist, .table, .sense, .mod, .trip, .hearth, .canc, .loads, .diag, .audio, .crust, .hk, .net, .chain] s t :=
  ⟨_, rfl, State.plainItem_changes ..⟩

theorem execNopItem_changes (sess : Nat) (s : State) :
    ∃ t, execNopItem sess s = .next t ∧ Changes [.dev, .active, .staged, .commit, .persist, .table, .sense, .mod, .trip, .hearth, .canc, .loads, .diag, .audio, .crust, .hk, .net, .chain] s t :=
  ⟨_, rfl, State.plainItem_changes ..⟩

theorem execImageItem_changes (sess n : Nat) (p : Packet) (seq : Nat) (data : List Byte) (s : State) :
    ∃ t, execImageItem sess n p seq data s = .next t ∧ Changes [.mode, .dev, .active, .staged, .token, .commit, .persist, .table, .sense, .ctl, .lanes, .mod, .trip, .hearth, .canc, .loads, .diag, .audio, .crust, .fault, .hk, .net, .chain, .flash] s t :=
  ⟨_, rfl, State.imageItem_changes ..⟩

theorem execBlobTransferTimeout_changes (idx sub : Nat) (s : State) :
    ∃ t, execBlobTransferTimeout idx sub s = .next t ∧ Changes [.table] s t :=
  ⟨_, rfl, State.transferOut_changes ..⟩

theorem execSessionIdleTimeout_changes (sess : Nat) (s : State) :
    ∃ t, execSessionIdleTimeout sess s = .next t ∧ Changes [.dev, .table, .net] s t :=
  ⟨_, rfl, State.idleOut_changes ..⟩

theorem execImageTimeout_changes (n : Nat) (s : State) :
    ∃ t, execImageTimeout n s = .next t ∧ Changes [.mode, .dev, .staged, .token, .commit, .persist, .table, .ctl, .lanes, .trip, .hearth, .canc, .loads, .diag, .audio, .crust, .fault, .net, .chain, .flash] s t :=
  ⟨_, rfl, State.imageLate_changes ..⟩

theorem execArpRequest_changes (p : Packet) (ip : Nat) (sender : List Byte) (s : State) :
    ∃ t, execArpRequest p ip sender s = .next t ∧ Changes [.net] s t :=
  ⟨_, rfl, State.arp_changes ..⟩

theorem execIcmpEcho_changes (p : Packet) (payload : List Byte) (s : State) :
    ∃ t, execIcmpEcho p payload s = .next t ∧ Changes [.net] s t :=
  ⟨_, rfl, State.echo_changes ..⟩

theorem execFrameForward_changes (f : EthFrame) (s : State) :
    ∃ t, execFrameForward f s = .next t ∧ Changes [.net] s t :=
  ⟨_, rfl, State.forward_changes ..⟩

theorem execSgmiiLinkDown_changes (port : Nat) (s : State) :
    ∃ t, execSgmiiLinkDown port s = .next t ∧ Changes [.mode, .dev, .staged, .commit, .persist, .table, .ctl, .lanes, .trip, .hearth, .canc, .loads, .diag, .audio, .crust, .fault, .net, .chain, .flash] s t :=
  ⟨_, rfl, State.linkDown_changes ..⟩

theorem execSgmiiLinkUp_changes (port : Nat) (s : State) :
    ∃ t, execSgmiiLinkUp port s = .next t ∧ Changes [.mode, .dev, .staged, .commit, .persist, .table, .ctl, .lanes, .trip, .hearth, .canc, .loads, .diag, .audio, .crust, .fault, .net, .chain, .flash] s t :=
  ⟨_, rfl, State.linkUpSgmii_changes ..⟩

theorem execGptpSync_changes (port backlog domain origin correction interval : Nat) (rate : Int) (s : State) :
    ∃ t, execGptpSync port backlog domain origin correction interval rate s = .next t ∧ Changes [.frame, .net] s t :=
  ⟨_, rfl, State.gptpFrame_changes _ _ _ _ (fun _ => State.sync_changes ..) (by decide)⟩

theorem execPdelayRequest_changes (port backlog : Nat) (body : List Byte) (s : State) :
    ∃ t, execPdelayRequest port backlog body s = .next t ∧ Changes [.net] s t :=
  ⟨_, rfl, State.gptpFrame_changes _ _ _ _ (fun _ => State.pdelayAsked_changes ..) (by decide)⟩

theorem execPdelayResponse_changes (port backlog t1 t2 t3 t4 : Nat) (s : State) :
    ∃ t, execPdelayResponse port backlog t1 t2 t3 t4 s = .next t ∧ Changes [.net] s t :=
  ⟨_, rfl, State.gptpFrame_changes _ _ _ _ (fun _ => State.pdelayCome_changes ..) (by decide)⟩

theorem execGptpLoss_changes (s : State) :
    ∃ t, execGptpLoss s = .next t ∧ Changes [.net] s t :=
  ⟨_, rfl, State.syncLost_changes ..⟩

theorem execCanBusOff_changes (n : Nat) (s : State) :
    ∃ t, execCanBusOff n s = .next t ∧ Changes [.net] s t :=
  ⟨_, rfl, State.busOff_changes ..⟩

theorem execCanBusOffRecovery_changes (n : Nat) (s : State) :
    ∃ t, execCanBusOffRecovery n s = .next t ∧ Changes [.net] s t :=
  ⟨_, rfl, State.busOn_changes ..⟩

theorem execLearningTableAgeing_changes (mac : Nat) (s : State) :
    ∃ t, execLearningTableAgeing mac s = .next t ∧ Changes [.net] s t :=
  ⟨_, rfl, State.forget_changes ..⟩

end Sys2Proof.Machine
end

