-- ==== Sys2Proof/Laws/ProofCmds.lean ====
section
/-! SUPPORT. What the PROOFING command may change, part by part; and that each command answers a next state. -/

namespace Sys2Proof.Machine

set_option Elab.async false

theorem State.proofLanes_changes (failed : Nat) (s : State) :
    Changes [.mode, .dev, .staged, .commit, .persist, .table, .ctl, .lanes, .trip, .hearth, .canc, .loads, .diag, .audio, .crust, .fault, .net, .chain, .flash] s (State.proofLanes failed s) := by
  unfold State.proofLanes
  repeat' first
    | with_reducible exact .refl .. | with_reducible apply Changes.after (State.raiseAll_changes ..) | extract_lets
    | with_reducible refine Changes.ite ?_ ?_ | with_reducible refine Changes.update ?_ | decide

theorem State.zeroPath_changes (sd : Nat) (avg : Rat) (s : State) :
    Changes [.mode, .dev, .staged, .commit, .persist, .table, .sense, .ctl, .lanes, .trip, .hearth, .canc, .loads, .diag, .audio, .crust, .fault, .net, .chain, .flash] s (State.zeroPath sd avg s) := by
  unfold State.zeroPath
  repeat' first
    | with_reducible exact .refl .. | with_reducible apply Changes.after (State.raise_changes ..)
    | with_reducible apply Changes.after (State.raiseAll_changes ..) | extract_lets | with_reducible refine Changes.ite ?_ ?_
    | with_reducible refine Changes.update ?_ | decide

theorem State.zeroCheck_changes (avgs : List Rat) (s : State) :
    Changes [.mode, .dev, .staged, .commit, .persist, .table, .sense, .ctl, .lanes, .trip, .hearth, .canc, .loads, .diag, .audio, .crust, .fault, .net, .chain, .flash] s (State.zeroCheck avgs s) := by
  unfold State.zeroCheck
  repeat' first
    | with_reducible exact .refl .. | with_reducible assumption | with_reducible apply Changes.after (State.zeroPath_changes ..)
    | with_reducible refine Changes.foldl ?_ (fun _ _ _ => ?_) | with_reducible refine Changes.update ?_ | decide

theorem State.queueTaps_changes (l : List Nat) (s : State) :
    Changes [.dev, .diag] s (State.queueTaps l s) := by
  unfold State.queueTaps
  exact (Changes.refl _ s).update

theorem State.markStep_changes (n : Nat) (failed : Bool) (s : State) :
    Changes [.dev] s (State.markStep n failed s) := by
  unfold State.markStep
  exact (Changes.refl _ s).update

theorem State.startStep_changes (n : Nat) (s : State) :
    Changes [.dev, .frame, .trip, .canc, .diag, .crust, .flash] s (State.startStep n s) := by
  unfold State.startStep
  repeat' first
    | with_reducible exact .refl .. | with_reducible apply Changes.after (State.gdlSource_changes ..)
    | with_reducible apply Changes.after (State.linkSetup_changes ..) | with_reducible apply Changes.after (State.startTimebase_changes ..)
    | with_reducible apply Changes.after (State.soffTest_changes ..) | with_reducible apply Changes.after (State.queueTaps_changes ..) | extract_lets
    | split | with_reducible refine Changes.update ?_ | decide

theorem State.nextStep_changes (n : Nat) (s : State) :
    Changes [.dev, .frame, .trip, .canc, .diag, .crust, .flash] s (State.nextStep n s) := by
  unfold State.nextStep
  repeat' first
    | with_reducible exact .refl .. | with_reducible apply Changes.after (State.startStep_changes ..) | extract_lets
    | with_reducible refine Changes.ite ?_ ?_ | with_reducible refine Changes.update ?_ | decide

theorem State.readbackDone_changes (s : State) :
    Changes [.dev, .frame, .trip, .canc, .diag, .crust, .flash] s (State.readbackDone s) := by
  unfold State.readbackDone
  repeat' first
    | with_reducible exact .refl .. | with_reducible apply Changes.after (State.markStep_changes ..)
    | with_reducible apply Changes.after (State.nextStep_changes ..) | extract_lets | with_reducible refine Changes.ite ?_ ?_
    | with_reducible refine Changes.update ?_ | decide

theorem State.stepDone_changes (r : ProofResult) (s : State) :
    Changes [.mode, .dev, .frame, .staged, .commit, .persist, .table, .sense, .ctl, .lanes, .trip, .hearth, .canc, .loads, .diag, .audio, .crust, .fault, .net, .chain, .flash] s (State.stepDone r s) := by
  unfold State.stepDone
  repeat' first
    | with_reducible exact .refl .. | with_reducible apply Changes.after (State.calibrate_changes ..)
    | with_reducible apply Changes.after (State.proofLanes_changes ..) | with_reducible apply Changes.after (State.zeroCheck_changes ..)
    | with_reducible apply Changes.after (State.markStep_changes ..) | with_reducible apply Changes.after (State.nextStep_changes ..)
    | with_reducible apply Changes.after (State.readbackDone_changes ..) | extract_lets | split | with_reducible refine Changes.ite ?_ ?_
    | with_reducible refine Changes.update ?_ | decide

theorem execProofingStepDone_changes (r : ProofResult) (s : State) :
    ∃ t, execProofingStepDone r s = .next t ∧ Changes [.mode, .dev, .frame, .staged, .commit, .persist, .table, .sense, .ctl, .lanes, .trip, .hearth, .canc, .loads, .diag, .audio, .crust, .fault, .net, .chain, .flash] s t :=
  ⟨_, rfl, .ite (State.stepDone_changes ..) (.refl ..)⟩

end Sys2Proof.Machine
end

