-- ==== Sys2Proof/Laws/Reports.lean ====
section
/-! SUPPORT. How claims of the form "these parts change, and faults are reported" compose, and what a fault report does. -/

namespace Sys2Proof.Machine

set_option Elab.async false

namespace Reports

/-- A change that leaves the device state alone. -/
theorem of {ps qs : List Part} {s t : State} (h : Changes qs s t) (hs : qs ⊆ .fault :: .flash :: ps := by decide) (hm : .mode ∉ qs := by decide) :
    Reports ps s t :=
  ⟨h.mono (fun p hp => by
      rcases List.mem_cons.1 (hs hp) with a | a
      · exact List.mem_append_left _ (a ▸ by decide)
      · rcases List.mem_cons.1 a with a | a
        · exact List.mem_append_left _ (a ▸ by decide)
        · exact List.mem_append_right _ a),
    .inl (h.same .mode hm), fun _ => h.mono hs⟩

theorem refl (ps : List Part) (s : State) : Reports ps s s := .of (Changes.refl [] s) (List.nil_subset _) (by decide)

theorem trans {ps : List Part} {s t u : State} (h : Reports ps s t) (k : Reports ps t u) : Reports ps s u := by
  refine ⟨h.parts.trans k.parts, ?_, fun e => ?_⟩
  · rcases h.mode with a | ⟨a, b⟩ <;> rcases k.mode with c | ⟨c, d⟩
    · exact .inl (c.trans a)
    · exact .inr ⟨c, a ▸ d⟩
    · exact .inr ⟨c.trans a, b⟩
    · exact .inr ⟨c, b⟩
  · have m : t.dev.state = s.dev.state := by
      rcases h.mode with a | ⟨a, _⟩
      · exact a
      · rcases k.mode with c | ⟨c, _⟩
        · exact c.symm.trans e
        · rw [a, ← c]; exact e
    exact (h.calm m).trans (k.calm (e.trans m.symm))

theorem mono {ps qs : List Part} {s t : State} (h : Reports ps s t) (hs : ps ⊆ qs := by decide) : Reports qs s t :=
  ⟨h.parts.mono (fun p hp => by
      rcases List.mem_append.1 hp with a | a
      · exact List.mem_append_left _ a
      · exact List.mem_append_right _ (hs a)),
    h.mode, fun e => (h.calm e).mono (fun p hp => by
      rcases List.mem_cons.1 hp with a | a
      · exact List.mem_cons.2 (.inl a)
      · rcases List.mem_cons.1 a with a | a
        · exact List.mem_cons.2 (.inr (List.mem_cons.2 (.inl a)))
        · exact List.mem_cons.2 (.inr (List.mem_cons.2 (.inr (hs a)))))⟩

/-- A change that leaves the device state alone follows a report. -/
theorem change {ps qs : List Part} {s t u : State} (k : Changes qs t u) (h : Reports ps s t) (hs : qs ⊆ .fault :: .flash :: ps) (hm : .mode ∉ qs) :
    Reports ps s u := h.trans (of k hs hm)

/-- A report follows a report. -/
theorem report {ps qs : List Part} {s t u : State} (k : Reports qs t u) (h : Reports ps s t) (hs : qs ⊆ ps) : Reports ps s u := h.trans (k.mono hs)

theorem ite {ps : List Part} {s t u : State} {c : Prop} [Decidable c] (h : Reports ps s t) (k : Reports ps s u) : Reports ps s (if c then t else u) := by
  split
  · exact h
  · exact k

theorem foldl {α : Type} {ps : List Part} {s t : State} {f : State → α → State} {l : List α} (h : Reports ps s t)
    (k : ∀ x u, Reports ps u (f u x)) : Reports ps s (l.foldl f t) := by
  induction l generalizing t with
  | nil => exact h
  | cons x l ih => exact ih (h.trans (k x t))

end Reports

/-- A transition ends in the state that it names. -/
theorem State.goState_state (dst cause : Nat) (own : Bool) (s : State) : (State.goState dst cause own s).dev.state = dst :=
  (State.tapLog_changes _ _).same .mode (by decide)

/-- Where BEDROCK can be entered and has not been, its cause takes the device there. -/
theorem State.enterBedrock_state (cause group : Nat) (byVote : Bool) (s : State) (h : s.dev.state ≠ 7) (u : s.up = true) :
    (State.enterBedrock cause group byVote s).dev.state = 7 := by
  unfold State.enterBedrock
  extract_lets word hard s1 src s2 s3 s4 s5 s6 s7
  rw [if_neg h, if_neg (by simp [u])]
  have k : Changes [.dev, .fault, .table, .net, .flash, .trip, .crust] s4 (if hard then s7.hardStates else s7) := by
    refine .ite (.after (State.hardStates_changes _) ?_ (by decide)) ?_ <;>
    exact .after (State.logEvent_changes ..) (.after (State.closeSessions_changes ..) (.after (State.retainBedrock_changes ..)
      (Changes.refl _ s4).update (by decide)) (by decide)) (by decide)
  exact (k.same .mode (by decide)).trans (State.goState_state ..)

theorem State.enterBedrock_reports (cause group : Nat) (byVote : Bool) (s : State) : Reports [] s (State.enterBedrock cause group byVote s) := by
  by_cases h : s.dev.state = 7
  · unfold State.enterBedrock
    rw [if_pos h]
    refine ⟨(State.logEvent_changes ..).mono (by decide), .inl ((State.logEvent_changes ..).same .mode (by decide)), fun _ => (State.logEvent_changes ..).mono (by decide)⟩
  · by_cases u : s.up = true
    · have e := State.enterBedrock_state cause group byVote s h u
      have g : 3 ≤ s.dev.state := by
        simp only [State.up, Bool.and_eq_true, decide_eq_true_eq] at u
        exact u.2
      exact ⟨(State.enterBedrock_changes ..).mono (by decide), .inr ⟨e, g⟩, fun c => absurd (c.symm.trans e) h⟩
    · unfold State.enterBedrock
      rw [if_neg h, if_pos (by simpa using u)]
      exact .refl ..

theorem State.singleFault_reports (code group detail : Nat) (s : State) : Reports [] s (State.singleFault code group detail s) := by
  unfold State.singleFault
  extract_lets second s1 s2
  have a : Changes [.fault, .flash] s s1 := (Changes.refl _ s).update
  have c : Changes [.fault, .flash] s s2 := .ite a (.after (State.logEvent_changes ..) a (by decide))
  have d : Reports [] s s2 := ⟨c.mono (by decide), .inl (c.same .mode (by decide)), fun _ => c.mono (by decide)⟩
  exact .ite (d.trans (State.enterBedrock_reports ..)) d

theorem State.raise_reports (g : Signal) (s : State) : Reports [] s (State.raise g s) := by
  unfold State.raise
  split
  · exact State.singleFault_reports ..
  · exact State.enterBedrock_reports ..
  · exact State.enterBedrock_reports ..
  · have a : Changes [.fault] s { s with fault := s.fault.restore ‹_› } := (Changes.refl _ s).update
    exact ⟨a.mono (by decide), .inl rfl, fun _ => a.mono (by decide)⟩

theorem State.raiseAll_reports (l : List Signal) (s : State) : Reports [] s (State.raiseAll l s) :=
  .foldl (.refl ..) (fun g u => State.raise_reports g u)

end Sys2Proof.Machine
end

