-- ==== Sys2Proof/Laws/ReportsCmds.lean ====
section
/-! SUPPORT. For each function that may report a fault, what it changes beside: of these functions, only the report itself can change the device state. -/

namespace Sys2Proof.Machine

set_option Elab.async false

theorem State.repairStore_reports (s : State) :
    Reports [.active] s (State.repairStore s) := by
  unfold State.repairStore
  extract_lets a b u
  have h : Reports [.active] s u := .report (State.raise_reports ..) (.of (Changes.refl [.active] s).update) (by decide)
  exact .ite (.refl ..) (.ite h (.report (State.raise_reports ..) h (by decide)))

theorem State.laneStart_reports (s : State) :
    Reports [.active, .sense, .ctl, .lanes, .loads, .diag, .chain] s (State.laneStart s) := by
  unfold State.laneStart
  extract_lets u m1 v w c e0 e1 r spk go a b skip
  have hu : Reports [.active, .sense, .ctl, .lanes, .loads, .diag, .chain] s u := (State.repairStore_reports s).mono
  have hv : Reports [.active, .sense, .ctl, .lanes, .loads, .diag, .chain] s v := .change (State.latchMachine_changes ..) hu (by decide) (by decide)
  have hw : Reports [.active, .sense, .ctl, .lanes, .loads, .diag, .chain] s w := .ite (.change (State.latchMachine_changes ..) hv (by decide) (by decide))
    (.change (Changes.refl [.ctl] v).update hv (by decide) (by decide))
  exact .ite (.refl ..) (.ite hu (.change (Changes.refl [.lanes] w).update hw (by decide) (by decide)))

theorem State.vote_reports (copies : Bool) (s : State) :
    Reports [.dev, .ctl, .lanes, .mod, .trip, .canc, .loads, .diag, .crust] s (State.vote copies s) := by
  unfold State.vote
  repeat' first
    | with_reducible exact .refl .. | with_reducible apply Reports.report (State.raise_reports ..)
    | with_reducible apply Reports.report (State.raiseAll_reports ..) | with_reducible apply Reports.change (State.voteUse_changes ..)
    | with_reducible apply Reports.change (State.voteEnds_changes ..) | extract_lets | with_reducible refine Reports.ite ?_ ?_
    | with_reducible apply Reports.change (Changes.update (ps := [.dev, .ctl, .lanes, .mod, .trip, .canc, .loads, .diag, .crust, .fault, .flash]) (Changes.refl _ _))
    | decide

theorem State.updateStart_reports (s : State) :
    Reports [.active, .sense, .ctl, .lanes, .hearth, .loads, .diag, .audio, .crust, .chain] s (State.updateStart s) := by
  unfold State.updateStart
  extract_lets t
  exact .ite (.refl ..) (.report (State.laneStart_reports ..) (.of (State.completeFor_changes ..)) (by decide))

theorem execLaneStart_reports (s : State) :
    ∃ t, execLaneStart s = .next t ∧ Reports [.active, .sense, .ctl, .lanes, .hearth, .loads, .diag, .audio, .crust, .chain] s t :=
  ⟨_, rfl, State.updateStart_reports s⟩

theorem execVote_reports (outvoted : Bool) (s : State) :
    ∃ t, execVote outvoted s = .next t ∧ Reports [.dev, .ctl, .lanes, .mod, .trip, .canc, .loads, .diag, .crust] s t := by
  refine ⟨_, rfl, ?_⟩
  repeat' first
    | with_reducible exact .refl .. | with_reducible apply Reports.report (State.vote_reports ..)
    | with_reducible apply Reports.change (Changes.update (ps := [.dev, .ctl, .lanes, .mod, .trip, .canc, .loads, .diag, .crust, .fault, .flash]) (Changes.refl _ _))
    | decide

theorem State.linkDone_reports (link : Nat) (rx : List Nat) (s : State) :
    Reports [.dev, .trip, .canc, .diag] s (State.linkDone link rx s) := by
  unfold State.linkDone
  repeat' first
    | with_reducible exact .refl .. | with_reducible apply Reports.report (State.raise_reports ..)
    | with_reducible apply Reports.change (State.gdlSource_changes ..) | with_reducible apply Reports.change (State.setLink_changes ..)
    | extract_lets | split | with_reducible refine Reports.ite ?_ ?_
    | with_reducible apply Reports.change (Changes.update (ps := [.dev, .trip, .canc, .diag, .fault, .flash]) (Changes.refl _ _)) | decide

theorem execGdlTransferDone_reports (link : Nat) (rx : List Nat) (s : State) :
    ∃ t, execGdlTransferDone link rx s = .next t ∧ Reports [.dev, .trip, .canc, .diag] s t := by
  refine ⟨_, rfl, ?_⟩
  repeat' first
    | with_reducible exact .refl .. | with_reducible apply Reports.report (State.linkDone_reports ..) | with_reducible refine Reports.ite ?_ ?_
    | with_reducible apply Reports.change (Changes.update (ps := [.dev, .trip, .canc, .diag, .fault, .flash]) (Changes.refl _ _)) | decide

theorem State.sensed_reports (r : SenseState × List Signal) (s : State) :
    Reports [.sense] s (State.sensed r s) := by
  unfold State.sensed
  repeat' first
    | with_reducible exact .refl .. | with_reducible apply Reports.report (State.raiseAll_reports ..) | extract_lets
    | with_reducible refine Reports.ite ?_ ?_
    | with_reducible apply Reports.change (Changes.update (ps := [.sense, .fault, .flash]) (Changes.refl _ _)) | decide

theorem State.windows_reports (ws : List PathWindow) (mismatch : Bool) (s : State) :
    Reports [.sense] s (State.windows ws mismatch s) := by
  unfold State.windows
  repeat' first
    | with_reducible exact .refl .. | with_reducible apply Reports.report (State.sensed_reports ..) | extract_lets | split
    | with_reducible apply Reports.change (Changes.update (ps := [.sense, .fault, .flash]) (Changes.refl _ _)) | decide

theorem State.twinRecord_reports (m : Nat) (paths : List (Nat × Int)) (hits : List (Nat × Bool × Bool)) (s : State) :
    Reports [.dev, .sense, .trip, .canc, .diag] s (State.twinRecord m paths hits s) := by
  unfold State.twinRecord
  repeat' first
    | with_reducible exact .refl .. | with_reducible assumption | with_reducible apply Reports.change (State.tripTo_changes ..)
    | with_reducible apply Reports.report (State.sensed_reports ..) | extract_lets | with_reducible refine Reports.foldl ?_ (fun _ _ => ?_)
    | with_reducible apply Reports.change (Changes.update (ps := [.dev, .sense, .trip, .canc, .diag, .fault, .flash]) (Changes.refl _ _)) | decide

theorem State.reportAmbiguous_reports (hb : Nat) (s : State) :
    Reports [.sense] s (State.reportAmbiguous hb s) := by
  unfold State.reportAmbiguous
  repeat' first
    | with_reducible exact .refl .. | with_reducible apply Reports.report (State.raise_reports ..) | extract_lets
    | with_reducible refine Reports.ite ?_ ?_
    | with_reducible apply Reports.change (Changes.update (ps := [.sense, .fault, .flash]) (Changes.refl _ _)) | decide

theorem State.pathEligible_reports (sd : Nat) (s : State) :
    Reports [.sense] s (State.pathEligible sd s) := by
  unfold State.pathEligible
  repeat' first
    | with_reducible exact .refl .. | with_reducible apply Reports.report (State.raiseAll_reports ..) | extract_lets | split
    | with_reducible refine Reports.ite ?_ ?_
    | with_reducible apply Reports.change (Changes.update (ps := [.sense, .fault, .flash]) (Changes.refl _ _)) | decide

theorem State.speakerSense_reports (w : PathWindow) (s : State) :
    Reports [.sense, .loads, .diag] s (State.speakerSense w s) := by
  unfold State.speakerSense
  repeat' first
    | with_reducible exact .refl .. | with_reducible apply Reports.report (State.raise_reports ..) | extract_lets
    | with_reducible refine Reports.ite ?_ ?_
    | with_reducible apply Reports.change (Changes.update (ps := [.sense, .loads, .diag, .fault, .flash]) (Changes.refl _ _)) | decide

theorem State.resolver_reports (n : Nat) (o : ResolverStep) (s : State) :
    Reports [.sense, .crust] s (State.resolver n o s) := by
  unfold State.resolver
  extract_lets c y u x r
  have hu : Reports [.sense, .crust] s u := .of (Changes.refl [.crust] s).update
  exact .report (State.raiseAll_reports ..) (.change (Changes.refl [.sense] u).update hu (by decide) (by decide)) (by decide)

theorem State.encoder_reports (n : Nat) (a b z : Bool) (s : State) :
    Reports [.sense] s (State.encoder n a b z s) := by
  unfold State.encoder
  repeat' first
    | with_reducible exact .refl .. | with_reducible apply Reports.report (State.raiseAll_reports ..) | extract_lets
    | with_reducible refine Reports.ite ?_ ?_
    | with_reducible apply Reports.change (Changes.update (ps := [.sense, .fault, .flash]) (Changes.refl _ _)) | decide

theorem State.ssi_reports (n : Nat) (o : SsiRead) (s : State) :
    Reports [.sense] s (State.ssi n o s) := by
  unfold State.ssi
  repeat' first
    | with_reducible exact .refl .. | with_reducible apply Reports.report (State.raiseAll_reports ..) | extract_lets
    | with_reducible refine Reports.ite ?_ ?_
    | with_reducible apply Reports.change (Changes.update (ps := [.sense, .fault, .flash]) (Changes.refl _ _)) | decide

theorem State.latchPos_reports (m tc : Nat) (s : State) :
    Reports [.sense] s (State.latchPos m tc s) := by
  unfold State.latchPos
  repeat' first
    | with_reducible exact .refl .. | with_reducible apply Reports.report (State.raise_reports ..) | extract_lets
    | with_reducible refine Reports.ite ?_ ?_
    | with_reducible apply Reports.change (Changes.update (ps := [.sense, .fault, .flash]) (Changes.refl _ _)) | decide

theorem execWindowResult_reports (ws : List PathWindow) (mismatch : Bool) (s : State) :
    ∃ t, execWindowResult ws mismatch s = .next t ∧ Reports [.sense] s t := by
  refine ⟨_, rfl, ?_⟩
  repeat' first
    | with_reducible exact .refl .. | with_reducible apply Reports.report (State.windows_reports ..) | split
    | with_reducible refine Reports.ite ?_ ?_
    | with_reducible apply Reports.change (Changes.update (ps := [.sense, .fault, .flash]) (Changes.refl _ _)) | decide

theorem execCurrentPairAmbiguous_reports (hb : Nat) (s : State) :
    ∃ t, execCurrentPairAmbiguous hb s = .next t ∧ Reports [.sense] s t := by
  refine ⟨_, rfl, ?_⟩
  repeat' first
    | with_reducible exact .refl .. | with_reducible apply Reports.report (State.reportAmbiguous_reports ..)
    | with_reducible refine Reports.ite ?_ ?_
    | with_reducible apply Reports.change (Changes.update (ps := [.sense, .fault, .flash]) (Changes.refl _ _)) | decide

theorem execRestoredPathEligible_reports (sd : Nat) (s : State) :
    ∃ t, execRestoredPathEligible sd s = .next t ∧ Reports [.sense] s t := by
  refine ⟨_, rfl, ?_⟩
  repeat' first
    | with_reducible exact .refl .. | with_reducible apply Reports.report (State.pathEligible_reports ..) | with_reducible refine Reports.ite ?_ ?_
    | with_reducible apply Reports.change (Changes.update (ps := [.sense, .fault, .flash]) (Changes.refl _ _)) | decide

theorem execSpeakerSenseResult_reports (w : PathWindow) (s : State) :
    ∃ t, execSpeakerSenseResult w s = .next t ∧ Reports [.sense, .loads, .diag] s t := by
  refine ⟨_, rfl, ?_⟩
  repeat' first
    | with_reducible exact .refl .. | with_reducible apply Reports.report (State.speakerSense_reports ..) | with_reducible refine Reports.ite ?_ ?_
    | with_reducible apply Reports.change (Changes.update (ps := [.sense, .loads, .diag, .fault, .flash]) (Changes.refl _ _)) | decide

theorem execResolverLoopStep_reports (n : Nat) (o : ResolverStep) (s : State) :
    ∃ t, execResolverLoopStep n o s = .next t ∧ Reports [.sense, .crust] s t := by
  refine ⟨_, rfl, ?_⟩
  repeat' first
    | with_reducible exact .refl .. | with_reducible apply Reports.report (State.resolver_reports ..) | with_reducible refine Reports.ite ?_ ?_
    | with_reducible apply Reports.change (Changes.update (ps := [.sense, .crust, .fault, .flash]) (Changes.refl _ _)) | decide

theorem execEncoderEdge_reports (n : Nat) (a b z : Bool) (s : State) :
    ∃ t, execEncoderEdge n a b z s = .next t ∧ Reports [.sense] s t := by
  refine ⟨_, rfl, ?_⟩
  repeat' first
    | with_reducible exact .refl .. | with_reducible apply Reports.report (State.encoder_reports ..) | with_reducible refine Reports.ite ?_ ?_
    | with_reducible apply Reports.change (Changes.update (ps := [.sense, .fault, .flash]) (Changes.refl _ _)) | decide

theorem execSsiReadDone_reports (n : Nat) (o : SsiRead) (s : State) :
    ∃ t, execSsiReadDone n o s = .next t ∧ Reports [.sense] s t := by
  refine ⟨_, rfl, ?_⟩
  repeat' first
    | with_reducible exact .refl .. | with_reducible apply Reports.report (State.ssi_reports ..) | with_reducible refine Reports.ite ?_ ?_
    | with_reducible apply Reports.change (Changes.update (ps := [.sense, .fault, .flash]) (Changes.refl _ _)) | decide

theorem State.sensorFaults_reports (s : State) :
    Reports [.canc] s (State.sensorFaults s) := by
  unfold State.sensorFaults
  repeat' first
    | with_reducible exact .refl .. | with_reducible apply Reports.report (State.raiseAll_reports ..) | extract_lets
    | with_reducible refine Reports.ite ?_ ?_
    | with_reducible apply Reports.change (Changes.update (ps := [.canc, .fault, .flash]) (Changes.refl _ _)) | decide

theorem State.hearthStep_reports (mics : List (List Int)) (blocks : List SensorBlock) (s : State) :
    Reports [.dev, .active, .staged, .token, .commit, .persist, .table, .sense, .mod, .trip, .hearth, .canc, .loads, .diag, .audio, .crust, .hk, .chain] s (State.hearthStep mics blocks s) := by
  unfold State.hearthStep
  extract_lets settled cancelled u v y w
  have h0 : Reports [.dev, .active, .staged, .token, .commit, .persist, .table, .sense, .mod, .trip, .hearth, .canc, .loads, .diag, .audio, .crust, .hk, .chain] s settled.1 := .of (State.hearthSettings_changes s)
  have h1 : Reports [.dev, .active, .staged, .token, .commit, .persist, .table, .sense, .mod, .trip, .hearth, .canc, .loads, .diag, .audio, .crust, .hk, .chain] s cancelled.1 := .change (State.cancellers_changes ..) (.change (State.tapBoundary_changes ..)
    (.change (State.meanCurrents_changes ..) h0 (by decide) (by decide)) (by decide) (by decide)) (by decide) (by decide)
  have hu : Reports [.dev, .active, .staged, .token, .commit, .persist, .table, .sense, .mod, .trip, .hearth, .canc, .loads, .diag, .audio, .crust, .hk, .chain] s u :=
    .report (State.sensorFaults_reports ..) (.change (State.orderMonitors_changes ..) h1 (by decide) (by decide)) (by decide)
  have hv : Reports [.dev, .active, .staged, .token, .commit, .persist, .table, .sense, .mod, .trip, .hearth, .canc, .loads, .diag, .audio, .crust, .hk, .chain] s v := .change (State.blockJob_changes ..)
    (.change (State.blockParts_changes ..) hu (by decide) (by decide)) (by decide) (by decide)
  have hw : Reports [.dev, .active, .staged, .token, .commit, .persist, .table, .sense, .mod, .trip, .hearth, .canc, .loads, .diag, .audio, .crust, .hk, .chain] s w := .change (Changes.refl [.hearth] v).update hv (by decide) (by decide)
  exact .change (State.blockProcess_changes ..) (.change (State.streamBoundary_changes ..) hw (by decide) (by decide)) (by decide) (by decide)

theorem State.hearthBoundary_reports (pdm : List (List Bool)) (s : State) :
    Reports [.dev, .active, .staged, .token, .commit, .persist, .table, .sense, .mod, .trip, .hearth, .canc, .loads, .diag, .audio, .crust, .hk, .chain] s (State.hearthBoundary pdm s) := by
  unfold State.hearthBoundary
  repeat' first
    | with_reducible exact .refl .. | with_reducible apply Reports.change (State.identTable_changes ..)
    | with_reducible apply Reports.change (State.sensorBoundary_changes ..) | with_reducible apply Reports.report (State.sensorFaults_reports ..)
    | with_reducible apply Reports.change (State.tapBoundary_changes ..) | with_reducible apply Reports.report (State.hearthStep_reports ..)
    | extract_lets | with_reducible refine Reports.ite ?_ ?_
    | with_reducible apply Reports.change (Changes.update (ps := [.dev, .active, .staged, .token, .commit, .persist, .table, .sense, .mod, .trip, .hearth, .canc, .loads, .diag, .audio, .crust, .hk, .chain, .fault, .flash]) (Changes.refl _ _))
    | decide

theorem execHearthBlockBoundary_reports (pdm : List (List Bool)) (s : State) :
    ∃ t, execHearthBlockBoundary pdm s = .next t ∧ Reports [.dev, .active, .staged, .token, .commit, .persist, .table, .sense, .mod, .trip, .hearth, .canc, .loads, .diag, .audio, .crust, .hk, .chain] s t := by
  refine ⟨_, rfl, ?_⟩
  repeat' first
    | with_reducible exact .refl .. | with_reducible apply Reports.report (State.hearthBoundary_reports ..)
    | with_reducible apply Reports.change (Changes.update (ps := [.dev, .active, .staged, .token, .commit, .persist, .table, .sense, .mod, .trip, .hearth, .canc, .loads, .diag, .audio, .crust, .hk, .chain, .fault, .flash]) (Changes.refl _ _))
    | decide

theorem State.lossOfMark_reports (s : State) :
    Reports [.chain] s (State.lossOfMark s) := by
  unfold State.lossOfMark
  repeat' first
    | with_reducible exact .refl .. | with_reducible apply Reports.report (State.raise_reports ..)
    | with_reducible apply Reports.change (State.succeed_changes ..) | extract_lets | with_reducible refine Reports.ite ?_ ?_
    | with_reducible apply Reports.change (Changes.update (ps := [.chain, .fault, .flash]) (Changes.refl _ _)) | decide

theorem State.splitRecord_reports (m : Nat) (r : SplitRecord) (s : State) :
    Reports [.dev, .sense, .trip, .canc, .diag, .chain] s (State.splitRecord m r s) := by
  unfold State.splitRecord
  repeat' first
    | with_reducible exact .refl .. | with_reducible apply Reports.report (State.twinRecord_reports ..) | extract_lets
    | with_reducible refine Reports.ite ?_ ?_
    | with_reducible apply Reports.change (Changes.update (ps := [.dev, .sense, .trip, .canc, .diag, .chain, .fault, .flash]) (Changes.refl _ _))
    | decide

theorem execTimebaseLoss_reports (s : State) :
    ∃ t, execTimebaseLoss s = .next t ∧ Reports [.chain] s t := by
  refine ⟨_, rfl, ?_⟩
  repeat' first
    | with_reducible exact .refl .. | with_reducible apply Reports.report (State.lossOfMark_reports ..)
    | with_reducible apply Reports.change (Changes.update (ps := [.chain, .fault, .flash]) (Changes.refl _ _)) | decide

theorem execSplitMachineRecord_reports (m : Nat) (r : SplitRecord) (s : State) :
    ∃ t, execSplitMachineRecord m r s = .next t ∧ Reports [.dev, .sense, .trip, .canc, .diag, .chain] s t := by
  refine ⟨_, rfl, ?_⟩
  repeat' first
    | with_reducible exact .refl .. | with_reducible apply Reports.report (State.splitRecord_reports ..)
    | with_reducible apply Reports.change (Changes.update (ps := [.dev, .sense, .trip, .canc, .diag, .chain, .fault, .flash]) (Changes.refl _ _))
    | decide

theorem State.checkStarter_reports (s : State) :
    Reports [] s (State.checkStarter s) := by
  unfold State.checkStarter
  repeat' first
    | with_reducible exact .refl .. | with_reducible assumption | with_reducible apply Reports.report (State.raise_reports ..) | extract_lets
    | with_reducible refine Reports.ite ?_ ?_ | with_reducible refine Reports.foldl ?_ (fun _ _ => ?_)
    | with_reducible apply Reports.change (Changes.update (ps := [.fault, .flash]) (Changes.refl _ _)) | decide

theorem State.verificationDone_reports (eccA eccB : Bool) (s : State) :
    Reports [.dev, .active, .staged, .persist, .bench, .banks] s (State.verificationDone eccA eccB s) := by
  unfold State.verificationDone
  repeat' first
    | with_reducible exact .refl .. | with_reducible apply Reports.change (State.loadPersisted_changes ..)
    | with_reducible apply Reports.report (State.checkStarter_reports ..) | with_reducible apply Reports.change (State.bootThermal_changes ..)
    | with_reducible apply Reports.change (State.startAdmitted_changes ..) | extract_lets | with_reducible refine Reports.ite ?_ ?_
    | with_reducible apply Reports.change (Changes.update (ps := [.dev, .active, .staged, .persist, .bench, .banks, .fault, .flash]) (Changes.refl _ _))
    | decide

theorem execBankVerificationDone_reports (eccA eccB : Bool) (s : State) :
    ∃ t, execBankVerificationDone eccA eccB s = .next t ∧ Reports [.dev, .active, .staged, .persist, .bench, .banks] s t := by
  refine ⟨_, rfl, ?_⟩
  repeat' first
    | with_reducible exact .refl .. | with_reducible apply Reports.report (State.verificationDone_reports ..)
    | with_reducible refine Reports.ite ?_ ?_
    | with_reducible apply Reports.change (Changes.update (ps := [.dev, .active, .staged, .persist, .bench, .banks, .fault, .flash]) (Changes.refl _ _))
    | decide

theorem State.crustFault_reports (kind : CrustFaultKind) (s : State) :
    Reports [.crust] s (State.crustFault kind s) := by
  unfold State.crustFault
  repeat' first
    | with_reducible exact .refl .. | with_reducible apply Reports.report (State.enterBedrock_reports ..) | extract_lets | split
    | with_reducible apply Reports.change (Changes.update (ps := [.crust, .fault, .flash]) (Changes.refl _ _)) | decide

theorem State.crustCycle_reports (s : State) :
    Reports [.dev, .active, .staged, .commit, .persist, .sense, .mod, .trip, .hearth, .canc, .loads, .diag, .audio, .crust, .hk, .chain] s (State.crustCycle s) := by
  unfold State.crustCycle
  repeat' first
    | with_reducible exact .refl .. | with_reducible apply Reports.report (State.enterBedrock_reports ..)
    | with_reducible apply Reports.report (State.raise_reports ..) | with_reducible apply Reports.report (State.raiseAll_reports ..)
    | with_reducible apply Reports.report (State.repairStore_reports ..) | with_reducible apply Reports.change (State.discharge_changes ..)
    | with_reducible apply Reports.report (State.crustFault_reports ..) | with_reducible apply Reports.change (State.crustSettings_changes ..)
    | with_reducible apply Reports.change (State.crustSource_changes ..) | with_reducible apply Reports.change (State.crustTrips_changes ..)
    | extract_lets | with_reducible refine Reports.ite ?_ ?_
    | with_reducible apply Reports.change (Changes.update (ps := [.dev, .active, .staged, .commit, .persist, .sense, .mod, .trip, .hearth, .canc, .loads, .diag, .audio, .crust, .hk, .chain, .fault, .flash]) (Changes.refl _ _))
    | decide

theorem State.laneWatchdog_reports (s : State) :
    Reports [.dev, .trip, .canc, .diag, .crust] s (State.laneWatchdog s) := by
  unfold State.laneWatchdog
  repeat' first
    | with_reducible exact .refl .. | with_reducible apply Reports.report (State.enterBedrock_reports ..)
    | with_reducible apply Reports.change (State.crustSource_changes ..) | extract_lets | with_reducible refine Reports.ite ?_ ?_
    | with_reducible apply Reports.change (Changes.update (ps := [.dev, .trip, .canc, .diag, .crust, .fault, .flash]) (Changes.refl _ _)) | decide

theorem State.hearthWatchdog_reports (s : State) :
    Reports [.crust] s (State.hearthWatchdog s) := by
  unfold State.hearthWatchdog
  repeat' first
    | with_reducible exact .refl .. | with_reducible apply Reports.report (State.raise_reports ..) | extract_lets
    | with_reducible refine Reports.ite ?_ ?_
    | with_reducible apply Reports.change (Changes.update (ps := [.crust, .fault, .flash]) (Changes.refl _ _)) | decide

theorem State.offPulseEnd_reports (s : State) :
    Reports [.crust] s (State.offPulseEnd s) := by
  unfold State.offPulseEnd
  repeat' first
    | with_reducible exact .refl .. | with_reducible apply Reports.report (State.raise_reports ..) | extract_lets
    | with_reducible refine Reports.ite ?_ ?_
    | with_reducible apply Reports.change (Changes.update (ps := [.crust, .fault, .flash]) (Changes.refl _ _)) | decide

theorem execCrustCycle_reports (s : State) :
    ∃ t, execCrustCycle s = .next t ∧ Reports [.dev, .active, .staged, .commit, .persist, .sense, .mod, .trip, .hearth, .canc, .loads, .diag, .audio, .crust, .hk, .chain] s t := by
  refine ⟨_, rfl, ?_⟩
  repeat' first
    | with_reducible exact .refl .. | with_reducible apply Reports.report (State.crustCycle_reports ..) | with_reducible refine Reports.ite ?_ ?_
    | with_reducible apply Reports.change (Changes.update (ps := [.dev, .active, .staged, .commit, .persist, .sense, .mod, .trip, .hearth, .canc, .loads, .diag, .audio, .crust, .hk, .chain, .fault, .flash]) (Changes.refl _ _))
    | decide

theorem execLaneWatchdogExpiry_reports (s : State) :
    ∃ t, execLaneWatchdogExpiry s = .next t ∧ Reports [.dev, .trip, .canc, .diag, .crust] s t := by
  refine ⟨_, rfl, ?_⟩
  repeat' first
    | with_reducible exact .refl .. | with_reducible apply Reports.report (State.laneWatchdog_reports ..) | with_reducible refine Reports.ite ?_ ?_
    | with_reducible apply Reports.change (Changes.update (ps := [.dev, .trip, .canc, .diag, .crust, .fault, .flash]) (Changes.refl _ _)) | decide

theorem execHearthWatchdogExpiry_reports (s : State) :
    ∃ t, execHearthWatchdogExpiry s = .next t ∧ Reports [.crust] s t := by
  refine ⟨_, rfl, ?_⟩
  repeat' first
    | with_reducible exact .refl .. | with_reducible apply Reports.report (State.hearthWatchdog_reports ..)
    | with_reducible apply Reports.change (Changes.update (ps := [.crust, .fault, .flash]) (Changes.refl _ _)) | decide

theorem execOffPulseEnd_reports (s : State) :
    ∃ t, execOffPulseEnd s = .next t ∧ Reports [.crust] s t := by
  refine ⟨_, rfl, ?_⟩
  repeat' first
    | with_reducible exact .refl .. | with_reducible apply Reports.report (State.offPulseEnd_reports ..) | with_reducible refine Reports.ite ?_ ?_
    | with_reducible apply Reports.change (Changes.update (ps := [.crust, .fault, .flash]) (Changes.refl _ _)) | decide

theorem execCrustFault_reports (kind : CrustFaultKind) (s : State) :
    ∃ t, execCrustFault kind s = .next t ∧ Reports [.crust] s t := by
  refine ⟨_, rfl, ?_⟩
  repeat' first
    | with_reducible exact .refl .. | with_reducible apply Reports.report (State.crustFault_reports ..) | with_reducible refine Reports.ite ?_ ?_
    | with_reducible apply Reports.change (Changes.update (ps := [.crust, .fault, .flash]) (Changes.refl _ _)) | decide

theorem State.loadStep_reports (s : State) :
    Reports [.loads] s (State.loadStep s) := by
  unfold State.loadStep
  repeat' first
    | with_reducible exact .refl .. | with_reducible apply Reports.report (State.raiseAll_reports ..) | extract_lets
    | with_reducible apply Reports.change (Changes.update (ps := [.loads, .fault, .flash]) (Changes.refl _ _)) | decide

theorem State.backupLost_reports (s : State) :
    Reports [] s (State.backupLost s) := by
  unfold State.backupLost
  repeat' first
    | with_reducible exact .refl .. | with_reducible apply Reports.report (State.enterBedrock_reports ..) | extract_lets | split
    | with_reducible refine Reports.ite ?_ ?_ | with_reducible apply Reports.change (Changes.update (ps := [.fault, .flash]) (Changes.refl _ _))
    | decide

theorem State.lockstep_reports (s : State) :
    Reports [.dev] s (State.lockstep s) := by
  unfold State.lockstep
  repeat' first
    | with_reducible exact .refl .. | with_reducible apply Reports.report (State.raise_reports ..) | extract_lets
    | with_reducible apply Reports.change (Changes.update (ps := [.dev, .fault, .flash]) (Changes.refl _ _)) | decide

theorem State.refLoss_reports (deviation : Int) (s : State) :
    Reports [.dev] s (State.refLoss deviation s) := by
  unfold State.refLoss
  repeat' first
    | with_reducible exact .refl .. | with_reducible apply Reports.report (State.enterBedrock_reports ..)
    | with_reducible apply Reports.report (State.raise_reports ..) | extract_lets | with_reducible refine Reports.ite ?_ ?_
    | with_reducible apply Reports.change (Changes.update (ps := [.dev, .fault, .flash]) (Changes.refl _ _)) | decide

theorem State.slewDone_reports (s : State) :
    Reports [.dev] s (State.slewDone s) := by
  unfold State.slewDone
  repeat' first
    | with_reducible exact .refl .. | with_reducible apply Reports.report (State.raise_reports ..) | extract_lets
    | with_reducible refine Reports.ite ?_ ?_
    | with_reducible apply Reports.change (Changes.update (ps := [.dev, .fault, .flash]) (Changes.refl _ _)) | decide

theorem execLockstepMismatch_reports (s : State) :
    ∃ t, execLockstepMismatch s = .next t ∧ Reports [.dev] s t := by
  refine ⟨_, rfl, ?_⟩
  repeat' first
    | with_reducible exact .refl .. | with_reducible apply Reports.report (State.lockstep_reports ..) | with_reducible refine Reports.ite ?_ ?_
    | with_reducible apply Reports.change (Changes.update (ps := [.dev, .fault, .flash]) (Changes.refl _ _)) | decide

theorem execRefLost_reports (deviation : Int) (s : State) :
    ∃ t, execRefLost deviation s = .next t ∧ Reports [.dev] s t := by
  refine ⟨_, rfl, ?_⟩
  repeat' first
    | with_reducible exact .refl .. | with_reducible apply Reports.report (State.refLoss_reports ..) | with_reducible refine Reports.ite ?_ ?_
    | with_reducible apply Reports.change (Changes.update (ps := [.dev, .fault, .flash]) (Changes.refl _ _)) | decide

theorem execPllSlewComplete_reports (s : State) :
    ∃ t, execPllSlewComplete s = .next t ∧ Reports [.dev] s t := by
  refine ⟨_, rfl, ?_⟩
  repeat' first
    | with_reducible exact .refl .. | with_reducible apply Reports.report (State.slewDone_reports ..) | with_reducible refine Reports.ite ?_ ?_
    | with_reducible apply Reports.change (Changes.update (ps := [.dev, .fault, .flash]) (Changes.refl _ _)) | decide

theorem State.voteDue_reports (trough : Bool) (s : State) :
    Reports [.dev, .lanes, .trip, .canc, .diag] s (State.voteDue trough s) := by
  unfold State.voteDue
  repeat' first
    | with_reducible exact .refl .. | with_reducible apply Reports.report (State.enterBedrock_reports ..)
    | with_reducible apply Reports.change (State.voteSource_changes ..) | extract_lets | with_reducible refine Reports.ite ?_ ?_
    | with_reducible apply Reports.change (Changes.update (ps := [.dev, .lanes, .trip, .canc, .diag, .fault, .flash]) (Changes.refl _ _)) | decide

theorem State.centre_reports (m : Nat) (s : State) :
    Reports [.sense, .lanes] s (State.centre m s) := by
  unfold State.centre
  repeat' first
    | with_reducible exact .refl .. | with_reducible apply Reports.report (State.latchPos_reports ..) | extract_lets
    | with_reducible refine Reports.ite ?_ ?_
    | with_reducible apply Reports.change (Changes.update (ps := [.sense, .lanes, .fault, .flash]) (Changes.refl _ _)) | decide

theorem State.troughBody_reports (edges : Nat) (m1 : Bool) (s : State) :
    Reports [.dev, .sense, .lanes, .trip, .canc, .diag, .chain] s (State.troughBody edges m1 s) := by
  unfold State.troughBody
  extract_lets s0 s1 s2 s3 s4 s5 la s6
  have h0 : Reports [.dev, .sense, .lanes, .trip, .canc, .diag, .chain] s s0 := .of (.ite (.after (State.engineTrough_changes ..) (State.engineTrough_changes ..) (by decide)) (State.engineTrough_changes ..))
  have h1 : Reports [.dev, .sense, .lanes, .trip, .canc, .diag, .chain] s s1 := .change (State.lanesTrough_changes _) (.change (State.tripTrough_changes ..)
    (.report (State.voteDue_reports ..) h0 (by decide)) (by decide) (by decide)) (by decide) (by decide)
  have h2 := Reports.ite (c := s1.full = true) (.change (State.chainTrough_changes edges s1) h1 (by decide) (by decide)) h1
  have h3 : Reports [.dev, .sense, .lanes, .trip, .canc, .diag, .chain] s s3 := .change (State.captureTrough_changes _)
    (.change (State.testTrough_changes _) h2 (by decide) (by decide)) (by decide) (by decide)
  have h4 := Reports.ite (c := s3.centred 0 false = true) (.report (State.centre_reports 0 s3) h3 (by decide)) h3
  have h5 := Reports.ite (c := (m1 && s4.centred 1 false) = true) (.report (State.centre_reports 1 s4) h4 (by decide)) h4
  have h6 : Reports [.dev, .sense, .lanes, .trip, .canc, .diag, .chain] s s6 := .change (Changes.refl [.lanes] s5).update h5 (by decide) (by decide)
  exact .change (State.captureInstant_changes _) h6 (by decide) (by decide)

theorem State.crest_reports (m : Nat) (s : State) :
    Reports [.dev, .sense, .ctl, .lanes, .mod, .trip, .canc, .diag] s (State.crest m s) := by
  unfold State.crest
  refine .ite (.refl ..) ?_
  extract_lets double had mo s1 loaded s2 s3 s4 s5 la s6
  have h1 : Reports [.dev, .sense, .ctl, .lanes, .mod, .trip, .canc, .diag] s s1 := .ite (.of (Changes.refl [.mod] s).update) (.refl ..)
  have h2 := Reports.ite (c := double = true) (.change (State.voteInstant_changes m loaded had s1) h1 (by decide) (by decide)) h1
  have h3 := Reports.ite (c := (double && m == 0) = true) (.change (State.dropHeld_changes loaded s2) h2 (by decide) (by decide)) h2
  have h4 := Reports.ite (c := double = true) (.change (State.setCtl_changes m (fun x => { x with instant := s3.now }) s3) h3 (by decide) (by decide)) h3
  have h5 := Reports.ite (c := s4.centred m true = true) (.report (State.centre_reports m s4) h4 (by decide)) h4
  have h6 : Reports [.dev, .sense, .ctl, .lanes, .mod, .trip, .canc, .diag] s s6 := .change (Changes.refl [.lanes] s5).update h5 (by decide) (by decide)
  exact .ite h5 (.change (State.captureInstant_changes _) (.report (State.voteDue_reports ..) h6 (by decide)) (by decide) (by decide))

theorem execCrest_reports (m : Nat) (s : State) :
    ∃ t, execCrest m s = .next t ∧ Reports [.dev, .sense, .ctl, .lanes, .mod, .trip, .canc, .diag] s t := by
  refine ⟨_, rfl, ?_⟩
  repeat' first
    | with_reducible exact .refl .. | with_reducible apply Reports.report (State.crest_reports ..)
    | with_reducible apply Reports.change (Changes.update (ps := [.dev, .sense, .ctl, .lanes, .mod, .trip, .canc, .diag, .fault, .flash]) (Changes.refl _ _))
    | decide

theorem State.proofLanes_reports (failed : Nat) (s : State) :
    Reports [.active, .lanes] s (State.proofLanes failed s) := by
  unfold State.proofLanes
  repeat' first
    | with_reducible exact .refl .. | with_reducible apply Reports.report (State.raiseAll_reports ..) | extract_lets
    | with_reducible refine Reports.ite ?_ ?_
    | with_reducible apply Reports.change (Changes.update (ps := [.active, .lanes, .fault, .flash]) (Changes.refl _ _)) | decide

theorem State.zeroPath_reports (sd : Nat) (avg : Rat) (s : State) :
    Reports [.dev, .sense, .loads] s (State.zeroPath sd avg s) := by
  unfold State.zeroPath
  repeat' first
    | with_reducible exact .refl .. | with_reducible apply Reports.report (State.raise_reports ..)
    | with_reducible apply Reports.report (State.raiseAll_reports ..) | extract_lets | with_reducible refine Reports.ite ?_ ?_
    | with_reducible apply Reports.change (Changes.update (ps := [.dev, .sense, .loads, .fault, .flash]) (Changes.refl _ _)) | decide

theorem State.zeroCheck_reports (avgs : List Rat) (s : State) :
    Reports [.dev, .sense, .loads] s (State.zeroCheck avgs s) := by
  unfold State.zeroCheck
  repeat' first
    | with_reducible exact .refl .. | with_reducible assumption | with_reducible apply Reports.report (State.zeroPath_reports ..)
    | with_reducible refine Reports.foldl ?_ (fun _ _ => ?_)
    | with_reducible apply Reports.change (Changes.update (ps := [.dev, .sense, .loads, .fault, .flash]) (Changes.refl _ _)) | decide

theorem State.stepDone_reports (r : ProofResult) (s : State) :
    Reports [.dev, .frame, .active, .sense, .lanes, .trip, .canc, .loads, .diag, .crust, .chain] s (State.stepDone r s) := by
  unfold State.stepDone
  repeat' first
    | with_reducible exact .refl .. | with_reducible apply Reports.change (State.calibrate_changes ..)
    | with_reducible apply Reports.report (State.proofLanes_reports ..) | with_reducible apply Reports.report (State.zeroCheck_reports ..)
    | with_reducible apply Reports.change (State.markStep_changes ..) | with_reducible apply Reports.change (State.nextStep_changes ..)
    | with_reducible apply Reports.change (State.readbackDone_changes ..) | extract_lets | split | with_reducible refine Reports.ite ?_ ?_
    | with_reducible apply Reports.change (Changes.update (ps := [.dev, .frame, .active, .sense, .lanes, .trip, .canc, .loads, .diag, .crust, .chain, .fault, .flash]) (Changes.refl _ _))
    | decide

theorem execProofingStepDone_reports (r : ProofResult) (s : State) :
    ∃ t, execProofingStepDone r s = .next t ∧ Reports [.dev, .frame, .active, .sense, .lanes, .trip, .canc, .loads, .diag, .crust, .chain] s t := by
  refine ⟨_, rfl, ?_⟩
  repeat' first
    | with_reducible exact .refl .. | with_reducible apply Reports.report (State.stepDone_reports ..) | with_reducible refine Reports.ite ?_ ?_
    | with_reducible apply Reports.change (Changes.update (ps := [.dev, .frame, .active, .sense, .lanes, .trip, .canc, .loads, .diag, .crust, .chain, .fault, .flash]) (Changes.refl _ _))
    | decide

theorem State.networkRestored_reports (s : State) :
    Reports [] s (State.networkRestored s) := by
  unfold State.networkRestored
  repeat' first
    | with_reducible exact .refl .. | with_reducible apply Reports.report (State.raise_reports ..) | extract_lets
    | with_reducible refine Reports.ite ?_ ?_ | with_reducible apply Reports.change (Changes.update (ps := [.fault, .flash]) (Changes.refl _ _))
    | decide

theorem State.deliver_reports (n port : Nat) (s : State) :
    Reports [.net] s (State.deliver n port s) := by
  unfold State.deliver
  repeat' first
    | with_reducible exact .refl .. | with_reducible assumption | with_reducible apply Reports.report (State.networkRestored_reports ..)
    | extract_lets | with_reducible refine Reports.ite ?_ ?_ | with_reducible refine Reports.foldl ?_ (fun _ _ => ?_)
    | with_reducible apply Reports.change (Changes.update (ps := [.net, .fault, .flash]) (Changes.refl _ _)) | decide

theorem State.imageCome_reports (k n seq port : Nat) (data : List Byte) (s : State) :
    Reports [.dev, .active, .staged, .token, .commit, .persist, .table, .sense, .lanes, .mod, .trip, .hearth, .canc, .loads, .diag, .audio, .crust, .hk, .net, .chain] s (State.imageCome k n seq port data s) := by
  unfold State.imageCome
  repeat' first
    | with_reducible exact .refl .. | with_reducible apply Reports.change (State.setSession_changes ..)
    | with_reducible apply Reports.report (State.deliver_reports ..) | with_reducible apply Reports.change (State.setImage_changes ..)
    | with_reducible apply Reports.change (State.applyImage_changes ..) | extract_lets | split | with_reducible refine Reports.ite ?_ ?_
    | with_reducible apply Reports.change (Changes.update (ps := [.dev, .active, .staged, .token, .commit, .persist, .table, .sense, .lanes, .mod, .trip, .hearth, .canc, .loads, .diag, .audio, .crust, .hk, .net, .chain, .fault, .flash]) (Changes.refl _ _))
    | decide

theorem State.imageLate_reports (n : Nat) (s : State) :
    Reports [.active, .staged, .token, .commit, .net] s (State.imageLate n s) := by
  unfold State.imageLate
  repeat' first
    | with_reducible exact .refl .. | with_reducible assumption | with_reducible apply Reports.report (State.raise_reports ..)
    | with_reducible apply Reports.change (State.setImage_changes ..) | with_reducible apply Reports.change (State.timeoutReaction_changes ..)
    | extract_lets | with_reducible refine Reports.ite ?_ ?_ | with_reducible refine Reports.foldl ?_ (fun _ _ => ?_)
    | with_reducible apply Reports.change (Changes.update (ps := [.active, .staged, .token, .commit, .net, .fault, .flash]) (Changes.refl _ _))
    | decide

theorem State.duplicateFrame_reports (f : RxFrame) (iface : Nat) (s : State) :
    Reports [.net] s (State.duplicateFrame f iface s) := by
  unfold State.duplicateFrame
  repeat' first
    | with_reducible exact .refl .. | with_reducible apply Reports.report (State.deliver_reports ..) | extract_lets | split
    | with_reducible refine Reports.ite ?_ ?_
    | with_reducible apply Reports.change (Changes.update (ps := [.net, .fault, .flash]) (Changes.refl _ _)) | decide

theorem State.checkFrame_reports (k : Nat) (x : Session) (f : RxFrame) (p : Packet) (s : State) :
    Reports [.dev, .active, .staged, .commit, .persist, .table, .sense, .mod, .trip, .hearth, .canc, .loads, .diag, .audio, .crust, .hk, .net, .chain] s (State.checkFrame k x f p s) := by
  unfold State.checkFrame
  repeat' first
    | with_reducible exact .refl .. | with_reducible apply Reports.change (State.frameAbort_changes ..)
    | with_reducible apply Reports.report (State.duplicateFrame_reports ..) | with_reducible apply Reports.change (State.enqueue_changes ..)
    | extract_lets | with_reducible refine Reports.ite ?_ ?_
    | with_reducible apply Reports.change (Changes.update (ps := [.dev, .active, .staged, .commit, .persist, .table, .sense, .mod, .trip, .hearth, .canc, .loads, .diag, .audio, .crust, .hk, .net, .chain, .fault, .flash]) (Changes.refl _ _))
    | decide

theorem State.parsedFrame_reports (f : RxFrame) (p : Packet) (s : State) :
    Reports [.dev, .active, .staged, .commit, .persist, .table, .sense, .mod, .trip, .hearth, .canc, .loads, .diag, .audio, .crust, .hk, .net, .chain] s (State.parsedFrame f p s) := by
  unfold State.parsedFrame
  dsimp only
  refine .ite (.of ((Changes.refl [.net] s).update)) ?_
  split
  · exact (State.checkFrame_reports ..).mono
  · exact .of (State.strangeFrame_changes ..)

theorem State.takeYoap_reports (p : Packet) (bytes : List Byte) (s : State) :
    Reports [.dev, .active, .staged, .commit, .persist, .table, .sense, .mod, .trip, .hearth, .canc, .loads, .diag, .audio, .crust, .hk, .net, .chain] s (State.takeYoap p bytes s) := by
  unfold State.takeYoap
  refine .ite (.of (Changes.refl [.net] s).update) ?_
  split
  · exact .of (Changes.refl [.net] s).update
  · exact State.parsedFrame_reports ..

theorem State.yoapFrame_reports (p : Packet) (bytes : List Byte) (s : State) :
    Reports [.dev, .active, .staged, .commit, .persist, .table, .sense, .mod, .trip, .hearth, .canc, .loads, .diag, .audio, .crust, .hk, .net, .chain] s (State.yoapFrame p bytes s) := by
  unfold State.yoapFrame
  extract_lets u
  have h : Changes [.net] s u := State.fresh_changes s
  have hc : Changes [.net] s u.counted := .after (State.counted_changes _) h (by decide)
  refine .ite (.refl ..) ?_
  split
  · exact .of h
  · exact .of (.after (State.notSupported_changes _) hc (by decide))
  · exact .report (State.takeYoap_reports ..) (.of hc) (List.Subset.refl _)

theorem State.imageItem_reports (k n seq : Nat) (p : Packet) (data : List Byte) (s : State) :
    Reports [.dev, .active, .staged, .token, .commit, .persist, .table, .sense, .lanes, .mod, .trip, .hearth, .canc, .loads, .diag, .audio, .crust, .hk, .net, .chain] s (State.imageItem k n seq p data s) := by
  unfold State.imageItem
  repeat' first
    | with_reducible exact .refl .. | with_reducible apply Reports.change (State.unanswered_changes ..)
    | with_reducible apply Reports.change (State.fresh_changes ..) | with_reducible apply Reports.report (State.imageCome_reports ..) | extract_lets
    | split | with_reducible refine Reports.ite ?_ ?_
    | with_reducible apply Reports.change (Changes.update (ps := [.dev, .active, .staged, .token, .commit, .persist, .table, .sense, .lanes, .mod, .trip, .hearth, .canc, .loads, .diag, .audio, .crust, .hk, .net, .chain, .fault, .flash]) (Changes.refl _ _))
    | decide

theorem State.linkDown_reports (port : Nat) (s : State) :
    Reports [.net] s (State.linkDown port s) := by
  unfold State.linkDown
  repeat' first
    | with_reducible exact .refl .. | with_reducible apply Reports.report (State.raise_reports ..) | extract_lets
    | with_reducible refine Reports.ite ?_ ?_
    | with_reducible apply Reports.change (Changes.update (ps := [.net, .fault, .flash]) (Changes.refl _ _)) | decide

theorem State.linkUpSgmii_reports (port : Nat) (s : State) :
    Reports [.net] s (State.linkUpSgmii port s) := by
  unfold State.linkUpSgmii
  repeat' first
    | with_reducible exact .refl .. | with_reducible apply Reports.report (State.networkRestored_reports ..) | extract_lets
    | with_reducible refine Reports.ite ?_ ?_
    | with_reducible apply Reports.change (Changes.update (ps := [.net, .fault, .flash]) (Changes.refl _ _)) | decide

theorem execYoapFrame_reports (p : Packet) (bytes : List Byte) (s : State) :
    ∃ t, execYoapFrame p bytes s = .next t ∧ Reports [.dev, .active, .staged, .commit, .persist, .table, .sense, .mod, .trip, .hearth, .canc, .loads, .diag, .audio, .crust, .hk, .net, .chain] s t := by
  refine ⟨_, rfl, ?_⟩
  repeat' first
    | with_reducible exact .refl .. | with_reducible apply Reports.report (State.yoapFrame_reports ..)
    | with_reducible apply Reports.change (Changes.update (ps := [.dev, .active, .staged, .commit, .persist, .table, .sense, .mod, .trip, .hearth, .canc, .loads, .diag, .audio, .crust, .hk, .net, .chain, .fault, .flash]) (Changes.refl _ _))
    | decide

theorem execImageItem_reports (sess n : Nat) (p : Packet) (seq : Nat) (data : List Byte) (s : State) :
    ∃ t, execImageItem sess n p seq data s = .next t ∧ Reports [.dev, .active, .staged, .token, .commit, .persist, .table, .sense, .lanes, .mod, .trip, .hearth, .canc, .loads, .diag, .audio, .crust, .hk, .net, .chain] s t := by
  refine ⟨_, rfl, ?_⟩
  repeat' first
    | with_reducible exact .refl .. | with_reducible apply Reports.report (State.imageItem_reports ..)
    | with_reducible apply Reports.change (Changes.update (ps := [.dev, .active, .staged, .token, .commit, .persist, .table, .sense, .lanes, .mod, .trip, .hearth, .canc, .loads, .diag, .audio, .crust, .hk, .net, .chain, .fault, .flash]) (Changes.refl _ _))
    | decide

theorem execImageTimeout_reports (n : Nat) (s : State) :
    ∃ t, execImageTimeout n s = .next t ∧ Reports [.active, .staged, .token, .commit, .net] s t := by
  refine ⟨_, rfl, ?_⟩
  repeat' first
    | with_reducible exact .refl .. | with_reducible apply Reports.report (State.imageLate_reports ..)
    | with_reducible apply Reports.change (Changes.update (ps := [.active, .staged, .token, .commit, .net, .fault, .flash]) (Changes.refl _ _))
    | decide

theorem execSgmiiLinkDown_reports (port : Nat) (s : State) :
    ∃ t, execSgmiiLinkDown port s = .next t ∧ Reports [.net] s t := by
  refine ⟨_, rfl, ?_⟩
  repeat' first
    | with_reducible exact .refl .. | with_reducible apply Reports.report (State.linkDown_reports ..)
    | with_reducible apply Reports.change (Changes.update (ps := [.net, .fault, .flash]) (Changes.refl _ _)) | decide

theorem execSgmiiLinkUp_reports (port : Nat) (s : State) :
    ∃ t, execSgmiiLinkUp port s = .next t ∧ Reports [.net] s t := by
  refine ⟨_, rfl, ?_⟩
  repeat' first
    | with_reducible exact .refl .. | with_reducible apply Reports.report (State.linkUpSgmii_reports ..)
    | with_reducible apply Reports.change (Changes.update (ps := [.net, .fault, .flash]) (Changes.refl _ _)) | decide

end Sys2Proof.Machine
end

