-- ==== Sys2Proof/Laws/Store.lean ====
section
/-! SUPPORT. The laws of the object store: a read after a write, what a write leaves alone, and the canonical form that every operation keeps. -/

namespace Sys2Proof.Machine

set_option Elab.async false

/-! ### Lists in order of key -/

theorem ascendingKeys_iff {α : Type} (l : List (Nat × α)) : ascendingKeys l = true ↔ l.Pairwise (fun a b => a.1 < b.1) := by
  induction l with
  | nil => simp [ascendingKeys]
  | cons e l ih =>
    cases l with
    | nil => simp [ascendingKeys]
    | cons f r =>
      simp only [ascendingKeys] at ih ⊢
      rw [Bool.and_eq_true, decide_eq_true_eq, ih, List.pairwise_cons (a := e)]
      constructor
      · rintro ⟨h, hp⟩
        refine ⟨fun x hx => ?_, hp⟩
        rcases List.mem_cons.1 hx with rfl | hx
        · exact h
        · exact Nat.lt_trans h ((List.pairwise_cons.1 hp).1 x hx)
      · rintro ⟨h, hp⟩
        exact ⟨h f (List.mem_cons_self ..), hp⟩

theorem mem_insertKey {α : Type} {k : Nat} {v : α} {l : List (Nat × α)} {e : Nat × α} (h : e ∈ insertKey k v l) : e = (k, v) ∨ e ∈ l := by
  induction l with
  | nil => simpa [insertKey] using h
  | cons f l ih =>
    simp only [insertKey] at h
    split at h
    · simpa using h
    · split at h
      · rcases List.mem_cons.1 h with h | h
        · exact .inl h
        · exact .inr (List.mem_cons_of_mem _ h)
      · rcases List.mem_cons.1 h with h | h
        · exact .inr (h ▸ List.mem_cons_self ..)
        · rcases ih h with h | h
          · exact .inl h
          · exact .inr (List.mem_cons_of_mem _ h)

theorem insertKey_ascending {α : Type} {k : Nat} {v : α} {l : List (Nat × α)} (h : ascendingKeys l = true) : ascendingKeys (insertKey k v l) = true := by
  rw [ascendingKeys_iff] at h ⊢
  induction l with
  | nil => simp [insertKey]
  | cons f l ih =>
    have hp := List.pairwise_cons.1 h
    simp only [insertKey]
    split
    · rename_i hk
      refine List.pairwise_cons.2 ⟨fun x hx => ?_, h⟩
      rcases List.mem_cons.1 hx with rfl | hx
      · exact hk
      · exact Nat.lt_trans hk (hp.1 x hx)
    · split
      · rename_i hk
        exact List.pairwise_cons.2 ⟨fun x hx => hk ▸ hp.1 x hx, hp.2⟩
      · rename_i h1 h2
        refine List.pairwise_cons.2 ⟨fun x hx => ?_, ih hp.2⟩
        rcases mem_insertKey hx with rfl | hx
        · exact Nat.lt_of_le_of_ne (Nat.le_of_not_lt h1) (fun e => h2 e.symm)
        · exact hp.1 x hx

theorem filter_ascending {α : Type} {p : Nat × α → Bool} {l : List (Nat × α)} (h : ascendingKeys l = true) : ascendingKeys (l.filter p) = true := by
  rw [ascendingKeys_iff] at h ⊢
  exact h.filter p

theorem lookup_insertKey {α : Type} (k : Nat) (v : α) (l : List (Nat × α)) : lookupKey (insertKey k v l) k = some v := by
  induction l with
  | nil => simp [insertKey, lookupKey]
  | cons f l ih =>
    simp only [insertKey]
    split
    · simp [lookupKey]
    · split
      · simp [lookupKey]
      · rename_i h2
        have hf : (f.1 == k) = false := by simpa using fun e => h2 e.symm
        simpa [lookupKey, hf] using ih

theorem lookup_insertKey_ne {α : Type} {k j : Nat} (v : α) (l : List (Nat × α)) (h : j ≠ k) : lookupKey (insertKey k v l) j = lookupKey l j := by
  have hk : (k == j) = false := by simpa using fun e => h e.symm
  induction l with
  | nil => simp [insertKey, lookupKey, hk]
  | cons f l ih =>
    simp only [insertKey]
    split
    · simp [lookupKey, List.find?_cons, hk]
    · split
      · rename_i e
        have hf : (f.1 == j) = false := by rw [← e]; exact hk
        simp [lookupKey, List.find?_cons, hk, hf]
      · by_cases hf : (f.1 == j) = true
        · simp [lookupKey, hf]
        · simp only [Bool.not_eq_true] at hf
          simpa [lookupKey, hf] using ih

theorem lookup_eraseKey {α : Type} (l : List (Nat × α)) (k : Nat) : lookupKey (eraseKey l k) k = none := by
  simp [lookupKey, eraseKey, List.find?_filter]

theorem lookup_eraseKey_ne {α : Type} {k j : Nat} (l : List (Nat × α)) (h : j ≠ k) : lookupKey (eraseKey l k) j = lookupKey l j := by
  unfold lookupKey eraseKey
  rw [List.find?_filter]
  congr 2
  funext e
  by_cases he : e.1 = j
  · simp [he, h]
  · simp [he]

/-! ### Reads after writes -/

namespace Store

@[simp] theorem raw_put (st : Store) (k v : Nat) : (st.put k v).raw k = v := by
  unfold put raw
  split
  · rename_i h; simp [lookup_eraseKey, h]
  · simp [lookup_insertKey]

theorem raw_put_ne (st : Store) {k j : Nat} (v : Nat) (h : j ≠ k) : (st.put k v).raw j = st.raw j := by
  unfold put raw
  split
  · simp [lookup_eraseKey_ne _ h]
  · simp [lookup_insertKey_ne _ _ h]

@[simp] theorem blob_put (st : Store) (k v j : Nat) : (st.put k v).blob j = st.blob j := rfl

@[simp] theorem blob_putBlob (st : Store) (k : Nat) (v : List Byte) : (st.putBlob k v).blob k = v := by
  unfold putBlob blob
  split
  · rename_i h; simp [lookup_eraseKey, h]
  · simp [lookup_insertKey]

theorem blob_putBlob_ne (st : Store) {k j : Nat} (v : List Byte) (h : j ≠ k) : (st.putBlob k v).blob j = st.blob j := by
  unfold putBlob blob
  split
  · simp [lookup_eraseKey_ne _ h]
  · simp [lookup_insertKey_ne _ _ h]

@[simp] theorem raw_putBlob (st : Store) (k : Nat) (v : List Byte) (j : Nat) : (st.putBlob k v).raw j = st.raw j := rfl

/-! ### The canonical form -/

theorem wf_iff (st : Store) : st.wf = true ↔
    ascendingKeys st.vals = true ∧ ascendingKeys st.blobs = true ∧ (∀ e ∈ st.vals, e.2 ≠ objDefault e.1) ∧ ∀ e ∈ st.blobs, e.2 ≠ [] := by
  simp [wf, and_assoc, bne_iff_ne]

theorem put_wf {st : Store} (h : st.wf = true) (k v : Nat) : (st.put k v).wf = true := by
  rw [wf_iff] at h ⊢
  obtain ⟨h1, h2, h3, h4⟩ := h
  unfold put
  split
  · exact ⟨filter_ascending h1, h2, fun e he => h3 e (List.mem_filter.1 he).1, h4⟩
  · rename_i hv
    refine ⟨insertKey_ascending h1, h2, fun e he => ?_, h4⟩
    rcases mem_insertKey he with rfl | he
    · exact hv
    · exact h3 e he

theorem putBlob_wf {st : Store} (h : st.wf = true) (k : Nat) (v : List Byte) : (st.putBlob k v).wf = true := by
  rw [wf_iff] at h ⊢
  obtain ⟨h1, h2, h3, h4⟩ := h
  unfold putBlob
  split
  · exact ⟨h1, filter_ascending h2, h3, fun e he => h4 e (List.mem_filter.1 he).1⟩
  · rename_i hv
    refine ⟨h1, insertKey_ascending h2, h3, fun e he => ?_⟩
    rcases mem_insertKey he with rfl | he
    · exact hv
    · exact h4 e he

/-- What a merge's list is made of, and that it stays in order. -/
theorem mergeList_wf {α : Type} (p : Nat → Bool) (P : Nat × α → Prop) (src dst : List (Nat × α)) (hs : ∀ e ∈ src, P e) (hd : ∀ e ∈ dst, P e)
    (ha : ascendingKeys dst = true) :
    ascendingKeys (src.foldl (fun a e => if p e.1 then insertKey e.1 e.2 a else a) dst) = true
      ∧ ∀ e ∈ src.foldl (fun a e => if p e.1 then insertKey e.1 e.2 a else a) dst, P e := by
  induction src generalizing dst with
  | nil => exact ⟨ha, hd⟩
  | cons f l ih =>
    simp only [List.foldl_cons]
    refine ih _ (fun e he => hs e (List.mem_cons_of_mem _ he)) ?_ ?_
    · intro e he
      split at he
      · rcases mem_insertKey he with rfl | he
        · exact hs f (List.mem_cons_self ..)
        · exact hd e he
      · exact hd e he
    · split
      · exact insertKey_ascending ha
      · exact ha

theorem merge_wf {src dst : Store} (p : Nat → Bool) (hs : src.wf = true) (hd : dst.wf = true) : (merge p src dst).wf = true := by
  rw [wf_iff] at hs hd ⊢
  obtain ⟨_, _, s3, s4⟩ := hs
  obtain ⟨d1, d2, d3, d4⟩ := hd
  have hv := mergeList_wf p (fun e => e.2 ≠ objDefault e.1) src.vals (dst.vals.filter (fun e => !p e.1)) s3
    (fun e he => d3 e (List.mem_filter.1 he).1) (filter_ascending d1)
  have hb := mergeList_wf p (fun e => e.2 ≠ ([] : List Byte)) src.blobs (dst.blobs.filter (fun e => !p e.1)) s4
    (fun e he => d4 e (List.mem_filter.1 he).1) (filter_ascending d2)
  exact ⟨hv.1, hb.1, hv.2, hb.2⟩

/-- A fold of writes keeps the canonical form. -/
theorem foldl_wf {α : Type} (f : Store → α → Store) (hf : ∀ c x, c.wf = true → (f c x).wf = true) (l : List α) {st : Store} (h : st.wf = true) :
    (l.foldl f st).wf = true := by
  induction l generalizing st with
  | nil => exact h
  | cons x l ih => exact ih (hf st x h)

theorem default_wf : ({} : Store).wf = true := rfl

end Store

end Sys2Proof.Machine
end

