-- ==== Sys2Proof/Laws/Sound.lean ====
section
/-! SUPPORT. How soundness passes along the steps of a definition, and the laws of what writes the stores, the token and the banks. -/

namespace Sys2Proof.Machine

set_option Elab.async false

/-! ### Firmware banks -/

theorem flashWf_iff (m : List Host.Cell) : flashWf m = true ↔ ascendingKeys m = true ∧ ∀ e ∈ m, e.2 ≠ 0xFF := by
  simp [flashWf, bne_iff_ne]

theorem flashWrite_wf {m : List Host.Cell} (h : flashWf m = true) (a : Nat) (v : Byte) : flashWf (flashWrite m a v) = true := by
  rw [flashWf_iff] at h ⊢
  unfold flashWrite
  split
  · exact ⟨filter_ascending h.1, fun e he => h.2 e (List.mem_filter.1 he).1⟩
  · rename_i hv
    refine ⟨insertKey_ascending h.1, fun e he => ?_⟩
    rcases mem_insertKey he with rfl | he
    · exact hv
    · exact h.2 e he

theorem flashProgram_wf {m : List Host.Cell} (h : flashWf m = true) (a : Nat) (l : List Byte) : flashWf (flashProgram m a l) = true := by
  induction l generalizing m a with
  | nil => exact h
  | cons b l ih => exact ih (flashWrite_wf h a b) (a + 1)

theorem flashFilter_wf {m : List Host.Cell} (h : flashWf m = true) (p : Host.Cell → Bool) : flashWf (m.filter p) = true := by
  rw [flashWf_iff] at h ⊢
  exact ⟨filter_ascending h.1, fun e he => h.2 e (List.mem_filter.1 he).1⟩

/-! ### Stores -/

theorem Store.put_fold_wf {α : Type} {f : Store → α → Store} (hf : ∀ c x, c.wf = true → (f c x).wf = true) (l : List α) {c : Store} (h : c.wf = true) :
    (l.foldl f c).wf = true := by
  induction l generalizing c with
  | nil => exact h
  | cons x l ih => exact ih (hf c x h)

theorem Store.mend_wf (v : Nat → Nat → Nat) {a : Store} (h : a.wf = true) : (a.mend v).wf = true := by
  refine Store.put_fold_wf (fun c x hc => ?_) _ h
  split
  · split
    · exact Store.put_wf hc ..
    · exact hc
  · exact hc

theorem Store.heal_wf {a : Store} (b : Store) (h : a.wf = true) : (a.heal b).wf = true := Store.mend_wf _ h

/-! ### Soundness along a step -/

namespace Sound

/-- A step that touches none of what soundness speaks of keeps it. -/
theorem after {ps : List Part} {s t : State} (c : Changes ps s t) (h : Sound s)
    (hp : ∀ p ∈ [Part.mode, .active, .staged, .token, .banks], p ∉ ps) : Sound t := by
  have k (p : Part) (h : p ∈ [Part.mode, .active, .staged, .token, .banks]) := c.same p (hp p h)
  have a := k .active (by decide)
  have b := k .banks (by decide)
  have st := k .staged (by decide)
  have tok := k .token (by decide)
  have mo := k .mode (by decide)
  simp only [Part.same] at a b st tok mo
  exact ⟨a.1 ▸ h.active, a.2.1 ▸ h.active2, a.2.2 ▸ h.passed, st ▸ h.staged, b.1 ▸ h.bankA, b.2 ▸ h.bankB, tok ▸ h.token, mo ▸ h.mode⟩

theorem ite {s t : State} {c : Prop} [Decidable c] (h : Sound s) (k : Sound t) : Sound (if c then s else t) := by
  split
  · exact h
  · exact k

theorem foldl {α : Type} {t : State} {f : State → α → State} {l : List α} (h : Sound t) (k : ∀ x u, Sound u → Sound (f u x)) : Sound (l.foldl f t) := by
  induction l generalizing t with
  | nil => exact h
  | cons x l ih => exact ih (k x t h)

/-- A record update keeps soundness where each part of which soundness speaks keeps its own. -/
theorem update {t : State} (h : Sound t) {p : List Instr} {v : DevState} {fr : FrameState} {a a2 pa st : Store} {c : CommitState} {pe : PersistState}
    {ta : TableState} {se : SenseState} {ct : List MachCtl} {la : LaneState} {mo : ModState} {tr : TripState} {he : HearthState} {ca : CancState}
    {lo : List LoadModel} {di : DiagState} {au : AudioState} {cr : CrustState} {fa : FaultState} {hk : HkState} {ne : NetState} {be : BenchState}
    {ch : ChainState} {fl : FlashState}
    (h1 : v.state ≤ 8 ∨ v.state = t.dev.state := by first | with_reducible exact .inr rfl | exact .inl (Nat.le_of_ble_eq_true rfl))
    (h2 : a.wf = true ∨ a = t.active := by with_reducible exact .inr rfl)
    (h3 : a2.wf = true ∨ a2 = t.active2 := by with_reducible exact .inr rfl)
    (h4 : st.wf = true ∨ st = t.staged ∨ st = t.active := by first | with_reducible exact .inr (.inl rfl) | with_reducible exact .inr (.inr rfl))
    (h5 : (1 ≤ c.token ∧ c.token ≤ 65535) ∨ c.token = t.commit.token := by with_reducible exact .inr rfl)
    (h7 : pa.wf = true ∨ pa = t.passed := by with_reducible exact .inr rfl)
    (h6 : (flashWf fl.bankA.image = true ∧ flashWf fl.bankB.image = true) ∨ (fl.bankA.image = t.flash.bankA.image ∧ fl.bankB.image = t.flash.bankB.image) := by
      first
        | with_reducible exact .inr ⟨rfl, rfl⟩
        | (refine .inr ⟨?_, ?_⟩ <;> (simp; done))
        | (refine .inr ⟨?_, ?_⟩ <;> (simp +zetaDelta; done))) :
    Sound ⟨p, v, fr, a, a2, pa, st, c, pe, ta, se, ct, la, mo, tr, he, ca, lo, di, au, cr, fa, hk, ne, be, ch, fl⟩ := by
  refine ⟨h2.elim id (fun e => e ▸ h.active), h3.elim id (fun e => e ▸ h.active2), h7.elim id (fun e => e ▸ h.passed), ?_, ?_, ?_, h5.elim id (fun e => e ▸ h.token), h1.elim id (fun e => e ▸ h.mode)⟩
  · rcases h4 with h4 | h4 | h4
    · exact h4
    · exact h4 ▸ h.staged
    · exact h4 ▸ h.active
  · exact h6.elim (·.1) (fun e => by simpa [e.1] using h.bankA)
  · exact h6.elim (·.2) (fun e => by simpa [e.2] using h.bankB)

/-- An operation on the active values that keeps a store's form keeps soundness. -/
theorem onActive {t : State} {f : Store → Store} (h : Sound t) (hf : ∀ c, c.wf = true → (f c).wf = true) : Sound (t.onActive f) :=
  h.update (h2 := .inl (hf _ h.active)) (h3 := .inl (hf _ h.active2)) (h7 := .inl (hf _ h.passed))

end Sound

end Sys2Proof.Machine
end

