-- ==== Sys2Proof/Laws/SoundDevice.lean ====
section
/-! SUPPORT. The operations of the device keep a sound state, from the shared ones to the Bench port. -/

namespace Sys2Proof.Machine

set_option Elab.async false

theorem State.putActive_sound (key raw : Nat) {s : State} (h : Sound s) :
    Sound (State.putActive key raw s) := by
  exact h.onActive fun _ hc => Store.put_wf hc ..

theorem State.moveToken_sound {s : State} (h : Sound s) :
    Sound (State.moveToken s) := by
  refine h.update (h5 := .inl ?_)
  have := h.token
  dsimp only
  split <;> omega

theorem State.goState_sound (dst cause : Nat) (own : Bool) {s : State} (h : Sound s) (ht : dst ≤ 8 := by decide) :
    Sound (State.goState dst cause own s) := by
  unfold State.goState
  refine Sound.after (State.tapLog_changes ..) ?_ (by decide)
  exact h.update (h1 := .inl ht)

theorem State.zeroModes_sound {s : State} (h : Sound s) : Sound (State.zeroModes s) :=
  Sound.ite h (State.putActive_sound _ _ (State.putActive_sound _ _ h))

theorem State.bedrockStops_sound (byVote : Bool) {s : State} (h : Sound s) :
    Sound (State.bedrockStops byVote s) := by
  unfold State.bedrockStops
  repeat' first
    | with_reducible assumption | extract_lets | with_reducible refine Sound.update ?_ | decide

theorem State.enterBedrock_sound (cause group : Nat) (byVote : Bool) {s : State} (h : Sound s) :
    Sound (State.enterBedrock cause group byVote s) := by
  unfold State.enterBedrock
  repeat' first
    | with_reducible assumption | with_reducible apply Sound.after (State.logEvent_changes ..)
    | with_reducible apply Sound.after (State.closeSessions_changes ..) | with_reducible apply State.goState_sound
    | with_reducible apply Sound.after (State.retainBedrock_changes ..) | with_reducible apply Sound.after (State.hardStates_changes ..)
    | with_reducible apply Sound.after (State.twinHandOff_changes ..) | with_reducible apply State.bedrockStops_sound | extract_lets
    | with_reducible refine Sound.ite ?_ ?_ | with_reducible refine Sound.update ?_ | decide

theorem State.singleFault_sound (code group detail : Nat) {s : State} (h : Sound s) :
    Sound (State.singleFault code group detail s) := by
  unfold State.singleFault
  repeat' first
    | with_reducible assumption | with_reducible apply Sound.after (State.logEvent_changes ..) | with_reducible apply State.enterBedrock_sound
    | extract_lets | with_reducible refine Sound.ite ?_ ?_ | with_reducible refine Sound.update ?_ | decide

theorem State.raise_sound (g : Signal) {s : State} (h : Sound s) :
    Sound (State.raise g s) := by
  unfold State.raise
  repeat' first
    | with_reducible assumption | with_reducible apply State.enterBedrock_sound | with_reducible apply State.singleFault_sound | extract_lets | split
    | with_reducible refine Sound.update ?_ | decide

theorem State.raiseAll_sound (l : List Signal) {s : State} (h : Sound s) :
    Sound (State.raiseAll l s) := by
  unfold State.raiseAll
  repeat' first
    | with_reducible assumption | with_reducible apply State.raise_sound | with_reducible refine Sound.foldl ?_ (fun _ _ _ => ?_)
    | with_reducible refine Sound.update ?_ | decide

theorem State.thermalStop_sound (hard : Bool) {s : State} (h : Sound s) :
    Sound (State.thermalStop hard s) := by
  unfold State.thermalStop
  repeat' first
    | with_reducible assumption | with_reducible apply State.goState_sound | with_reducible apply Sound.after (State.twinLeave_changes ..)
    | extract_lets | with_reducible refine Sound.ite ?_ ?_ | with_reducible refine Sound.update ?_ | decide

theorem State.thermalRelease_sound {s : State} (h : Sound s) :
    Sound (State.thermalRelease s) := by
  unfold State.thermalRelease
  repeat' first
    | with_reducible assumption | with_reducible apply State.goState_sound | extract_lets | with_reducible refine Sound.update ?_ | decide

theorem State.repairStore_sound {s : State} (h : Sound s) :
    Sound (State.repairStore s) := by
  unfold State.repairStore
  extract_lets a b u
  have hu : Sound u := State.raise_sound _ (h.update (h2 := .inl (Store.heal_wf _ h.active)) (h3 := .inl (Store.heal_wf _ h.active2)))
  exact Sound.ite h (Sound.ite hu (State.raise_sound _ hu))

theorem State.laneStart_sound {s : State} (h : Sound s) :
    Sound (State.laneStart s) := by
  unfold State.laneStart
  repeat' first
    | with_reducible assumption | with_reducible apply State.repairStore_sound | with_reducible apply Sound.after (State.latchMachine_changes ..)
    | extract_lets | with_reducible refine Sound.ite ?_ ?_ | with_reducible refine Sound.update ?_ | decide

theorem State.vote_sound (copies : Bool) {s : State} (h : Sound s) :
    Sound (State.vote copies s) := by
  unfold State.vote
  repeat' first
    | with_reducible assumption | with_reducible apply State.raise_sound | with_reducible apply State.raiseAll_sound
    | with_reducible apply Sound.after (State.voteUse_changes ..) | with_reducible apply Sound.after (State.voteEnds_changes ..) | extract_lets
    | with_reducible refine Sound.ite ?_ ?_ | with_reducible refine Sound.update ?_ | decide

theorem State.linkDone_sound (link : Nat) (rx : List Nat) {s : State} (h : Sound s) :
    Sound (State.linkDone link rx s) := by
  unfold State.linkDone
  repeat' first
    | with_reducible assumption | with_reducible apply State.raise_sound | with_reducible apply Sound.after (State.gdlSource_changes ..)
    | with_reducible apply Sound.after (State.setLink_changes ..) | extract_lets | split | with_reducible refine Sound.ite ?_ ?_
    | with_reducible refine Sound.update ?_ | decide

theorem State.stageDerived_wf (p : Nat → Bool) (key : Nat) (fields : List (Nat × Nat)) {st : Store} (h : st.wf = true) :
    (State.stageDerived p key fields st).wf = true := by
  unfold State.stageDerived
  refine Store.put_fold_wf (fun c x hc => ?_) _ h
  split
  · exact Store.put_wf hc ..
  · exact hc

theorem State.acceptAction_sound (key raw : Nat) {s : State} (h : Sound s) : Sound (State.acceptAction key raw s) := h.update

theorem State.acceptWrite_sound (key raw : Nat) {s : State} (h : Sound s) :
    Sound (State.acceptWrite key raw s) := by
  unfold State.acceptWrite
  extract_lets
  exact State.moveToken_sound (h.update (h4 := .inl (State.stageDerived_wf _ _ _ h.staged)))

theorem State.applyValue_sound (w : PendWrite) {s : State} (h : Sound s) :
    Sound (State.applyValue w s) := by
  unfold State.applyValue
  extract_lets c fields all u
  have hu : Sound u := Sound.foldl h fun _ _ hu => State.putActive_sound _ _ hu
  exact hu.update (h4 := .inl (State.stageDerived_wf _ _ _ hu.staged))

theorem State.applyPart_sound (w : PendWrite) {s : State} (h : Sound s) :
    Sound (State.applyPart w s) := by
  unfold State.applyPart
  exact Sound.ite (Sound.after (State.actAtBoundary_changes ..) h (by decide)) (State.applyValue_sound _ h)

theorem State.applyCommit_sound (p : PendCommit) {s : State} (h : Sound s) :
    Sound (State.applyCommit p s) := by
  exact (h.onActive fun _ hc => Store.merge_wf _ h.staged hc).update

theorem State.boundary_sound (groups wait : Nat) {s : State} (h : Sound s) :
    Sound (State.boundary groups wait s).1 := by
  unfold State.boundary
  repeat' first
    | with_reducible assumption | with_reducible apply State.applyPart_sound | with_reducible apply State.applyCommit_sound | extract_lets | split
    | dsimp only | with_reducible refine Sound.foldl ?_ (fun _ _ _ => ?_) | with_reducible refine Sound.update ?_ | decide

theorem State.commitEnd_sound (k : Checking) {s : State} (h : Sound s) :
    Sound (State.commitEnd k s).1 := by
  unfold State.commitEnd
  extract_lets outcome c u c2
  have hu : Sound u := State.moveToken_sound h.update
  refine hu.update (h5 := .inl ?_)
  have := hu.token
  split <;> exact this

theorem State.discardStaged_sound (mask : Nat) {s : State} (h : Sound s) :
    Sound (State.discardStaged mask s) := by
  exact State.moveToken_sound (h.update (h4 := .inl (Store.merge_wf _ h.active h.staged)))

theorem State.stage_sound (key raw : Nat) {s : State} (h : Sound s) :
    Sound (State.stage key raw s) := by
  exact State.moveToken_sound (h.update (h4 := .inl (Store.put_wf h.staged ..)))

theorem State.stageBlob_sound (key : Nat) (v : List Byte) {s : State} (h : Sound s) :
    Sound (State.stageBlob key v s) := by
  exact State.moveToken_sound (h.update (h4 := .inl (Store.putBlob_wf h.staged ..)))

theorem State.sensed_sound (r : SenseState × List Signal) {s : State} (h : Sound s) :
    Sound (State.sensed r s) := by
  unfold State.sensed
  repeat' first
    | with_reducible assumption | with_reducible apply State.raiseAll_sound | extract_lets | with_reducible refine Sound.ite ?_ ?_
    | with_reducible refine Sound.update ?_ | decide

theorem State.windows_sound (ws : List PathWindow) (mismatch : Bool) {s : State} (h : Sound s) :
    Sound (State.windows ws mismatch s) := by
  unfold State.windows
  repeat' first
    | with_reducible assumption | with_reducible apply State.sensed_sound | extract_lets | split | with_reducible refine Sound.update ?_ | decide

theorem State.twinRecord_sound (m : Nat) (paths : List (Nat × Int)) (hits : List (Nat × Bool × Bool)) {s : State} (h : Sound s) :
    Sound (State.twinRecord m paths hits s) := by
  unfold State.twinRecord
  repeat' first
    | with_reducible assumption | with_reducible apply Sound.after (State.tripTo_changes ..) | with_reducible apply State.sensed_sound | extract_lets
    | with_reducible refine Sound.foldl ?_ (fun _ _ _ => ?_) | with_reducible refine Sound.update ?_ | decide

theorem State.reportAmbiguous_sound (hb : Nat) {s : State} (h : Sound s) :
    Sound (State.reportAmbiguous hb s) := by
  unfold State.reportAmbiguous
  repeat' first
    | with_reducible assumption | with_reducible apply State.raise_sound | extract_lets | with_reducible refine Sound.ite ?_ ?_
    | with_reducible refine Sound.update ?_ | decide

theorem State.pathEligible_sound (sd : Nat) {s : State} (h : Sound s) :
    Sound (State.pathEligible sd s) := by
  unfold State.pathEligible
  repeat' first
    | with_reducible assumption | with_reducible apply State.raiseAll_sound | extract_lets | split | with_reducible refine Sound.ite ?_ ?_
    | with_reducible refine Sound.update ?_ | decide

theorem State.speakerSense_sound (w : PathWindow) {s : State} (h : Sound s) :
    Sound (State.speakerSense w s) := by
  unfold State.speakerSense
  repeat' first
    | with_reducible assumption | with_reducible apply State.raise_sound | extract_lets | with_reducible refine Sound.ite ?_ ?_
    | with_reducible refine Sound.update ?_ | decide

theorem State.resolver_sound (n : Nat) (o : ResolverStep) {s : State} (h : Sound s) :
    Sound (State.resolver n o s) := by
  unfold State.resolver
  repeat' first
    | with_reducible assumption | with_reducible apply State.raiseAll_sound | extract_lets | with_reducible refine Sound.update ?_ | decide

theorem State.encoder_sound (n : Nat) (a b z : Bool) {s : State} (h : Sound s) :
    Sound (State.encoder n a b z s) := by
  unfold State.encoder
  repeat' first
    | with_reducible assumption | with_reducible apply State.raiseAll_sound | extract_lets | with_reducible refine Sound.ite ?_ ?_
    | with_reducible refine Sound.update ?_ | decide

theorem State.ssi_sound (n : Nat) (o : SsiRead) {s : State} (h : Sound s) :
    Sound (State.ssi n o s) := by
  unfold State.ssi
  repeat' first
    | with_reducible assumption | with_reducible apply State.raiseAll_sound | extract_lets | with_reducible refine Sound.ite ?_ ?_
    | with_reducible refine Sound.update ?_ | decide

theorem State.latchPos_sound (m tc : Nat) {s : State} (h : Sound s) :
    Sound (State.latchPos m tc s) := by
  unfold State.latchPos
  repeat' first
    | with_reducible assumption | with_reducible apply State.raise_sound | extract_lets | with_reducible refine Sound.ite ?_ ?_
    | with_reducible refine Sound.update ?_ | decide

theorem State.identTable_sound {s : State} (h : Sound s) :
    Sound (State.identTable s) := by
  unfold State.identTable
  split
  · exact h
  · exact State.moveToken_sound ((h.onActive fun _ hc => Store.putBlob_wf hc ..).update (h4 := .inl (Store.putBlob_wf h.staged ..)))

theorem State.aspSettings_sound (n : Nat) {s : State} (h : Sound s) :
    Sound (State.aspSettings n s) := by
  unfold State.aspSettings
  repeat' first
    | with_reducible assumption | with_reducible apply State.boundary_sound | extract_lets | with_reducible refine Sound.update ?_ | decide

theorem State.aspAtBlock_sound {s : State} (h : Sound s) :
    Sound (State.aspAtBlock s) := by
  unfold State.aspAtBlock
  repeat' first
    | with_reducible assumption | with_reducible apply State.aspSettings_sound | extract_lets | with_reducible refine Sound.ite ?_ ?_
    | with_reducible refine Sound.foldl ?_ (fun _ _ _ => ?_) | with_reducible refine Sound.update ?_ | decide

theorem State.hearthSettings_sound {s : State} (h : Sound s) :
    Sound (State.hearthSettings s).1 := by
  unfold State.hearthSettings
  repeat' first
    | with_reducible assumption | with_reducible apply State.boundary_sound | with_reducible apply Sound.after (State.chimePlays_changes ..)
    | with_reducible apply Sound.after (State.chimeChange_changes ..) | with_reducible apply Sound.after (State.micSettings_changes ..)
    | with_reducible apply State.identTable_sound | with_reducible apply State.aspAtBlock_sound | extract_lets | split | dsimp only
    | with_reducible refine Sound.update ?_ | decide

theorem State.sensorFaults_sound {s : State} (h : Sound s) :
    Sound (State.sensorFaults s) := by
  unfold State.sensorFaults
  repeat' first
    | with_reducible assumption | with_reducible apply State.raiseAll_sound | extract_lets | with_reducible refine Sound.ite ?_ ?_
    | with_reducible refine Sound.update ?_ | decide

theorem State.hearthStep_sound (mics : List (List Int)) (blocks : List SensorBlock) {s : State} (h : Sound s) :
    Sound (State.hearthStep mics blocks s) := by
  unfold State.hearthStep
  extract_lets settled cancelled u v w
  have hu : Sound u := State.sensorFaults_sound (.after (State.orderMonitors_changes ..) (.after (State.cancellers_changes ..)
    (.after (State.tapBoundary_changes ..) (.after (State.meanCurrents_changes ..) (State.hearthSettings_sound h) (by decide)) (by decide)) (by decide)) (by decide))
  have hv : Sound v := .after (State.blockJob_changes ..) (.after (State.blockParts_changes ..) hu (by decide)) (by decide)
  exact .after (State.blockProcess_changes ..) (.after (State.streamBoundary_changes ..) hv.update (by decide)) (by decide)

theorem State.hearthBoundary_sound (pdm : List (List Bool)) {s : State} (h : Sound s) :
    Sound (State.hearthBoundary pdm s) := by
  unfold State.hearthBoundary
  repeat' first
    | with_reducible assumption | with_reducible apply State.identTable_sound | with_reducible apply Sound.after (State.sensorBoundary_changes ..)
    | with_reducible apply State.sensorFaults_sound | with_reducible apply Sound.after (State.tapBoundary_changes ..)
    | with_reducible apply State.hearthStep_sound | extract_lets | with_reducible refine Sound.ite ?_ ?_ | with_reducible refine Sound.update ?_
    | decide

theorem State.updateStart_sound {s : State} (h : Sound s) : Sound (State.updateStart s) := by
  unfold State.updateStart
  extract_lets t
  exact .ite h (State.laneStart_sound (.after (State.completeFor_changes ..) h (by decide)))

theorem State.aspFrame_sound (n : Nat) (cycles : List BitCycle) {s : State} (h : Sound s) :
    Sound (State.aspFrame n cycles s) := by
  unfold State.aspFrame
  exact .ite h (.after (State.aspSend_changes ..) (.after (State.aspLeadOut_changes ..) (State.aspSettings_sound _
    (.after (State.setPort_changes ..) h (by decide))) (by decide)) (by decide))

theorem State.lossOfMark_sound {s : State} (h : Sound s) :
    Sound (State.lossOfMark s) := by
  unfold State.lossOfMark
  repeat' first
    | with_reducible assumption | with_reducible apply State.raise_sound | with_reducible apply Sound.after (State.succeed_changes ..) | extract_lets
    | with_reducible refine Sound.ite ?_ ?_ | with_reducible refine Sound.update ?_ | decide

theorem State.splitRecord_sound (m : Nat) (r : SplitRecord) {s : State} (h : Sound s) :
    Sound (State.splitRecord m r s) := by
  unfold State.splitRecord
  repeat' first
    | with_reducible assumption | with_reducible apply State.twinRecord_sound | extract_lets | with_reducible refine Sound.ite ?_ ?_
    | with_reducible refine Sound.update ?_ | decide

namespace FlashState

/-- Both banks' images have their canonical form. -/
def ImagesWf (f : FlashState) : Prop := flashWf f.bankA.image = true ∧ flashWf f.bankB.image = true

theorem ImagesWf.of_banks {f g : FlashState} (h : f.ImagesWf) (e : g.banks = f.banks) : g.ImagesWf := by
  unfold ImagesWf
  rw [bankA_of e, bankB_of e]
  exact h

theorem setBank_images {f : FlashState} (h : f.ImagesWf) (b : Bool) {g : FlashBank → FlashBank}
    (hg : ∀ x, flashWf x.image = true → flashWf (g x).image = true) : (f.setBank b g).ImagesWf := by
  unfold setBank
  split
  · exact ⟨h.1, hg _ h.2⟩
  · exact ⟨hg _ h.1, h.2⟩

theorem completed_images {f : FlashState} (h : f.ImagesWf) (k : FlashKind) (n : Nat) : (f.completed k n).ImagesWf := by
  unfold completed
  split
  · split
    · exact h.of_banks (store_banks ..)
    · exact h
  · split
    · exact h.of_banks (store_banks ..)
    · exact h
  · exact h
  · exact h.of_banks (starterPhase_banks ..)
  · exact h
  · exact h
  · exact setBank_images h _ fun x hx => flashProgram_wf hx ..

theorem startNext_images {f : FlashState} (h : f.ImagesWf) (b : Bool) : (f.startNext b).ImagesWf := h.of_banks (startNext_banks ..)

theorem operationDone_images {f : FlashState} (h : f.ImagesWf) (b ok : Bool) : (f.operationDone b ok).ImagesWf := by
  unfold operationDone
  split
  · exact h
  · dsimp only
    split
    · refine startNext_images ?_ b
      split <;> exact h
    · refine startNext_images ?_ b
      rename_i j _ _
      have hc : (completed j.kind (j.left - 1) { f with current := none }).ImagesWf := completed_images (f := { f with current := none }) h ..
      split <;> first | exact hc | (split <;> exact hc)

theorem wantUpdate_images {f : FlashState} (h : f.ImagesWf) (b : Bool) : (f.wantUpdate b).ImagesWf := h.of_banks (wantUpdate_banks ..)

theorem actionDone_images {f : FlashState} (h : f.ImagesWf) (a : Nat) (ok : Bool) : (State.actionDone a ok f).ImagesWf := by
  unfold State.actionDone
  extract_lets
  split
  · split
    · exact setBank_images h _ fun _ _ => rfl
    · exact h
  · exact setBank_images h _ fun _ hx => hx
  · split
    · exact setBank_images h _ fun _ hx => hx
    · exact h
  · split
    · exact setBank_images h _ fun _ hx => hx
    · exact h

end FlashState

theorem State.importStore_wf (l : List (Nat × Bool × Nat)) {c : Store} (h : c.wf = true) : (State.importStore l c).wf = true :=
  Store.put_fold_wf (fun _ _ hc => Store.put_wf hc ..) _ h

theorem State.flashDone_sound (ok : Bool) {s : State} (h : Sound s) :
    Sound (State.flashDone ok s) := by
  unfold State.flashDone
  split
  · exact h
  · extract_lets u v
    have hu : Sound u := h.update (h6 := .inl (FlashState.wantUpdate_images (FlashState.operationDone_images ⟨h.bankA, h.bankB⟩ ..) _))
    have hv : Sound v := by
      dsimp only [v]
      split
      · exact .ite (Sound.after (State.logEvent_changes ..) hu (by decide)) hu
      · exact hu
    exact .ite hv.update hv

theorem State.starterImport_sound (l : List (Nat × Bool × Nat)) {s : State} (h : Sound s) :
    Sound (State.starterImport l s) := by
  exact State.moveToken_sound (h.update (h4 := .inl (State.importStore_wf l h.staged)))

theorem State.updateDone_sound (ok : Bool) {s : State} (h : Sound s) :
    Sound (State.updateDone ok s) := by
  unfold State.updateDone
  split
  · exact h
  · exact Sound.after (State.updateLog_changes ..) (h.update (h6 := .inl (FlashState.actionDone_images ⟨h.bankA, h.bankB⟩ ..))) (by decide)

namespace FlashState

theorem markSector_banks (n : Nat) (f : FlashState) : (f.markSector n).banks = f.banks := by
  unfold markSector
  split <;> rfl

theorem markSector_images {f : FlashState} (h : f.ImagesWf) (n : Nat) : (f.markSector n).ImagesWf := h.of_banks (markSector_banks ..)

theorem cutOff_images {f : FlashState} (h : f.ImagesWf) (b : Option Bool) : (f.cutOff b).ImagesWf := by
  unfold cutOff
  extract_lets f1 f2 f3
  have h1 : f1.ImagesWf := by
    dsimp only [f1]
    split
    · split
      · exact markSector_images h _
      · exact completed_images h ..
    · exact h
  have h2 : f2.ImagesWf := by
    dsimp only [f2]
    split
    · exact markSector_images h1 _
    · exact h1
  have h3 : f3.ImagesWf := by
    dsimp only [f3]
    split
    · exact markSector_images h2 _
    · exact h2
  exact h3

theorem eraseMarked_images {f : FlashState} (h : f.ImagesWf) (n : Nat) : (f.eraseMarked n).ImagesWf := by
  unfold eraseMarked
  dsimp only
  split
  · exact ⟨flashFilter_wf h.1 _, h.2⟩
  · split
    · exact ⟨h.1, flashFilter_wf h.2 _⟩
    · split <;> exact h

theorem verifiedFlash_images {f : FlashState} (h : f.ImagesWf) (a b : Bool) : (State.verifiedFlash a b f).ImagesWf := by
  have k (l : List Nat) : ∀ {g : FlashState}, g.ImagesWf → (l.foldl (fun (g : FlashState) sec => g.eraseMarked sec) g).ImagesWf := by
    induction l with
    | nil => exact fun h => h
    | cons x l ih => exact fun h => ih (eraseMarked_images h x)
  exact k _ h

theorem startBank_images {f : FlashState} (h : f.ImagesWf) (b : Bool) : (f.startBank b).ImagesWf := by
  unfold startBank
  dsimp only
  refine setBank_images (setBank_images h _ fun x hx => ?_) _ fun x hx => hx
  split <;> exact hx

end FlashState

theorem putFields_wf (p : Nat → Bool) {c : Store} (l : List (Nat × Nat)) (h : c.wf = true) : (putFields p c l).wf = true := by
  refine Store.put_fold_wf (fun c x hc => ?_) _ h
  split
  · exact Store.put_wf hc ..
  · exact hc

theorem bootDefaults_wf (n : Nat) {c : Store} (h : c.wf = true) : (bootDefaults n c).wf = true := by
  unfold bootDefaults
  dsimp only
  refine putFields_wf _ _ (Store.put_fold_wf (fun c x hc => ?_) _ ?_)
  · exact putFields_wf _ _ hc
  · exact putFields_wf _ _ h

theorem State.loadCopy_wf {c : Store} (x : SavedCopy) (h : c.wf = true) : (State.loadCopy c x).wf = true :=
  Store.put_fold_wf (fun _ _ hc => Store.putBlob_wf hc ..) _ (Store.put_fold_wf (fun _ _ hc => Store.put_wf hc ..) _ h)

theorem State.bootStore_wf (s : State) : s.bootStore.wf = true := by
  unfold State.bootStore
  refine bootDefaults_wf _ (Store.put_fold_wf (fun _ _ hc => Store.put_wf hc ..) _ (Store.put_fold_wf (fun c x hc => ?_) _ rfl))
  split
  · exact State.loadCopy_wf _ hc
  · exact hc

theorem State.afterReset_sound {s : State} (h : Sound s) :
    Sound (State.afterReset s) := by
  have c := FlashState.cutOff_images ⟨h.bankA, h.bankB⟩
  exact ⟨Store.default_wf, Store.default_wf, Store.default_wf, Store.default_wf, (c _).1, (c _).2, ⟨Nat.le_refl 1, Nat.le_of_ble_eq_true rfl⟩, Nat.le_of_ble_eq_true rfl⟩

theorem State.toBoot_sound (from_ cause : Nat) {s : State} (h : Sound s) :
    Sound (State.toBoot from_ cause s) := by
  unfold State.toBoot
  repeat' first
    | with_reducible assumption | extract_lets | with_reducible refine Sound.update ?_ | decide

theorem State.nporRise_sound (straps : Nat) (ref : Bool) {s : State} (h : Sound s) :
    Sound (State.nporRise straps ref s) := by
  unfold State.nporRise
  repeat' first
    | with_reducible assumption | with_reducible apply State.afterReset_sound | with_reducible apply Sound.after (State.strapped_changes ..)
    | with_reducible apply State.toBoot_sound | extract_lets | with_reducible refine Sound.ite ?_ ?_ | with_reducible refine Sound.update ?_ | decide

theorem State.nporFall_sound {s : State} (h : Sound s) :
    Sound (State.nporFall s) := by
  unfold State.nporFall
  repeat' first
    | with_reducible assumption | with_reducible apply State.afterReset_sound | extract_lets | with_reducible refine Sound.ite ?_ ?_
    | with_reducible refine Sound.update ?_ | decide

theorem State.nrstLow_sound {s : State} (h : Sound s) :
    Sound (State.nrstLow s) := by
  unfold State.nrstLow
  repeat' first
    | with_reducible assumption | with_reducible apply State.afterReset_sound | with_reducible apply Sound.after (State.strapped_changes ..)
    | extract_lets | with_reducible refine Sound.ite ?_ ?_ | with_reducible refine Sound.update ?_ | decide

theorem State.nrstRise_sound (aon : Nat) {s : State} (h : Sound s) :
    Sound (State.nrstRise aon s) := by
  unfold State.nrstRise
  repeat' first
    | with_reducible assumption | with_reducible apply State.toBoot_sound | extract_lets | with_reducible refine Sound.ite ?_ ?_
    | with_reducible refine Sound.update ?_ | decide

theorem State.vaonLost_sound {s : State} (h : Sound s) :
    Sound (State.vaonLost s) := by
  unfold State.vaonLost
  repeat' first
    | with_reducible assumption | with_reducible apply State.afterReset_sound | extract_lets | with_reducible refine Sound.ite ?_ ?_
    | with_reducible refine Sound.update ?_ | decide

theorem State.loadPersisted_sound {s : State} (h : Sound s) :
    Sound (State.loadPersisted s) := by
  have w := s.bootStore_wf
  exact h.update (h2 := .inl w) (h3 := .inl w) (h4 := .inl w) (h7 := .inl w)

theorem State.checkStarter_sound {s : State} (h : Sound s) :
    Sound (State.checkStarter s) := by
  unfold State.checkStarter
  repeat' first
    | with_reducible assumption | with_reducible apply State.raise_sound | extract_lets | with_reducible refine Sound.ite ?_ ?_
    | with_reducible refine Sound.foldl ?_ (fun _ _ _ => ?_) | with_reducible refine Sound.update ?_ | decide

theorem State.startBank_sound (b : Bool) {s : State} (h : Sound s) :
    Sound (State.startBank b s) := by
  exact h.update (h6 := .inl (FlashState.startBank_images ⟨h.bankA, h.bankB⟩ _))

theorem State.startAdmitted_sound {s : State} (h : Sound s) :
    Sound (State.startAdmitted s) := by
  unfold State.startAdmitted
  repeat' first
    | with_reducible assumption | with_reducible apply State.startBank_sound | extract_lets | split | with_reducible refine Sound.ite ?_ ?_
    | with_reducible refine Sound.update ?_ | decide

theorem State.verificationDone_sound (eccA eccB : Bool) {s : State} (h : Sound s) :
    Sound (State.verificationDone eccA eccB s) := by
  unfold State.verificationDone
  refine Sound.ite h ?_
  extract_lets u v
  have hu : Sound u := State.loadPersisted_sound (State.checkStarter_sound
    (h.update (h6 := .inl (FlashState.verifiedFlash_images ⟨h.bankA, h.bankB⟩ ..))))
  exact State.startAdmitted_sound (Sound.after (State.bootThermal_changes ..) hu.update (by decide))

theorem State.bootBedrock_sound (word : Nat) {s : State} (h : Sound s) :
    Sound (State.bootBedrock word s) := by
  unfold State.bootBedrock
  repeat' first
    | with_reducible assumption | with_reducible apply Sound.after (State.logEvent_changes ..) | with_reducible apply State.goState_sound
    | with_reducible apply Sound.after (State.retainBedrock_changes ..) | with_reducible apply State.bedrockStops_sound
    | with_reducible apply Sound.after (State.startRounds_changes ..) | with_reducible apply Sound.after (State.startTimebase_changes ..)
    | extract_lets | with_reducible refine Sound.update ?_ | decide

theorem State.enterProofing_sound {s : State} (h : Sound s) :
    Sound (State.enterProofing s) := by
  unfold State.enterProofing
  repeat' first
    | with_reducible assumption | with_reducible apply State.goState_sound | with_reducible apply State.raise_sound
    | with_reducible apply Sound.after (State.startRounds_changes ..) | extract_lets | with_reducible refine Sound.ite ?_ ?_
    | with_reducible refine Sound.update ?_ | decide

theorem State.leaveBoot_sound {s : State} (h : Sound s) :
    Sound (State.leaveBoot s) := by
  unfold State.leaveBoot
  repeat' first
    | with_reducible assumption | with_reducible apply Sound.after (State.logEvent_changes ..) | with_reducible apply State.bootBedrock_sound
    | with_reducible apply State.enterProofing_sound | extract_lets | with_reducible refine Sound.ite ?_ ?_ | with_reducible refine Sound.update ?_
    | decide

theorem State.bootEnds_sound {s : State} (h : Sound s) :
    Sound (State.bootEnds s) := by
  unfold State.bootEnds
  repeat' first
    | with_reducible assumption | with_reducible apply State.startBank_sound | extract_lets | split | with_reducible refine Sound.ite ?_ ?_
    | with_reducible refine Sound.update ?_ | decide

theorem State.bootGo_sound {s : State} (h : Sound s) :
    Sound (State.bootGo s).2 := by
  unfold State.bootGo
  repeat' first
    | with_reducible assumption | with_reducible apply State.startBank_sound | extract_lets | split | dsimp only
    | with_reducible refine Sound.ite ?_ ?_ | with_reducible refine Sound.update ?_ | decide

theorem State.bootCtl_sound (data : Nat) {s : State} (h : Sound s) :
    Sound (State.bootCtl data s).2 := by
  unfold State.bootCtl
  repeat' first
    | with_reducible assumption | with_reducible apply State.bootEnds_sound | with_reducible apply State.bootGo_sound | extract_lets | split
    | dsimp only | with_reducible refine Sound.ite ?_ ?_ | with_reducible refine Sound.update ?_ | decide

theorem State.importWrite_sound (l : List (Nat × Bool × Nat)) {s : State} (h : Sound s) :
    Sound (State.importWrite l s) := by
  have f := FlashState.ImagesWf.of_banks ⟨h.bankA, h.bankB⟩ (FlashState.importFlash_banks l s.flash)
  exact (h.onActive fun _ hc => State.importStore_wf l hc).update (h4 := .inl (State.importStore_wf l h.staged)) (h6 := .inl f)

theorem State.recoveryStart_sound (action bank chunk : Nat) {s : State} (h : Sound s) :
    Sound (State.recoveryStart action bank chunk s) := by
  unfold State.recoveryStart
  extract_lets _ u
  have hu : Sound u := h.update
  refine .ite (hu.update (h6 := .inl (FlashState.setBank_images ⟨hu.bankA, hu.bankB⟩ _ fun _ hx => hx))) (.ite ?_ hu)
  split
  · exact State.importWrite_sound _ hu
  · exact hu

theorem State.recoveryCmd_sound (data : Nat) {s : State} (h : Sound s) :
    Sound (State.recoveryCmd data s).2 := by
  unfold State.recoveryCmd
  repeat' first
    | with_reducible assumption | with_reducible apply State.recoveryStart_sound | extract_lets | split | dsimp only
    | with_reducible refine Sound.ite ?_ ?_ | with_reducible refine Sound.update ?_ | decide

theorem State.recoveryEffect_sound (action bank chunk : Nat) (ok : Bool) {s : State} (h : Sound s) :
    Sound (State.recoveryEffect action bank chunk ok s).2 := by
  have hf := (⟨h.bankA, h.bankB⟩ : s.flash.ImagesWf)
  unfold State.recoveryEffect
  dsimp only
  split
  · exact .ite (h.update (h6 := .inl (FlashState.setBank_images hf _ fun _ _ => rfl))) h
  · split
    · exact h.update (h6 := .inl (FlashState.setBank_images hf _ fun _ hx => flashProgram_wf hx ..))
    · exact h
  · exact h.update (h6 := .inl (FlashState.setBank_images hf _ fun _ hx => hx))
  · exact h.update
  · exact h
  · split
    · exact h.update
    · exact h
  · split
    · exact h.update
    · exact h

theorem State.recoveryDone_sound (ok : Bool) {s : State} (h : Sound s) :
    Sound (State.recoveryDone ok s) := by
  unfold State.recoveryDone
  repeat' first
    | with_reducible assumption | with_reducible apply State.bootEnds_sound | with_reducible apply State.recoveryEffect_sound | extract_lets | split
    | with_reducible refine Sound.ite ?_ ?_ | with_reducible refine Sound.update ?_ | decide

theorem State.ctcWrite_sound (k data : Nat) {s : State} (h : Sound s) :
    Sound (State.ctcWrite k data s).2 := by
  unfold State.ctcWrite
  repeat' first
    | with_reducible assumption | with_reducible apply State.stage_sound | split | dsimp only | with_reducible refine Sound.ite ?_ ?_
    | with_reducible refine Sound.update ?_ | decide

theorem State.startWrite_sound (data : Nat) {s : State} (h : Sound s) :
    Sound (State.startWrite data s).2 := by
  unfold State.startWrite
  repeat' first
    | with_reducible assumption | with_reducible apply State.bootGo_sound | split | dsimp only | with_reducible refine Sound.ite ?_ ?_
    | with_reducible refine Sound.update ?_ | decide

theorem State.benchEffect_sound (a data : Nat) {s : State} (h : Sound s) :
    Sound (State.benchEffect a data s).2 := by
  unfold State.benchEffect
  repeat' first
    | with_reducible assumption | with_reducible apply State.bootCtl_sound | with_reducible apply State.recoveryCmd_sound
    | with_reducible apply Sound.after (State.unlock_changes ..) | with_reducible apply State.ctcWrite_sound
    | with_reducible apply Sound.after (State.ctcCommitWrite_changes ..) | with_reducible apply State.startWrite_sound
    | with_reducible apply Sound.after (State.statusWrite_changes ..) | extract_lets | split | dsimp only | with_reducible refine Sound.ite ?_ ?_
    | with_reducible refine Sound.update ?_ | decide

theorem State.benchWriteAt_sound (a data : Nat) {s : State} (h : Sound s) :
    Sound (State.benchWriteAt a data s) := by
  unfold State.benchWriteAt
  repeat' first
    | with_reducible assumption | with_reducible apply State.benchEffect_sound | with_reducible apply Sound.after (State.benchAnswer_changes ..)
    | extract_lets | with_reducible refine Sound.ite ?_ ?_ | with_reducible refine Sound.update ?_ | decide

theorem State.benchWriteIf_sound (a : Nat) (p : Nat → Bool) {s : State} (h : Sound s) :
    Sound (State.benchWriteIf a p s) := by
  unfold State.benchWriteIf
  repeat' first
    | with_reducible assumption | with_reducible apply State.benchWriteAt_sound | extract_lets | split | with_reducible refine Sound.ite ?_ ?_
    | with_reducible refine Sound.update ?_ | decide

theorem State.recoveryIf_sound (action : Nat) (p : Nat → Bool) {s : State} (h : Sound s) :
    Sound (State.recoveryIf action p s) := by
  unfold State.recoveryIf
  repeat' first
    | with_reducible assumption | with_reducible apply State.benchWriteIf_sound | with_reducible refine Sound.update ?_ | decide

end Sys2Proof.Machine
end

