-- ==== Sys2Proof/Laws/SoundHost.lean ====
section
/-! SUPPORT. The operations of the hosts, the networks and the frames keep a sound state. -/

namespace Sys2Proof.Machine

set_option Elab.async false

theorem State.adopt_sound (w : Nat) {s : State} (h : Sound s) :
    Sound (State.adopt w s) := by
  unfold State.adopt
  repeat' first
    | with_reducible assumption | with_reducible apply State.acceptWrite_sound | with_reducible refine Sound.foldl ?_ (fun _ _ _ => ?_)
    | with_reducible refine Sound.update ?_ | decide

theorem State.crustFault_sound (kind : CrustFaultKind) {s : State} (h : Sound s) :
    Sound (State.crustFault kind s) := by
  unfold State.crustFault
  repeat' first
    | with_reducible assumption | with_reducible apply State.enterBedrock_sound | extract_lets | split | with_reducible refine Sound.update ?_
    | decide

theorem State.crustSettings_sound {s : State} (h : Sound s) :
    Sound (State.crustSettings s) := by
  unfold State.crustSettings
  repeat' first
    | with_reducible assumption | with_reducible apply State.boundary_sound | extract_lets | with_reducible refine Sound.ite ?_ ?_
    | with_reducible refine Sound.update ?_ | decide

theorem State.crustCycle_sound {s : State} (h : Sound s) :
    Sound (State.crustCycle s) := by
  unfold State.crustCycle
  repeat' first
    | with_reducible assumption | with_reducible apply State.enterBedrock_sound | with_reducible apply State.raise_sound
    | with_reducible apply State.raiseAll_sound | with_reducible apply State.repairStore_sound
    | with_reducible apply Sound.after (State.discharge_changes ..) | with_reducible apply State.crustFault_sound
    | with_reducible apply State.crustSettings_sound | with_reducible apply Sound.after (State.crustSource_changes ..)
    | with_reducible apply Sound.after (State.crustTrips_changes ..) | extract_lets | with_reducible refine Sound.ite ?_ ?_
    | with_reducible refine Sound.update ?_ | decide

theorem State.laneWatchdog_sound {s : State} (h : Sound s) :
    Sound (State.laneWatchdog s) := by
  unfold State.laneWatchdog
  repeat' first
    | with_reducible assumption | with_reducible apply State.enterBedrock_sound | with_reducible apply Sound.after (State.crustSource_changes ..)
    | extract_lets | with_reducible refine Sound.ite ?_ ?_ | with_reducible refine Sound.update ?_ | decide

theorem State.hearthWatchdog_sound {s : State} (h : Sound s) :
    Sound (State.hearthWatchdog s) := by
  unfold State.hearthWatchdog
  repeat' first
    | with_reducible assumption | with_reducible apply State.raise_sound | extract_lets | with_reducible refine Sound.ite ?_ ?_
    | with_reducible refine Sound.update ?_ | decide

theorem State.offPulseEnd_sound {s : State} (h : Sound s) :
    Sound (State.offPulseEnd s) := by
  unfold State.offPulseEnd
  repeat' first
    | with_reducible assumption | with_reducible apply State.raise_sound | extract_lets | with_reducible refine Sound.ite ?_ ?_
    | with_reducible refine Sound.update ?_ | decide

theorem State.loadStep_sound {s : State} (h : Sound s) :
    Sound (State.loadStep s) := by
  unfold State.loadStep
  repeat' first
    | with_reducible assumption | with_reducible apply State.raiseAll_sound | extract_lets | with_reducible refine Sound.update ?_ | decide

theorem State.backupLost_sound {s : State} (h : Sound s) :
    Sound (State.backupLost s) := by
  unfold State.backupLost
  repeat' first
    | with_reducible assumption | with_reducible apply State.enterBedrock_sound | extract_lets | split | with_reducible refine Sound.ite ?_ ?_
    | with_reducible refine Sound.update ?_ | decide

theorem State.hardLimit_sound {s : State} (h : Sound s) :
    Sound (State.hardLimit s) := by
  unfold State.hardLimit
  repeat' first
    | with_reducible assumption | with_reducible apply Sound.after (State.hardStates_changes ..) | with_reducible apply State.thermalStop_sound
    | with_reducible apply Sound.after (State.hardenStop_changes ..) | extract_lets | with_reducible refine Sound.ite ?_ ?_
    | with_reducible refine Sound.update ?_ | decide

theorem State.hkRound_sound {s : State} (h : Sound s) :
    Sound (State.hkRound s) := by
  unfold State.hkRound
  repeat' first
    | with_reducible assumption | with_reducible apply State.raiseAll_sound | with_reducible apply State.repairStore_sound
    | with_reducible apply State.boundary_sound | with_reducible apply State.loadStep_sound | with_reducible apply State.backupLost_sound
    | with_reducible apply Sound.after (State.hkRecords_changes ..) | with_reducible apply State.hardLimit_sound | extract_lets
    | with_reducible refine Sound.ite ?_ ?_ | with_reducible refine Sound.update ?_ | decide

theorem State.thermalEntry_sound {s : State} (h : Sound s) :
    Sound (State.thermalEntry s) := by
  unfold State.thermalEntry
  repeat' first
    | with_reducible assumption | with_reducible apply State.thermalStop_sound | with_reducible refine Sound.ite ?_ ?_
    | with_reducible refine Sound.update ?_ | decide

theorem State.thermalExit_sound {s : State} (h : Sound s) :
    Sound (State.thermalExit s) := by
  unfold State.thermalExit
  repeat' first
    | with_reducible assumption | with_reducible apply State.thermalRelease_sound | with_reducible refine Sound.ite ?_ ?_
    | with_reducible refine Sound.update ?_ | decide

theorem State.lockstep_sound {s : State} (h : Sound s) :
    Sound (State.lockstep s) := by
  unfold State.lockstep
  repeat' first
    | with_reducible assumption | with_reducible apply State.raise_sound | extract_lets | with_reducible refine Sound.update ?_ | decide

theorem State.refLoss_sound (deviation : Int) {s : State} (h : Sound s) :
    Sound (State.refLoss deviation s) := by
  unfold State.refLoss
  repeat' first
    | with_reducible assumption | with_reducible apply State.enterBedrock_sound | with_reducible apply State.raise_sound | extract_lets
    | with_reducible refine Sound.ite ?_ ?_ | with_reducible refine Sound.update ?_ | decide

theorem State.slewDone_sound {s : State} (h : Sound s) :
    Sound (State.slewDone s) := by
  unfold State.slewDone
  repeat' first
    | with_reducible assumption | with_reducible apply State.raise_sound | extract_lets | with_reducible refine Sound.ite ?_ ?_
    | with_reducible refine Sound.update ?_ | decide

theorem State.netBoundary_sound (r : Request) {s : State} (h : Sound s) :
    Sound (State.netBoundary r s) := by
  unfold State.netBoundary
  repeat' first
    | with_reducible assumption | with_reducible apply State.applyValue_sound | with_reducible apply State.applyCommit_sound | extract_lets
    | with_reducible refine Sound.ite ?_ ?_ | with_reducible refine Sound.foldl ?_ (fun _ _ _ => ?_) | with_reducible refine Sound.update ?_ | decide

theorem State.settleFront_sound (k : Nat) (x : Session) (r : Request) (rest : List Request) {s : State} (h : Sound s) :
    Sound (State.settleFront k x r rest s).1 := by
  unfold State.settleFront
  repeat' first
    | with_reducible assumption | with_reducible apply Sound.after (State.closeSession_changes ..)
    | with_reducible apply Sound.after (State.setSession_changes ..) | with_reducible apply Sound.after (State.noteAbort_changes ..)
    | with_reducible apply Sound.after (State.respond_changes ..) | with_reducible apply State.netBoundary_sound | extract_lets | split | dsimp only
    | with_reducible refine Sound.ite ?_ ?_ | with_reducible refine Sound.foldl ?_ (fun _ _ _ => ?_) | with_reducible refine Sound.update ?_ | decide

theorem State.settleAll_sound (k : Nat) {s : State} (h : Sound s) :
    Sound (State.settleAll k s) := by
  have key : ∀ n {s : State}, Sound s → Sound (State.settleRequests k n s) := by
    intro n
    induction n with
    | zero => exact fun h => h
    | succ n ih =>
      intro s h
      unfold State.settleRequests
      split
      · exact h
      · split
        · exact h
        · dsimp only
          split
          · exact ih (State.settleFront_sound _ _ _ _ h)
          · exact State.settleFront_sound _ _ _ _ h
  exact key _ h

theorem State.answer_sound (k : Nat) (a : Answer) {s : State} (h : Sound s) :
    Sound (State.answer k a s) := by
  unfold State.answer
  repeat' first
    | with_reducible assumption | with_reducible apply Sound.after (State.setSession_changes ..)
    | with_reducible apply Sound.after (State.noteAbort_changes ..) | with_reducible apply State.settleAll_sound | extract_lets | split
    | with_reducible refine Sound.ite ?_ ?_ | with_reducible refine Sound.update ?_ | decide

theorem State.unanswered_sound (k : Nat) {s : State} (h : Sound s) :
    Sound (State.unanswered k s) := by
  unfold State.unanswered
  repeat' first
    | with_reducible assumption | with_reducible apply Sound.after (State.setSession_changes ..) | with_reducible apply State.settleAll_sound
    | extract_lets | split | with_reducible refine Sound.update ?_ | decide

theorem State.modeOff_sound (m : Nat) {s : State} (h : Sound s) :
    Sound (State.modeOff m s) := by
  unfold State.modeOff
  repeat' first
    | with_reducible assumption | with_reducible apply State.putActive_sound | with_reducible apply Sound.after (State.testModeChange_changes ..)
    | with_reducible apply Sound.after (State.setCtl_changes ..) | extract_lets | with_reducible refine Sound.ite ?_ ?_
    | with_reducible refine Sound.update ?_ | decide

theorem State.modeApply_sound (m : Nat) {s : State} (h : Sound s) :
    Sound (State.modeApply m s) := by
  unfold State.modeApply
  repeat' first
    | with_reducible assumption | with_reducible apply State.putActive_sound | with_reducible apply Sound.after (State.testModeChange_changes ..)
    | with_reducible apply Sound.after (State.setCtl_changes ..) | extract_lets | with_reducible refine Sound.ite ?_ ?_
    | with_reducible refine Sound.update ?_ | decide

theorem State.enableApply_sound (m : Nat) {s : State} (h : Sound s) :
    Sound (State.enableApply m s) := by
  unfold State.enableApply
  repeat' first
    | with_reducible assumption | with_reducible apply State.modeOff_sound | extract_lets | with_reducible refine Sound.ite ?_ ?_
    | with_reducible refine Sound.update ?_ | decide

theorem State.machineSettings_sound (m : Nat) (old : Store) (keys : List Nat) {s : State} (h : Sound s) :
    Sound (State.machineSettings m old keys s) := by
  unfold State.machineSettings
  repeat' first
    | with_reducible assumption | with_reducible apply Sound.after (State.setCtl_changes ..) | with_reducible apply State.modeApply_sound
    | with_reducible apply State.enableApply_sound | extract_lets | with_reducible refine Sound.ite ?_ ?_ | with_reducible refine Sound.update ?_
    | decide

theorem State.voteDue_sound (trough : Bool) {s : State} (h : Sound s) :
    Sound (State.voteDue trough s) := by
  unfold State.voteDue
  repeat' first
    | with_reducible assumption | with_reducible apply State.enterBedrock_sound | with_reducible apply Sound.after (State.voteSource_changes ..)
    | extract_lets | with_reducible refine Sound.ite ?_ ?_ | with_reducible refine Sound.update ?_ | decide

theorem State.centre_sound (m : Nat) {s : State} (h : Sound s) :
    Sound (State.centre m s) := by
  unfold State.centre
  repeat' first
    | with_reducible assumption | with_reducible apply State.latchPos_sound | extract_lets | with_reducible refine Sound.ite ?_ ?_
    | with_reducible refine Sound.update ?_ | decide

theorem State.enterRun_sound {s : State} (h : Sound s) :
    Sound (State.enterRun s) := by
  unfold State.enterRun
  repeat' first
    | with_reducible assumption | with_reducible apply State.goState_sound | with_reducible apply Sound.after (State.twinsRun_changes ..)
    | extract_lets | with_reducible refine Sound.update ?_ | decide

theorem State.leaveRun_sound {s : State} (h : Sound s) :
    Sound (State.leaveRun s) := by
  unfold State.leaveRun
  repeat' first
    | with_reducible assumption | with_reducible apply State.goState_sound | with_reducible apply State.modeOff_sound | extract_lets
    | with_reducible refine Sound.update ?_ | decide

theorem State.enterService_sound (session : Nat) {s : State} (h : Sound s) :
    Sound (State.enterService session s) := by
  unfold State.enterService
  repeat' first
    | with_reducible assumption | with_reducible apply State.goState_sound | extract_lets | with_reducible refine Sound.ite ?_ ?_
    | with_reducible refine Sound.update ?_ | decide

theorem State.enterStandby_sound {s : State} (h : Sound s) :
    Sound (State.enterStandby s) := by
  unfold State.enterStandby
  repeat' first
    | with_reducible assumption | with_reducible apply Sound.after (State.closeSessions_changes ..) | with_reducible apply State.goState_sound
    | extract_lets | with_reducible refine Sound.update ?_ | decide

theorem State.requestTrough_sound (held : Bool) {s : State} (h : Sound s) :
    Sound (State.requestTrough held s) := by
  unfold State.requestTrough
  repeat' first
    | with_reducible assumption | with_reducible apply State.goState_sound | with_reducible apply Sound.after (State.summitAlone_changes ..)
    | with_reducible apply State.enterRun_sound | with_reducible apply State.leaveRun_sound | with_reducible apply State.enterService_sound
    | with_reducible apply State.enterStandby_sound | extract_lets | split | with_reducible refine Sound.ite ?_ ?_
    | with_reducible refine Sound.update ?_ | decide

theorem State.troughBoundary_sound (m1 : Bool) {s : State} (h : Sound s) :
    Sound (State.troughBoundary m1 s).1 := by
  unfold State.troughBoundary
  repeat' first
    | with_reducible assumption | with_reducible apply State.boundary_sound | split | dsimp only | with_reducible refine Sound.ite ?_ ?_
    | with_reducible refine Sound.update ?_ | decide

theorem State.troughSettings_sound (old : Store) (a : Applied) (m1 : Bool) {s : State} (h : Sound s) :
    Sound (State.troughSettings old a m1 s) := by
  unfold State.troughSettings
  repeat' first
    | with_reducible assumption | with_reducible apply State.zeroModes_sound | with_reducible apply State.machineSettings_sound
    | with_reducible apply Sound.after (State.deviceSettings_changes ..) | extract_lets | with_reducible refine Sound.ite ?_ ?_
    | with_reducible refine Sound.update ?_ | decide

theorem State.troughBody_sound (edges : Nat) (m1 : Bool) {s : State} (h : Sound s) :
    Sound (State.troughBody edges m1 s) := by
  unfold State.troughBody
  extract_lets s0 s1 s2 s3 s4 s5 la s6
  have h0 : Sound s0 := .ite (.after (State.engineTrough_changes ..) (.after (State.engineTrough_changes ..) h (by decide)) (by decide))
    (.after (State.engineTrough_changes ..) h (by decide))
  have h1 : Sound s1 := .after (State.lanesTrough_changes _) (.after (State.tripTrough_changes ..) (State.voteDue_sound _ h0) (by decide)) (by decide)
  have h2 := Sound.ite (c := s1.full = true) (.after (State.chainTrough_changes edges s1) h1 (by decide)) h1
  have h3 : Sound s3 := .after (State.captureTrough_changes _) (.after (State.testTrough_changes _) h2 (by decide)) (by decide)
  have h4 := Sound.ite (c := s3.centred 0 false = true) (State.centre_sound 0 h3) h3
  have h5 := Sound.ite (c := (m1 && s4.centred 1 false) = true) (State.centre_sound 1 h4) h4
  exact .after (State.captureInstant_changes _) h5.update (by decide)

theorem State.m0Trough_sound (edges : Nat) {s : State} (h : Sound s) :
    Sound (State.m0Trough edges s) := by
  unfold State.m0Trough
  extract_lets held old marked m1 s1 s2 applied s3 s4 s5
  have h1 : Sound s1 := .after (State.beginFrame_changes ..) h (by decide)
  have h2 : Sound s2 := .ite (State.repairStore_sound h1) h1
  have h4 : Sound s4 :=
    State.troughBody_sound _ _ (.after (State.modulate_changes ..) (State.troughSettings_sound _ _ _ (State.troughBoundary_sound _ h2)) (by decide))
  have h5 : Sound s5 := State.requestTrough_sound _ h4
  exact .ite h (.ite (.after (State.sendImages_changes ..) h5 (by decide)) h5)

theorem State.crest_sound (m : Nat) {s : State} (h : Sound s) :
    Sound (State.crest m s) := by
  unfold State.crest
  refine .ite h ?_
  extract_lets double had mo s1 loaded s2 s3 s4 s5 la s6
  have h1 : Sound s1 := .ite h.update h
  have h2 := Sound.ite (c := double = true) (.after (State.voteInstant_changes m loaded had s1) h1 (by decide)) h1
  have h3 := Sound.ite (c := (double && m == 0) = true) (.after (State.dropHeld_changes loaded s2) h2 (by decide)) h2
  have h4 := Sound.ite (c := double = true) (.after (State.setCtl_changes m (fun x => { x with instant := s3.now }) s3) h3 (by decide)) h3
  have h5 := Sound.ite (c := s4.centred m true = true) (State.centre_sound m h4) h4
  have h6 : Sound s6 := h5.update
  exact .ite h5 (.after (State.captureInstant_changes _) (State.voteDue_sound _ h6) (by decide))

theorem State.proofLanes_sound (failed : Nat) {s : State} (h : Sound s) :
    Sound (State.proofLanes failed s) := by
  unfold State.proofLanes
  repeat' first
    | with_reducible assumption | with_reducible apply State.raiseAll_sound | extract_lets | with_reducible refine Sound.ite ?_ ?_
    | with_reducible refine Sound.update ?_ | decide

theorem State.zeroPath_sound (sd : Nat) (avg : Rat) {s : State} (h : Sound s) :
    Sound (State.zeroPath sd avg s) := by
  unfold State.zeroPath
  repeat' first
    | with_reducible assumption | with_reducible apply State.raise_sound | with_reducible apply State.raiseAll_sound | extract_lets
    | with_reducible refine Sound.ite ?_ ?_ | with_reducible refine Sound.update ?_ | decide

theorem State.zeroCheck_sound (avgs : List Rat) {s : State} (h : Sound s) :
    Sound (State.zeroCheck avgs s) := by
  unfold State.zeroCheck
  repeat' first
    | with_reducible assumption | with_reducible apply State.zeroPath_sound | with_reducible refine Sound.foldl ?_ (fun _ _ _ => ?_)
    | with_reducible refine Sound.update ?_ | decide

theorem State.stepDone_sound (r : ProofResult) {s : State} (h : Sound s) :
    Sound (State.stepDone r s) := by
  unfold State.stepDone
  repeat' first
    | with_reducible assumption | with_reducible apply Sound.after (State.calibrate_changes ..) | with_reducible apply State.proofLanes_sound
    | with_reducible apply State.zeroCheck_sound | with_reducible apply Sound.after (State.markStep_changes ..)
    | with_reducible apply Sound.after (State.nextStep_changes ..) | with_reducible apply Sound.after (State.readbackDone_changes ..) | extract_lets
    | split | with_reducible refine Sound.ite ?_ ?_ | with_reducible refine Sound.update ?_ | decide

theorem State.discardSets_sound (mask : Nat) {s : State} (h : Sound s) :
    Sound (State.discardSets mask s) := by
  unfold State.discardSets
  repeat' first
    | with_reducible assumption | with_reducible apply State.discardStaged_sound | extract_lets | with_reducible refine Sound.ite ?_ ?_
    | with_reducible refine Sound.update ?_ | decide

theorem State.act_sound (k key raw : Nat) {s : State} (h : Sound s) :
    Sound (State.act k key raw s).1 := by
  unfold State.act
  repeat' first
    | with_reducible assumption | with_reducible apply Sound.after (State.swapRequest_changes ..)
    | with_reducible apply Sound.after (State.laneTest_changes ..) | with_reducible apply Sound.after (State.voteTestRequest_changes ..)
    | with_reducible apply Sound.after (State.tripClear_changes ..) | with_reducible apply Sound.after (State.linkRequest_changes ..)
    | with_reducible apply Sound.after (State.linkRerun_changes ..) | with_reducible apply Sound.after (State.acceptAction_changes ..)
    | with_reducible apply Sound.after (State.chimeWrite_changes ..) | with_reducible apply Sound.after (State.swapTwins_changes ..)
    | with_reducible apply Sound.after (State.updateAction_changes ..) | with_reducible apply Sound.after (State.identRequest_changes ..)
    | with_reducible apply State.adopt_sound | with_reducible apply Sound.after (State.soffTest_changes ..)
    | with_reducible apply Sound.after (State.tapRequest_changes ..) | with_reducible apply Sound.after (State.testStart_changes ..)
    | with_reducible apply Sound.after (State.testStop_changes ..) | with_reducible apply Sound.after (State.captureWrite_changes ..)
    | with_reducible apply Sound.after (State.requestState_changes ..) | with_reducible apply State.discardSets_sound | extract_lets | split
    | dsimp only | with_reducible refine Sound.ite ?_ ?_ | with_reducible refine Sound.update ?_ | decide

theorem State.storeBlob_sound (k key : Nat) (v : List Byte) {s : State} (h : Sound s) :
    Sound (State.storeBlob k key v s) := by
  unfold State.storeBlob
  repeat' first
    | with_reducible assumption | with_reducible apply State.stageBlob_sound | with_reducible apply State.starterImport_sound
    | with_reducible apply Sound.after (State.updateSegment_changes ..) | with_reducible apply Sound.after (State.keySlotStore_changes ..)
    | extract_lets | split | with_reducible refine Sound.update ?_ | decide

theorem State.writeValue_sound (k key : Nat) (data : List Byte) {s : State} (h : Sound s) :
    Sound (State.writeValue k key data s).1 := by
  unfold State.writeValue
  repeat' first
    | with_reducible assumption | with_reducible apply State.putActive_sound | with_reducible apply State.moveToken_sound
    | with_reducible apply State.acceptWrite_sound | with_reducible apply State.stage_sound
    | with_reducible apply Sound.after (State.starterStaged_changes ..) | with_reducible apply Sound.after (State.setSession_changes ..)
    | with_reducible apply Sound.after (State.dropTransfer_changes ..) | with_reducible apply Sound.after (State.acceptAction_changes ..)
    | with_reducible apply State.act_sound | with_reducible apply State.storeBlob_sound
    | with_reducible apply Sound.after (State.imageOpen_changes ..) | extract_lets | split | dsimp only | with_reducible refine Sound.ite ?_ ?_
    | with_reducible refine Sound.update ?_ | decide

theorem State.hostWrite_sound (k key : Nat) (data : List Byte) {s : State} (h : Sound s) :
    Sound (State.hostWrite k key data s) := by
  unfold State.hostWrite
  repeat' first
    | with_reducible assumption | with_reducible apply State.answer_sound | with_reducible apply State.writeValue_sound
    | with_reducible apply Sound.after (State.noteRefusal_changes ..) | with_reducible apply Sound.after (State.fresh_changes ..)
    | with_reducible apply Sound.after (State.startCommit_changes ..) | extract_lets | split | with_reducible refine Sound.ite ?_ ?_
    | with_reducible refine Sound.update ?_ | decide

theorem State.commitDecided_sound {s : State} (h : Sound s) :
    Sound (State.commitDecided s) := by
  unfold State.commitDecided
  repeat' first
    | with_reducible assumption | with_reducible apply State.commitEnd_sound | with_reducible apply State.answer_sound
    | with_reducible apply Sound.after (State.fresh_changes ..) | extract_lets | split | with_reducible refine Sound.ite ?_ ?_
    | with_reducible refine Sound.update ?_ | decide

theorem State.segment_sound (k key offset : Nat) (last : Bool) (data : List Byte) {s : State} (h : Sound s) :
    Sound (State.segment k key offset last data s) := by
  unfold State.segment
  repeat' first
    | with_reducible assumption | with_reducible apply Sound.after (State.updateSegment_changes ..)
    | with_reducible apply Sound.after (State.dropTransfer_changes ..) | with_reducible apply State.storeBlob_sound
    | with_reducible apply Sound.after (State.imageOpen_changes ..) | extract_lets | split | with_reducible refine Sound.ite ?_ ?_
    | with_reducible refine Sound.update ?_ | decide

theorem State.segmentWrite_sound (k key offset : Nat) (last : Bool) (data : List Byte) (bad : Option Abort) {s : State} (h : Sound s) :
    Sound (State.segmentWrite k key offset last data bad s) := by
  unfold State.segmentWrite
  repeat' first
    | with_reducible assumption | with_reducible apply State.answer_sound | with_reducible apply Sound.after (State.dropTransfer_changes ..)
    | with_reducible apply State.segment_sound | extract_lets | split | with_reducible refine Sound.ite ?_ ?_ | with_reducible refine Sound.update ?_
    | decide

theorem State.hostWriteSeg_sound (k key offset : Nat) (last : Bool) (data : List Byte) {s : State} (h : Sound s) :
    Sound (State.hostWriteSeg k key offset last data s) := by
  unfold State.hostWriteSeg
  repeat' first
    | with_reducible assumption | with_reducible apply Sound.after (State.fresh_changes ..) | with_reducible apply State.segmentWrite_sound
    | extract_lets | split | with_reducible refine Sound.ite ?_ ?_ | with_reducible refine Sound.update ?_ | decide

theorem State.hostRead_sound (k key : Nat) {s : State} (h : Sound s) :
    Sound (State.hostRead k key s) := by
  unfold State.hostRead
  repeat' first
    | with_reducible assumption | with_reducible apply State.answer_sound | with_reducible apply Sound.after (State.fresh_changes ..) | extract_lets
    | split | with_reducible refine Sound.ite ?_ ?_ | with_reducible refine Sound.update ?_ | decide

theorem State.segmentRead_sound (k key offset maxLen : Nat) (view : Bool) (bad : Option Abort) {s : State} (h : Sound s) :
    Sound (State.segmentRead k key offset maxLen view bad s) := by
  unfold State.segmentRead
  repeat' first
    | with_reducible assumption | with_reducible apply State.answer_sound | with_reducible apply Sound.after (State.readSegment_changes ..)
    | extract_lets | split | with_reducible refine Sound.update ?_ | decide

theorem State.hostReadSeg_sound (k key offset maxLen : Nat) {s : State} (h : Sound s) :
    Sound (State.hostReadSeg k key offset maxLen s) := by
  unfold State.hostReadSeg
  repeat' first
    | with_reducible assumption | with_reducible apply Sound.after (State.fresh_changes ..) | with_reducible apply State.segmentRead_sound
    | extract_lets | split | with_reducible refine Sound.ite ?_ ?_ | with_reducible refine Sound.update ?_ | decide

theorem State.hostAction_sound (k idx sub : Nat) (data : List Byte) (p : Nat → Bool) {s : State} (h : Sound s) :
    Sound (State.hostAction k idx sub data p s) := by
  unfold State.hostAction
  repeat' first
    | with_reducible assumption | with_reducible apply State.hostWrite_sound | with_reducible refine Sound.ite ?_ ?_
    | with_reducible refine Sound.update ?_ | decide

theorem State.networkRestored_sound {s : State} (h : Sound s) :
    Sound (State.networkRestored s) := by
  unfold State.networkRestored
  repeat' first
    | with_reducible assumption | with_reducible apply State.raise_sound | extract_lets | with_reducible refine Sound.ite ?_ ?_
    | with_reducible refine Sound.update ?_ | decide

theorem State.deliver_sound (n port : Nat) {s : State} (h : Sound s) :
    Sound (State.deliver n port s) := by
  unfold State.deliver
  repeat' first
    | with_reducible assumption | with_reducible apply State.networkRestored_sound | extract_lets | with_reducible refine Sound.ite ?_ ?_
    | with_reducible refine Sound.foldl ?_ (fun _ _ _ => ?_) | with_reducible refine Sound.update ?_ | decide

theorem State.applyImage_sound (k n level : Nat) (l : List (Nat × List Byte)) {s : State} (h : Sound s) :
    Sound (State.applyImage k n level l s) := by
  unfold State.applyImage
  repeat' first
    | with_reducible assumption | with_reducible apply State.applyPart_sound | with_reducible apply State.writeValue_sound
    | with_reducible apply Sound.after (State.setImage_changes ..) | extract_lets | with_reducible refine Sound.foldl ?_ (fun _ _ _ => ?_)
    | with_reducible refine Sound.update ?_ | decide

theorem State.imageCome_sound (k n seq port : Nat) (data : List Byte) {s : State} (h : Sound s) :
    Sound (State.imageCome k n seq port data s) := by
  unfold State.imageCome
  repeat' first
    | with_reducible assumption | with_reducible apply Sound.after (State.setSession_changes ..) | with_reducible apply State.deliver_sound
    | with_reducible apply Sound.after (State.setImage_changes ..) | with_reducible apply State.applyImage_sound | extract_lets | split
    | with_reducible refine Sound.ite ?_ ?_ | with_reducible refine Sound.update ?_ | decide

theorem State.timeoutReaction_sound (n : Nat) {s : State} (h : Sound s) :
    Sound (State.timeoutReaction n s) := by
  unfold State.timeoutReaction
  repeat' first
    | with_reducible assumption | with_reducible apply State.acceptWrite_sound | extract_lets | split | with_reducible refine Sound.ite ?_ ?_
    | with_reducible refine Sound.foldl ?_ (fun _ _ _ => ?_) | with_reducible refine Sound.update ?_ | decide

theorem State.imageLate_sound (n : Nat) {s : State} (h : Sound s) :
    Sound (State.imageLate n s) := by
  unfold State.imageLate
  repeat' first
    | with_reducible assumption | with_reducible apply State.raise_sound | with_reducible apply Sound.after (State.setImage_changes ..)
    | with_reducible apply State.timeoutReaction_sound | extract_lets | with_reducible refine Sound.ite ?_ ?_
    | with_reducible refine Sound.foldl ?_ (fun _ _ _ => ?_) | with_reducible refine Sound.update ?_ | decide

theorem State.duplicateFrame_sound (f : RxFrame) (iface : Nat) {s : State} (h : Sound s) :
    Sound (State.duplicateFrame f iface s) := by
  unfold State.duplicateFrame
  repeat' first
    | with_reducible assumption | with_reducible apply State.deliver_sound | extract_lets | split | with_reducible refine Sound.ite ?_ ?_
    | with_reducible refine Sound.update ?_ | decide

theorem State.enqueue_sound (k : Nat) (f : RxFrame) (seq : Nat) (p : Packet) {s : State} (h : Sound s) :
    Sound (State.enqueue k f seq p s) := by
  unfold State.enqueue
  repeat' first
    | with_reducible assumption | with_reducible apply Sound.after (State.setSession_changes ..)
    | with_reducible apply Sound.after (State.noteAbort_changes ..) | with_reducible apply State.settleAll_sound | extract_lets | split
    | with_reducible refine Sound.ite ?_ ?_ | with_reducible refine Sound.foldl ?_ (fun _ _ _ => ?_) | with_reducible refine Sound.update ?_ | decide

theorem State.checkFrame_sound (k : Nat) (x : Session) (f : RxFrame) (p : Packet) {s : State} (h : Sound s) :
    Sound (State.checkFrame k x f p s) := by
  unfold State.checkFrame
  repeat' first
    | with_reducible assumption | with_reducible apply Sound.after (State.frameAbort_changes ..) | with_reducible apply State.duplicateFrame_sound
    | with_reducible apply State.enqueue_sound | extract_lets | with_reducible refine Sound.ite ?_ ?_ | with_reducible refine Sound.update ?_
    | decide

theorem State.parsedFrame_sound (f : RxFrame) (p : Packet) {s : State} (h : Sound s) :
    Sound (State.parsedFrame f p s) := by
  unfold State.parsedFrame
  dsimp only
  refine Sound.ite h.update ?_
  split
  · exact State.checkFrame_sound _ _ _ _ h
  · exact Sound.after (State.strangeFrame_changes ..) h (by decide)

theorem State.takeYoap_sound (p : Packet) (bytes : List Byte) {s : State} (h : Sound s) :
    Sound (State.takeYoap p bytes s) := by
  unfold State.takeYoap
  refine .ite h.update ?_
  split
  · exact h.update
  · exact State.parsedFrame_sound _ _ h

theorem State.yoapFrame_sound (p : Packet) (bytes : List Byte) {s : State} (h : Sound s) :
    Sound (State.yoapFrame p bytes s) := by
  unfold State.yoapFrame
  extract_lets u
  have hu : Sound u := .after (State.fresh_changes s) h (by decide)
  have hc : Sound u.counted := .after (State.counted_changes _) hu (by decide)
  refine .ite h ?_
  split
  · exact hu
  · exact .after (State.notSupported_changes _) hc (by decide)
  · exact State.takeYoap_sound _ _ hc

theorem State.plainItem_sound (op k : Nat) {s : State} (h : Sound s) :
    Sound (State.plainItem op k s) := by
  unfold State.plainItem
  repeat' first
    | with_reducible assumption | with_reducible apply State.answer_sound | with_reducible apply Sound.after (State.fresh_changes ..) | extract_lets
    | split | with_reducible refine Sound.ite ?_ ?_ | with_reducible refine Sound.update ?_ | decide

theorem State.imageItem_sound (k n seq : Nat) (p : Packet) (data : List Byte) {s : State} (h : Sound s) :
    Sound (State.imageItem k n seq p data s) := by
  unfold State.imageItem
  repeat' first
    | with_reducible assumption | with_reducible apply State.unanswered_sound | with_reducible apply Sound.after (State.fresh_changes ..)
    | with_reducible apply State.imageCome_sound | extract_lets | split | with_reducible refine Sound.ite ?_ ?_
    | with_reducible refine Sound.update ?_ | decide

theorem State.linkDown_sound (port : Nat) {s : State} (h : Sound s) :
    Sound (State.linkDown port s) := by
  unfold State.linkDown
  repeat' first
    | with_reducible assumption | with_reducible apply State.raise_sound | extract_lets | with_reducible refine Sound.ite ?_ ?_
    | with_reducible refine Sound.update ?_ | decide

theorem State.linkUpSgmii_sound (port : Nat) {s : State} (h : Sound s) :
    Sound (State.linkUpSgmii port s) := by
  unfold State.linkUpSgmii
  repeat' first
    | with_reducible assumption | with_reducible apply State.networkRestored_sound | extract_lets | with_reducible refine Sound.ite ?_ ?_
    | with_reducible refine Sound.update ?_ | decide

theorem State.hostKeySlot_sound (k slot : Nat) (data : List Byte) {s : State} (h : Sound s) :
    Sound (State.hostKeySlot k slot data s) := by
  unfold State.hostKeySlot
  repeat' first
    | with_reducible assumption | with_reducible apply State.hostWrite_sound | with_reducible apply State.hostWriteSeg_sound | extract_lets | split
    | with_reducible refine Sound.ite ?_ ?_ | with_reducible refine Sound.update ?_ | decide

end Sys2Proof.Machine
end

