-- ==== Sys2Proof/Laws/State.lean ====
section
/-! SUPPORT. What each plain update of the state leaves in each field. -/

namespace Sys2Proof.Machine

set_option Elab.async false

/-! ### State.fresh -/

@[simp] theorem State.fresh_pending (s : State) : (State.fresh s).pending = s.pending := rfl
@[simp] theorem State.fresh_dev (s : State) : (State.fresh s).dev = s.dev := rfl
@[simp] theorem State.fresh_frame (s : State) : (State.fresh s).frame = s.frame := rfl
@[simp] theorem State.fresh_active (s : State) : (State.fresh s).active = s.active := rfl
@[simp] theorem State.fresh_active2 (s : State) : (State.fresh s).active2 = s.active2 := rfl
@[simp] theorem State.fresh_passed (s : State) : (State.fresh s).passed = s.passed := rfl
@[simp] theorem State.fresh_staged (s : State) : (State.fresh s).staged = s.staged := rfl
@[simp] theorem State.fresh_commit (s : State) : (State.fresh s).commit = s.commit := rfl
@[simp] theorem State.fresh_persist (s : State) : (State.fresh s).persist = s.persist := rfl
@[simp] theorem State.fresh_table (s : State) : (State.fresh s).table = s.table := rfl
@[simp] theorem State.fresh_sense (s : State) : (State.fresh s).sense = s.sense := rfl
@[simp] theorem State.fresh_ctl (s : State) : (State.fresh s).ctl = s.ctl := rfl
@[simp] theorem State.fresh_lanes (s : State) : (State.fresh s).lanes = s.lanes := rfl
@[simp] theorem State.fresh_mod (s : State) : (State.fresh s).mod = s.mod := rfl
@[simp] theorem State.fresh_trip (s : State) : (State.fresh s).trip = s.trip := rfl
@[simp] theorem State.fresh_hearth (s : State) : (State.fresh s).hearth = s.hearth := rfl
@[simp] theorem State.fresh_canc (s : State) : (State.fresh s).canc = s.canc := rfl
@[simp] theorem State.fresh_loads (s : State) : (State.fresh s).loads = s.loads := rfl
@[simp] theorem State.fresh_diag (s : State) : (State.fresh s).diag = s.diag := rfl
@[simp] theorem State.fresh_audio (s : State) : (State.fresh s).audio = s.audio := rfl
@[simp] theorem State.fresh_crust (s : State) : (State.fresh s).crust = s.crust := rfl
@[simp] theorem State.fresh_fault (s : State) : (State.fresh s).fault = s.fault := rfl
@[simp] theorem State.fresh_hk (s : State) : (State.fresh s).hk = s.hk := rfl
@[simp] theorem State.fresh_net (s : State) : (State.fresh s).net = { s.net with answers := [], sent := [] } := rfl
@[simp] theorem State.fresh_bench (s : State) : (State.fresh s).bench = s.bench := rfl
@[simp] theorem State.fresh_chain (s : State) : (State.fresh s).chain = s.chain := rfl
@[simp] theorem State.fresh_flash (s : State) : (State.fresh s).flash = s.flash := rfl

/-! ### State.onActive -/

@[simp] theorem State.onActive_pending (f : Store → Store) (s : State) : (State.onActive f s).pending = s.pending := rfl
@[simp] theorem State.onActive_dev (f : Store → Store) (s : State) : (State.onActive f s).dev = s.dev := rfl
@[simp] theorem State.onActive_frame (f : Store → Store) (s : State) : (State.onActive f s).frame = s.frame := rfl
@[simp] theorem State.onActive_active (f : Store → Store) (s : State) : (State.onActive f s).active = f s.active := rfl
@[simp] theorem State.onActive_active2 (f : Store → Store) (s : State) : (State.onActive f s).active2 = f s.active2 := rfl
@[simp] theorem State.onActive_passed (f : Store → Store) (s : State) : (State.onActive f s).passed = f s.passed := rfl
@[simp] theorem State.onActive_staged (f : Store → Store) (s : State) : (State.onActive f s).staged = s.staged := rfl
@[simp] theorem State.onActive_commit (f : Store → Store) (s : State) : (State.onActive f s).commit = s.commit := rfl
@[simp] theorem State.onActive_persist (f : Store → Store) (s : State) : (State.onActive f s).persist = s.persist := rfl
@[simp] theorem State.onActive_table (f : Store → Store) (s : State) : (State.onActive f s).table = s.table := rfl
@[simp] theorem State.onActive_sense (f : Store → Store) (s : State) : (State.onActive f s).sense = s.sense := rfl
@[simp] theorem State.onActive_ctl (f : Store → Store) (s : State) : (State.onActive f s).ctl = s.ctl := rfl
@[simp] theorem State.onActive_lanes (f : Store → Store) (s : State) : (State.onActive f s).lanes = s.lanes := rfl
@[simp] theorem State.onActive_mod (f : Store → Store) (s : State) : (State.onActive f s).mod = s.mod := rfl
@[simp] theorem State.onActive_trip (f : Store → Store) (s : State) : (State.onActive f s).trip = s.trip := rfl
@[simp] theorem State.onActive_hearth (f : Store → Store) (s : State) : (State.onActive f s).hearth = s.hearth := rfl
@[simp] theorem State.onActive_canc (f : Store → Store) (s : State) : (State.onActive f s).canc = s.canc := rfl
@[simp] theorem State.onActive_loads (f : Store → Store) (s : State) : (State.onActive f s).loads = s.loads := rfl
@[simp] theorem State.onActive_diag (f : Store → Store) (s : State) : (State.onActive f s).diag = s.diag := rfl
@[simp] theorem State.onActive_audio (f : Store → Store) (s : State) : (State.onActive f s).audio = s.audio := rfl
@[simp] theorem State.onActive_crust (f : Store → Store) (s : State) : (State.onActive f s).crust = s.crust := rfl
@[simp] theorem State.onActive_fault (f : Store → Store) (s : State) : (State.onActive f s).fault = s.fault := rfl
@[simp] theorem State.onActive_hk (f : Store → Store) (s : State) : (State.onActive f s).hk = s.hk := rfl
@[simp] theorem State.onActive_net (f : Store → Store) (s : State) : (State.onActive f s).net = s.net := rfl
@[simp] theorem State.onActive_bench (f : Store → Store) (s : State) : (State.onActive f s).bench = s.bench := rfl
@[simp] theorem State.onActive_chain (f : Store → Store) (s : State) : (State.onActive f s).chain = s.chain := rfl
@[simp] theorem State.onActive_flash (f : Store → Store) (s : State) : (State.onActive f s).flash = s.flash := rfl

/-! ### State.putActive -/

@[simp] theorem State.putActive_pending (key raw : Nat) (s : State) : (State.putActive key raw s).pending = s.pending := rfl
@[simp] theorem State.putActive_dev (key raw : Nat) (s : State) : (State.putActive key raw s).dev = s.dev := rfl
@[simp] theorem State.putActive_frame (key raw : Nat) (s : State) : (State.putActive key raw s).frame = s.frame := rfl
@[simp] theorem State.putActive_active (key raw : Nat) (s : State) : (State.putActive key raw s).active = s.active.put key raw := rfl
@[simp] theorem State.putActive_active2 (key raw : Nat) (s : State) : (State.putActive key raw s).active2 = s.active2.put key raw := rfl
@[simp] theorem State.putActive_passed (key raw : Nat) (s : State) : (State.putActive key raw s).passed = s.passed.put key raw := rfl
@[simp] theorem State.putActive_staged (key raw : Nat) (s : State) : (State.putActive key raw s).staged = s.staged := rfl
@[simp] theorem State.putActive_commit (key raw : Nat) (s : State) : (State.putActive key raw s).commit = s.commit := rfl
@[simp] theorem State.putActive_persist (key raw : Nat) (s : State) : (State.putActive key raw s).persist = s.persist := rfl
@[simp] theorem State.putActive_table (key raw : Nat) (s : State) : (State.putActive key raw s).table = s.table := rfl
@[simp] theorem State.putActive_sense (key raw : Nat) (s : State) : (State.putActive key raw s).sense = s.sense := rfl
@[simp] theorem State.putActive_ctl (key raw : Nat) (s : State) : (State.putActive key raw s).ctl = s.ctl := rfl
@[simp] theorem State.putActive_lanes (key raw : Nat) (s : State) : (State.putActive key raw s).lanes = s.lanes := rfl
@[simp] theorem State.putActive_mod (key raw : Nat) (s : State) : (State.putActive key raw s).mod = s.mod := rfl
@[simp] theorem State.putActive_trip (key raw : Nat) (s : State) : (State.putActive key raw s).trip = s.trip := rfl
@[simp] theorem State.putActive_hearth (key raw : Nat) (s : State) : (State.putActive key raw s).hearth = s.hearth := rfl
@[simp] theorem State.putActive_canc (key raw : Nat) (s : State) : (State.putActive key raw s).canc = s.canc := rfl
@[simp] theorem State.putActive_loads (key raw : Nat) (s : State) : (State.putActive key raw s).loads = s.loads := rfl
@[simp] theorem State.putActive_diag (key raw : Nat) (s : State) : (State.putActive key raw s).diag = s.diag := rfl
@[simp] theorem State.putActive_audio (key raw : Nat) (s : State) : (State.putActive key raw s).audio = s.audio := rfl
@[simp] theorem State.putActive_crust (key raw : Nat) (s : State) : (State.putActive key raw s).crust = s.crust := rfl
@[simp] theorem State.putActive_fault (key raw : Nat) (s : State) : (State.putActive key raw s).fault = s.fault := rfl
@[simp] theorem State.putActive_hk (key raw : Nat) (s : State) : (State.putActive key raw s).hk = s.hk := rfl
@[simp] theorem State.putActive_net (key raw : Nat) (s : State) : (State.putActive key raw s).net = s.net := rfl
@[simp] theorem State.putActive_bench (key raw : Nat) (s : State) : (State.putActive key raw s).bench = s.bench := rfl
@[simp] theorem State.putActive_chain (key raw : Nat) (s : State) : (State.putActive key raw s).chain = s.chain := rfl
@[simp] theorem State.putActive_flash (key raw : Nat) (s : State) : (State.putActive key raw s).flash = s.flash := rfl

/-! ### State.moveToken -/

@[simp] theorem State.moveToken_pending (s : State) : (State.moveToken s).pending = s.pending := rfl
@[simp] theorem State.moveToken_dev (s : State) : (State.moveToken s).dev = s.dev := rfl
@[simp] theorem State.moveToken_frame (s : State) : (State.moveToken s).frame = s.frame := rfl
@[simp] theorem State.moveToken_active (s : State) : (State.moveToken s).active = s.active := rfl
@[simp] theorem State.moveToken_active2 (s : State) : (State.moveToken s).active2 = s.active2 := rfl
@[simp] theorem State.moveToken_passed (s : State) : (State.moveToken s).passed = s.passed := rfl
@[simp] theorem State.moveToken_staged (s : State) : (State.moveToken s).staged = s.staged := rfl
@[simp] theorem State.moveToken_commit (s : State) : (State.moveToken s).commit = { s.commit with token := if s.commit.token = 65535 then 1 else s.commit.token + 1 } := rfl
@[simp] theorem State.moveToken_persist (s : State) : (State.moveToken s).persist = s.persist := rfl
@[simp] theorem State.moveToken_table (s : State) : (State.moveToken s).table = s.table := rfl
@[simp] theorem State.moveToken_sense (s : State) : (State.moveToken s).sense = s.sense := rfl
@[simp] theorem State.moveToken_ctl (s : State) : (State.moveToken s).ctl = s.ctl := rfl
@[simp] theorem State.moveToken_lanes (s : State) : (State.moveToken s).lanes = s.lanes := rfl
@[simp] theorem State.moveToken_mod (s : State) : (State.moveToken s).mod = s.mod := rfl
@[simp] theorem State.moveToken_trip (s : State) : (State.moveToken s).trip = s.trip := rfl
@[simp] theorem State.moveToken_hearth (s : State) : (State.moveToken s).hearth = s.hearth := rfl
@[simp] theorem State.moveToken_canc (s : State) : (State.moveToken s).canc = s.canc := rfl
@[simp] theorem State.moveToken_loads (s : State) : (State.moveToken s).loads = s.loads := rfl
@[simp] theorem State.moveToken_diag (s : State) : (State.moveToken s).diag = s.diag := rfl
@[simp] theorem State.moveToken_audio (s : State) : (State.moveToken s).audio = s.audio := rfl
@[simp] theorem State.moveToken_crust (s : State) : (State.moveToken s).crust = s.crust := rfl
@[simp] theorem State.moveToken_fault (s : State) : (State.moveToken s).fault = s.fault := rfl
@[simp] theorem State.moveToken_hk (s : State) : (State.moveToken s).hk = s.hk := rfl
@[simp] theorem State.moveToken_net (s : State) : (State.moveToken s).net = s.net := rfl
@[simp] theorem State.moveToken_bench (s : State) : (State.moveToken s).bench = s.bench := rfl
@[simp] theorem State.moveToken_chain (s : State) : (State.moveToken s).chain = s.chain := rfl
@[simp] theorem State.moveToken_flash (s : State) : (State.moveToken s).flash = s.flash := rfl

/-! ### State.setSession -/

@[simp] theorem State.setSession_pending (k : Nat) (f : Session → Session) (s : State) : (State.setSession k f s).pending = s.pending := rfl
@[simp] theorem State.setSession_dev (k : Nat) (f : Session → Session) (s : State) : (State.setSession k f s).dev = s.dev := rfl
@[simp] theorem State.setSession_frame (k : Nat) (f : Session → Session) (s : State) : (State.setSession k f s).frame = s.frame := rfl
@[simp] theorem State.setSession_active (k : Nat) (f : Session → Session) (s : State) : (State.setSession k f s).active = s.active := rfl
@[simp] theorem State.setSession_active2 (k : Nat) (f : Session → Session) (s : State) : (State.setSession k f s).active2 = s.active2 := rfl
@[simp] theorem State.setSession_passed (k : Nat) (f : Session → Session) (s : State) : (State.setSession k f s).passed = s.passed := rfl
@[simp] theorem State.setSession_staged (k : Nat) (f : Session → Session) (s : State) : (State.setSession k f s).staged = s.staged := rfl
@[simp] theorem State.setSession_commit (k : Nat) (f : Session → Session) (s : State) : (State.setSession k f s).commit = s.commit := rfl
@[simp] theorem State.setSession_persist (k : Nat) (f : Session → Session) (s : State) : (State.setSession k f s).persist = s.persist := rfl
@[simp] theorem State.setSession_table (k : Nat) (f : Session → Session) (s : State) : (State.setSession k f s).table = s.table := rfl
@[simp] theorem State.setSession_sense (k : Nat) (f : Session → Session) (s : State) : (State.setSession k f s).sense = s.sense := rfl
@[simp] theorem State.setSession_ctl (k : Nat) (f : Session → Session) (s : State) : (State.setSession k f s).ctl = s.ctl := rfl
@[simp] theorem State.setSession_lanes (k : Nat) (f : Session → Session) (s : State) : (State.setSession k f s).lanes = s.lanes := rfl
@[simp] theorem State.setSession_mod (k : Nat) (f : Session → Session) (s : State) : (State.setSession k f s).mod = s.mod := rfl
@[simp] theorem State.setSession_trip (k : Nat) (f : Session → Session) (s : State) : (State.setSession k f s).trip = s.trip := rfl
@[simp] theorem State.setSession_hearth (k : Nat) (f : Session → Session) (s : State) : (State.setSession k f s).hearth = s.hearth := rfl
@[simp] theorem State.setSession_canc (k : Nat) (f : Session → Session) (s : State) : (State.setSession k f s).canc = s.canc := rfl
@[simp] theorem State.setSession_loads (k : Nat) (f : Session → Session) (s : State) : (State.setSession k f s).loads = s.loads := rfl
@[simp] theorem State.setSession_diag (k : Nat) (f : Session → Session) (s : State) : (State.setSession k f s).diag = s.diag := rfl
@[simp] theorem State.setSession_audio (k : Nat) (f : Session → Session) (s : State) : (State.setSession k f s).audio = s.audio := rfl
@[simp] theorem State.setSession_crust (k : Nat) (f : Session → Session) (s : State) : (State.setSession k f s).crust = s.crust := rfl
@[simp] theorem State.setSession_fault (k : Nat) (f : Session → Session) (s : State) : (State.setSession k f s).fault = s.fault := rfl
@[simp] theorem State.setSession_hk (k : Nat) (f : Session → Session) (s : State) : (State.setSession k f s).hk = s.hk := rfl
@[simp] theorem State.setSession_net (k : Nat) (f : Session → Session) (s : State) : (State.setSession k f s).net = { s.net with sessions := upd s.net.sessions k (fun x => x.map f) } := rfl
@[simp] theorem State.setSession_bench (k : Nat) (f : Session → Session) (s : State) : (State.setSession k f s).bench = s.bench := rfl
@[simp] theorem State.setSession_chain (k : Nat) (f : Session → Session) (s : State) : (State.setSession k f s).chain = s.chain := rfl
@[simp] theorem State.setSession_flash (k : Nat) (f : Session → Session) (s : State) : (State.setSession k f s).flash = s.flash := rfl

/-! ### State.setImage -/

@[simp] theorem State.setImage_pending (n : Nat) (f : ImageState → ImageState) (s : State) : (State.setImage n f s).pending = s.pending := rfl
@[simp] theorem State.setImage_dev (n : Nat) (f : ImageState → ImageState) (s : State) : (State.setImage n f s).dev = s.dev := rfl
@[simp] theorem State.setImage_frame (n : Nat) (f : ImageState → ImageState) (s : State) : (State.setImage n f s).frame = s.frame := rfl
@[simp] theorem State.setImage_active (n : Nat) (f : ImageState → ImageState) (s : State) : (State.setImage n f s).active = s.active := rfl
@[simp] theorem State.setImage_active2 (n : Nat) (f : ImageState → ImageState) (s : State) : (State.setImage n f s).active2 = s.active2 := rfl
@[simp] theorem State.setImage_passed (n : Nat) (f : ImageState → ImageState) (s : State) : (State.setImage n f s).passed = s.passed := rfl
@[simp] theorem State.setImage_staged (n : Nat) (f : ImageState → ImageState) (s : State) : (State.setImage n f s).staged = s.staged := rfl
@[simp] theorem State.setImage_commit (n : Nat) (f : ImageState → ImageState) (s : State) : (State.setImage n f s).commit = s.commit := rfl
@[simp] theorem State.setImage_persist (n : Nat) (f : ImageState → ImageState) (s : State) : (State.setImage n f s).persist = s.persist := rfl
@[simp] theorem State.setImage_table (n : Nat) (f : ImageState → ImageState) (s : State) : (State.setImage n f s).table = s.table := rfl
@[simp] theorem State.setImage_sense (n : Nat) (f : ImageState → ImageState) (s : State) : (State.setImage n f s).sense = s.sense := rfl
@[simp] theorem State.setImage_ctl (n : Nat) (f : ImageState → ImageState) (s : State) : (State.setImage n f s).ctl = s.ctl := rfl
@[simp] theorem State.setImage_lanes (n : Nat) (f : ImageState → ImageState) (s : State) : (State.setImage n f s).lanes = s.lanes := rfl
@[simp] theorem State.setImage_mod (n : Nat) (f : ImageState → ImageState) (s : State) : (State.setImage n f s).mod = s.mod := rfl
@[simp] theorem State.setImage_trip (n : Nat) (f : ImageState → ImageState) (s : State) : (State.setImage n f s).trip = s.trip := rfl
@[simp] theorem State.setImage_hearth (n : Nat) (f : ImageState → ImageState) (s : State) : (State.setImage n f s).hearth = s.hearth := rfl
@[simp] theorem State.setImage_canc (n : Nat) (f : ImageState → ImageState) (s : State) : (State.setImage n f s).canc = s.canc := rfl
@[simp] theorem State.setImage_loads (n : Nat) (f : ImageState → ImageState) (s : State) : (State.setImage n f s).loads = s.loads := rfl
@[simp] theorem State.setImage_diag (n : Nat) (f : ImageState → ImageState) (s : State) : (State.setImage n f s).diag = s.diag := rfl
@[simp] theorem State.setImage_audio (n : Nat) (f : ImageState → ImageState) (s : State) : (State.setImage n f s).audio = s.audio := rfl
@[simp] theorem State.setImage_crust (n : Nat) (f : ImageState → ImageState) (s : State) : (State.setImage n f s).crust = s.crust := rfl
@[simp] theorem State.setImage_fault (n : Nat) (f : ImageState → ImageState) (s : State) : (State.setImage n f s).fault = s.fault := rfl
@[simp] theorem State.setImage_hk (n : Nat) (f : ImageState → ImageState) (s : State) : (State.setImage n f s).hk = s.hk := rfl
@[simp] theorem State.setImage_net (n : Nat) (f : ImageState → ImageState) (s : State) : (State.setImage n f s).net = { s.net with images := upd s.net.images n f } := rfl
@[simp] theorem State.setImage_bench (n : Nat) (f : ImageState → ImageState) (s : State) : (State.setImage n f s).bench = s.bench := rfl
@[simp] theorem State.setImage_chain (n : Nat) (f : ImageState → ImageState) (s : State) : (State.setImage n f s).chain = s.chain := rfl
@[simp] theorem State.setImage_flash (n : Nat) (f : ImageState → ImageState) (s : State) : (State.setImage n f s).flash = s.flash := rfl

/-! ### State.setLink -/

@[simp] theorem State.setLink_pending (link : Nat) (x : GdlLink) (s : State) : (State.setLink link x s).pending = s.pending := rfl
@[simp] theorem State.setLink_dev (link : Nat) (x : GdlLink) (s : State) : (State.setLink link x s).dev = s.dev := rfl
@[simp] theorem State.setLink_frame (link : Nat) (x : GdlLink) (s : State) : (State.setLink link x s).frame = s.frame := rfl
@[simp] theorem State.setLink_active (link : Nat) (x : GdlLink) (s : State) : (State.setLink link x s).active = s.active := rfl
@[simp] theorem State.setLink_active2 (link : Nat) (x : GdlLink) (s : State) : (State.setLink link x s).active2 = s.active2 := rfl
@[simp] theorem State.setLink_passed (link : Nat) (x : GdlLink) (s : State) : (State.setLink link x s).passed = s.passed := rfl
@[simp] theorem State.setLink_staged (link : Nat) (x : GdlLink) (s : State) : (State.setLink link x s).staged = s.staged := rfl
@[simp] theorem State.setLink_commit (link : Nat) (x : GdlLink) (s : State) : (State.setLink link x s).commit = s.commit := rfl
@[simp] theorem State.setLink_persist (link : Nat) (x : GdlLink) (s : State) : (State.setLink link x s).persist = s.persist := rfl
@[simp] theorem State.setLink_table (link : Nat) (x : GdlLink) (s : State) : (State.setLink link x s).table = s.table := rfl
@[simp] theorem State.setLink_sense (link : Nat) (x : GdlLink) (s : State) : (State.setLink link x s).sense = s.sense := rfl
@[simp] theorem State.setLink_ctl (link : Nat) (x : GdlLink) (s : State) : (State.setLink link x s).ctl = s.ctl := rfl
@[simp] theorem State.setLink_lanes (link : Nat) (x : GdlLink) (s : State) : (State.setLink link x s).lanes = s.lanes := rfl
@[simp] theorem State.setLink_mod (link : Nat) (x : GdlLink) (s : State) : (State.setLink link x s).mod = s.mod := rfl
@[simp] theorem State.setLink_trip (link : Nat) (x : GdlLink) (s : State) : (State.setLink link x s).trip = { s.trip with gdl := upd s.trip.gdl link (fun _ => x) } := rfl
@[simp] theorem State.setLink_hearth (link : Nat) (x : GdlLink) (s : State) : (State.setLink link x s).hearth = s.hearth := rfl
@[simp] theorem State.setLink_canc (link : Nat) (x : GdlLink) (s : State) : (State.setLink link x s).canc = s.canc := rfl
@[simp] theorem State.setLink_loads (link : Nat) (x : GdlLink) (s : State) : (State.setLink link x s).loads = s.loads := rfl
@[simp] theorem State.setLink_diag (link : Nat) (x : GdlLink) (s : State) : (State.setLink link x s).diag = s.diag := rfl
@[simp] theorem State.setLink_audio (link : Nat) (x : GdlLink) (s : State) : (State.setLink link x s).audio = s.audio := rfl
@[simp] theorem State.setLink_crust (link : Nat) (x : GdlLink) (s : State) : (State.setLink link x s).crust = s.crust := rfl
@[simp] theorem State.setLink_fault (link : Nat) (x : GdlLink) (s : State) : (State.setLink link x s).fault = s.fault := rfl
@[simp] theorem State.setLink_hk (link : Nat) (x : GdlLink) (s : State) : (State.setLink link x s).hk = s.hk := rfl
@[simp] theorem State.setLink_net (link : Nat) (x : GdlLink) (s : State) : (State.setLink link x s).net = s.net := rfl
@[simp] theorem State.setLink_bench (link : Nat) (x : GdlLink) (s : State) : (State.setLink link x s).bench = s.bench := rfl
@[simp] theorem State.setLink_chain (link : Nat) (x : GdlLink) (s : State) : (State.setLink link x s).chain = s.chain := rfl
@[simp] theorem State.setLink_flash (link : Nat) (x : GdlLink) (s : State) : (State.setLink link x s).flash = s.flash := rfl

/-! ### State.setPort -/

@[simp] theorem State.setPort_pending (n : Nat) (p : AspPort) (s : State) : (State.setPort n p s).pending = s.pending := rfl
@[simp] theorem State.setPort_dev (n : Nat) (p : AspPort) (s : State) : (State.setPort n p s).dev = s.dev := rfl
@[simp] theorem State.setPort_frame (n : Nat) (p : AspPort) (s : State) : (State.setPort n p s).frame = s.frame := rfl
@[simp] theorem State.setPort_active (n : Nat) (p : AspPort) (s : State) : (State.setPort n p s).active = s.active := rfl
@[simp] theorem State.setPort_active2 (n : Nat) (p : AspPort) (s : State) : (State.setPort n p s).active2 = s.active2 := rfl
@[simp] theorem State.setPort_passed (n : Nat) (p : AspPort) (s : State) : (State.setPort n p s).passed = s.passed := rfl
@[simp] theorem State.setPort_staged (n : Nat) (p : AspPort) (s : State) : (State.setPort n p s).staged = s.staged := rfl
@[simp] theorem State.setPort_commit (n : Nat) (p : AspPort) (s : State) : (State.setPort n p s).commit = s.commit := rfl
@[simp] theorem State.setPort_persist (n : Nat) (p : AspPort) (s : State) : (State.setPort n p s).persist = s.persist := rfl
@[simp] theorem State.setPort_table (n : Nat) (p : AspPort) (s : State) : (State.setPort n p s).table = s.table := rfl
@[simp] theorem State.setPort_sense (n : Nat) (p : AspPort) (s : State) : (State.setPort n p s).sense = s.sense := rfl
@[simp] theorem State.setPort_ctl (n : Nat) (p : AspPort) (s : State) : (State.setPort n p s).ctl = s.ctl := rfl
@[simp] theorem State.setPort_lanes (n : Nat) (p : AspPort) (s : State) : (State.setPort n p s).lanes = s.lanes := rfl
@[simp] theorem State.setPort_mod (n : Nat) (p : AspPort) (s : State) : (State.setPort n p s).mod = s.mod := rfl
@[simp] theorem State.setPort_trip (n : Nat) (p : AspPort) (s : State) : (State.setPort n p s).trip = s.trip := rfl
@[simp] theorem State.setPort_hearth (n : Nat) (p : AspPort) (s : State) : (State.setPort n p s).hearth = s.hearth := rfl
@[simp] theorem State.setPort_canc (n : Nat) (p : AspPort) (s : State) : (State.setPort n p s).canc = s.canc := rfl
@[simp] theorem State.setPort_loads (n : Nat) (p : AspPort) (s : State) : (State.setPort n p s).loads = s.loads := rfl
@[simp] theorem State.setPort_diag (n : Nat) (p : AspPort) (s : State) : (State.setPort n p s).diag = s.diag := rfl
@[simp] theorem State.setPort_audio (n : Nat) (p : AspPort) (s : State) : (State.setPort n p s).audio = { s.audio with asp := upd s.audio.asp n (fun _ => p) } := rfl
@[simp] theorem State.setPort_crust (n : Nat) (p : AspPort) (s : State) : (State.setPort n p s).crust = s.crust := rfl
@[simp] theorem State.setPort_fault (n : Nat) (p : AspPort) (s : State) : (State.setPort n p s).fault = s.fault := rfl
@[simp] theorem State.setPort_hk (n : Nat) (p : AspPort) (s : State) : (State.setPort n p s).hk = s.hk := rfl
@[simp] theorem State.setPort_net (n : Nat) (p : AspPort) (s : State) : (State.setPort n p s).net = s.net := rfl
@[simp] theorem State.setPort_bench (n : Nat) (p : AspPort) (s : State) : (State.setPort n p s).bench = s.bench := rfl
@[simp] theorem State.setPort_chain (n : Nat) (p : AspPort) (s : State) : (State.setPort n p s).chain = s.chain := rfl
@[simp] theorem State.setPort_flash (n : Nat) (p : AspPort) (s : State) : (State.setPort n p s).flash = s.flash := rfl

/-! ### State.setCtl -/

@[simp] theorem State.setCtl_pending (m : Nat) (f : MachCtl → MachCtl) (s : State) : (State.setCtl m f s).pending = s.pending := rfl
@[simp] theorem State.setCtl_dev (m : Nat) (f : MachCtl → MachCtl) (s : State) : (State.setCtl m f s).dev = s.dev := rfl
@[simp] theorem State.setCtl_frame (m : Nat) (f : MachCtl → MachCtl) (s : State) : (State.setCtl m f s).frame = s.frame := rfl
@[simp] theorem State.setCtl_active (m : Nat) (f : MachCtl → MachCtl) (s : State) : (State.setCtl m f s).active = s.active := rfl
@[simp] theorem State.setCtl_active2 (m : Nat) (f : MachCtl → MachCtl) (s : State) : (State.setCtl m f s).active2 = s.active2 := rfl
@[simp] theorem State.setCtl_passed (m : Nat) (f : MachCtl → MachCtl) (s : State) : (State.setCtl m f s).passed = s.passed := rfl
@[simp] theorem State.setCtl_staged (m : Nat) (f : MachCtl → MachCtl) (s : State) : (State.setCtl m f s).staged = s.staged := rfl
@[simp] theorem State.setCtl_commit (m : Nat) (f : MachCtl → MachCtl) (s : State) : (State.setCtl m f s).commit = s.commit := rfl
@[simp] theorem State.setCtl_persist (m : Nat) (f : MachCtl → MachCtl) (s : State) : (State.setCtl m f s).persist = s.persist := rfl
@[simp] theorem State.setCtl_table (m : Nat) (f : MachCtl → MachCtl) (s : State) : (State.setCtl m f s).table = s.table := rfl
@[simp] theorem State.setCtl_sense (m : Nat) (f : MachCtl → MachCtl) (s : State) : (State.setCtl m f s).sense = s.sense := rfl
@[simp] theorem State.setCtl_ctl (m : Nat) (f : MachCtl → MachCtl) (s : State) : (State.setCtl m f s).ctl = upd s.ctl m f := rfl
@[simp] theorem State.setCtl_lanes (m : Nat) (f : MachCtl → MachCtl) (s : State) : (State.setCtl m f s).lanes = s.lanes := rfl
@[simp] theorem State.setCtl_mod (m : Nat) (f : MachCtl → MachCtl) (s : State) : (State.setCtl m f s).mod = s.mod := rfl
@[simp] theorem State.setCtl_trip (m : Nat) (f : MachCtl → MachCtl) (s : State) : (State.setCtl m f s).trip = s.trip := rfl
@[simp] theorem State.setCtl_hearth (m : Nat) (f : MachCtl → MachCtl) (s : State) : (State.setCtl m f s).hearth = s.hearth := rfl
@[simp] theorem State.setCtl_canc (m : Nat) (f : MachCtl → MachCtl) (s : State) : (State.setCtl m f s).canc = s.canc := rfl
@[simp] theorem State.setCtl_loads (m : Nat) (f : MachCtl → MachCtl) (s : State) : (State.setCtl m f s).loads = s.loads := rfl
@[simp] theorem State.setCtl_diag (m : Nat) (f : MachCtl → MachCtl) (s : State) : (State.setCtl m f s).diag = s.diag := rfl
@[simp] theorem State.setCtl_audio (m : Nat) (f : MachCtl → MachCtl) (s : State) : (State.setCtl m f s).audio = s.audio := rfl
@[simp] theorem State.setCtl_crust (m : Nat) (f : MachCtl → MachCtl) (s : State) : (State.setCtl m f s).crust = s.crust := rfl
@[simp] theorem State.setCtl_fault (m : Nat) (f : MachCtl → MachCtl) (s : State) : (State.setCtl m f s).fault = s.fault := rfl
@[simp] theorem State.setCtl_hk (m : Nat) (f : MachCtl → MachCtl) (s : State) : (State.setCtl m f s).hk = s.hk := rfl
@[simp] theorem State.setCtl_net (m : Nat) (f : MachCtl → MachCtl) (s : State) : (State.setCtl m f s).net = s.net := rfl
@[simp] theorem State.setCtl_bench (m : Nat) (f : MachCtl → MachCtl) (s : State) : (State.setCtl m f s).bench = s.bench := rfl
@[simp] theorem State.setCtl_chain (m : Nat) (f : MachCtl → MachCtl) (s : State) : (State.setCtl m f s).chain = s.chain := rfl
@[simp] theorem State.setCtl_flash (m : Nat) (f : MachCtl → MachCtl) (s : State) : (State.setCtl m f s).flash = s.flash := rfl

/-! ### State.handOffTo -/

@[simp] theorem State.handOffTo_pending (m : Nat) (s : State) : (State.handOffTo m s).pending = s.pending := rfl
@[simp] theorem State.handOffTo_dev (m : Nat) (s : State) : (State.handOffTo m s).dev = s.dev := rfl
@[simp] theorem State.handOffTo_frame (m : Nat) (s : State) : (State.handOffTo m s).frame = s.frame := rfl
@[simp] theorem State.handOffTo_active (m : Nat) (s : State) : (State.handOffTo m s).active = s.active := rfl
@[simp] theorem State.handOffTo_active2 (m : Nat) (s : State) : (State.handOffTo m s).active2 = s.active2 := rfl
@[simp] theorem State.handOffTo_passed (m : Nat) (s : State) : (State.handOffTo m s).passed = s.passed := rfl
@[simp] theorem State.handOffTo_staged (m : Nat) (s : State) : (State.handOffTo m s).staged = s.staged := rfl
@[simp] theorem State.handOffTo_commit (m : Nat) (s : State) : (State.handOffTo m s).commit = s.commit := rfl
@[simp] theorem State.handOffTo_persist (m : Nat) (s : State) : (State.handOffTo m s).persist = s.persist := rfl
@[simp] theorem State.handOffTo_table (m : Nat) (s : State) : (State.handOffTo m s).table = s.table := rfl
@[simp] theorem State.handOffTo_sense (m : Nat) (s : State) : (State.handOffTo m s).sense = s.sense := rfl
@[simp] theorem State.handOffTo_ctl (m : Nat) (s : State) : (State.handOffTo m s).ctl = s.ctl := rfl
@[simp] theorem State.handOffTo_lanes (m : Nat) (s : State) : (State.handOffTo m s).lanes = s.lanes := rfl
@[simp] theorem State.handOffTo_mod (m : Nat) (s : State) : (State.handOffTo m s).mod = s.mod := rfl
@[simp] theorem State.handOffTo_trip (m : Nat) (s : State) : (State.handOffTo m s).trip = s.trip := rfl
@[simp] theorem State.handOffTo_hearth (m : Nat) (s : State) : (State.handOffTo m s).hearth = s.hearth := rfl
@[simp] theorem State.handOffTo_canc (m : Nat) (s : State) : (State.handOffTo m s).canc = s.canc := rfl
@[simp] theorem State.handOffTo_loads (m : Nat) (s : State) : (State.handOffTo m s).loads = s.loads := rfl
@[simp] theorem State.handOffTo_diag (m : Nat) (s : State) : (State.handOffTo m s).diag = s.diag := rfl
@[simp] theorem State.handOffTo_audio (m : Nat) (s : State) : (State.handOffTo m s).audio = s.audio := rfl
@[simp] theorem State.handOffTo_crust (m : Nat) (s : State) : (State.handOffTo m s).crust = s.crust := rfl
@[simp] theorem State.handOffTo_fault (m : Nat) (s : State) : (State.handOffTo m s).fault = s.fault := rfl
@[simp] theorem State.handOffTo_hk (m : Nat) (s : State) : (State.handOffTo m s).hk = s.hk := rfl
@[simp] theorem State.handOffTo_net (m : Nat) (s : State) : (State.handOffTo m s).net = s.net := rfl
@[simp] theorem State.handOffTo_bench (m : Nat) (s : State) : (State.handOffTo m s).bench = s.bench := rfl
@[simp] theorem State.handOffTo_chain (m : Nat) (s : State) : (State.handOffTo m s).chain = { s.chain with m := upd s.chain.m m (fun x => { x with twin := 2, handoff := false, asked := false }) } := rfl
@[simp] theorem State.handOffTo_flash (m : Nat) (s : State) : (State.handOffTo m s).flash = s.flash := rfl

/-! ### State.dropTransfer -/

@[simp] theorem State.dropTransfer_pending (k key : Nat) (s : State) : (State.dropTransfer k key s).pending = s.pending := rfl
@[simp] theorem State.dropTransfer_dev (k key : Nat) (s : State) : (State.dropTransfer k key s).dev = s.dev := rfl
@[simp] theorem State.dropTransfer_frame (k key : Nat) (s : State) : (State.dropTransfer k key s).frame = s.frame := rfl
@[simp] theorem State.dropTransfer_active (k key : Nat) (s : State) : (State.dropTransfer k key s).active = s.active := rfl
@[simp] theorem State.dropTransfer_active2 (k key : Nat) (s : State) : (State.dropTransfer k key s).active2 = s.active2 := rfl
@[simp] theorem State.dropTransfer_passed (k key : Nat) (s : State) : (State.dropTransfer k key s).passed = s.passed := rfl
@[simp] theorem State.dropTransfer_staged (k key : Nat) (s : State) : (State.dropTransfer k key s).staged = s.staged := rfl
@[simp] theorem State.dropTransfer_commit (k key : Nat) (s : State) : (State.dropTransfer k key s).commit = s.commit := rfl
@[simp] theorem State.dropTransfer_persist (k key : Nat) (s : State) : (State.dropTransfer k key s).persist = s.persist := rfl
@[simp] theorem State.dropTransfer_table (k key : Nat) (s : State) : (State.dropTransfer k key s).table = { s.table with transfers := s.table.transfers.filter (fun t => !(t.key == key && t.session == k)) } := rfl
@[simp] theorem State.dropTransfer_sense (k key : Nat) (s : State) : (State.dropTransfer k key s).sense = s.sense := rfl
@[simp] theorem State.dropTransfer_ctl (k key : Nat) (s : State) : (State.dropTransfer k key s).ctl = s.ctl := rfl
@[simp] theorem State.dropTransfer_lanes (k key : Nat) (s : State) : (State.dropTransfer k key s).lanes = s.lanes := rfl
@[simp] theorem State.dropTransfer_mod (k key : Nat) (s : State) : (State.dropTransfer k key s).mod = s.mod := rfl
@[simp] theorem State.dropTransfer_trip (k key : Nat) (s : State) : (State.dropTransfer k key s).trip = s.trip := rfl
@[simp] theorem State.dropTransfer_hearth (k key : Nat) (s : State) : (State.dropTransfer k key s).hearth = s.hearth := rfl
@[simp] theorem State.dropTransfer_canc (k key : Nat) (s : State) : (State.dropTransfer k key s).canc = s.canc := rfl
@[simp] theorem State.dropTransfer_loads (k key : Nat) (s : State) : (State.dropTransfer k key s).loads = s.loads := rfl
@[simp] theorem State.dropTransfer_diag (k key : Nat) (s : State) : (State.dropTransfer k key s).diag = s.diag := rfl
@[simp] theorem State.dropTransfer_audio (k key : Nat) (s : State) : (State.dropTransfer k key s).audio = s.audio := rfl
@[simp] theorem State.dropTransfer_crust (k key : Nat) (s : State) : (State.dropTransfer k key s).crust = s.crust := rfl
@[simp] theorem State.dropTransfer_fault (k key : Nat) (s : State) : (State.dropTransfer k key s).fault = s.fault := rfl
@[simp] theorem State.dropTransfer_hk (k key : Nat) (s : State) : (State.dropTransfer k key s).hk = s.hk := rfl
@[simp] theorem State.dropTransfer_net (k key : Nat) (s : State) : (State.dropTransfer k key s).net = s.net := rfl
@[simp] theorem State.dropTransfer_bench (k key : Nat) (s : State) : (State.dropTransfer k key s).bench = s.bench := rfl
@[simp] theorem State.dropTransfer_chain (k key : Nat) (s : State) : (State.dropTransfer k key s).chain = s.chain := rfl
@[simp] theorem State.dropTransfer_flash (k key : Nat) (s : State) : (State.dropTransfer k key s).flash = s.flash := rfl

/-! ### State.benchAnswer -/

@[simp] theorem State.benchAnswer_pending (code data : Nat) (s : State) : (State.benchAnswer code data s).pending = s.pending := rfl
@[simp] theorem State.benchAnswer_dev (code data : Nat) (s : State) : (State.benchAnswer code data s).dev = s.dev := rfl
@[simp] theorem State.benchAnswer_frame (code data : Nat) (s : State) : (State.benchAnswer code data s).frame = s.frame := rfl
@[simp] theorem State.benchAnswer_active (code data : Nat) (s : State) : (State.benchAnswer code data s).active = s.active := rfl
@[simp] theorem State.benchAnswer_active2 (code data : Nat) (s : State) : (State.benchAnswer code data s).active2 = s.active2 := rfl
@[simp] theorem State.benchAnswer_passed (code data : Nat) (s : State) : (State.benchAnswer code data s).passed = s.passed := rfl
@[simp] theorem State.benchAnswer_staged (code data : Nat) (s : State) : (State.benchAnswer code data s).staged = s.staged := rfl
@[simp] theorem State.benchAnswer_commit (code data : Nat) (s : State) : (State.benchAnswer code data s).commit = s.commit := rfl
@[simp] theorem State.benchAnswer_persist (code data : Nat) (s : State) : (State.benchAnswer code data s).persist = s.persist := rfl
@[simp] theorem State.benchAnswer_table (code data : Nat) (s : State) : (State.benchAnswer code data s).table = s.table := rfl
@[simp] theorem State.benchAnswer_sense (code data : Nat) (s : State) : (State.benchAnswer code data s).sense = s.sense := rfl
@[simp] theorem State.benchAnswer_ctl (code data : Nat) (s : State) : (State.benchAnswer code data s).ctl = s.ctl := rfl
@[simp] theorem State.benchAnswer_lanes (code data : Nat) (s : State) : (State.benchAnswer code data s).lanes = s.lanes := rfl
@[simp] theorem State.benchAnswer_mod (code data : Nat) (s : State) : (State.benchAnswer code data s).mod = s.mod := rfl
@[simp] theorem State.benchAnswer_trip (code data : Nat) (s : State) : (State.benchAnswer code data s).trip = s.trip := rfl
@[simp] theorem State.benchAnswer_hearth (code data : Nat) (s : State) : (State.benchAnswer code data s).hearth = s.hearth := rfl
@[simp] theorem State.benchAnswer_canc (code data : Nat) (s : State) : (State.benchAnswer code data s).canc = s.canc := rfl
@[simp] theorem State.benchAnswer_loads (code data : Nat) (s : State) : (State.benchAnswer code data s).loads = s.loads := rfl
@[simp] theorem State.benchAnswer_diag (code data : Nat) (s : State) : (State.benchAnswer code data s).diag = s.diag := rfl
@[simp] theorem State.benchAnswer_audio (code data : Nat) (s : State) : (State.benchAnswer code data s).audio = s.audio := rfl
@[simp] theorem State.benchAnswer_crust (code data : Nat) (s : State) : (State.benchAnswer code data s).crust = s.crust := rfl
@[simp] theorem State.benchAnswer_fault (code data : Nat) (s : State) : (State.benchAnswer code data s).fault = s.fault := rfl
@[simp] theorem State.benchAnswer_hk (code data : Nat) (s : State) : (State.benchAnswer code data s).hk = s.hk := rfl
@[simp] theorem State.benchAnswer_net (code data : Nat) (s : State) : (State.benchAnswer code data s).net = s.net := rfl
@[simp] theorem State.benchAnswer_bench (code data : Nat) (s : State) : (State.benchAnswer code data s).bench = s.bench.finish code data := rfl
@[simp] theorem State.benchAnswer_chain (code data : Nat) (s : State) : (State.benchAnswer code data s).chain = s.chain := rfl
@[simp] theorem State.benchAnswer_flash (code data : Nat) (s : State) : (State.benchAnswer code data s).flash = s.flash := rfl

end Sys2Proof.Machine
end

