-- ==== Sys2Proof/Tests/Slice0.lean ====
section
/-! SUPPORT. Tests of this model, each about one command on a small state: the checks of WellFormed, a state and operands that meet the hypotheses of
every statement, and effects that the spec's own words and worked numbers fix. -/

namespace Sys2Proof.Tests

set_option Elab.async false

open Sys2Proof Sys2Proof.Machine

/-- A running device in a device state, 1000 s after reset. -/
def st (n : Nat) : State := { dev := { state := n, counter := 200000000000 } }

/-- A value in the active and the staged copies. -/
def put (key v : Nat) (s : State) : State := { s with active := s.active.put key v, active2 := s.active2.put key v, passed := s.passed.put key v, staged := s.staged.put key v }

/-- A device in state n whose session 1 has an item at the front of its queue. -/
def host (n op key : Nat) (data : List Byte) : State :=
  { st n with net := { sessions := (List.replicate 16 none).set 1 (some
      { level := 3, slot := 1, key := [], iface := 0, last := 0
        queue := [{ seq := 1, iface := 0, source := 5, items := [{ opcode := op, idx := key / 256, sub := key % 256, data := data }] }] }) } }

/-- A device in state n whose session 1 has a WRITE item at the front of its queue. -/
def writes (n key : Nat) (data : List Byte) : State := host n 2 key data

/-- A device in state n with a Bench request without a result. -/
def bench (n a data : Nat) : State := { st n with bench := { verifying := false, queue := [{ cmd := 0x8000 + a, data := data }] } }

/-- Accepted, as a check. -/
def acceptedB (key : Nat) (data : List Byte) (s : State) : Bool :=
  s.atFront 1 2 key data && (match s.session 1 with | some x => (s.fresh.writeAbort 1 x.level key data).isNone | none => true)

theorem accepted_of {key : Nat} {data : List Byte} {s : State} (h : acceptedB key data s = true) : Accepted 1 key data s := by
  unfold acceptedB at h
  rw [Bool.and_eq_true] at h
  refine ⟨h.1, fun x hx => ?_⟩
  have := h.2
  rw [hx] at this
  exact Option.isNone_iff_eq_none.mp this

theorem benchWrites_of {a data : Nat} {s : State} (h : (s.benchOn && s.bench.front.any (fun r => bit r.cmd 15 && bits r.cmd 11 0 == a && r.data == data)) = true) :
    BenchWrites a data s := by
  rw [Bool.and_eq_true] at h
  refine ⟨h.1, ?_⟩
  cases hf : s.bench.front with
  | none => rw [hf] at h; exact absurd h.2 (by simp)
  | some r =>
    rw [hf] at h
    have h2 := h.2
    simp only [Option.any_some, Bool.and_eq_true, beq_iff_eq] at h2
    exact ⟨r, rfl, h2.1.1, h2.1.2, h2.2⟩

theorem some_of {α : Type} {o : Option α} {p : α → Prop} [DecidablePred p] (h : o.all (fun x => decide (p x)) = true) : ∀ x, o = some x → p x := by
  intro x hx
  rw [hx] at h
  simpa using h

theorem sound_of {s : State} (h : (s.active.wf && s.active2.wf && s.passed.wf && s.staged.wf && flashWf s.flash.bankA.image && flashWf s.flash.bankB.image
    && decide (1 ≤ s.commit.token) && decide (s.commit.token ≤ 65535) && decide (s.dev.state ≤ 8)) = true) : Sound s := by
  simp only [Bool.and_eq_true, decide_eq_true_eq] at h
  obtain ⟨⟨⟨⟨⟨⟨⟨⟨h1, h2⟩, h0⟩, h3⟩, h4⟩, h5⟩, h6⟩, h7⟩, h8⟩ := h
  exact ⟨h1, h2, h0, h3, h4, h5, ⟨h6, h7⟩, h8⟩

/-! ### Hypotheses met: the whole machine -/

/-- In READY, with an M0 Crest waiting. -/
def crestWaits : State := { st 4 with pending := [.crest 0] }

theorem test_hyps_StepRunsCommand : crestWaits.pending = .crest 0 :: [] := rfl

theorem test_hyps_StepCompletes : (st 4).pending = [] := rfl

theorem test_hyps_StepsKeepSound : Sound crestWaits ∧ ∃ t, step crestWaits = .next t :=
  ⟨sound_of (by decide +kernel), _, rfl⟩

theorem test_hyps_StateTransitions :
    (st 4).dev.state ≤ 8 ∧ ∃ t, step { st 4 with pending := [.nporFall] } = .next t ∧ t.dev.state ≠ (st 4).dev.state :=
  ⟨by decide, _, rfl, by decide⟩

theorem test_hyps_BedrockLasts :
    ((st 7).dev.state = 7 ∧ (∃ t, step { st 7 with pending := [.crest 0] } = .next t) ∧ resetItem (.crest 0) = false ∧ ∀ aon, Instr.crest 0 ≠ .nrstRise aon)
    ∧ ((st 4).up = true ∧ (st 4).dev.state ≠ 7 ∧ bits (st 4).dev.retained 63 60 ≠ 2 ∧ bits (st 4).dev.retained 63 60 ≠ 3)
    ∧ ((st 7).dev.state = 7 ∧ (st 7).dev.nrst = true)
    ∧ (let s : State := { dev := { bankStarted := true, retained := 2 ^ 60 + 2 ^ 59 } }
       s.dev.npor = true ∧ s.dev.nrst = true ∧ s.dev.state = 2 ∧ s.dev.bankStarted = true ∧ bits s.dev.retained 63 60 = 1 ∧ bit s.dev.retained 59 = true)
    ∧ (let s : State := { dev := { state := 0, npor := false, retained := 2 ^ 60 } }
       s.dev.vaon = true ∧ s.dev.npor = false ∧ s.dev.state ≠ 1 ∧ bits s.dev.retained 63 60 = 1)
    ∧ ((st 2).dev.npor = true ∧ (st 2).dev.nrst = true ∧ (st 2).dev.state = 2 ∧ (st 2).bench.verifying = true) :=
  ⟨⟨rfl, ⟨_, rfl⟩, rfl, nofun⟩, by decide, by decide, by decide, by decide, by decide⟩

theorem test_hyps_LockedGroups :
    (let s : State := { st 7 with pending := [.crest 0], trip := { g := [{ state := 5 }, { state := 5 }] } }
     (nth s.trip.g 0 {}).state = 5 ∧ resetItem (.crest 0) = false ∧ (s.dev.state = 7 → ∀ g ∈ s.trip.g, g.state = 5)
      ∧ ∃ t, step s = .next t ∧ t.dev.state = 7) :=
  ⟨by decide, rfl, by decide, _, rfl, by decide +kernel⟩

theorem test_hyps_CountersMove :
    (∃ t, step crestWaits = .next t) ∧ (∀ straps ref, Instr.crest 0 ≠ .nporRise straps ref) ∧ (∀ edges, Instr.crest 0 ≠ .m0Trough edges)
      ∧ (∀ r, Instr.crest 0 ≠ .proofingStepDone r) ∧ Instr.crest 0 ≠ .bankStarted ∧ resetItem (.crest 0) = false
      ∧ (∃ t, step { st 4 with pending := [.m0Trough 0] } = .next t) ∧ ∃ edges, Instr.m0Trough 0 = .m0Trough edges :=
  ⟨⟨_, rfl⟩, nofun, nofun, nofun, nofun, rfl, ⟨_, rfl⟩, _, rfl⟩

theorem test_hyps_TokenMoves :
    (∃ t, step crestWaits = .next t) ∧ (Instr.crest 0).wellFormed = true ∧ (hostItem (.crest 0) = false ∨ actionItem (.crest 0) = true)
      ∧ benchItem (.crest 0) = false ∧ resetItem (.crest 0) = false ∧ (∀ pdm, Instr.crest 0 ≠ .hearthBlockBoundary pdm)
      ∧ ∀ n, Instr.crest 0 ≠ .imageTimeout n :=
  ⟨⟨_, rfl⟩, rfl, .inl rfl, rfl, rfl, nofun, nofun⟩

theorem test_hyps_SettingsInForce :
    (∃ t, step crestWaits = .next t) ∧ hostItem (.crest 0) = false ∧ benchItem (.crest 0) = false ∧ resetItem (.crest 0) = false
      ∧ (∀ e, Instr.crest 0 ≠ .m0Trough e) ∧ Instr.crest 0 ≠ .hkRoundBoundary ∧ (∀ pdm, Instr.crest 0 ≠ .hearthBlockBoundary pdm)
      ∧ (∀ n cycles, Instr.crest 0 ≠ .aspFrame n cycles) ∧ Instr.crest 0 ≠ .crustCycle ∧ Instr.crest 0 ≠ .laneStart
      ∧ (∀ p b, Instr.crest 0 ≠ .yoapFrame p b) ∧ ∀ a b, Instr.crest 0 ≠ .bankVerificationDone a b :=
  ⟨⟨_, rfl⟩, rfl, rfl, rfl, nofun, nofun, nofun, nofun, nofun, nofun, nofun, nofun⟩

theorem test_hyps_FirmwareBytes :
    (∃ t, step crestWaits = .next t) ∧ resetItem (.crest 0) = false ∧ (∀ ok, Instr.crest 0 ≠ .flashOperationDone ok)
      ∧ (∀ ok, Instr.crest 0 ≠ .updateActionDone ok) ∧ (∀ ok, Instr.crest 0 ≠ .recoveryActionDone ok)
      ∧ ∀ a b, Instr.crest 0 ≠ .bankVerificationDone a b :=
  ⟨⟨_, rfl⟩, rfl, nofun, nofun, nofun, nofun⟩

theorem test_hyps_HealedPairs :
    (let s : State := { st 4 with active := { vals := [(0x506001, 5)] } }
     s.active.wf = true ∧ (0x506001, 5) ∈ s.active.vals ∧ (findRow 0x506001).any (fun r => r.ty.isPair) = true
      ∧ s.sense.zeros.all (fun z => z.1 != 0x506001) = true ∧ pairOk 5 = false ∧ pairOk (s.active2.raw 0x506001) = true)
    ∧ (let s : State := { st 4 with active := { vals := [(0x506001, 5)] }, active2 := { vals := [(0x506001, 6)] } }
       s.active.wf = true ∧ (0x506001, 5) ∈ s.active.vals ∧ s.sense.zeros.all (fun z => z.1 != 0x506001) = true
        ∧ pairOk 5 = false ∧ pairOk (s.active2.raw 0x506001) = false) := by
  decide +kernel

theorem test_hyps_FlagsClearOnOne :
    (bit 1 0 = true ∧ bit 0 0 = false ∧ bit 8 3 = true ∧ bit 7 3 = false ∧ (31 : Nat) < 32)
      ∧ (findRow (objKey 0x5000 8)).any (fun r => match r.rng with | .flags _ => true | _ => false) = true := by
  decide +kernel

theorem test_hyps_CommitTargets :
    (let s : State := { st 4 with frame := { fn := 7, troughTime := 199999999000 } }
     let a : Checking := { mask := 2, tokenOk := true, target := 5, session := none }
     a.target ≠ 0 ∧ s.targetOk a.mask a.target = false ∧ a.tokenOk = true ∧ oneKind a.mask = true
      ∧ (∀ g, g < 14 → bit a.mask g = true → groupState g s.dev.state = true ∧ bit s.commit.pendingMask g = false)) := by
  decide +kernel

/-- The default values pass every consistency check. -/
theorem no_fails : commitFails ((st 4).candidate 2) = [] := by
  decide +kernel

theorem test_hyps_CommitTargets_checks :
    ∀ f ∈ commitFails ((st 4).candidate 2) ++ complementFails 2 (st 4).staged, f.groups &&& 2 ≠ 0 → 0x10 ≤ f.code := by
  rw [no_fails]
  exact fun f h => nomatch (show f ∈ ([] : List CheckFail) from h)

theorem test_hyps_HoldHistogram :
    (let s : State := { dev := { nrst := false } }
     s.dev.nrst = false ∧ s.dev.histogram.length = 6) ∧ (st 4).dev.vaon = true ∧ (Instr.nrstLow = .nrstLow ∨ Instr.nrstLow = .nporFall) := by
  decide

/-! ### Hypotheses met: the event commands -/

/-- In RUN, with the timebase started. -/
def run : State := { st 5 with frame := { started := true } }

theorem test_hyps_FrameInstants :
    (let s : State := { st 4 with dev := { (st 4).dev with timebase := true } }
     s.up = true ∧ s.dev.timebase = true) ∧ (run.up = true ∧ run.frame.started = true)
    ∧ (let s : State := { st 5 with ctl := [{ fadeFrom := some 5 }, {}] }
       (nth s.ctl 0 {}).fadeFrom = some 5 ∧ s.dev.state = 5 ∧ 5 + 2000000 ≤ s.now)
    ∧ (let s : State := { st 5 with dev := { (st 5).dev with exitFade := some 5 } }
       s.dev.exitFade = some 5 ∧ s.dev.state = 5 ∧ 5 + 2000000 ≤ s.now) := by
  decide

theorem test_hyps_WindowGivesValue :
    (let w : PathWindow := { sd := 27, sum := 1000, ones := 50, run := 3 }
     (st 7).sdRuns = true ∧ w.sd < 28 ∧ ((st 7).dev.state = 7 → 24 ≤ w.sd) ∧ (st 7).twinPath w.sd = false ∧ w.sd < (st 7).sense.paths.length
      ∧ (if w.sd < 24 then (st 7).sense.iChanged else (st 7).sense.vChanged) = none)
    ∧ (let w : PathWindow := { sd := 0, sum := 1000, ones := 50, run := 3 }
       let s : State := { st 5 with sense := { iChanged := some 7 } }
       s.sdRuns = true ∧ w.sd < 28 ∧ s.dev.state ≠ 7 ∧ s.twinPath w.sd = false ∧ w.sd < s.sense.paths.length ∧ s.sense.iChanged = some 7
        ∧ 7 + (3 * sdDecimation s.cfg w.sd + 1) * sdDivider s.cfg w.sd ≤ s.now)
    ∧ (let w : PathWindow := { sd := 31, sum := 1000, ones := 50, run := 3 }
       (st 4).full = true ∧ (st 4).dev.state ≠ 8 ∧ 28 ≤ w.sd ∧ w.sd < (st 4).sense.paths.length ∧ (st 4).sense.vChanged = none) := by
  decide +kernel

theorem test_hyps_SensingEvents :
    ((st 4).sdRuns = true ∧ (st 4).twinPath 23 = false)
    ∧ (let s : State := { st 4 with sense := ({} : SenseState).setPair 11 (fun x => { x with ambig := true, ambigCount := 100 }) }
       s.full = true ∧ (s.sense.pair 11).ambig = true ∧ 100 ≤ (s.sense.pair 11).ambigCount ∧ (s.sense.pair 11).ambigFault = false
        ∧ ∃ t, exec (.currentPairAmbiguous 11) s = .next t)
    ∧ (let s : State := { st 4 with sense := ({} : SenseState).setPath 27 (fun x => { x with restoring := some 100 }) }
       s.full = true ∧ (s.sense.path 27).restoring = some 100 ∧ 100 ≤ 100)
    ∧ ((st 4).up = true ∧ 1 < (st 4).sense.res.length)
    ∧ ((put 0x621001 1 (st 4)).full = true ∧ (put 0x621001 1 (st 4)).cfg.u (0x6200 + 16 * 1) 1 = 1 ∧ 1 < (st 4).sense.enc.length)
    ∧ (let s : State := put 0x620001 2 { st 4 with sense := { enc := [{ ssiSince := some 5 }, {}] } }
       s.full = true ∧ s.cfg.u (0x6200 + 16 * 0) 1 = 2 ∧ 0 < s.sense.enc.length ∧ (nth s.sense.enc 0 {}).ssiSince.isSome = true)
    ∧ (let s : State := { st 4 with sense := { pos := [{}, { injRunning := true }] } }
       s.full = true ∧ 1 < s.sense.pos.length ∧ (nth s.sense.pos 1 {}).injRunning = true) :=
  ⟨by decide +kernel, ⟨by decide, by decide, by decide, by decide, _, rfl⟩, by decide, by decide, by decide +kernel, by decide +kernel, by decide⟩

/-- In READY, with the lanes running and a result in each full lane, reported or not. -/
def voting (r : Option LaneReport) (chk : Bool) : State := { st 4 with
  frame := { started := true }
  lanes := { running := true, a := { st := 0, computed := some {}, report := r }, b := { st := 1, computed := some {}, report := r }
             chk := { st := 1, report := chk } } }

theorem test_hyps_LaneUpdate :
    (let s : State := { st 4 with frame := { started := true }, lanes := { a := { st := 0 }, b := { st := 4 } } }
     s.up = true ∧ s.dev.state ≠ 7 ∧ s.lanes.running = false ∧ s.frame.started = true ∧ s.active.damaged = false ∧ s.active2.damaged = false)
    ∧ (1 < 2 ∧ (voting none false).lanes.running = true ∧ ((voting none false).lanes.lane 1).computed = some {}
      ∧ ((voting none false).lanes.lane 1).report = none)
    ∧ ((voting none false).lanes.chk.st = 1 ∧ (voting none false).lanes.chk.report = false ∧ (voting none false).lanes.chk.cause ≠ 4)
    ∧ (((voting (some {}) true).lanes.lane 1).report.isSome = true ∧ (voting (some {}) true).lanes.chk.report = true)
    ∧ (let s : State := { st 4 with lanes := { running := true, chk := { st := 1, cause := 4 } } }
       (s.lanes.lane 0).computed = none ∧ s.lanes.chk.cause = 4) := by
  decide

theorem test_hyps_VoteLoadsDuties :
    (let s := voting (some {}) true
     let v := State.voted s.cfg s.frame.fn (s.ctl.map (·.env)) s.lanes
     s.lanes.running = true ∧ s.lanes.underTest = false ∧ v.signals = [] ∧ v.used.isSome = true ∧ 1 < s.mod.m.length)
    ∧ (let s : State := { st 4 with lanes := { running := true, a := { st := 5 }, b := { st := 5 } } }
       let v := State.voted s.cfg s.frame.fn (s.ctl.map (·.env)) s.lanes
       s.lanes.running = true ∧ s.lanes.underTest = false ∧ v.signals = [] ∧ v.used = none)
    ∧ (let s : State := { st 4 with lanes := { running := true, a := { st := 2, hostTest := true }, b := { st := 5 } } }
       s.lanes.running = true ∧ s.lanes.underTest = true) := by
  decide +kernel

theorem test_hyps_LaneReadmission :
    (let s : State := { st 4 with lanes := { b := { st := 2, testing := some 0 } } }
     1 < 2 ∧ s.full = true ∧ (s.lanes.lane 1).testing = some 0 ∧ (s.lanes.lane 1).st = 2 ∧ 0 + 800000 ≤ s.now ∧ (s.lanes.lane 1).testPassed = false)
    ∧ (let s : State := { st 4 with lanes := { chk := { st := 2, testing := some 0 } } }
       s.full = true ∧ s.lanes.chk.testing = some 0 ∧ s.lanes.chk.st = 2 ∧ 0 + 200000 ≤ s.now)
    ∧ (let s : State := { st 4 with lanes := { b := { st := 3 } } }
       s.full = true ∧ (s.lanes.lane 1).st = 3)
    ∧ (let s : State := { st 4 with lanes := { b := { st := 4, probation := 1000 } } }
       s.full = true ∧ (s.lanes.lane 1).st = 4 ∧ 1000 ≤ (s.lanes.lane 1).probation)
    ∧ (st 4).full = true := by
  decide

theorem test_hyps_ModulationEvents :
    (let s := put 0x54300C 0x81000000 { st 4 with frame := { started := true, m1Time := 200000000000 } }
     let t : State := { s with dev := { s.dev with counter := 200000000000 + eventCount s.cfg 11 (nth s.mod.m 1 {}).period } }
     t.full = true ∧ t.frame.started = true ∧ eventOn t.cfg 11 = true ∧ 11 < t.mod.events.length
      ∧ t.now = (if 11 < 6 then t.frame.troughTime else t.frame.m1Time) + eventCount t.cfg 11 (nth t.mod.m (11 / 6) {}).period)
    ∧ (let s := put 0x544004 0x80000064 { st 4 with frame := { started := true, troughTime := 199999999900 } }
       s.full = true ∧ s.frame.started = true ∧ bit (s.cfg.u 0x5440 (3 + 1)) 31 = true
        ∧ bits (s.cfg.u 0x5440 (3 + 1)) 16 0 < (nth s.mod.m 0 {}).period ∧ s.now = s.frame.troughTime + bits (s.cfg.u 0x5440 (3 + 1)) 16 0
        ∧ s.mod.lastTrigger ≠ some s.now ∧ { s.mod with lastTrigger := some s.now }.lastTrigger = some s.now)
    ∧ (let s : State := { st 4 with mod := { spk := [{}, { started := true }] } }
       s.full = true ∧ s.dev.state ≠ 8 ∧ (nth s.mod.spk 1 {}).started = true ∧ 1 < s.mod.spk.length ∧ s.hearth.jobs = []) := by
  decide +kernel

theorem test_hyps_TripsAndDischarge :
    (let s := put 0x54500C 0xC0F00000 (st 4)
     s.up = true ∧ 11 < 12 ∧ s.trip.flt.length = 12 ∧ s.trip.g.length = 4
      ∧ (bit (s.cfg.u 0x5450 (11 + 1)) 31 && true == bit (s.cfg.u 0x5450 (11 + 1)) 30 && bit (s.cfg.u 0x5450 (11 + 1)) (20 + 3)) = true
      ∧ bit (s.trip.group 3).active 11 = false)
    ∧ (st 0).up = false
    ∧ (let s : State := { st 4 with trip := { g := [{}, { delayFrom := some 0 }, {}, {}] } }
       s.up = true ∧ 1 < s.trip.g.length ∧ (s.trip.group 1).delayFrom = some 0 ∧ s.cfg.pv (0x5050 + 1) 4 * 200 * 97 ≤ (s.now - 0) * 100 + 1300)
    ∧ (let s : State := { st 4 with trip := { dis := { running := true, below := 10 } } }
       s.up = true ∧ s.trip.dis.running = true ∧ 10 ≤ s.trip.dis.below)
    ∧ (let s : State := { st 4 with trip := { dis := { wind := [{}, { on := true }] } } }
       s.up = true ∧ 1 < 2 ∧ (nth s.trip.dis.wind 1 {}).on = true ∧ (nth s.trip.dis.wind 1 {}).since + s.cfg.u 0x5060 6 * 200000 ≤ s.now)
    ∧ (let s : State := { st 4 with trip := { dis := { dchgSince := some 0 } } }
       s.up = true ∧ s.trip.dis.dchgSince = some 0 ∧ 0 + s.cfg.u 0x5060 7 * 200000 ≤ s.now)
    ∧ (let s : State := { st 4 with trip := { dis := { lockUntil := some 9, dchgWait := true, running := true } } }
       s.up = true ∧ s.trip.dis.lockUntil = some 9 ∧ 9 ≤ s.now ∧ s.trip.dis.dchgWait = true ∧ s.trip.dis.running = true ∧ s.trip.dis.dchgSince = none)
    ∧ (let s : State := { st 4 with trip := { dis := { lockUntil := some 9 } } }
       s.up = true ∧ s.trip.dis.lockUntil = some 9 ∧ 9 ≤ s.now ∧ s.trip.dis.dchgWait = false) := by
  decide +kernel

theorem test_hyps_LinkTransfers :
    (let s : State := { st 4 with trip := { gdl := [{}, { busy := true }] } }
     1 < s.trip.gdl.length ∧ s.linksOn = true ∧ (nth s.trip.gdl 1 {}).busy = true) := by
  decide

theorem test_hyps_HearthBlocks :
    ((st 4).gridRuns = true)
    ∧ (let s : State := { st 4 with hearth := { running := true } }
       s.working = true ∧ s.hearth.running = true)
    ∧ (let s : State := { st 4 with audio := { asp := [{ stream := { on := true, samples := [{ time := 1, v := [5] }], seq0 := 0, offset := some 3, resid := 3 / 4, beyond := 64 } }] } }
       s.working = true ∧ (s.inputStream (s.shiftSource 8)).isSome = true ∧ ((s.inputStream (s.shiftSource 8)).bind RxStream.shift).isSome = true) := by
  decide +kernel

theorem test_hyps_CancellationEvents :
    (let s := put 0x718002 1 (st 4)
     s.working = true ∧ accRate (s.cfg.u 0x7180 (1 + 1)) ≠ 0 ∧ (nth s.canc.acc 1 {}).reading = none)
    ∧ (let s : State := { put 0x718002 1 (st 4) with canc := { acc := [{}, { reading := some 7 }] } }
       s.working = true ∧ accRate (s.cfg.u 0x7180 (1 + 1)) ≠ 0 ∧ (nth s.canc.acc 1 {}).reading = some 7)
    ∧ (st 7).up = true
    ∧ (let s : State := { st 6 with canc := { ident := { running := true } } }
       s.gridRuns = true ∧ s.canc.ident.running = true)
    ∧ (let s : State := { st 4 with loads := [{}, {}, {}, { trackN := 1, trackIi := 10000, trackVi := 40000, trackFrom := 1 }] }
       s.working = true ∧ (nth s.loads (1 + 2) {}).trackFrom + 20000000 ≤ s.now ∧ s.pathDelivers (28 + 2 * 1) = true ∧ s.pathDelivers (29 + 2 * 1) = true
        ∧ s.cfg.f (0x8012 + 1) 0x15 * s.cfg.f (0x8012 + 1) 0x15 * ((nth s.loads (1 + 2) {}).trackN : Rat) < (nth s.loads (1 + 2) {}).trackIi) := by
  decide +kernel

theorem test_hyps_DiagnosisEvents :
    (let s : State := { st 6 with diag := { tap := { running := true } } }
     s.gridRuns = true ∧ s.diag.tap.running = true)
    ∧ ((st 5).dev.state = 5 ∧ (PassiveMon.driftEnd (st 5).cfg 0 (nth (st 5).diag.mon 0 {})).2 = none)
    ∧ (let s : State := put 0xE01007 10 { st 5 with frame := { fn := 11 }, diag := { sig := { running := true, startFn := 1 } } }
       s.diag.sig.running = true ∧ s.cfg.u 0xE010 7 ≠ 0 ∧ s.cfg.u 0xE010 7 ≤ (s.frame.fn + 2 ^ 32 - s.diag.sig.startFn) % 2 ^ 32) := by
  decide +kernel

/-- The end of a valid drift window of machine 1: 10 updates at 500 Hz, with the sums of voltage and current. -/
def drift : State := put 0x807001 3 { st 5 with diag := { mon := [{}, { n := 10, sumV := 20, sumId := 10, speeds := [500, 500, 5000] }] } }

theorem test_hyps_DiagnosisEvents_drift : drift.dev.state = 5 ∧ (PassiveMon.driftEnd drift.cfg 1 (nth drift.diag.mon 1 {})).2 = some 2 := by
  decide +kernel

/-- A frame start of an I2S port (FS falls), and a bit clock within a frame. -/
def fsFalls : List BitCycle := [{}, { fsRise := true, fsFall := true }, {}]

def fsStays : List BitCycle := [{}, { fsRise := true, fsFall := true }, {}, {}]

theorem test_hyps_AudioEvents :
    (let s : State := { st 4 with audio := { asp := [{}, {}, {}, { run := 1 }] } }
     s.working = true ∧ aspFormat (nth s.audio.asp 3 {}).run ≠ 0 ∧ aspStarts (nth s.audio.asp 3 {}).run fsFalls = true
      ∧ aspStarts (nth s.audio.asp 3 {}).run fsStays = false ∧ 3 < s.audio.asp.length ∧ s.commit.pending = [] ∧ s.commit.writes = [])
    ∧ ((st 4).working = true ∧ aspFormat (nth (st 4).audio.asp 3 {}).run = 0)
    ∧ (let s : State := { st 4 with audio := { asp := [{ phase := 1, count := 32 }, {}, {}, {}] } }
       s.working = true ∧ (nth s.audio.asp 0 {}).phase = 1 ∧ 32 ≤ (nth s.audio.asp 0 {}).count ∧ 0 < s.audio.asp.length)
    ∧ (let s : State := { st 4 with audio := { micWake := [some 7] } }
       s.working = true ∧ nth s.audio.micWake 0 none = some 7 ∧ 7 ≤ s.now)
    ∧ (32 ≤ 32)
    ∧ (let s : State := put 0x726101 1 { st 4 with net := { gptp := { present := true } }, audio := { gptpSeen := true } }
       s.working = true ∧ 31 < 32 ∧ s.cfg.b (0x7260 + 1) 1 = true ∧ s.net.gptp.present = true ∧ s.audio.gptpSeen = true) := by
  decide +kernel

theorem test_hyps_CrustEvents :
    ((st 7).dev.npor = true ∧ (st 7).dev.nrst = true ∧ 2 ≤ (st 7).dev.state)
    ∧ ((st 4).up = true ∧ (st 4).commit.pending = [] ∧ (st 4).commit.writes = [] ∧ (st 4).active.damaged = false ∧ (st 4).active2.damaged = false)
    ∧ (let s : State := { st 4 with crust := { usec := 20000000, srst := { level := true, rise := 1 } } }
       s.up = true ∧ (s.crust.srst.long s.crust.usec).2 = true)
    ∧ (let s : State := { st 4 with crust := { armed := true, voteAt := some 1 } }
       s.up = true ∧ s.dev.state ≠ 7 ∧ s.crust.armed = true ∧ s.crust.laneWd = false ∧ s.crust.laneLate s.now (nth s.mod.m 0 {}).period = true)
    ∧ ((st 4).working = true ∧ (st 4).crust.gateClosed = false ∧ (st 4).crust.hearthLate (st 4).now = true)
    ∧ (let s : State := put 0x902005 1 { st 4 with crust := { usec := 3000000, tpOrigin := 3000000 } }
       s.up = true ∧ 0 < s.crust.tpFrom.length ∧ s.crust.testPulseDue s.cfg 0 = true)
    ∧ (let s : State := { st 4 with crust := { gateClosed := true, onTime := 64 } }
       s.working = true ∧ s.crust.gateClosed = true ∧ 64 ≤ s.crust.onTime) := by
  decide +kernel

/-- A device whose safe-off has a state, 100 s after Crust's start. -/
def soff (x : SafeOff) : State := { st 4 with crust := { usec := 100000000, soff := x } }

theorem test_hyps_SafeOffEvents :
    (let s := soff { waitFrom := some 1 }
     s.up = true ∧ s.crust.soff.waitFrom = some 1 ∧ 1 + s.cfg.pv 0x9030 5 * 1000 ≤ s.crust.usec ∧ s.crust.soff.pulse = none)
    ∧ (let s := soff { test := some 4, testFrom := 1, testBad := true }
       s.up = true ∧ s.crust.soff.test = some 4 ∧ s.crust.soff.testFrom + 1940 ≤ s.crust.usec ∧ s.crust.soff.testBad = true)
    ∧ (let s := soff { test := some 4, testFrom := 1 }
       s.crust.soff.test = some 4 ∧ s.crust.soff.testBad = false)
    ∧ (let s := soff { test := some 1, testFrom := 1 }
       s.up = true ∧ s.crust.soff.test = some 1 ∧ s.crust.soff.testFrom + 1940 ≤ s.crust.usec ∧ s.crust.soff.testBad = false ∧ 1 ≠ 4)
    ∧ (let s := soff { bothOnFrom := some 1, hCmd := true, lCmd := true }
       s.working = true ∧ s.crust.soff.bothOnFrom = some 1 ∧ s.crust.soff.hCmd = true ∧ s.crust.soff.lCmd = true ∧ s.crust.soff.pulse = none
        ∧ s.crust.soff.test = none ∧ 1 + s.cfg.pv 0x9030 2 * 970000 ≤ s.crust.usec)
    ∧ (let s := soff { pulse := some true, pulseFrom := 1 }
       s.up = true ∧ s.crust.soff.pulse = some true ∧ s.crust.soff.pulseFrom + s.cfg.pv 0x9030 3 * 97 / 100 ≤ s.crust.usec
        ∧ s.crust.soff.pulseFell = false ∧ s.crust.soff.lStuck = false)
    ∧ (let s := soff { pulse := some false, pulseFrom := 1, pulseFell := true }
       s.up = true ∧ s.crust.soff.pulse = some false ∧ s.crust.soff.pulseFrom + s.cfg.pv 0x9030 3 * 97 / 100 ≤ s.crust.usec ∧ s.crust.soff.pulseFell = true) := by
  decide +kernel

theorem test_hyps_SingleFaults :
    ((st 4).fault.isSecond 3 1 = false ∧ (3 : Nat) ≠ 0x10)
    ∧ (let s : State := { st 4 with fault := { standing := 1 } }
       s.fault.isSecond 3 1 = true ∧ s.up = true ∧ s.dev.state ≠ 7) := by
  decide

theorem test_hyps_BedrockFunctions :
    ((st 4).up = true ∧ (st 4).dev.state ≠ 7)
    ∧ ((st 7).up = true ∧ (st 7).dev.state = 7 ∧ nth (st 7).net.canBusOff 0 false = false ∧ (st 7).fault.frameTime + 20000000 ≤ (st 7).now)
    ∧ (let s : State := { st 4 with net := { sessions := [some { level := 3, slot := 1, key := [], iface := 3, last := 0 }] } }
       s.up = true ∧ s.dev.state ≠ 7 ∧ 0 < 16 ∧ (s.session 0).isSome = true) := by
  decide

/-- A housekeeping round in whose course the die reached 180 °C. -/
def hotDie : State := { st 6 with hk := { running := true, slots := [{ fresh := true, v := 180 }] } }

theorem test_hyps_ThermalEvents_hard :
    hotDie.up = true ∧ hotDie.hk.running = true ∧ hotDie.now % 200000 = 0 ∧ (hotDie.hk.round hotDie.cfg hotDie.now).2.hard = true
      ∧ (hotDie.hk.round hotDie.cfg hotDie.now).2.excluded = [] ∧ hotDie.dev.state ≤ 6 ∧ hotDie.loads.all (fun x => !x.running) = true
      ∧ hotDie.active.damaged = false ∧ hotDie.active2.damaged = false ∧ hotDie.commit.pending = [] ∧ hotDie.commit.writes = []
      ∧ hotDie.cfg.u 0x6030 4 = 0 := by
  decide +kernel

theorem test_hyps_ThermalEvents :
    (let s : State := { st 4 with hk := { running := true } }
     s.up = true ∧ s.hk.running = true ∧ s.now % 200000 = 0 ∧ (s.hk.round s.cfg s.now).2.hard = false ∧ s.commit.pending = [] ∧ s.commit.writes = [])
    ∧ ((st 7).up = true ∧ ((st 7).dev.state = 7 → (7 < 8 ∨ (st 7).cfg.u 0x6030 4 = 7 + 1)))
    ∧ (st 4).full = true
    ∧ (let s : State := { st 6 with hk := { hot := true } }
       s.up = true ∧ s.hk.hot = true ∧ s.dev.state ≤ 6)
    ∧ (let s : State := { st 8 with hk := { stopAt := 1 } }
       s.up = true ∧ s.dev.state = 8 ∧ s.hk.stopAt = 1 ∧ s.hk.hot = false) := by
  decide +kernel

/-! ### Hypotheses met: a host's items -/

/-- Both safe-off switches read back on, and machine 0's output enabled. -/
def driven (s : State) : State := { put 0x500007 1 s with crust := { s.crust with soff := { s.crust.soff with rbh := true, rbl := true } } }

/-- Session 1 with its queue. -/
def asks (q : List Request) : Session := { level := 3, slot := 1, key := [], iface := 0, last := 0, queue := q }

/-- A request with a NOP, and one with two. -/
def nop1 : Request := { seq := 1, iface := 0, source := 5, items := [{ opcode := 0x12, idx := 0 }] }
def nop2 : Request := { seq := 1, iface := 0, source := 5, items := [{ opcode := 0x12, idx := 0 }, { opcode := 0x12, idx := 0 }] }

theorem test_hyps_ItemAnswered :
    (let s : State := { st 4 with net := { sessions := [none, some (asks [nop2])] } }
     let r := nop2
     s.session 1 = some (asks [r]) ∧ (asks [r]).queue = r :: []
      ∧ r.items = { opcode := 0x12, idx := 0 } :: { opcode := 0x12, idx := 0 } :: [] ∧ State.executable r.image { opcode := 0x12, idx := 0 } = true)
    ∧ (let s : State := { st 4 with net := { sessions := [none, some (asks [nop1])] } }
       let r := nop1
       s.session 1 = some (asks [r]) ∧ (asks [r]).queue = [r] ∧ r.items = [{ opcode := 0x12, idx := 0 }] ∧ r.tail = []
        ∧ ∀ b ∈ r.resp ++ [State.reply 0x12 0 1 none false []], b.opcode ≠ 0x11 ∧ b.key / 256 ≠ 0x1410) := by
  decide +kernel

theorem test_hyps_ReadAnswers :
    ((host 4 1 0x100001 []).session 1).isSome = true ∧ ((host 4 1 0x100001 []).frontItem 1).any (fun i => i.opcode == 1 && i.idx * 256 + i.sub == objKey 0x1000 1) = true
    ∧ (st 2).dev.state < 4 := by
  decide +kernel

theorem test_hyps_BlobSegments_read :
    (((host 4 3 0xC50001 [0, 0, 0, 0, 1, 0]).frontItem 1).any (fun i => State.isReadSeg (objKey 0xC500 1) 0 256 i
      && ((host 4 3 0xC50001 [0, 0, 0, 0, 1, 0]).fresh.readSegRefusal (objKey 0xC500 1) i).isNone) = true)
    ∧ (((host 4 3 0x200002 [0, 0, 0, 0, 1, 0]).frontItem 1).any (fun i => State.isReadSeg (objKey 0x2000 2) 0 256 i
      && ((host 4 3 0x200002 [0, 0, 0, 0, 1, 0]).fresh.readSegRefusal (objKey 0x2000 2) i).isSome) = true)
    ∧ (objKey 0xC500 1 ≠ objKey 0xE002 1 ∧ objKey 0xC500 1 ≠ objKey 0xB200 1 ∧ objKey 0xC500 1 ≠ objKey 0xB400 1
      ∧ 0 ≤ ((st 4).blobValue false (objKey 0xC500 1)).length) := by
  decide +kernel

/-- A WRITE_SEG item of the Hearth recipe image at an offset, with a transfer open that brought one byte. -/
def segment (offset : Nat) (data : List Byte) : State :=
  { host 4 4 0xC50001 (toBytes 4 offset ++ data) with
    table := { transfers := [{ key := 0xC50001, session := 1, bytes := [7], time := 0 }] } }

theorem test_hyps_BlobSegments_write :
    (((segment 0 [7]).session 1).any (fun x => x.front.any (fun i => State.isWriteSeg (objKey 0xC500 1) 0 false [7] i
      && ((segment 0 [7]).fresh.segRefusal 1 (objKey 0xC500 1) 0 false [7] x i).isNone)) = true)
    ∧ (((segment 1 [7]).session 1).any (fun x => x.front.any (fun i => State.isWriteSeg (objKey 0xC500 1) 1 false [7] i
      && ((segment 1 [7]).fresh.segRefusal 1 (objKey 0xC500 1) 1 false [7] x i).isNone)) = true)
    ∧ ((segment 1 [7]).transfer 1 (objKey 0xC500 1)).isSome = true ∧ objKey 0xC500 1 ≠ State.imageKey ∧ (1 : Nat) ≠ 0
    ∧ (((segment 2 [7]).session 1).any (fun x => x.front.any (fun i => State.isWriteSeg (objKey 0xC500 1) 2 false [7] i
      && ((segment 2 [7]).fresh.segRefusal 1 (objKey 0xC500 1) 2 false [7] x i).isSome)) = true) := by
  decide +kernel

/-- What the row of an object is, as WriteItems asks. -/
def rowIs (key : Nat) (p : ObjRow → Bool) : Bool := (findRow key).any p

def plainRow (a : Access) (r : ObjRow) : Bool := !r.ty.isBlob && r.acc == a && (match r.rng with | .flags _ => false | _ => true)

theorem test_hyps_WriteItems_staged :
    Accepted 1 (objKey 0x5450 1) [0, 0, 0, 0] (writes 4 0x545001 [0, 0, 0, 0]) ∧ rowIs (objKey 0x5450 1) (plainRow .rws) = true :=
  ⟨accepted_of (by decide +kernel), by decide +kernel⟩

theorem test_hyps_WriteItems_persisted :
    Accepted 1 (objKey 0x8040 3) [1] (writes 4 0x804003 [1]) ∧ rowIs (objKey 0x8040 3) (plainRow .rwp) = true :=
  ⟨accepted_of (by decide +kernel), by decide +kernel⟩

theorem test_hyps_BasicWriteRows_source : 0 < 2 ∧ Accepted 1 (objKey 0x6300 (0 + 1)) [0] (writes 4 0x630001 [0]) :=
  ⟨by decide, accepted_of (by decide +kernel)⟩

theorem test_hyps_WriteItems_basic :
    Accepted 1 (objKey 0x6300 1) [0] (writes 4 0x630001 [0]) ∧ rowIs (objKey 0x6300 1) (plainRow .rw) = true
      ∧ objKey 0x6300 1 ≠ objKey 0x2100 8 ∧ objKey 0x6300 1 ≠ objKey 0x2100 9 :=
  ⟨test_hyps_BasicWriteRows_source.2, by decide +kernel, by decide, by decide⟩

theorem test_hyps_WriteItems_flags :
    Accepted 1 (objKey 0x5000 8) [0, 1] (writes 4 0x500008 [0, 1])
      ∧ rowIs (objKey 0x5000 8) (fun r => !r.ty.isBlob && r.acc != .wo && (match r.rng with | .flags _ => true | _ => false)) = true :=
  ⟨accepted_of (by decide +kernel), by decide +kernel⟩

theorem test_hyps_WriteItems_blob :
    Accepted 1 (objKey 0xC400 1) [] (writes 4 0xC40001 []) ∧ rowIs (objKey 0xC400 1) (fun r => r.ty.isBlob) = true
      ∧ objKey 0xC400 1 / 256 ∉ [0x1410, 0xB401, 0xB501] :=
  ⟨accepted_of (by decide +kernel), by decide +kernel, by decide⟩

theorem test_hyps_WriteItems_refused :
    (writes 4 0x200002 [9]).atFront 1 2 (objKey 0x2000 2) [9] = true
      ∧ ((writes 4 0x200002 [9]).session 1).any (fun x => ((writes 4 0x200002 [9]).fresh.writeAbort 1 x.level (objKey 0x2000 2) [9]).isSome) = true := by
  decide +kernel

theorem test_hyps_WriteChecksInOrder :
    (st 2).dev.state < 4 ∧ (4 ≤ (st 4).dev.state ∧ maxSub (0x0001 % 256 / 256) = 0)
    ∧ (rowIs 0x200001 (fun r => r.acc == .ro) = true ∧ maxSub 0x2000 ≠ 0)
    ∧ (rowIs 0x200002 (fun r => r.acc != .ro) = true ∧ (st 4).levelOk 0 0x200002 = false)
    ∧ (st 4).writeAbort 1 3 0x200002 [] = some .type
    ∧ (({ st 4 with persist := { running := some (0, {}) } } : State).writeAbort 1 3 0x211001 [0x53, 0x56, 0, 2] = some .busy)
    ∧ (st 4).writeAbort 1 3 0x506001 [0, 0, 0, 1, 0, 0, 0, 0] = some .complement
    ∧ (st 4).writeAbort 1 3 0x200002 [9] = some .range
    ∧ (st 6).writeAbort 1 3 0x200002 [2] = some .state
    ∧ (({ st 4 with commit := { pending := [{ mask := 2, target := 0, accepted := 0 }] } } : State).writeAbort 1 3 0x545001 [0, 0, 0, 0] = some .groupPending)
    ∧ (st 4).writeAbort 1 3 0x200007 [1] = none := by
  decide +kernel

theorem test_hyps_BasicWriteRows_mode :
    1 < 2 ∧ Accepted 1 (objKey (ctlIdx 1 0x3000) 1) [1] (put 0x501007 1 (writes 5 0x400001 [1])) :=
  ⟨by decide, accepted_of (by decide +kernel)⟩

theorem test_hyps_BasicWriteRows_enable :
    (0, objKey 0x5000 7) ∈ [(0, objKey 0x5000 7), (1, objKey 0x5010 7), (2, objKey 0x5020 5), (3, objKey 0x5020 6)]
      ∧ Accepted 1 (objKey 0x5000 7) [1] (writes 4 0x500007 [1]) :=
  ⟨by decide, accepted_of (by decide +kernel)⟩

theorem test_hyps_BasicWriteRows_demand :
    Accepted 1 (objKey 0x5060 1) [0, 0, 0, 1, 0xFF, 0xFF, 0xFF, 0xFE] (writes 4 0x506001 [0, 0, 0, 1, 0xFF, 0xFF, 0xFF, 0xFE]) :=
  accepted_of (by decide +kernel)

theorem test_hyps_StateRequests :
    (ofBytes [1] = 1 ∧ Accepted 1 (objKey 0x2000 2) [1] (writes 5 0x200002 [1]))
    ∧ (ofBytes [3] = 3 ∧ Accepted 1 (objKey 0x2000 2) [3] (writes 6 0x200002 [3]))
    ∧ Accepted 1 (objKey 0x2000 2) [2] { writes 4 0x200002 [2] with crust := { soff := { testPass := true } } }
    ∧ Accepted 1 (objKey 0x2000 2) [4] (writes 4 0x200002 [4])
    ∧ ((writes 4 0x200002 [2]).atFront 1 2 (objKey 0x2000 2) [2] = true
      ∧ ((writes 4 0x200002 [2]).session 1).any (fun x => ((writes 4 0x200002 [2]).fresh.writeAbort 1 x.level (objKey 0x2000 2) [2]).isSome
          && (writes 4 0x200002 [2]).fresh.requestReason 2 x.level != 0) = true)
    ∧ Accepted 1 (objKey 0x2000 7) [1] (writes 4 0x200007 [1]) :=
  ⟨⟨rfl, accepted_of (by decide +kernel)⟩, ⟨rfl, accepted_of (by decide +kernel)⟩, accepted_of (by decide +kernel), accepted_of (by decide +kernel),
    by decide +kernel, accepted_of (by decide +kernel)⟩

theorem test_hyps_SettingsRows :
    (Accepted 1 (objKey 0x2100 1) [0, 1, 0, 2] (writes 4 0x210001 [0, 1, 0, 2]) ∧ (writes 4 0x210001 [0, 1, 0, 2]).commit.checking = none)
    ∧ Accepted 1 (objKey 0x2100 3) [0x10, 0] (writes 4 0x210003 [0x10, 0]) ∧ bit (ofBytes [0x10, 0]) 12 = true
    ∧ Accepted 1 (objKey 0x2110 1) [0x53, 0x56, 0, 2] (writes 4 0x211001 [0x53, 0x56, 0, 2])
    ∧ Accepted 1 (objKey 0x2110 3) [0x52, 0x44, 0, 2] (writes 6 0x211003 [0x52, 0x44, 0, 2]) :=
  ⟨⟨accepted_of (by decide +kernel), rfl⟩, accepted_of (by decide +kernel), by decide, accepted_of (by decide +kernel), accepted_of (by decide +kernel)⟩

/-- A commit of M0 whose checks run, asked for by session 1, or over the Bench port. -/
def checking (k : Option Nat) : State :=
  { writes 4 0x210001 [0, 1, 0, 2] with commit := { checking := some { mask := 2, tokenOk := true, target := 0, session := k } } }

theorem test_hyps_SettingsRows_checks :
    ((checking (some 1)).commit.checking = some { mask := 2, tokenOk := true, target := 0, session := some 1 }
      ∧ ((checking (some 1)).frontItem 1).any (fun i => i.opcode == 2 && i.idx * 256 + i.sub == objKey 0x2100 1) = true)
    ∧ (checking none).commit.checking = some { mask := 2, tokenOk := true, target := 0, session := none } := by
  decide +kernel

theorem test_hyps_CommittedSets :
    (checking none).commitOutcome { mask := 2, tokenOk := true, target := 0, session := none } = (0, 0, 0)
      ∧ ((checking none).staged.wf = true ∧ (checking none).active.wf = true ∧ (checking none).active2.wf = true) := by
  refine ⟨?_, by decide +kernel⟩
  have hf : commitFails ((checking none).candidate 2) = [] := no_fails
  have hc : complementFails 2 (checking none).staged = [] := rfl
  simp only [State.commitOutcome, hf, hc]
  decide +kernel

theorem test_hyps_SenseAndTripRows :
    Accepted 1 (objKey 0x6020 7) [1, 0, 0, 0] (writes 4 0x602007 [1, 0, 0, 0])
    ∧ Accepted 1 (objKey 0x2200 0x13) [1] { writes 4 0x220013 [1] with lanes := { agree := true } }
    ∧ Accepted 1 (objKey 0x2200 0x14) [1] (writes 4 0x220014 [1])
    ∧ Accepted 1 (objKey 0x2200 0x16) [0, 1] (writes 4 0x220016 [0, 1])
    ∧ Accepted 1 (objKey 0x5040 7) [1] (writes 4 0x504007 [1])
    ∧ (Accepted 1 (objKey 0x5070 5) [0x80, 1] (writes 4 0x507005 [0x80, 1]) ∧ bit (ofBytes [0x80, 1]) 14 = false)
    ∧ (Accepted 1 (objKey 0x5070 5) [0x40, 0] (writes 4 0x507005 [0x40, 0]) ∧ bit (ofBytes [0x40, 0]) 14 = true)
    ∧ Accepted 1 (objKey 0x9030 6) [1] (writes 4 0x903006 [1]) :=
  ⟨accepted_of (by decide +kernel), accepted_of (by decide +kernel), accepted_of (by decide +kernel), accepted_of (by decide +kernel),
    accepted_of (by decide +kernel), ⟨accepted_of (by decide +kernel), by decide⟩, ⟨accepted_of (by decide +kernel), by decide⟩,
    accepted_of (by decide +kernel)⟩

theorem test_hyps_HearthAndTestRows :
    (1 < 2 ∧ Accepted 1 (objKey (0x7020 + 1) 1) [0, 0x10] (writes 4 0x702101 [0, 0x10]) ∧ bit (ofBytes [0, 0x10]) 4 = true)
    ∧ (Accepted 1 (objKey (0x7020 + 0) 1) [0, 0] (put 0x742101 100 (writes 4 0x702001 [0, 0])) ∧ bit (ofBytes [0, 0]) 4 = false)
    ∧ Accepted 1 (objKey 0x7100 2) [0, 1] (driven (writes 6 0x710002 [0, 1]))
    ∧ Accepted 1 (objKey 0x8000 1) [0, 4] { writes 4 0x800001 [0, 4] with
        diag := { tap := { mach := [{ status := 0x90, rs := 0x3F800000, temp := 0x41C80000 }, {}] } } }
    ∧ Accepted 1 (objKey 0x8040 1) [0, 0x42] (put 0x804301 1 (writes 6 0x804001 [0, 0x42]))
    ∧ Accepted 1 (objKey 0x8040 1) [0, 0x20] (driven (writes 6 0x804001 [0, 0x20]))
    ∧ Accepted 1 (objKey 0x8040 1) [0, 0x10] (driven (writes 6 0x804001 [0, 0x10]))
    ∧ Accepted 1 (objKey 0x8040 1) [0, 0x80] (driven (writes 6 0x804001 [0, 0x80]))
    ∧ Accepted 1 (objKey 0x8040 1) [0, 0x08] (writes 6 0x804001 [0, 0x08])
    ∧ Accepted 1 (objKey 0xE010 8) [0, 0, 0, 0] { writes 5 0xE01008 [0, 0, 0, 0] with ctl := [{ mode := 2 }, {}] }
    ∧ Accepted 1 (objKey 0xE010 9) [1] (writes 5 0xE01009 [1])
    ∧ (ofBytes [1] = 1 ∧ Accepted 1 (objKey 0xE000 1) [1] (writes 4 0xE00001 [1]))
    ∧ (ofBytes [2] = 2 ∧ Accepted 1 (objKey 0xE000 1) [2] (writes 4 0xE00001 [2]))
    ∧ (ofBytes [3] = 3 ∧ Accepted 1 (objKey 0xE000 1) [3] (writes 4 0xE00001 [3])) := by
  refine ⟨⟨by decide, ?_, by decide⟩, ⟨?_, by decide⟩, ?_, ?_, ?_, ?_, ?_, ?_, ?_, ?_, ?_, ⟨rfl, ?_⟩, ⟨rfl, ?_⟩, ⟨rfl, ?_⟩⟩ <;>
    exact accepted_of (by decide +kernel)

/-- A write of Update control with the flash in a condition. -/
def updates (code : Nat) (f : FlashState) : State := { writes 4 0xB50001 [BitVec.ofNat 8 code] with flash := f }

theorem test_hyps_FirmwareUpdates :
    Accepted 1 (objKey 0xB500 1) [1] (updates 1 {})
    ∧ Accepted 1 (objKey 0xB500 1) [2] (updates 2 { update := { erased := true, ended := true } })
    ∧ Accepted 1 (objKey 0xB500 1) [3] (updates 3 { update := { verified := true } })
    ∧ Accepted 1 (objKey 0xB500 1) [4] (updates 4 { bankA := { record := some { seq := 1, trial := 1, count := 0 } } })
    ∧ Accepted 1 (objKey 0xB500 1) [5] (updates 5 { update := { running := some 1 } })
    ∧ (let s : State := { st 4 with flash := { update := { running := some 3 } } }
       s.working = true ∧ s.flash.update.staging = [] ∧ s.flash.update.running = some 3) := by
  refine ⟨?_, ?_, ?_, ?_, ?_, by decide⟩ <;> exact accepted_of (by decide +kernel)

theorem test_hyps_KeysAndTwins :
    (1 < 8 ∧ Accepted 1 (objKey 0x1410 (1 + 1)) ([3, 0, 0, 0] ++ List.replicate 16 0) (writes 6 0x141002 ([3, 0, 0, 0] ++ List.replicate 16 0))
      ∧ ((writes 6 0x141002 ([3, 0, 0, 0] ++ List.replicate 16 0)).frontItem 1).any (fun i => i.opcode == 2) = true)
    ∧ Accepted 1 (objKey 0xD000 0xC) [3] { writes 4 0xD0000C [3] with
        chain := { role := 1, up := { up := true }, dn := { up := true }, m := [{ twin := 1, agree := true }, { twin := 2, agree := true }] } } :=
  ⟨⟨by decide, accepted_of (by decide +kernel), by decide +kernel⟩, accepted_of (by decide +kernel)⟩

/-! ### Hypotheses met: the network, the Bench port and the chain -/

/-- A datagram on T1S with an empty receive queue, to the broadcast address and the device's own IPv4 address and YOAP port, with no checksum. -/
def t1s : Packet := { iface := 2, source := 9, pcp := 3, backlog := 0, dest := 2 ^ 48 - 1, ip := { dest := (st 4).cfg.u 0x1010 4, port := (st 4).cfg.u 0x1010 5 } }

theorem served_t1s (s : State) (h4 : s.cfg.u 0x1010 4 = (st 4).cfg.u 0x1010 4) (h5 : s.cfg.u 0x1010 5 = (st 4).cfg.u 0x1010 5) (bytes : List Byte) :
    s.linkLayer t1s = .served ∧ s.networkLayer t1s = .served ∧ s.datagram t1s bytes = .served := by
  have hl : s.linkLayer t1s = .served := by simp [State.linkLayer, t1s]
  have hn : s.networkLayer t1s = .served := by simp [State.networkLayer, State.ownIp, t1s, h4]
  refine ⟨hl, hn, ?_⟩
  simp only [State.datagram, hl, hn]
  simp [t1s, h5]

/-- The same with a VLAN tag, which T1S does not support, and to another port. -/
def tagged : Packet := { t1s with vlan := some 5 }
def elsewhere : Packet := { t1s with ip := { t1s.ip with port := 7 } }

theorem ignored_elsewhere (bytes : List Byte) : (st 4).datagram elsewhere bytes = .ignored := by
  have hl : (st 4).linkLayer elsewhere = .served := by simp [State.linkLayer, elsewhere, t1s]
  have hn : (st 4).networkLayer elsewhere = .served := by simp [State.networkLayer, State.ownIp, elsewhere, t1s]
  have hp : ((7 : Nat) == (st 4).cfg.u 0x1010 5) = false := by decide +kernel
  simp only [State.datagram, hl, hn]
  simp [elsewhere, t1s, hp]

theorem unsupported_tagged (bytes : List Byte) : (st 4).datagram tagged bytes = .unsupported := by
  have hl : (st 4).linkLayer tagged = .unsupported := by simp [State.linkLayer, tagged, t1s]
  simp only [State.datagram, hl]

/-- A frame of session 0 with a NOP, with no MAC (Table 17-3). -/
def nopFrame (seq : Nat) : List Byte :=
  [1, 0, 0, 1] ++ toBytes 4 seq ++ toBytes 4 0 ++ [0, 0] ++ [0, 8] ++ [0x12, 0, 0, 0, 0, 0, 0, 0]

/-- An open session of level none that has accepted SEQ 100 on ETH0. -/
def open0 : Session := { level := 0, slot := 0xFF, key := [], iface := 2, last := 0, h := 100, recent := [(100, 200000000000, 0)] }

/-- A device that has session 0 open, with or without keys. -/
def session0 (x : Session) : State := { st 4 with net := { sessions := some x :: List.replicate 15 none } }

theorem test_hyps_YoapFrames :
    ((st 4).yoapOn t1s.iface = true ∧ t1s.iface < 3 ∧ 1472 < (List.replicate 1473 (0 : Byte)).length ∧ (st 4).yoapOn tagged.iface = true
      ∧ (st 4).yoapOn elsewhere.iface = true ∧ (session0 open0).yoapOn t1s.iface = true)
    ∧ ([1, 2, 3].length ≤ 1472 ∧ State.parseFrame 2 [1, 2, 3] = none)
    ∧ ((nopFrame 101).length ≤ 1472 ∧ (State.parseFrame 2 (nopFrame 101)).any (fun f =>
        (session0 open0).frameSession f == some open0 && decide (t1s.backlog < (State.rxQueue t1s ((session0 open0).arrivalPcp t1s.vlan t1s.pcp) f.image (!open0.authenticated)).2)
          && open0.macOk f && !open0.duplicate f.seq 2 200000000000 && open0.accepts f.seq && f.items.length == 1 && !f.can && !f.image
          && f.items.all (State.executable f.image)) = true)
    ∧ (State.parseFrame 2 (nopFrame 101)).any (fun f => (session0 { open0 with level := 3 }).frameSession f == some { open0 with level := 3 }
        && !({ open0 with level := 3 } : Session).macOk f) = true
    ∧ (State.parseFrame 2 (nopFrame 100)).any (fun f => open0.macOk f && open0.duplicate f.seq 2 200000000000) = true
    ∧ (State.parseFrame 2 (nopFrame 36)).any (fun f => open0.macOk f && !open0.duplicate f.seq 2 200000000000 && !open0.accepts f.seq) = true
    ∧ (open0.accepts 101 = true ∧ (37 ≤ open0.h ∧ ({ open0 with recent := [] } : Session).accepts 37 = true)) := by
  decide +kernel

theorem test_hyps_YoapFrames_datagram :
    (∀ bytes, (st 4).datagram t1s bytes = .served ∧ (session0 open0).datagram t1s bytes = .served ∧ (st 4).datagram elsewhere bytes = .ignored
      ∧ (st 4).datagram tagged bytes = .unsupported) :=
  fun bytes => ⟨(served_t1s _ rfl rfl bytes).2.2, (served_t1s _ (by decide +kernel) (by decide +kernel) bytes).2.2, ignored_elsewhere bytes,
    unsupported_tagged bytes⟩

/-- A device that waits to open a session without a key, and one that waits for a slot that has none. -/
def opening (slot : Nat) : State := { st 4 with net := { opening := [{ iface := 2, source := 9, seq := 1, slot := slot, data := [] }] } }

theorem test_hyps_SessionItems :
    (((opening 0xFF).openMatch t1s 0xFF 0).any (fun o => ((opening 0xFF).openAbort o).isNone) = true ∧ (opening 0xFF).freeSession = some 0
      ∧ 0 < (opening 0xFF).net.sessions.length)
    ∧ (((opening 5).openMatch t1s 5 0).any (fun o => ((opening 5).openAbort o).isSome) = true)
    ∧ ((host 4 0x12 0 []).frontItem 1).any (fun i => i.opcode == 0x12) = true
    ∧ ((host 4 0x11 0 []).session 1).any (fun x => x.queue.length == 1 && x.queue.all (fun r => r.items.length == 1)
        && x.front.any (fun i => i.opcode == 0x11)) = true
    ∧ ((host 4 0x11 0 []).session 1).any (fun x => decide (x.last + 200000 * (host 4 0x11 0 []).cfg.u 0x1050 2 ≤ (host 4 0x11 0 []).now)) = true := by
  decide +kernel

/-- Receive image 3 of key slot 1 on T1S, which maps the position source of machine 0, and a frame of it in session 1. -/
def imaged (imgSeq : Nat) : State :=
  put 0x106004 0xC20005 (put 0x106904 1 (put 0x106401 0x630001 (put 0x106004 0x80420005
    { st 4 with net := { sessions := (List.replicate 16 none).set 1 (some
      { level := 3, slot := 1, key := [], iface := 2, last := 0, imgSeq := imgSeq
        queue := [{ seq := 7, iface := 2, source := 9, image := true, items := [{ opcode := 0x20, idx := 3, data := [0] }] }] }) } })))

/-- The same with the image enabled. -/
def imagedOn (imgSeq : Nat) : State := put 0x106004 0x80420005 (imaged imgSeq)

theorem test_hyps_CyclicImages :
    ((imagedOn 7).session 1).any (fun x => x.frontRequest.any (fun r => r.image && r.seq == 7 && r.iface == 2)
        && x.front.any (fun i => i.opcode == 0x20 && i.idx == 3 && i.data == [0]) && x.authenticated && x.slot == bits ((imagedOn 7).imageCfg 3) 19 17
        && decide (x.imgSeq ≤ 7)) = true
      ∧ bit ((imagedOn 7).imageCfg 3) 31 = true ∧ bit ((imagedOn 7).imageCfg 3) 30 = false ∧ 4 ≤ (imagedOn 7).dev.state ∧ (imagedOn 7).dev.state ≠ 7
      ∧ State.imageValues ((imagedOn 7).imageMap 3) [0] = some [(0x630001, [0])]
      ∧ (((imagedOn 8).session 1).any (fun x => decide (7 < x.imgSeq)) = true)
      ∧ (3 ∈ (imagedOn 7).recvImages ∧ (imagedOn 7).working = true
        ∧ (∀ q ∈ (imagedOn 7).imagePorts 3, max (nth (nth (imagedOn 7).net.images 3 {}).times q 0) (nth (imagedOn 7).net.images 3 {}).since
            + (imagedOn 7).imageLimit 3 ≤ (imagedOn 7).now)
        ∧ (nth (imagedOn 7).net.images 3 {}).timeout = false) := by
  decide +kernel

theorem test_hyps_CyclicImages_values : ∀ e ∈ [((0x630001 : Nat), ([0] : List Byte))], (imagedOn 7).fresh.imageValueBad 3 e = false := by
  decide +kernel

theorem test_hyps_NetworkEvents :
    ((st 4).plainOn 2 = true ∧ t1s.backlog < (State.icmpQueue 2).2 ∧ (st 4).ownIp 2 = (st 4).ownIp 2 ∧ ([1, 2] : List Byte).length ≤ 1472)
    ∧ (let s : State := { st 4 with net := { links := 3 } }
       s.netServes = true ∧ 1 < 2 ∧ bit (s.cfg.u 0x1010 6) 1 = true ∧ bit s.net.links 1 = true ∧ 64 ≤ 64 ∧ 1522 ≤ 1522)
    ∧ bit ({ links := 2 } : NetState).links 1 = true ∧ (st 4).netServes = true
    ∧ (let s : State := { st 4 with net := { links := 3 } }
       s.gptpOn 0 = true ∧ 7 < 8 ∧ 8 ≤ 8)
    ∧ (let s : State := { st 4 with net := { gptp := { lastSync := some 1, interval := 7 } } }
       s.net.gptp.lastSync = some 1 ∧ 1 + 3 * s.net.gptp.interval ≤ s.now ∧ s.shoulder = false)
    ∧ (let s : State := { st 4 with net := { links := 3 } }
       s.full = true ∧ 1 < 2 ∧ s.ifaceOn 1 = true)
    ∧ (st 4).ifaceOn (3 + 0) = true := by
  decide +kernel

theorem test_hyps_NetworkEvents_layers : (st 4).linkLayer t1s = .served ∧ (st 4).networkLayer t1s = .served :=
  ⟨(served_t1s _ rfl rfl []).1, (served_t1s _ rfl rfl []).2.1⟩

theorem test_hyps_BenchTransactions :
    (bench 4 0x800 0).benchOn = true ∧ (64 : Nat) ≠ 63 ∧ (∀ r l, (bench 4 0x800 0).bench.queue = r :: l → r.result = none)
    ∧ (let s : State := { st 2 with bench := { queue := [{ cmd := 0, data := 0, result := some (1, 5) }] } }
       s.benchOn = true ∧ s.bench.queue.length ≤ 4) :=
  ⟨by decide, by decide, fun r l h => by cases h; rfl, by decide⟩

/-- A device in BOOT whose Bench port has the recovery code's first half. -/
def unlocking (h : Option Nat) (lock : Option Nat) (a data : Nat) : State :=
  { bench 2 a data with bench := { (bench 2 a data).bench with unlockHi := h, lockUntil := lock } }

/-- A Bench write in READY with the Bench port enabled. -/
def enabled (a data : Nat) : State := { bench 4 a data with dev := { (st 4).dev with straps := 32 } }

theorem test_hyps_BenchRegisters :
    (let s : State := { st 4 with bench := { queue := [{ cmd := 1, data := 0 }] } }
     s.benchOn = true ∧ s.bench.front = some { cmd := 1, data := 0 } ∧ bit 1 15 = false ∧ bits 1 11 0 = 1)
    ∧ (BenchWrites 0x00B 5 (bench 2 0x00B 5) ∧ 0x00B ≠ 0x013 ∧ State.benchHas 0x00B = false)
    ∧ (BenchWrites 0x000 5 (bench 2 0x000 5) ∧ 0x000 ≠ 0x013 ∧ State.benchHas 0x000 = true ∧ (bench 2 0x000 5).benchWrites 0x000 = false)
    ∧ (BenchWrites 0x1FF 5 (bench 2 0x1FF 5) ∧ 0x100 ≤ 0x1FF ∧ 0x1FF ≤ 0x1FF ∧ (bench 2 0x1FF 5).dev.state = 2 ∧ (bench 2 0x1FF 5).bench.recovery = none)
    ∧ (BenchWrites 0x00A 0 (bench 2 0x00A 0) ∧ (bench 2 0x00A 0).dev.state = 2)
    ∧ (3 < 4 ∧ BenchWrites (0x800 + 3) 5 (enabled 0x803 5) ∧ (enabled 0x803 5).benchWrites (0x800 + 3) = true
      ∧ bit (enabled 0x803 5).commit.pendingMask 1 = false)
    ∧ (BenchWrites 0x013 5 (bench 2 0x013 5) ∧ (bench 2 0x013 5).dev.state = 2 ∧ (bench 2 0x013 5).bench.lockUntil = none)
    ∧ (BenchWrites 0x014 5 (unlocking (some 5) none 0x014 5) ∧ (unlocking (some 5) none 0x014 5).dev.state = 2
      ∧ (unlocking (some 5) none 0x014 5).bench.lockUntil = none)
    ∧ (BenchWrites 0x014 5 (unlocking none (some 300000000000) 0x014 5) ∧ (unlocking none (some 300000000000) 0x014 5).now < 300000000000)
    ∧ ((unlocking none (some 7) 0x014 5).bench.lockUntil = some 7 ∧ 7 ≤ (unlocking none (some 7) 0x014 5).now) := by
  refine ⟨by decide, ⟨benchWrites_of ?_, ?_, ?_⟩, ⟨benchWrites_of ?_, ?_, ?_, ?_⟩, ⟨benchWrites_of ?_, ?_, ?_, ?_, ?_⟩, ⟨benchWrites_of ?_, ?_⟩,
    ⟨?_, benchWrites_of ?_, ?_, ?_⟩, ⟨benchWrites_of ?_, ?_, ?_⟩, ⟨benchWrites_of ?_, ?_, ?_⟩, ⟨benchWrites_of ?_, ?_⟩, by decide⟩ <;> decide +kernel

/-- Both halves of the recovery code. -/
theorem test_hyps_BenchRegisters_code :
    (some (Config.recoveryCode % 2 ^ 64 / 2 ^ 32)).map (fun h => h * 2 ^ 32 + Config.recoveryCode % 2 ^ 64 % 2 ^ 32)
      = some (Config.recoveryCode % 2 ^ 64) :=
  congrArg some (Nat.div_add_mod' _ _)

/-- A device in BOOT, verified, with a bank that passes. -/
def verified (a data : Nat) (b : BenchState) : State :=
  { bench 2 a data with bench := { b with queue := [{ cmd := 0x8000 + a, data := data }] }, flash := { bankA := { passes := true, record := some { seq := 1, trial := 0, count := 0 } } } }

theorem test_hyps_BootControl :
    (BenchWrites 0x010 1 (bench 2 0x010 1) ∧ (bench 2 0x010 1).dev.state = 2 ∧ bit 1 0 = true ∧ bit 1 1 = false ∧ (bench 2 0x010 1).dev.bankStarted = false)
    ∧ (BenchWrites 0x010 2 (verified 0x010 2 { verifying := false }) ∧ (verified 0x010 2 { verifying := false }).dev.state = 2 ∧ bit 2 1 = true
      ∧ (verified 0x010 2 { verifying := false }).bench.verifying = false ∧ (verified 0x010 2 { verifying := false }).bench.recovery = none
      ∧ (verified 0x010 2 { verifying := false }).dev.bankStarted = false
      ∧ (verified 0x010 2 { verifying := false }).flash.admitted (verified 0x010 2 { verifying := false }).bootSel = some false)
    ∧ (BenchWrites 0x010 2 (verified 0x010 2 {}) ∧ (verified 0x010 2 {}).bench.verifying = true)
    ∧ (BenchWrites 0x804 1 (enabled 0x804 1) ∧ (enabled 0x804 1).benchWrites 0x804 = true ∧ (enabled 0x804 1).dev.state ≠ 2
      ∧ (enabled 0x804 1).commit.checking = none)
    ∧ (BenchWrites 0x808 1 (enabled 0x808 1) ∧ (enabled 0x808 1).benchWrites 0x808 = true ∧ (enabled 0x808 1).dev.state ≠ 2) := by
  refine ⟨⟨benchWrites_of ?_, ?_, ?_, ?_, ?_⟩, ⟨benchWrites_of ?_, ?_, ?_, ?_, ?_, ?_, ?_⟩, ⟨benchWrites_of ?_, ?_⟩, ⟨benchWrites_of ?_, ?_, ?_, ?_⟩,
    ⟨benchWrites_of ?_, ?_, ?_⟩⟩ <;> decide +kernel

/-- A write of Recovery control in BOOT, verified and unlocked. -/
def recovers (a bank chunk : Nat) (unlocked : Bool) : State :=
  { bench 2 0x011 (a * 2 ^ 24 + bank * 2 ^ 11 + chunk) with
    bench := { verifying := false, unlocked := unlocked, queue := [{ cmd := 0x8011, data := a * 2 ^ 24 + bank * 2 ^ 11 + chunk }] } }

theorem test_hyps_RecoveryActions :
    (∀ e ∈ [(1, 1, 0), (2, 1, 2043), (3, 1, 0), (4, 0, 2), (5, 0, 0), (6, 0, 0), (7, 0, 0)],
      (recovers e.1 e.2.1 e.2.2 true).benchOn = true ∧ (recovers e.1 e.2.1 e.2.2 true).dev.state = 2
        ∧ (let d := e.1 * 2 ^ 24 + e.2.1 * 2 ^ 11 + e.2.2
           bits d 31 24 = e.1 ∧ bits d 11 11 = e.2.1 ∧ bits d 10 0 = e.2.2)
        ∧ (recovers e.1 e.2.1 e.2.2 true).recoveryCode e.1 e.2.1 e.2.2 = 1)
    ∧ (recovers 6 0 0 false).recoveryCode 6 0 0 ≠ 1 ∧ (recovers 5 0 0 true).importedSet = none
    ∧ (let s : State := { st 2 with bench := { recovery := some (5, 0, 0) } }
       s.benchOn = true ∧ s.bench.recovery = some (5, 0, 0) ∧ s.flash.storing = false) := by
  decide +kernel

theorem test_hyps_RecoveryActions_writes : BenchWrites 0x011 0x01000800 (recovers 1 1 0 true) ∧ BenchWrites 0x011 0x06000000 (recovers 6 0 0 false) :=
  ⟨benchWrites_of (by decide +kernel), benchWrites_of (by decide +kernel)⟩

theorem test_hyps_BootSequence :
    ((st 2).dev.npor = true ∧ (st 2).dev.nrst = true ∧ (st 2).dev.state = 2 ∧ (st 2).bench.verifying = true ∧ (st 2).flash.marked = []
      ∧ (st 2).dev.bankStarted = false)
    ∧ (let s : State := { dev := { bankStarted := true } }
       s.dev.npor = true ∧ s.dev.nrst = true ∧ s.dev.state = 2 ∧ s.dev.bankStarted = true ∧ s.dev.refOk = true ∧ bits s.dev.retained 63 60 ≠ 3
        ∧ (bits s.dev.retained 63 60 = 1 → bit s.dev.retained 59 = false))
    ∧ (let s : State := { dev := { bankStarted := true, retained := 3 * 2 ^ 60 } }
       s.dev.bankStarted = true ∧ bits s.dev.retained 63 60 = 3) := by
  decide

theorem test_hyps_ProofingSteps :
    (let s : State := { st 3 with dev := { (st 3).dev with step := 1 }, hk := { rounds := 16 } }
     s.up = true ∧ s.dev.state = 3 ∧ s.dev.step = 1 ∧ 16 ≤ s.hk.rounds)
    ∧ (let s : State := { st 3 with dev := { (st 3).dev with step := 2 }, frame := { started := true }, chain := { role := 2, up := { up := true } } }
       s.up = true ∧ s.dev.state = 3 ∧ s.dev.step = 2 ∧ s.frame.started = true ∧ s.chain.role = 2 ∧ s.chain.up.up = true ∧ hopOk 0 = false ∧ hopOk 5000 = true
        ∧ (List.replicate 64 7).length = 64 ∧ ([] : List Nat).length ≠ 64)
    ∧ (let s : State := { st 3 with dev := { (st 3).dev with step := 3 } }
       s.up = true ∧ s.dev.state = 3 ∧ s.dev.step = 3 ∧ 0 % 8 = 0)
    ∧ (let s : State := { st 3 with dev := { (st 3).dev with step := 5 } }
       s.up = true ∧ s.dev.step = 5 ∧ s.crust.soff.test = none ∧ s.crust.soff.testFail = false)
    ∧ (let s : State := { st 3 with dev := { (st 3).dev with step := 6 } }
       s.up = true ∧ s.dev.step = 6 ∧ 6 ≤ 6 ∧ 6 ≤ 8 ∧ s.stepOver = true) := by
  decide

theorem test_hyps_ClocksAndWake :
    ((st 4).dev.npor = true ∧ (st 4).dev.refOk = true)
    ∧ (let s : State := { st 4 with dev := { (st 4).dev with refOk := false, backup := true } }
       s.dev.npor = true ∧ s.dev.refOk = false)
    ∧ (let s : State := { st 4 with dev := { (st 4).dev with slewing := true, toRef := true } }
       s.dev.npor = true ∧ s.dev.slewing = true ∧ s.dev.toRef = true)
    ∧ (let s : State := { st 4 with dev := { (st 4).dev with slewing := true } }
       s.dev.npor = true ∧ s.dev.slewing = true ∧ s.dev.toRef = false)
    ∧ (st 4).dev.vaon = true ∧ ({ vaon := false } : DevState).vaon = false
    ∧ (let s : State := { dev := { state := 1, pwrReq := false } }
       s.dev.state = 1 ∧ s.dev.pwrReq = false ∧ bit s.dev.wakeEnable 0 = true)
    ∧ ((false && bit (st 1).dev.wakeEnable 0) = false ∧ (false && (st 1).cfg.b 0x1030 3) = false)
    ∧ (let s : State := { dev := { state := 1, wakeAt := some 5 } }
       s.dev.state = 1 ∧ s.dev.wakeAt = some 5) := by
  decide +kernel

theorem test_hyps_Resets :
    (let s : State := { dev := { state := 0, npor := false } }
     s.dev.vaon = true ∧ s.dev.npor = false ∧ s.dev.state ≠ 1 ∧ s.flash.current = none)
    ∧ 2 ≤ (st 4).dev.state ∧ (st 1).dev.state ≤ 1 ∧ ((st 4).dev.nrst = true ∧ 2 ≤ (st 4).dev.state) ∧ ({ nrst := false } : DevState).nrst = false := by
  decide

/-- A Shoulder whose Ridge link up works. -/
def shoulder : State := { st 4 with
  frame := { started := true, troughTime := 199999999000 }, chain := { role := 2, position := 1, calibrated := true, up := { up := true } } }

theorem test_hyps_ChainEvents :
    (shoulder.full = true ∧ shoulder.shoulder = true ∧ shoulder.chain.up.up = true)
    ∧ (shoulder.frame.started = true ∧ shoulder.chain.markSeen = false ∧ shoulder.chain.holdover = false ∧ shoulder.frame.troughTime + 20 ≤ shoulder.now)
    ∧ shoulder.fault.isSecond 0x0E 21 = false
    ∧ (shoulder.up = true ∧ (if true then shoulder.chain.up else shoulder.chain.dn).up = true)
    ∧ (let s : State := { st 4 with dev := { (st 4).dev with straps := 1 } }
       s.up = true ∧ s.chain.strapErr = false ∧ bit s.dev.straps 0 = true)
    ∧ ((st 4).up = true ∧ (st 4).chain.strapErr = false ∧ (true = true → bit (st 4).dev.straps 0 = false))
    ∧ (shoulder.dev.state ≠ 3 ∧ shoulder.chain.role ≠ 0) := by
  decide

/-- A device of a chain whose machine 0 is a twin with the other at the higher position. -/
def twins (n : Nat) (agree : Bool) : State := put 0xD00007 2 { st 4 with
  chain := { role := 1, position := 0, dn := { up := true }, up := { up := true }, m := [{ twin := n, agree := agree }, {}] } }

theorem test_hyps_ChainEvents_twins :
    ((twins 2 false).full = true ∧ (twins 2 false).chainUse 0 ≠ 0 ∧ (twins 2 false).partnerLink 0 = true ∧ 0 < (twins 2 false).chain.m.length)
    ∧ (put 0xD00007 1 (twins 0 false)).chainUse 0 ≠ 2
    ∧ (nth (twins 2 false).chain.m 0 {}).twin = 2
    ∧ ((twins 1 true).full = true ∧ (twins 1 true).partnerLink 0 = true ∧ (nth (twins 1 true).chain.m 0 {}).twin = 1 ∧ (nth (twins 1 true).chain.m 0 {}).agree = true) := by
  decide +kernel

theorem test_hyps_FlashAndSaves :
    (let s : State := { st 4 with flash := { current := some ⟨.event [1], 1⟩ } }
     s.dev.npor = true ∧ s.flash.current = some ⟨.event [1], 1⟩ ∧ FlashState.classOf (.event [1]) ≠ 3 ∧ s.dev.state ≠ 1)
    ∧ (let s : State := { st 1 with flash := { current := some ⟨.event [1], 1⟩ } }
       s.dev.npor = true ∧ s.flash.current.isSome = true ∧ s.dev.state = 1)
    ∧ (let f : FlashState := { current := some ⟨.starter 1 5 true 2 false, 5⟩, entries := [{ pair := 0 }] }
       f.current = some ⟨.starter 1 5 true 2 false, 5⟩ ∧ 1 ≤ 1 ∧ 1 ≤ f.entries.length)
    ∧ (let f : FlashState := { current := some ⟨.update, 1⟩ }
       f.current = some ⟨.update, 1⟩)
    ∧ (let s : State := { st 4 with persist := { running := some (6, {}) } }
       s.full = true ∧ s.dev.state ≠ 8 ∧ s.persist.running = some (6, {}) ∧ 13 < s.persist.copies.length
        ∧ (∀ g, g < 14 → bit 6 g = true → bit 6 g = true) ∧ (∃ g, g < 14 ∧ bit 6 g = true ∧ bit 2 g = false)) := by
  refine ⟨by decide, by decide, by decide, by decide, by decide, by decide, by decide, by decide, fun _ _ h => h, 2, by decide⟩

/-! ### Effects with values that the spec states -/

/-- Chapter 18, the worked example: the idle frame, and the result of a read of PART_ID. -/
theorem test_bench_idle_frame : benchFrame 0 = 0x95 := by decide +kernel

theorem test_bench_part_id :
    (∃ t, exec (.benchRead 0) { st 4 with bench := { queue := [{ cmd := 0, data := 0 }] } } = .next t
      ∧ t.bench.queue = [{ cmd := 0, data := 0, result := some (1, 0x6420) }])
    ∧ resultFrame false 0 1 0x6420 = 0x0100000000642019 :=
  ⟨⟨_, rfl, by decide +kernel⟩, by decide +kernel⟩

/-- Chapter 16, the worked example: the torque limit of 250.0 Nm and its complement. -/
theorem test_complement_pair :
    f32ToRat 0x437A0000 = 250 ∧ pairOk 0x437A0000BC85FFFF = true ∧ pairOk 0x437A0000BC85FFFE = false
      ∧ (st 4).writeAbort 1 3 0x301201 [0x43, 0x7A, 0, 0, 0xBC, 0x85, 0xFF, 0xFE] = some .complement := by
  decide +kernel

/-- Chapter 0, the worked example: the silicon revision, and the package and grade. -/
theorem test_identity :
    (∃ t, exec (.readItem 1 0x1000 2) (host 4 1 0x100002 []) = .next t ∧ t.net.answers = [{ session := 1, opcode := 1, key := 0x100002, abort := 0, data := [0x41, 1] }])
    ∧ ∃ t, exec (.readItem 1 0x1000 3) (host 4 1 0x100003 []) = .next t ∧ t.net.answers = [{ session := 1, opcode := 1, key := 0x100003, abort := 0, data := [1, 0x10] }] :=
  ⟨⟨_, rfl, by decide +kernel⟩, _, rfl, by decide +kernel⟩

/-- R24: the frame number advances at an M0 Trough, modulo 2^32. -/
theorem test_frame_number_wraps :
    ∃ t, exec (.m0Trough 0) { st 2 with dev := { state := 4, counter := 7, timebase := true }, frame := { fn := 2 ^ 32 - 1, started := true } } = .next t
      ∧ t.frame.fn = 0 ∧ t.frame.troughTime = 7 :=
  ⟨_, rfl, by decide +kernel, by decide +kernel⟩

/-- R326: the token runs from 0x0001 to 0xFFFF and starts again. -/
theorem test_token_wraps :
    (State.moveToken { commit := { token := 0xFFFF } }).commit.token = 1 ∧ (State.moveToken { commit := { token := 1 } }).commit.token = 2 := by
  decide

/-- R410: 9 ms, 10 ms and 10 s of low time. -/
theorem test_hold_bins : State.holdBin 0 = 0 ∧ State.holdBin 294 = 1 ∧ State.holdBin 328 = 2 ∧ State.holdBin 327680 = 5 := by
  decide

/-- R296, R299: a fault of Crust's own supervision enters BEDROCK, which locks every group. -/
theorem test_bedrock_locks :
    ∃ t, exec (.crustFault .clock) (st 4) = .next t ∧ t.dev.state = 7 ∧ t.trip.g.all (fun g => g.state == 5) = true ∧ t.fault.cause = 0x700 :=
  ⟨_, rfl, by decide +kernel, by decide +kernel, by decide +kernel⟩

/-- R349: the lowest free session opens, at level none for slot 0xFF. -/
theorem test_open_none :
    ∃ t, exec (.openSession t1s 0xFF 0) (opening 0xFF) = .next t ∧ (t.session 0).any (fun x => x.level == 0 && x.slot == 0xFF) = true ∧ t.session 1 = none :=
  ⟨_, rfl, by decide +kernel, by decide +kernel⟩

/-- R351: a SEQ 64 below the highest is outside the window, one 63 below is in it, and 0 is never taken. -/
theorem test_replay_window : open0.accepts 36 = false ∧ open0.accepts 37 = true ∧ open0.accepts 0 = false ∧ open0.accepts 100 = false := by
  decide

/-- The command table gives no row a word, so no word spells a command. -/
theorem test_no_words : decodeTableWord 16 0 = none ∧ State.withFetchWord (st 4) 16 0 = st 4 :=
  ⟨rfl, rfl⟩

/-! ### WellFormed refuses -/

/-- A packet of an interface that the device does not have. -/
def noPort : Packet := { iface := 7, source := 0, pcp := 0, backlog := 0 }

/-- Channels, machines, ports and lanes that the device does not have. -/
def badNumbers : List Instr :=
  [.m0Trough 4, .crest 2, .windowResult [{ sd := 32, sum := 0, ones := 0, run := 0 }] false, .currentPairAmbiguous 12, .restoredPathEligible 28,
    .speakerSenseResult { sd := 27, sum := 0, ones := 0, run := 0 }, .fastPathOutput 24 0, .resolverLoopStep 2 ⟨0, 0⟩, .encoderEdge 2 true true true,
    .injectionConverged 2, .laneReport 3 {}, .laneReport 0 { cause := 256 }, .laneSelftestDone 3 true, .laneSyncDone 2, .probationDone 2, .modeFadeEnd 2,
    .eventFire 12, .ctcFire 4, .speakerCarrierPeriod 2, .fltInput 12 true, .safePatternDelayEnd 2, .gdlTransferDone 2 [], .alignmentShift 12]

def badNumbers2 : List Instr :=
  [.hearthBlockBoundary (List.replicate 9 []), .accReadDone 2 [0, 0, 0, 0, 0, 0], .accReadDone 0 [], .divergedHoldEnd 2 0, .divergedHoldEnd 0 8,
    .speakerResistanceEstimate 2, .driftWindowEnd 2, .imbalanceWindowEnd 2, .aspFrame 4 [], .leadInEnd 4, .leadOutEnd 4, .aspClockLoss 4, .pdmWakeEnd 8,
    .listenerTimeout 2, .crustInputSample 65536 false false false, .testPulse 4, .hkSlotConversion 32 0, .hkSlotConversion 0 65536,
    .eventSlotGroup [0, 0, 0, 0]]

/-- Items of a session that the device does not have, or with more DATA than a frame holds. -/
def badItems : List Instr :=
  [.restorePaths 16 [], .positionSourceSelect 2 0 [], .controlMode 2 0 [], .outputEnable 4 0 [], .chimePlay 2 0 [], .chimeStop 2 0 [],
    .tripClear 0 (List.replicate 1473 0), .yoapFrame noPort [], .readItem 16 0 0, .readItem 0 65536 0, .readItem 0 0 256, .writeItem 0 65536 0 [],
    .writeItem 0 0 256 [], .readSeg 16 0 0 0 0, .writeSeg 16 0 0 0 true [], .openSession t1s 65536 0, .openSession t1s 0 (2 ^ 64), .closeSession 16,
    .nopItem 16, .imageItem 0 8 t1s 0 [], .saveDone 16384 true, .blobTransferTimeout 65536 0, .sessionIdleTimeout 16, .imageTimeout 8, .keySlotWrite 8 0 []]

theorem test_wellFormed_refuses :
    badNumbers.all (fun i => !i.wellFormed) = true ∧ badNumbers2.all (fun i => !i.wellFormed) = true ∧ badItems.all (fun i => !i.wellFormed) = true := by
  decide +kernel

/-- Frames, registers and links that the device does not have. -/
def badPorts : List Instr :=
  [.ssiReadDone 2 ⟨0, false, 0⟩, .listenerPdu 2 0 { streamId := 0, subtype := 0, tv := true, sp := false, nsr := 0, format := 0, depth := 0, chans := 0, seq := 0, timestamp := 0, data := [] }, .arpRequest noPort 0 [], .arpRequest t1s 0 (List.replicate 11 0),
    .icmpEcho noPort [], .frameForward ⟨3, 0, 0, none, 0, 64, false, 0⟩, .frameForward ⟨0, 0, 0, none, 8, 64, false, 0⟩, .sgmiiLinkDown 2, .sgmiiLinkUp 2,
    .gptpSync 3 0 0 0 0 0 0, .pdelayRequest 3 0 [], .pdelayResponse 3 0 0 0 0 0, .canBusOff 4, .canBusOffRecovery 4]

def badPorts2 : List Instr :=
  [.benchTransaction 64 (2 ^ 64), .benchRead 4096, .benchWrite 4096 0, .benchWrite 0 (2 ^ 32), .eraseBank 2, .programChunk 2 0, .verifyBank 2,
    .starterImportChunk 3, .unlockHi (2 ^ 32), .unlockLo (2 ^ 32), .ctcCommit (2 ^ 32), .benchStart (2 ^ 32), .troughMark (2 ^ 32) 0 none false,
    .troughMark 0 (2 ^ 32) none false, .splitMachineRecord 2 ⟨0, 0, 0, [], [], false⟩, .handOff 2, .twinSwap 16 [], .nporRise 64 true, .accReadStart 2]

theorem test_wellFormed_refuses_ports : badPorts.all (fun i => !i.wellFormed) = true ∧ badPorts2.all (fun i => !i.wellFormed) = true := by
  decide +kernel

end Sys2Proof.Tests
end

section
/-! PROOFS. What a write to a status object leaves in each flag that it can clear (R4, R33). -/

namespace Sys2Proof.Machine

/-! ### Lists and keys -/

/-- An update that keeps the default commutes with reading the element, also past the end. -/
theorem nth_upd_self {α : Type} {l : List α} {i : Nat} {d : α} {f : α → α} (hd : f d = d) : nth (upd l i f) i d = f (nth l i d) := by
  simp only [nth, upd, List.getD_eq_getElem?_getD, List.getElem?_modify_eq]
  cases l[i]? with
  | none => exact hd.symm
  | some x => rfl

theorem nth_mapIdx {α : Type} {l : List α} {i : Nat} {d : α} {f : Nat → α → α} (hd : f i d = d) : nth (l.mapIdx f) i d = f i (nth l i d) := by
  simp only [nth, List.getD_eq_getElem?_getD, List.getElem?_mapIdx]
  cases l[i]? with
  | none => exact hd.symm
  | some x => rfl

theorem upd_replicate {α : Type} {n i : Nat} {d : α} {f : α → α} (hd : f d = d) : upd (List.replicate n d) i f = List.replicate n d := by
  refine List.ext_getElem (by simp [upd]) fun j hj hj' => ?_
  simp [upd, List.getElem_modify, hd]

theorem objKey_div {idx sub : Nat} (h : sub < 256) : objKey idx sub / 256 = idx := by
  unfold objKey
  omega

theorem objKey_mod {idx sub : Nat} (h : sub < 256) : objKey idx sub % 256 = sub := by
  unfold objKey
  omega

theorem bit_eq_true_iff (v n : Nat) : bit v n = true ↔ v / 2 ^ n % 2 = 1 := by
  rw [bit, Nat.testBit_eq_decide_div_mod_eq, decide_eq_true_iff]

theorem bit_eq_false_iff (v n : Nat) : bit v n = false ↔ v / 2 ^ n % 2 = 0 := by
  rw [← Bool.not_eq_true, bit_eq_true_iff]
  exact Nat.mod_two_ne_one

/-! ### A write to a flags object, when it applies -/

/-- Restore paths stores no flags: its row has another range. -/
theorem findRow_restorePaths_rng {r : ObjRow} (h : findRow (objKey 0x6020 7) = some r) (m : Nat) : r.rng ≠ .flags m := by
  have hrow : (findRow (objKey 0x6020 7)).any (fun r => match r.rng with | .flags _ => true | _ => false) = false := by decide +kernel
  intro hr
  simp [h, hr] at hrow

theorem actsAtBoundary_of_flags {key m : Nat} {r : ObjRow} (hrow : findRow key = some r) (hr : r.rng = .flags m) : State.actsAtBoundary key = true := by
  simp [State.actsAtBoundary, hrow, hr]

theorem State.applyPart_of_flags {w : PendWrite} {r : ObjRow} {m : Nat} (s : State) (hrow : findRow w.key = some r) (hr : r.rng = .flags m) :
    s.applyPart w = s.clearFlags w.key w.raw := by
  have hkey : w.key ≠ objKey 0x6020 7 := fun h => findRow_restorePaths_rng (h ▸ hrow) m hr
  rw [State.applyPart, if_pos (actsAtBoundary_of_flags hrow hr), State.actAtBoundary, if_neg hkey]

/-! ### The records that hold the flags, one equation per kind of object

Where several objects are of one kind, the place n of the record in its list is free, and the index or subindex is tied to it by an equation. -/

/-- A flag that keeps its value where the mask's bit is 0, and falls where it is 1, is as R4 says. -/
theorem flag_of_keep {flag flag' x : Bool} (h : flag' = (flag && !x)) : (x = true → flag' = false) ∧ (x = false → flag' = flag) := by
  subst h
  exact ⟨fun hx => by simp [hx], fun hx => by simp [hx]⟩

variable (w : Nat) (s : State)

theorem State.clearFlags_persist : (s.clearFlags (objKey 0x2110 2) w).persist = { s.persist with done := s.persist.done && !bit w 14 } := rfl

theorem State.clearFlags_machine {idx m : Nat} (hi : idx = 0x5000 + 16 * m) (hm : m < 2) :
    nth (s.clearFlags (objKey idx 8) w).mod.m m {} = { nth s.mod.m m {} with
      dutyClamp := (nth s.mod.m m {}).dutyClamp && !bit w 0
      minPulse := (nth s.mod.m m {}).minPulse && !bit w 1
      ctcMiss := (nth s.mod.m m {}).ctcMiss && !bit w 2 } := by
  subst hi
  match m, hm with
  | 0, _ | 1, _ => exact nth_upd_self rfl

theorem State.clearFlags_bridge {sub n : Nat} (hs : sub = n + 7) (hn : n < 2) :
    nth (s.clearFlags (objKey 0x5020 sub) w).mod.spk n {} = { nth s.mod.spk n {} with
      shaperClip := (nth s.mod.spk n {}).shaperClip && !bit w 0
      shaperOvl := (nth s.mod.spk n {}).shaperOvl && !bit w 1
      minPulse := (nth s.mod.spk n {}).minPulse && !bit w 2 } := by
  subst hs
  match n, hn with
  | 0, _ | 1, _ => exact nth_upd_self rfl

theorem State.clearFlags_discharge : (s.clearFlags (objKey 0x5060 8) w).trip.dis = { s.trip.dis with
    done := s.trip.dis.done && !bit w 2
    windFail := s.trip.dis.windFail && !bit w 4
    timeout := s.trip.dis.timeout && !bit w 6 } := rfl

theorem State.clearFlags_gdl {sub n : Nat} (hs : sub = n + 6) (hn : n < 2) :
    nth (s.clearFlags (objKey 0x5070 sub) w).trip.gdl n {} = { nth s.trip.gdl n {} with
      mismatch := (nth s.trip.gdl n {}).mismatch && !bit w 3
      crcErr := (nth s.trip.gdl n {}).crcErr && !bit w 4
      overrun := (nth s.trip.gdl n {}).overrun && !bit w 5 } := by
  subst hs
  match n, hn with
  | 0, _ | 1, _ => exact nth_upd_self rfl

theorem State.clearFlags_path {sd : Nat} (hsd : sd < 32) :
    (s.clearFlags (objKey 0x6050 (sd + 1)) w).sense.path sd = { s.sense.path sd with
      th1 := (s.sense.path sd).th1 && !bit w 0
      th2 := (s.sense.path sd).th2 && !bit w 1 } := by
  have hsub : sd + 1 < 256 := by omega
  have hle : sd + 1 ≤ 32 := hsd
  simp only [State.clearFlags, objKey_div hsub, objKey_mod hsub, if_pos hle, Nat.add_sub_cancel]
  exact nth_upd_self rfl

theorem State.clearFlags_hearth : (s.clearFlags (objKey 0x7000 1) w).hearth = { s.hearth with
    clip := s.hearth.clip && !bit w 1
    overrun := s.hearth.overrun && !bit w 2
    alignShift := s.hearth.alignShift && !bit w 3
    recipeFault := s.hearth.recipeFault && !bit w 5 } := rfl

theorem State.clearFlags_ident : (s.clearFlags (objKey 0x7100 1) w).canc.ident =
    { s.canc.ident with failFlag := s.canc.ident.failFlag && !bit w 11 } := rfl

/-- Two nested updates: the machine's canceller, and in it the order. -/
theorem State.clearFlags_order {m k : Nat} (hm : m < 2) (hk : k < 8) :
    nth (nth (s.clearFlags (objKey (0x7104 + 16 * m) (k + 1)) w).canc.m m {}).orders k {} =
      { nth (nth s.canc.m m {}).orders k {} with divSeen := (nth (nth s.canc.m m {}).orders k {}).divSeen && !bit w 3 } := by
  have hsub : k + 1 < 256 := by omega
  have hc (g : Order → Order) (hg : g {} = {}) : ({ ({} : Canceller) with orders := upd ({} : Canceller).orders k g } : Canceller) = {} :=
    congrArg (fun o => ({ orders := o } : Canceller)) (upd_replicate hg)
  match m, hm with
  | 0, _ | 1, _ =>
    simp only [State.clearFlags, objKey_div hsub, objKey_mod hsub, Nat.add_sub_cancel]
    rw [nth_upd_self (hc _ rfl)]
    exact nth_upd_self rfl

theorem State.clearFlags_accPort (n : Nat) : nth (s.clearFlags (objKey 0x7180 9) w).canc.acc n {} =
    { nth s.canc.acc n {} with lostFlag := (nth s.canc.acc n {}).lostFlag && !bit w n } := nth_mapIdx rfl

theorem State.clearFlags_aspPort {idx n : Nat} (hi : idx = 0x7200 + 16 * n) (hn : n < 4) :
    nth (s.clearFlags (objKey idx 4) w).audio.asp n {} = { nth s.audio.asp n {} with
      slip := (nth s.audio.asp n {}).slip && !bit w 2
      glitch := (nth s.audio.asp n {}).glitch && !bit w 3
      rateErr := (nth s.audio.asp n {}).rateErr && !bit w 5 } := by
  subst hi
  match n, hn with
  | 0, _ | 1, _ | 2, _ | 3, _ => exact nth_upd_self rfl

theorem State.clearFlags_listener {idx n : Nat} (hi : idx = 0x7260 + n) (hn : n < 2) :
    nth (s.clearFlags (objKey idx 5) w).audio.lis n {} = { nth s.audio.lis n {} with
      late := (nth s.audio.lis n {}).late && !bit w 2
      seqGap := (nth s.audio.lis n {}).seqGap && !bit w 3
      formatErr := (nth s.audio.lis n {}).formatErr && !bit w 4 } := by
  subst hi
  match n, hn with
  | 0, _ | 1, _ => exact nth_upd_self rfl

theorem State.clearFlags_load {idx n : Nat} (hi : idx = 0x8030 + n) (hn : n < 4) :
    nth (s.clearFlags (objKey idx 1) w).loads n {} = { nth s.loads n {} with
      trackReject := (nth s.loads n {}).trackReject && !bit w 9
      overshoot := (nth s.loads n {}).overshoot && !bit w 10 } := by
  subst hi
  match n, hn with
  | 0, _ | 1, _ | 2, _ | 3, _ => exact nth_upd_self rfl

theorem State.clearFlags_tap : (s.clearFlags (objKey 0x8040 2) w).diag.tap = { s.diag.tap with
    done := s.diag.tap.done && !bit w 1
    aborted := s.diag.tap.aborted && !bit w 2 } := rfl

theorem State.clearFlags_crust : (s.clearFlags (objKey 0x9000 1) w).crust = { s.crust with hearthFlag := s.crust.hearthFlag && !bit w 7 } := rfl

theorem State.clearFlags_hk : (s.clearFlags (objKey 0xA000 1) w).hk = { s.hk with drop := s.hk.drop && !bit w 4 } := rfl

theorem State.clearFlags_chain : (s.clearFlags (objKey 0xD000 3) w).chain = { s.chain with
    timebaseLoss := s.chain.timebaseLoss && !bit w 3
    mismatch := s.chain.mismatch && !bit w 8 } := rfl

theorem State.clearFlags_capture : (s.clearFlags (objKey 0xE000 2) w).diag.cap = { s.diag.cap with drop := s.diag.cap.drop && !bit w 3 } := rfl

end Sys2Proof.Machine
end

section
/-! PROOFS. The statement about flags that are cleared on write (R4). -/

open Sys2Proof Sys2Proof.Machine

/-- Settles O13: each flag's new value is its old one with the mask's bit taken out, by the equation of the record that holds it. -/
theorem flagsClearOnOne : Obligations.FlagsClearOnOne := by
  unfold Obligations.FlagsClearOnOne
  refine ⟨fun v n => ⟨bit_eq_true_iff v n, bit_eq_false_iff v n⟩, fun w r m s hrow hr => s.applyPart_of_flags hrow hr,
    fun e he w s => flag_of_keep ?_, fun sd w s hsd => ?_, fun m k w s hm hk => flag_of_keep ?_⟩
  · revert e
    simp (disch := decide) only [List.forall_mem_cons, List.not_mem_nil, false_implies, implies_true, and_self,
      State.clearFlags_persist, State.clearFlags_machine, State.clearFlags_bridge, State.clearFlags_discharge, State.clearFlags_gdl,
      State.clearFlags_hearth, State.clearFlags_ident, State.clearFlags_accPort, State.clearFlags_aspPort, State.clearFlags_listener,
      State.clearFlags_load, State.clearFlags_tap, State.clearFlags_crust, State.clearFlags_hk, State.clearFlags_chain, State.clearFlags_capture]
  · obtain ⟨one1, zero1⟩ := flag_of_keep (congrArg SdPath.th1 (s.clearFlags_path w hsd))
    obtain ⟨one2, zero2⟩ := flag_of_keep (congrArg SdPath.th2 (s.clearFlags_path w hsd))
    exact ⟨one1, zero1, one2, zero2⟩
  · rw [s.clearFlags_order w hm hk]

end

section
/-! PROOFS. What the checks of a commit attempt find, and its outcome (Table 2-8, R38, R40, R42). -/

namespace Sys2Proof.Machine

/-! ### The codes of the consistency checks (Table 2-8) -/

variable {c : Store} {f : CheckFail}

theorem code_of_mem_check {ok : Bool} {code groups idx sub : Nat} (h : f ∈ check ok code groups idx sub) : f.code = code := by
  cases ok with
  | false => exact congrArg CheckFail.code (List.mem_singleton.mp h)
  | true => cases h

theorem code_of_mem_periodChecks (h : f ∈ periodChecks c) : f.code = 5 := by
  simp only [periodChecks, List.mem_append, List.mem_flatMap] at h
  obtain (((h | h) | h) | ⟨_, _, h⟩) | ⟨_, _, h⟩ := h <;> exact code_of_mem_check h

theorem code_of_mem_gdlChecks {link : Nat} (h : f ∈ gdlChecks c link) : f.code = 6 := by
  obtain ⟨_, _, h⟩ := List.mem_flatMap.mp h
  exact code_of_mem_check h

theorem code_of_mem_compareChecks (h : f ∈ compareChecks c) : f.code = 6 := by
  simp only [compareChecks, List.mem_append, List.mem_flatMap] at h
  obtain (((⟨_, _, h⟩ | h) | h) | ⟨_, _, h | h⟩) | ⟨_, _, h⟩ := h
  · exact code_of_mem_check h
  · exact code_of_mem_gdlChecks h
  · exact code_of_mem_gdlChecks h
  · exact code_of_mem_check h
  · exact code_of_mem_check h
  · exact code_of_mem_check h

theorem code_of_mem_ratioChecks (h : f ∈ ratioChecks c) : f.code = 7 ∨ f.code = 8 ∨ f.code = 9 := by
  simp only [ratioChecks, List.mem_append] at h
  obtain (((h | h) | h) | h) | h := h <;> (have := code_of_mem_check h; omega)

theorem code_of_mem_biquadChecks (h : f ∈ biquadChecks c) : f.code = 0x0A := by
  simp only [biquadChecks, List.mem_append, List.mem_flatMap] at h
  obtain ⟨_, _, _, _, h⟩ | ⟨_, _, h⟩ := h <;> exact code_of_mem_check h

theorem code_of_mem_recipeCheck {idx groups size : Nat} (h : f ∈ recipeCheck c idx groups size) : f.code = 0x0B := by
  simp only [recipeCheck] at h
  split at h
  · cases h
  · obtain h | h := List.mem_append.mp h <;> exact code_of_mem_check h

theorem code_of_mem_recipeChecks (h : f ∈ recipeChecks c) : f.code = 0x0B ∨ f.code = 0x0C := by
  simp only [recipeChecks, List.mem_append, List.mem_flatMap] at h
  obtain ((h | h) | h) | ⟨_, _, h⟩ := h
  · exact .inl (code_of_mem_recipeCheck h)
  · exact .inl (code_of_mem_recipeCheck h)
  · exact .inl (code_of_mem_recipeCheck h)
  · exact .inr (code_of_mem_check h)

theorem code_of_mem_limitChecks (h : f ∈ limitChecks c) : f.code = 0x0E := by
  simp only [limitChecks, List.mem_append, List.mem_flatMap] at h
  obtain ((⟨_, _, (((h | h) | h) | h) | h⟩ | ⟨_, _, h | h⟩) | ⟨_, _, _, _, h⟩) | ⟨_, _, h | h⟩ := h <;> exact code_of_mem_check h

theorem code_of_mem_portChecks (h : f ∈ portChecks c) : f.code = 0x0F ∨ f.code = 0x11 := by
  simp only [portChecks, List.mem_append, List.mem_flatMap] at h
  obtain ⟨_, _, (h | h) | h⟩ | h := h <;> (have := code_of_mem_check h; omega)

theorem code_of_mem_complementFails {mask : Nat} (h : f ∈ complementFails mask c) : f.code = 0x0D := by
  obtain ⟨e, -, h⟩ := List.mem_flatMap.mp h
  split at h
  · split at h
    · exact congrArg CheckFail.code (List.mem_singleton.mp h)
    · cases h
  · cases h

/-- The codes below 5 are not those of a consistency check: they concern the attempt as a whole, or its groups. -/
theorem five_le_code_of_mem_commitFails (h : f ∈ commitFails c) : 5 ≤ f.code := by
  simp only [commitFails, List.mem_append] at h
  obtain (((((h | h) | h) | h) | h) | h) | h := h
  · have := code_of_mem_periodChecks h; omega
  · have := code_of_mem_compareChecks h; omega
  · have := code_of_mem_ratioChecks h; omega
  · have := code_of_mem_biquadChecks h; omega
  · have := code_of_mem_recipeChecks h; omega
  · have := code_of_mem_limitChecks h; omega
  · have := code_of_mem_portChecks h; omega

theorem code_ne_zero_of_mem_fails {mask : Nat} {staged : Store} (h : f ∈ commitFails c ++ complementFails mask staged) : f.code ≠ 0 := by
  obtain h | h := List.mem_append.mp h
  · have := five_le_code_of_mem_commitFails h; omega
  · have := code_of_mem_complementFails h; omega

/-! ### The first failure (R42) -/

theorem firstFail_eq_none_iff {mask : Nat} {l : List CheckFail} : firstFail mask l = none ↔ ∀ f ∈ l, f.groups &&& mask = 0 := by
  have hnil : firstFail mask l = none ↔ l.filter (fun f => f.groups &&& mask != 0) = [] := by
    cases hl : l.filter (fun f => f.groups &&& mask != 0) with
    | nil => simp only [firstFail, hl]
    | cons f0 l0 => simp only [firstFail, hl, reduceCtorEq]
  simp only [hnil, List.filter_eq_nil_iff, bne_iff_ne, ne_eq, Decidable.not_not]

/-- The reported code is that of a failure in the list: the minimum over the codes is attained. -/
theorem exists_mem_of_firstFail {mask : Nat} {l : List CheckFail} {r : Nat × Nat × Nat} (h : firstFail mask l = some r) :
    ∃ f ∈ l, f.code = r.1 := by
  simp only [firstFail] at h
  split at h
  · cases h
  · next f0 l0 hl =>
    rw [hl, Option.some.injEq] at h
    have hmin : ((f0 :: f0 :: l0).map CheckFail.code).min? = some r.1 := by
      rw [← h, List.map_cons, List.min?_cons', List.foldl_map]
    obtain ⟨f, hf, hcode⟩ := List.mem_map.mp (List.min?_mem hmin)
    have hmem : f ∈ l.filter (fun f => f.groups &&& mask != 0) := by
      rw [hl]
      obtain rfl | hf := List.mem_cons.mp hf
      · exact List.mem_cons_self
      · exact hf
    exact ⟨f, (List.mem_filter.mp hmem).1, hcode⟩

theorem firstFail_code_ne_zero {mask : Nat} {l : List CheckFail} {r : Nat × Nat × Nat} (hl : ∀ f ∈ l, f.code ≠ 0)
    (h : firstFail mask l = some r) : r.1 ≠ 0 := by
  obtain ⟨f, hf, hcode⟩ := exists_mem_of_firstFail h
  exact hcode ▸ hl f hf

/-! ### A target frame number (R40) -/

theorem State.targetOk_iff {mask target : Nat} {s : State} (h : target ≠ 0) : s.targetOk mask target = true ↔
    mask &&& troughKind = mask ∧ fnAhead target s.frame.fn = true
      ∧ ((target + 2 ^ 32 - s.frame.fn) % 2 ^ 32 = 1 → s.now + 200 ≤ s.frame.troughTime + (nth s.mod.m 0 {}).period)
      ∧ (bit mask 3 = true → ((target + 2 ^ 32 - s.frame.fn) % 2 ^ 32 + s.frame.m1Count) % ratioK s.cfg = 0) := by
  simp only [State.targetOk, Bool.or_eq_true, Bool.and_eq_true, beq_iff_eq, h, false_or, bne_iff_ne, ne_eq, decide_eq_true_eq, Bool.not_eq_true',
    ← Bool.not_eq_true, ← Decidable.imp_iff_not_or, and_assoc]

theorem fnAhead_iff {a b : Nat} : fnAhead a b = true ↔ 0 < (a + 2 ^ 32 - b % 2 ^ 32) % 2 ^ 32 ∧ (a + 2 ^ 32 - b % 2 ^ 32) % 2 ^ 32 < 2 ^ 31 :=
  decide_eq_true_iff

/-! ### The outcome of an attempt (R38, R42) -/

theorem find?_bitsSet_eq_none {n x : Nat} {p : Nat → Bool} : (bitsSet n x).find? p = none ↔ ∀ g, g < n → bit x g = true → p g = false := by
  simp only [bitsSet, bit, List.find?_eq_none, List.mem_filter, List.mem_range, and_imp, Bool.not_eq_true]

variable {a : Checking} {s : State}

/-- An attempt whose code is 0 passed every check: each earlier one would have ended it with its own code. -/
theorem State.checks_pass_of_commitOutcome_code (h : (s.commitOutcome a).1 = 0) :
    a.tokenOk = true ∧ oneKind a.mask = true
      ∧ (∀ g, g < 14 → bit a.mask g = true → groupState g s.dev.state = true ∧ bit s.commit.pendingMask g = false)
      ∧ s.targetOk a.mask a.target = true
      ∧ (∀ f ∈ commitFails (s.candidate a.mask) ++ complementFails a.mask s.staged, f.groups &&& a.mask = 0) := by
  simp only [State.commitOutcome] at h
  split at h
  · cases h
  next htoken =>
  split at h
  · cases h
  next hkind =>
  split at h
  · cases h
  next hstate =>
  split at h
  · cases h
  next hpending =>
  split at h
  · next hr => exact absurd h (firstFail_code_ne_zero (fun f hf => code_ne_zero_of_mem_fails ((List.mem_filter.mp hf).1)) hr)
  split at h
  · cases h
  next htarget =>
  split at h
  · next hr => exact absurd h (firstFail_code_ne_zero (fun f hf => code_ne_zero_of_mem_fails hf) hr)
  next hfails =>
  simp only [Bool.not_eq_true', Bool.not_eq_false] at htoken hkind htarget
  exact ⟨htoken, hkind, fun g hg hm => ⟨(Bool.not_eq_false' _).mp (find?_bitsSet_eq_none.mp hstate g hg hm), find?_bitsSet_eq_none.mp hpending g hg hm⟩,
    htarget, firstFail_eq_none_iff.mp hfails⟩

/-- The target is checked after the codes 0x01 to 0x0F. -/
theorem State.commitOutcome_of_targetOk_false (htarget : s.targetOk a.mask a.target = false) (htoken : a.tokenOk = true)
    (hkind : oneKind a.mask = true)
    (hgroups : ∀ g, g < 14 → bit a.mask g = true → groupState g s.dev.state = true ∧ bit s.commit.pendingMask g = false)
    (hfails : ∀ f ∈ commitFails (s.candidate a.mask) ++ complementFails a.mask s.staged, f.groups &&& a.mask ≠ 0 → 0x10 ≤ f.code) :
    s.commitOutcome a = (0x10, 0, 0x210008) := by
  have hstate : (bitsSet 14 a.mask).find? (fun g => !groupState g s.dev.state) = none :=
    find?_bitsSet_eq_none.mpr fun g hg hm => (Bool.not_eq_false' _).mpr (hgroups g hg hm).1
  have hpending : (bitsSet 14 a.mask).find? (fun g => bit s.commit.pendingMask g) = none :=
    find?_bitsSet_eq_none.mpr fun g hg hm => (hgroups g hg hm).2
  have hfirst : firstFail a.mask ((commitFails (s.candidate a.mask) ++ complementFails a.mask s.staged).filter (fun f => f.code < 0x10)) = none := by
    refine firstFail_eq_none_iff.mpr fun f hf => ?_
    obtain ⟨hmem, hlow⟩ := List.mem_filter.mp hf
    exact Decidable.byContradiction fun hgroup => absurd (of_decide_eq_true hlow) (Nat.not_lt.mpr (hfails f hmem hgroup))
  simp only [State.commitOutcome, htoken, hkind, hstate, hpending, hfirst, htarget, Bool.not_true, Bool.not_false, Bool.false_eq_true, if_false, if_true]

/-- R40, log 102: accepted or rejected, the end of the checks takes the target. -/
@[simp] theorem State.commitEnd_target : (s.commitEnd a).1.commit.target = 0 := by
  simp only [State.commitEnd]
  split <;> rfl

end Sys2Proof.Machine
end

section
/-! PROOFS. The statement about Commit target FN (R40). -/

open Sys2Proof Sys2Proof.Machine

/-- Settles O14: an accepted attempt has an allowed target, and a target not allowed is what an attempt fails on when the checks before it pass. -/
theorem commitTargets : Obligations.CommitTargets := by
  unfold Obligations.CommitTargets
  refine ⟨fun a s => State.commitEnd_target, fun mask target s h => ?_, fun a s _ htarget => ⟨fun hcode => ?_, ?_⟩⟩
  · rw [State.targetOk_iff h, fnAhead_iff, and_assoc, troughKind]
  · obtain ⟨-, -, -, hok, -⟩ := State.checks_pass_of_commitOutcome_code hcode
    exact absurd (htarget.symm.trans hok) Bool.false_ne_true
  · exact State.commitOutcome_of_targetOk_false htarget

end

section
/-! PROOFS. Which commands change the device state: the ten that Table 21-5 gives a transition, and a fault report that enters BEDROCK. -/

namespace Sys2Proof.Machine

/-- The commands with a transition of Table 21-5 of their own: a Trough carries out requests, a round and the thermal commands enter and leave THERMAL
STOP, a started bank ends BOOT, and the pins reset. -/
def movesState : Instr → Bool
  | .m0Trough .. | .hkRoundBoundary | .thermalStopEntry | .thermalStopRelease | .bankStarted | .nporRise .. | .nporFall | .nrstLow | .nrstRise ..
  | .vaonLost => true
  | _ => false

/-- A command's next state is in the device state that the command found, or in BEDROCK, entered from PROOFING or a later state. -/
def ModeKept (s : State) (o : Out) : Prop := ∃ t, o = .next t ∧ (t.dev.state = s.dev.state ∨ t.dev.state = 7 ∧ 3 ≤ s.dev.state)

namespace ModeKept

variable {ps : List Part} {s : State} {o : Out}

theorem of_changes (h : ∃ t, o = .next t ∧ Changes ps s t) (hm : .mode ∉ ps := by decide) : ModeKept s o :=
  h.imp fun _ ⟨ho, c⟩ => ⟨ho, .inl (c.same .mode hm)⟩

theorem of_reports (h : ∃ t, o = .next t ∧ Reports ps s t) : ModeKept s o :=
  h.imp fun _ ⟨ho, r⟩ => ⟨ho, r.mode⟩

end ModeKept

/-- Each command's own law, read for the device state. -/
theorem exec_modeKept {c : Instr} (s : State) (hc : movesState c = false) : ModeKept s (exec c s) := by
  cases c with
  | m0Trough => cases hc
  | crest => exact .of_reports (execCrest_reports ..)
  | windowResult => exact .of_reports (execWindowResult_reports ..)
  | currentPairAmbiguous => exact .of_reports (execCurrentPairAmbiguous_reports ..)
  | restoredPathEligible => exact .of_reports (execRestoredPathEligible_reports ..)
  | speakerSenseResult => exact .of_reports (execSpeakerSenseResult_reports ..)
  | fastPathOutput => exact .of_changes (execFastPathOutput_changes ..)
  | restorePaths => exact .of_changes (execRestorePaths_changes ..)
  | resolverLoopStep => exact .of_reports (execResolverLoopStep_reports ..)
  | encoderEdge => exact .of_reports (execEncoderEdge_reports ..)
  | ssiReadDone => exact .of_reports (execSsiReadDone_reports ..)
  | positionSourceSelect => exact .of_changes (execPositionSourceSelect_changes ..)
  | injectionConverged => exact .of_changes (execInjectionConverged_changes ..)
  | laneStart => exact .of_reports (execLaneStart_reports ..)
  | laneReport => exact .of_changes (execLaneReport_changes ..)
  | laneDeadline => exact .of_changes (execLaneDeadline_changes ..)
  | vote => exact .of_reports (execVote_reports ..)
  | laneSelftestDone => exact .of_changes (execLaneSelftestDone_changes ..)
  | laneSyncDone => exact .of_changes (execLaneSyncDone_changes ..)
  | probationDone => exact .of_changes (execProbationDone_changes ..)
  | recipeImageCheck => exact .of_changes (execRecipeImageCheck_changes ..)
  | swapActive => exact .of_changes (execSwapActive_changes ..)
  | laneTestRequest => exact .of_changes (execLaneTestRequest_changes ..)
  | voteTest => exact .of_changes (execVoteTest_changes ..)
  | controlMode => exact .of_changes (execControlMode_changes ..)
  | modeFadeEnd => exact .of_changes (execModeFadeEnd_changes ..)
  | outputEnable => exact .of_changes (execOutputEnable_changes ..)
  | eventFire => exact .of_changes (execEventFire_changes ..)
  | ctcFire => exact .of_changes (execCtcFire_changes ..)
  | speakerCarrierPeriod => exact .of_changes (execSpeakerCarrierPeriod_changes ..)
  | fltInput => exact .of_changes (execFltInput_changes ..)
  | safePatternDelayEnd => exact .of_changes (execSafePatternDelayEnd_changes ..)
  | tripClear => exact .of_changes (execTripClear_changes ..)
  | dischargeDemand => exact .of_changes (execDischargeDemand_changes ..)
  | dischargeDone => exact .of_changes (execDischargeDone_changes ..)
  | dischargeTimeLimit => exact .of_changes (execDischargeTimeLimit_changes ..)
  | dchgTimeout => exact .of_changes (execDchgTimeout_changes ..)
  | dchgLockEnd => exact .of_changes (execDchgLockEnd_changes ..)
  | gdlTransferDone => exact .of_reports (execGdlTransferDone_reports ..)
  | gdlRequestEntry => exact .of_changes (execGdlRequestEntry_changes ..)
  | gdlSetupRerun => exact .of_changes (execGdlSetupRerun_changes ..)
  | hearthBlockBoundary => exact .of_reports (execHearthBlockBoundary_reports ..)
  | blockOverrun => exact .of_changes (execBlockOverrun_changes ..)
  | alignmentShift => exact .of_changes (execAlignmentShift_changes ..)
  | chimePlay => exact .of_changes (execChimePlay_changes ..)
  | chimeStop => exact .of_changes (execChimeStop_changes ..)
  | accReadDone => exact .of_changes (execAccReadDone_changes ..)
  | identificationRequest => exact .of_changes (execIdentificationRequest_changes ..)
  | identPointDone => exact .of_changes (execIdentPointDone_changes ..)
  | divergedHoldEnd => exact .of_changes (execDivergedHoldEnd_changes ..)
  | speakerResistanceEstimate => exact .of_changes (execSpeakerResistanceEstimate_changes ..)
  | adoptIdentification => exact .of_changes (execAdoptIdentification_changes ..)
  | tapTestSweep => exact .of_changes (execTapTestSweep_changes ..)
  | tapTestStandstill => exact .of_changes (execTapTestStandstill_changes ..)
  | tapTestPhase => exact .of_changes (execTapTestPhase_changes ..)
  | tapTestSpin => exact .of_changes (execTapTestSpin_changes ..)
  | tapTestAbort => exact .of_changes (execTapTestAbort_changes ..)
  | tapStepDone => exact .of_changes (execTapStepDone_changes ..)
  | driftWindowEnd => exact .of_changes (execDriftWindowEnd_changes ..)
  | imbalanceWindowEnd => exact .of_changes (execImbalanceWindowEnd_changes ..)
  | testSignalStart => exact .of_changes (execTestSignalStart_changes ..)
  | testSignalStop => exact .of_changes (execTestSignalStop_changes ..)
  | testSignalDurationEnd => exact .of_changes (execTestSignalDurationEnd_changes ..)
  | captureStart => exact .of_changes (execCaptureStart_changes ..)
  | captureStop => exact .of_changes (execCaptureStop_changes ..)
  | captureDiscard => exact .of_changes (execCaptureDiscard_changes ..)
  | aspFrame => exact .of_changes (execAspFrame_changes ..)
  | leadInEnd => exact .of_changes (execLeadInEnd_changes ..)
  | leadOutEnd => exact .of_changes (execLeadOutEnd_changes ..)
  | aspClockLoss => exact .of_changes (execAspClockLoss_changes ..)
  | pdmWakeEnd => exact .of_changes (execPdmWakeEnd_changes ..)
  | listenerPdu => exact .of_changes (execListenerPdu_changes ..)
  | listenerTimeout => exact .of_changes (execListenerTimeout_changes ..)
  | crustInputSample => exact .of_changes (execCrustInputSample_changes ..)
  | crustCycle => exact .of_reports (execCrustCycle_reports ..)
  | testPulse => exact .of_changes (execTestPulse_changes ..)
  | srstStuck => exact .of_changes (execSrstStuck_changes ..)
  | laneWatchdogExpiry => exact .of_reports (execLaneWatchdogExpiry_reports ..)
  | hearthWatchdogExpiry => exact .of_reports (execHearthWatchdogExpiry_reports ..)
  | hearthGateReopen => exact .of_changes (execHearthGateReopen_changes ..)
  | safeOffMaxWait => exact .of_changes (execSafeOffMaxWait_changes ..)
  | safeOffTestRequest => exact .of_changes (execSafeOffTestRequest_changes ..)
  | safeOffTestStepEnd => exact .of_changes (execSafeOffTestStepEnd_changes ..)
  | offPulseStart => exact .of_changes (execOffPulseStart_changes ..)
  | offPulseEnd => exact .of_reports (execOffPulseEnd_reports ..)
  | crustFault => exact .of_reports (execCrustFault_reports ..)
  | bedrockToneAlternation => exact .of_changes (execBedrockToneAlternation_changes ..)
  | bedrockStatusFrame => exact .of_changes (execBedrockStatusFrame_changes ..)
  | lockstepMismatch => exact .of_reports (execLockstepMismatch_reports ..)
  | hkRoundBoundary => cases hc
  | hkSlotConversion => exact .of_changes (execHkSlotConversion_changes ..)
  | eventSlotGroup => exact .of_changes (execEventSlotGroup_changes ..)
  | thermalStopEntry => cases hc
  | thermalStopRelease => cases hc
  | yoapFrame => exact .of_reports (execYoapFrame_reports ..)
  | readItem => exact .of_changes (execReadItem_changes ..)
  | writeItem => exact .of_changes (execWriteItem_changes ..)
  | readSeg => exact .of_changes (execReadSeg_changes ..)
  | writeSeg => exact .of_changes (execWriteSeg_changes ..)
  | openSession => exact .of_changes (execOpenSession_changes ..)
  | closeSession => exact .of_changes (execCloseSession_changes ..)
  | nopItem => exact .of_changes (execNopItem_changes ..)
  | imageItem => exact .of_reports (execImageItem_reports ..)
  | commitSets => exact .of_changes (execCommitSets_changes ..)
  | commitChecksDone => exact .of_changes (execCommitChecksDone_changes ..)
  | discardStaged => exact .of_changes (execDiscardStaged_changes ..)
  | saveGroups => exact .of_changes (execSaveGroups_changes ..)
  | saveDone => exact .of_changes (execSaveDone_changes ..)
  | restoreDefaults => exact .of_changes (execRestoreDefaults_changes ..)
  | blobTransferTimeout => exact .of_changes (execBlobTransferTimeout_changes ..)
  | sessionIdleTimeout => exact .of_changes (execSessionIdleTimeout_changes ..)
  | imageTimeout => exact .of_reports (execImageTimeout_reports ..)
  | keySlotWrite => exact .of_changes (execKeySlotWrite_changes ..)
  | stateRequestReady => exact .of_changes (execStateRequestReady_changes ..)
  | stateRequestRun => exact .of_changes (execStateRequestRun_changes ..)
  | stateRequestService => exact .of_changes (execStateRequestService_changes ..)
  | stateRequestStandby => exact .of_changes (execStateRequestStandby_changes ..)
  | runExitFadeEnd => exact .of_changes (execRunExitFadeEnd_changes ..)
  | clearShutdownCause => exact .of_changes (execClearShutdownCause_changes ..)
  | arpRequest => exact .of_changes (execArpRequest_changes ..)
  | icmpEcho => exact .of_changes (execIcmpEcho_changes ..)
  | frameForward => exact .of_changes (execFrameForward_changes ..)
  | sgmiiLinkDown => exact .of_reports (execSgmiiLinkDown_reports ..)
  | gptpSync => exact .of_changes (execGptpSync_changes ..)
  | pdelayRequest => exact .of_changes (execPdelayRequest_changes ..)
  | gptpLoss => exact .of_changes (execGptpLoss_changes ..)
  | benchTransaction => exact .of_changes (execBenchTransaction_changes ..)
  | benchRead => exact .of_changes (execBenchRead_changes ..)
  | benchWrite => exact .of_changes (execBenchWrite_changes ..)
  | bootHold => exact .of_changes (execBootHold_changes ..)
  | bootGo => exact .of_changes (execBootGo_changes ..)
  | bankVerificationDone => exact .of_reports (execBankVerificationDone_reports ..)
  | eraseBank => exact .of_changes (execEraseBank_changes ..)
  | programChunk => exact .of_changes (execProgramChunk_changes ..)
  | verifyBank => exact .of_changes (execVerifyBank_changes ..)
  | starterImportChunk => exact .of_changes (execStarterImportChunk_changes ..)
  | starterImportCommit => exact .of_changes (execStarterImportCommit_changes ..)
  | keySlotReset => exact .of_changes (execKeySlotReset_changes ..)
  | persistedSetErase => exact .of_changes (execPersistedSetErase_changes ..)
  | recoveryActionDone => exact .of_changes (execRecoveryActionDone_changes ..)
  | unlockHi => exact .of_changes (execUnlockHi_changes ..)
  | unlockLo => exact .of_changes (execUnlockLo_changes ..)
  | unlockLockoutEnd => exact .of_changes (execUnlockLockoutEnd_changes ..)
  | ctcCommit => exact .of_changes (execCtcCommit_changes ..)
  | benchStart => exact .of_changes (execBenchStart_changes ..)
  | troughMark fn => exact .of_changes (execTroughMark_changes fn ..)
  | timebaseLoss => exact .of_reports (execTimebaseLoss_reports ..)
  | ridgeLinkLoss => exact .of_changes (execRidgeLinkLoss_changes ..)
  | ridgeLinkUp => exact .of_changes (execRidgeLinkUp_changes ..)
  | ridgeHopRemeasure => exact .of_changes (execRidgeHopRemeasure_changes ..)
  | ridgeTrip => exact .of_changes (execRidgeTrip_changes ..)
  | splitMachineRecord => exact .of_reports (execSplitMachineRecord_reports ..)
  | handOff => exact .of_changes (execHandOff_changes ..)
  | twinSwap => exact .of_changes (execTwinSwap_changes ..)
  | flashOperationDone => exact .of_changes (execFlashOperationDone_changes ..)
  | updateErase => exact .of_changes (execUpdateErase_changes ..)
  | updateVerify => exact .of_changes (execUpdateVerify_changes ..)
  | updateActivate => exact .of_changes (execUpdateActivate_changes ..)
  | updateConfirm => exact .of_changes (execUpdateConfirm_changes ..)
  | updateAbort => exact .of_changes (execUpdateAbort_changes ..)
  | updateActionDone => exact .of_changes (execUpdateActionDone_changes ..)
  | refLost => exact .of_reports (execRefLost_reports ..)
  | refReturn => exact .of_changes (execRefReturn_changes ..)
  | nporRise => cases hc
  | nporFall => cases hc
  | nrstLow => cases hc
  | nrstRise => cases hc
  | vaonLost => cases hc
  | wakeUp => exact .of_changes (execWakeUp_changes ..)
  | failedWake => exact .of_changes (execFailedWake_changes ..)
  | proofingStepDone => exact .of_reports (execProofingStepDone_reports ..)
  | accReadStart => exact .of_changes (execAccReadStart_changes ..)
  | sgmiiLinkUp => exact .of_reports (execSgmiiLinkUp_reports ..)
  | pdelayResponse => exact .of_changes (execPdelayResponse_changes ..)
  | pllSlewComplete => exact .of_reports (execPllSlewComplete_reports ..)
  | bankStarted => cases hc
  | vaonApplied => exact .of_changes (execVaonApplied_changes ..)
  | canBusOff => exact .of_changes (execCanBusOff_changes ..)
  | canBusOffRecovery => exact .of_changes (execCanBusOffRecovery_changes ..)
  | learningTableAgeing => exact .of_changes (execLearningTableAgeing_changes ..)
  | serviceCoresResume => exact .of_changes (execServiceCoresResume_changes ..)

end Sys2Proof.Machine
end

section
/-! PROOFS. BEDROCK is left by no command but a reset (R300). -/

namespace Sys2Proof.Machine

variable {ps : List Part} {s t : State}

theorem Changes.keeps_bedrock (c : Changes ps s t) (h : s.dev.state = 7) (hm : .mode ∉ ps := by decide) : t.dev.state = 7 := (c.same .mode hm).trans h

theorem Reports.keeps_bedrock (r : Reports ps s t) (h : s.dev.state = 7) : t.dev.state = 7 := r.mode.elim (·.trans h) (·.1)

theorem ModeKept.keeps_bedrock {o : Out} (k : ModeKept s o) (h : s.dev.state = 7) (ho : o = .next t) : t.dev.state = 7 := by
  obtain ⟨u, hu, hm⟩ := k
  cases hu.symm.trans ho
  exact hm.elim (·.trans h) (·.1)

theorem State.ite_keeps_bedrock {c : Prop} [Decidable c] (hs : s.dev.state = 7) (ht : t.dev.state = 7) : (if c then s else t).dev.state = 7 := by
  split
  · exact hs
  · exact ht

/-- Table 21-5 gives no request a transition out of BEDROCK: each arm of the match but the last names another state. -/
theorem State.requestTrough_of_bedrock (held : Bool) (h : s.dev.state = 7) : s.requestTrough held = s := by
  unfold State.requestTrough
  rw [if_neg (by omega)]
  cases s.dev.request with
  | none => rfl
  | some r =>
    dsimp only
    split
    · rfl
    · split
      case h_6 => rfl
      all_goals omega

theorem State.m0Trough_keeps_bedrock (edges : Nat) (h : s.dev.state = 7) : (s.m0Trough edges).dev.state = 7 := by
  unfold State.m0Trough
  refine State.ite_keeps_bedrock h ?_
  extract_lets held old marked m1 begun repaired applied set body requested
  have hbegun : begun.dev.state = 7 := (State.beginFrame_changes ..).keeps_bedrock h
  have hrepaired : repaired.dev.state = 7 := State.ite_keeps_bedrock ((State.repairStore_reports _).keeps_bedrock hbegun) hbegun
  have hset : set.dev.state = 7 := (State.troughSettings_changes ..).keeps_bedrock ((State.troughBoundary_changes ..).keeps_bedrock hrepaired)
  have hbody : body.dev.state = 7 := (State.troughBody_reports ..).keeps_bedrock ((State.modulate_changes ..).keeps_bedrock hset)
  have hrequested : requested.dev.state = 7 := (congrArg (·.dev.state) (State.requestTrough_of_bedrock held hbody)).trans hbody
  exact State.ite_keeps_bedrock ((State.sendImages_changes _).keeps_bedrock hrequested) hrequested

/-- R298: in BEDROCK the hard limit ends the pattern and the discharge, and the device stays. -/
theorem State.hardLimit_keeps_bedrock (h : s.dev.state = 7) : s.hardLimit.dev.state = 7 := by
  unfold State.hardLimit
  rw [if_pos h]
  exact State.ite_keeps_bedrock h ((State.hardStates_changes _).keeps_bedrock ((Changes.refl [.dev] s).update.keeps_bedrock h))

theorem State.hkRound_keeps_bedrock (h : s.dev.state = 7) : s.hkRound.dev.state = 7 := by
  unfold State.hkRound
  extract_lets ended hk report judged applied excluded repaired
  have hjudged : judged.dev.state = 7 := (State.hkRecords_changes ..).keeps_bedrock h
  have happlied : applied.dev.state = 7 := State.ite_keeps_bedrock hjudged ((State.boundary_changes ..).keeps_bedrock hjudged)
  have hexcluded : excluded.dev.state = 7 := (State.raiseAll_reports ..).keeps_bedrock happlied
  have hfaults : Reports [.active, .loads] excluded repaired :=
    .report (State.repairStore_reports _) (.report (State.backupLost_reports _) (State.loadStep_reports _).mono (by decide)) (by decide)
  have hrepaired : repaired.dev.state = 7 := hfaults.keeps_bedrock hexcluded
  have hlimit : repaired.hardLimit.dev.state = 7 := State.hardLimit_keeps_bedrock hrepaired
  exact State.ite_keeps_bedrock hlimit hrepaired

theorem State.thermalEntry_of_bedrock (h : s.dev.state = 7) : s.thermalEntry = s := by
  simp [State.thermalEntry, h]

theorem State.thermalExit_of_bedrock (h : s.dev.state = 7) : s.thermalExit = s := by
  simp [State.thermalExit, State.stopped, h]

theorem State.leaveBoot_of_bedrock (h : s.dev.state = 7) : s.leaveBoot = s := by
  simp [State.leaveBoot, h]

/-- R300: of the commands with a transition of their own only the resets leave BEDROCK. -/
theorem exec_keeps_bedrock {c : Instr} (h : s.dev.state = 7) (hreset : resetItem c = false) (hrise : ∀ aon, c ≠ .nrstRise aon)
    (ht : exec c s = .next t) : t.dev.state = 7 := by
  by_cases hc : movesState c = true
  · cases c with
    | m0Trough edges => cases ht; exact State.m0Trough_keeps_bedrock edges h
    | hkRoundBoundary => cases ht; exact State.ite_keeps_bedrock (State.hkRound_keeps_bedrock h) h
    | thermalStopEntry => cases ht; exact State.ite_keeps_bedrock ((congrArg (·.dev.state) (State.thermalEntry_of_bedrock h)).trans h) h
    | thermalStopRelease => cases ht; exact State.ite_keeps_bedrock ((congrArg (·.dev.state) (State.thermalExit_of_bedrock h)).trans h) h
    | bankStarted => cases ht; exact State.ite_keeps_bedrock ((congrArg (·.dev.state) (State.leaveBoot_of_bedrock h)).trans h) h
    | nrstRise aon => exact absurd rfl (hrise aon)
    | nporRise | nporFall | nrstLow | vaonLost => cases hreset
    | _ => cases hc
  · exact (exec_modeKept s (Bool.eq_false_iff.mpr hc)).keeps_bedrock h ht

end Sys2Proof.Machine
end

section
/-! PROOFS. The retained register of R420: the word that BEDROCK writes, and what keeps it. -/

namespace Sys2Proof.Machine

/-! ### The word -/

theorem bits_eq_div_mod (x hi lo : Nat) : bits x hi lo = x / 2 ^ lo % 2 ^ (hi - lo + 1) := by
  rw [bits, Nat.shiftRight_eq_div_pow]

/-- The word of BEDROCK (R420): KIND 1, MARK set, the cause and FN. -/
def bedrockWord (cause fn : Nat) : Nat := 2 ^ 60 + 2 ^ 59 + cause % 65536 * 2 ^ 40 + fn % 2 ^ 32

theorem bits_kind_bedrockWord (cause fn : Nat) : bits (bedrockWord cause fn) 63 60 = 1 := by
  rw [bits_eq_div_mod, bedrockWord]
  omega

theorem bit_mark_bedrockWord (cause fn : Nat) : bit (bedrockWord cause fn) 59 = true := by
  rw [bit_eq_true_iff, bedrockWord]
  omega

theorem bits_cause_bedrockWord (cause fn : Nat) : bits (bedrockWord cause fn) 55 40 = cause % 65536 := by
  rw [bits_eq_div_mod, bedrockWord]
  omega

/-- R420: the rising edge of nPOR takes MARK alone from the word of BEDROCK. -/
theorem retainedAtRise_of_bedrock {w : Nat} (hkind : bits w 63 60 = 1) :
    bit (State.retainedAtRise w) 59 = false ∧ bits (State.retainedAtRise w) 55 40 = bits w 55 40 ∧ bits (State.retainedAtRise w) 63 60 = 1 := by
  have hrise : State.retainedAtRise w = setBit w 59 false := by
    unfold State.retainedAtRise
    simp only [hkind]
  rw [hrise, setBit]
  cases hmark : w.testBit 59 with
  | false => exact ⟨hmark, rfl, hkind⟩
  | true =>
    have hdiv : w / 2 ^ 59 % 2 = 1 := (bit_eq_true_iff w 59).mp hmark
    simp only [bit_eq_false_iff, bits_eq_div_mod] at hkind ⊢
    simp only [Bool.true_beq, Bool.false_eq_true, if_false]
    omega

/-! ### What keeps the register -/

variable {ps : List Part} {s t : State}

/-- A field of dev apart from the device state and the counter. -/
theorem Changes.devField_eq {α : Type} {f : DevState → α} (c : Changes ps s t)
    (hf : ∀ d st ct, f { d with state := st, counter := ct } = f d := by intros; rfl) (hd : .dev ∉ ps := by decide) : f t.dev = f s.dev := by
  have h : t.dev = { s.dev with state := t.dev.state, counter := t.dev.counter } := c.same .dev hd
  rw [h, hf]

theorem Changes.retained_eq (c : Changes ps s t) (hd : .dev ∉ ps := by decide) : t.dev.retained = s.dev.retained :=
  c.devField_eq (f := DevState.retained) (hd := hd)

theorem Changes.cause_eq (c : Changes ps s t) (hf : .fault ∉ ps := by decide) : t.fault.cause = s.fault.cause := by
  have h : t.fault = s.fault := c.same .fault hf
  rw [h]

theorem State.tapLog_retained (before : State) : (State.tapLog before s).dev.retained = s.dev.retained := by
  unfold State.tapLog
  extract_lets tap temp dev logged
  split
  · rfl
  · exact (State.logEvent_changes 4 _ logged).retained_eq

theorem State.goState_retained (dst cause : Nat) (own : Bool) : (s.goState dst cause own).dev.retained = s.dev.retained := State.tapLog_retained _

theorem State.closeSession_retained (k : Nat) : (s.closeSession k).dev.retained = s.dev.retained := by
  unfold State.closeSession
  dsimp only
  split <;> rfl

theorem State.closeSessions_retained (p : Session → Bool) : (s.closeSessions p).dev.retained = s.dev.retained := by
  unfold State.closeSessions
  refine List.foldlRecOn (motive := fun t : State => t.dev.retained = s.dev.retained) _ _ rfl fun t ht k _ => ?_
  split
  · split
    · exact (State.closeSession_retained k).trans ht
    · exact ht
  · exact ht

/-- R420: a thermal record is not overwritten. -/
theorem State.retainBedrock_retained {word : Nat} (hthermal : bits s.dev.retained 63 60 ≠ 2) (hhard : bits s.dev.retained 63 60 ≠ 3) :
    (s.retainBedrock word).dev.retained = bedrockWord word s.frame.fn := by
  unfold State.retainBedrock
  rw [if_neg (by simp [hthermal, hhard])]
  rfl

/-! ### BEDROCK writes it, and returns from it (R296, R300) -/

theorem State.hardStates_cause : s.hardStates.fault.cause = s.fault.cause := rfl

/-- R296: a BEDROCK entry writes its cause to Bedrock cause and to the retained register. -/
theorem State.enterBedrock_writes_cause {cause group : Nat} {byVote : Bool} (hup : s.up = true) (hstate : s.dev.state ≠ 7)
    (hthermal : bits s.dev.retained 63 60 ≠ 2) (hhard : bits s.dev.retained 63 60 ≠ 3) :
    (s.enterBedrock cause group byVote).fault.cause = cause * 256 + group
      ∧ (s.enterBedrock cause group byVote).dev.retained = bedrockWord (cause * 256 + group) s.frame.fn := by
  unfold State.enterBedrock
  rw [if_neg hstate, if_neg (by simp [hup])]
  extract_lets hard stopped trip released handed entered caused closed logged
  have hreleased : Changes [.staged, .commit, .persist, .ctl, .lanes, .trip, .diag, .audio, .crust, .chain, .flash] s released :=
    (Changes.after (State.bedrockStops_changes ..) (.refl ..) (by decide)).update
  have hhanded : Changes [.staged, .commit, .persist, .ctl, .lanes, .trip, .diag, .audio, .crust, .chain, .flash] s handed :=
    (hreleased.then_ (State.twinHandOff_changes ..)).then_ (State.twinHandOff_changes ..)
  have hframe : caused.frame = s.frame :=
    ((State.goState_changes 7 7 false handed).same .frame (by decide)).trans (hhanded.same .frame (by decide))
  have hretained : caused.dev.retained = s.dev.retained := (State.goState_retained ..).trans hhanded.retained_eq
  have hwritten : (caused.retainBedrock (cause * 256 + group)).dev.retained = bedrockWord (cause * 256 + group) s.frame.fn :=
    (State.retainBedrock_retained (hretained.symm ▸ hthermal) (hretained.symm ▸ hhard)).trans (by rw [hframe])
  have hclosed : closed = (caused.retainBedrock (cause * 256 + group)).closeSessions (fun x => x.iface != 3) := rfl
  have hlog : Changes [.flash] closed logged := State.logEvent_changes ..
  have hlogged : logged.dev.retained = bedrockWord (cause * 256 + group) s.frame.fn := by
    rw [hlog.retained_eq, hclosed, State.closeSessions_retained, hwritten]
  have hkept : Changes [.dev, .table, .net, .flash] caused logged :=
    (((State.retainBedrock_changes ..).mono (by decide)).then_ (State.closeSessions_changes ..)).then_ (State.logEvent_changes ..)
  have hcause : logged.fault.cause = cause * 256 + group := hkept.cause_eq
  split
  · exact ⟨State.hardStates_cause.trans hcause, (State.hardStates_changes _).retained_eq.trans hlogged⟩
  · exact ⟨hcause, hlogged⟩

/-- R294: a Crust fault writes its flag and safe-off to Crust, and is a BEDROCK cause. -/
theorem State.crustFault_eq (kind : CrustFaultKind) : ∃ x, s.crustFault kind = State.enterBedrock 7 0 false { s with crust := x } := ⟨_, rfl⟩

theorem State.crustFault_writes_cause {kind : CrustFaultKind} (hup : s.up = true) (hstate : s.dev.state ≠ 7)
    (hthermal : bits s.dev.retained 63 60 ≠ 2) (hhard : bits s.dev.retained 63 60 ≠ 3) :
    (s.crustFault kind).fault.cause = 0x700 ∧ (s.crustFault kind).dev.retained = bedrockWord 0x700 s.frame.fn := by
  obtain ⟨x, hx⟩ := s.crustFault_eq kind
  rw [hx]
  exact State.enterBedrock_writes_cause (s := { s with crust := x }) hup hstate hthermal hhard

/-- R300: BEDROCK straight from BOOT has the cause that the register held. -/
theorem State.bootBedrock_state_cause (word : Nat) : (s.bootBedrock word).dev.state = 7 ∧ (s.bootBedrock word).fault.cause = word := by
  unfold State.bootBedrock
  extract_lets entered caused
  have hkept : Changes [.dev, .frame, .sense, .trip, .canc, .diag, .hk, .flash] caused
      ((caused.retainBedrock word).logEvent 3 (toBytes 2 word ++ [1])).startRounds.startTimebase :=
    ((((State.retainBedrock_changes ..).mono (by decide)).then_ (State.logEvent_changes ..)).then_ (State.startRounds_changes _)).then_
      (State.startTimebase_changes _)
  have hstate : caused.dev.state = 7 := State.goState_state ..
  have hcause : caused.fault.cause = word := Nat.div_add_mod' word 256
  exact ⟨(hkept.same .mode (by decide)).trans hstate, hkept.cause_eq.trans hcause⟩

theorem State.leaveBoot_of_mark (hstate : s.dev.state = 2) (hstarted : s.dev.bankStarted = true) (hkind : bits s.dev.retained 63 60 = 1)
    (hmark : bit s.dev.retained 59 = true) : s.leaveBoot.dev.state = 7 ∧ s.leaveBoot.fault.cause = bits s.dev.retained 55 40 := by
  unfold State.leaveBoot
  rw [if_neg (by simp [hstate, hstarted])]
  extract_lets word kind logged started
  rw [if_pos ⟨hkind, hmark⟩]
  exact State.bootBedrock_state_cause _

/-! ### The resets (R406 to R409, R420) -/

/-- R409: nRST low resets to BOOT and leaves the always-on domain alone. -/
theorem State.nrstLow_of_bedrock (h : s.dev.state = 7) (hnrst : s.dev.nrst = true) :
    s.nrstLow.dev.state = 2 ∧ s.nrstLow.dev.retained = s.dev.retained := by
  unfold State.nrstLow
  dsimp only
  rw [if_neg (by simp [hnrst]), if_neg (by omega)]
  exact ⟨rfl, rfl⟩

theorem State.nporRise_retained {straps : Nat} {ref : Bool} (hvaon : s.dev.vaon = true) (hnpor : s.dev.npor = false) (hstandby : s.dev.state ≠ 1) :
    (s.nporRise straps ref).dev.retained = State.retainedAtRise s.dev.retained := by
  unfold State.nporRise
  dsimp only
  rw [if_neg (by simp [hvaon, hnpor]), if_neg (by simp [hstandby])]
  rfl

/-! ### The end of the verification (R420) -/

theorem State.startAdmitted_shutdown : s.startAdmitted.dev.shutdown = s.dev.shutdown := by
  unfold State.startAdmitted
  split
  · rfl
  · split <;> rfl

theorem State.loadPersisted_retained : s.loadPersisted.dev.retained = s.dev.retained := rfl

/-- In BOOT the Starter set's faults change neither the device state nor the register. -/
theorem State.checkStarter_retained (h : s.dev.state = 2) : s.checkStarter.dev.retained = s.dev.retained := by
  have r := State.checkStarter_reports s
  have hstate : s.checkStarter.dev.state = s.dev.state := r.mode.resolve_right fun ⟨_, hge⟩ => by omega
  exact (r.calm hstate).retained_eq

theorem State.verificationDone_shutdown {eccA eccB : Bool} (hstate : s.dev.state = 2) (hverifying : s.bench.verifying = true) :
    (s.verificationDone eccA eccB).dev.shutdown = s.dev.retained := by
  unfold State.verificationDone
  rw [if_neg (by simp [hstate, hverifying])]
  extract_lets loaded dev bench noted
  have hchecked : (State.checkStarter { s with flash := State.verifiedFlash eccA eccB s.flash }).dev.retained = s.dev.retained :=
    State.checkStarter_retained hstate
  have hloaded : loaded = (State.checkStarter { s with flash := State.verifiedFlash eccA eccB s.flash }).loadPersisted := rfl
  have hnoted : noted.dev.shutdown = loaded.dev.retained := by dsimp only [noted, dev]
  have hthermal : noted.bootThermal.dev.shutdown = noted.dev.shutdown := (State.bootThermal_changes noted).devField_eq (f := DevState.shutdown)
  rw [State.startAdmitted_shutdown, hthermal, hnoted, hloaded, State.loadPersisted_retained, hchecked]

end Sys2Proof.Machine
end

section
/-! PROOFS. The statement about how BEDROCK is left (R300, R420). -/

open Sys2Proof Sys2Proof.Machine

/-- Settles O6: only resets leave BEDROCK, and the retained register carries its cause over them. -/
theorem bedrockLasts : Obligations.BedrockLasts := by
  unfold Obligations.BedrockLasts
  refine ⟨fun c l s t h hpending hstep hreset hrise => ?_, fun kind s hup hstate hthermal hhard => ?_, fun s h hnrst => ?_,
    fun s hnpor hnrst hstate hstarted hkind hmark => ?_, fun straps ref s hvaon hnpor hstandby hkind => ?_,
    fun a b s hnpor hnrst hstate hverifying => ?_⟩
  · rw [step, hpending] at hstep
    exact exec_keeps_bedrock (s := { s with pending := l }) h hreset hrise hstep
  · obtain ⟨hcause, hretained⟩ := State.crustFault_writes_cause (kind := kind) hup hstate hthermal hhard
    refine ⟨_, congrArg Host.Outcome.next (if_pos hup), ?_, ?_, ?_⟩
    · rw [hretained, bits_kind_bedrockWord]
    · rw [hretained, bit_mark_bedrockWord]
    · rw [hretained, hcause, bits_cause_bedrockWord]
  · exact ⟨_, rfl, State.nrstLow_of_bedrock h hnrst⟩
  · exact ⟨_, congrArg Host.Outcome.next (if_pos (by simp [hnpor, hnrst])), State.leaveBoot_of_mark hstate hstarted hkind hmark⟩
  · exact ⟨_, rfl, State.nporRise_retained hvaon hnpor hstandby ▸ retainedAtRise_of_bedrock hkind⟩
  · exact ⟨_, congrArg Host.Outcome.next (if_pos (by simp [hnpor, hnrst])), State.verificationDone_shutdown hstate hverifying⟩

end

section
/-! PROOFS. The nRST hold histogram: its bins, what a release counts, and the resets that it outlasts (R407 to R410). -/

namespace Sys2Proof.Machine

/-! ### Lists -/

theorem nth_upd_of_lt {α : Type} {l : List α} {i : Nat} {d : α} {f : α → α} (hi : i < l.length) : nth (upd l i f) i d = f (nth l i d) := by
  simp [nth, upd, List.getD_eq_getElem?_getD, List.getElem?_eq_getElem hi]

theorem nth_upd_of_ne {α : Type} {l : List α} {i j : Nat} {d : α} {f : α → α} (hj : j ≠ i) : nth (upd l i f) j d = nth l j d := by
  simp only [nth, upd, List.getD_eq_getElem?_getD, List.getElem?_modify_ne _ _ hj.symm]

/-- Where p, once false along the list, stays false, the elements that satisfy it are the first ones: their number passes a place exactly when the
element there is one of them. -/
theorem lt_length_filter_iff {α : Type} {p : α → Bool} {l : List α} (hl : l.Pairwise fun a b => p b = true → p a = true) {i : Nat}
    (hi : i < l.length) : i < (l.filter p).length ↔ p l[i] = true := by
  induction l generalizing i with
  | nil => cases hi
  | cons a l ih =>
    obtain ⟨hhead, htail⟩ := List.pairwise_cons.mp hl
    cases ha : p a with
    | true =>
      rw [List.filter_cons_of_pos ha, List.length_cons]
      cases i with
      | zero => simp [ha]
      | succ i =>
        rw [List.getElem_cons_succ, Nat.add_lt_add_iff_right]
        exact ih htail (Nat.lt_of_succ_lt_succ hi)
    | false =>
      have hnone : ∀ b ∈ a :: l, ¬ p b = true := List.forall_mem_cons.mpr ⟨by simp [ha], fun b hb h => by simp [hhead b hb h] at ha⟩
      rw [List.filter_eq_nil_iff.mpr hnone]
      exact iff_of_false (Nat.not_lt_zero i) (hnone _ (List.getElem_mem hi))

/-! ### The bins -/

/-- The upper edges of the bins below the last one, in ms (R410). -/
def holdEdges : List Nat := [1, 10, 100, 1000, 10000]

theorem State.holdBin_eq (aon : Nat) : State.holdBin aon = (holdEdges.filter fun ms => decide (ms * 32768 ≤ aon * 1000)).length := rfl

/-- A duration lies beyond a bin exactly when it reaches that bin's upper edge. -/
theorem State.lt_holdBin_iff {i : Nat} (aon : Nat) (hi : i < holdEdges.length) : i < State.holdBin aon ↔ holdEdges[i] * 32768 ≤ aon * 1000 := by
  have hsorted : holdEdges.Pairwise (· ≤ ·) := by decide
  have hreached : holdEdges.Pairwise fun a b => decide (b * 32768 ≤ aon * 1000) = true → decide (a * 32768 ≤ aon * 1000) = true :=
    hsorted.imp fun hab hb => decide_eq_true (Nat.le_trans (Nat.mul_le_mul_right _ hab) (of_decide_eq_true hb))
  rw [State.holdBin_eq, lt_length_filter_iff hreached hi, decide_eq_true_iff]

theorem State.holdBin_lt_six (aon : Nat) : State.holdBin aon < 6 :=
  Nat.lt_succ_of_le (List.length_filter_le _ holdEdges)

/-- The five edges on the AON clock, each divided by the common factor. -/
theorem State.holdBin_edges (aon : Nat) : (0 < State.holdBin aon ↔ 32768 ≤ aon * 1000) ∧ (1 < State.holdBin aon ↔ 32768 ≤ aon * 100)
    ∧ (2 < State.holdBin aon ↔ 32768 ≤ aon * 10) ∧ (3 < State.holdBin aon ↔ 32768 ≤ aon) ∧ (4 < State.holdBin aon ↔ 327680 ≤ aon) := by
  have hedge (i : Nat) (hi : i < 5) : i < State.holdBin aon ↔ holdEdges[i] * 32768 ≤ aon * 1000 := State.lt_holdBin_iff aon hi
  refine ⟨(hedge 0 (by decide)).trans ?_, (hedge 1 (by decide)).trans ?_, (hedge 2 (by decide)).trans ?_, (hedge 3 (by decide)).trans ?_,
    (hedge 4 (by decide)).trans ?_⟩ <;> simp only [holdEdges, List.getElem_cons_succ, List.getElem_cons_zero] <;> omega

/-! ### What a release counts -/

variable {s : State}

theorem State.nrstRise_histogram {aon : Nat} (h : s.dev.nrst = false) :
    (s.nrstRise aon).dev.histogram = upd s.dev.histogram (State.holdBin aon) (fun n => min 65535 (n + 1)) := by
  unfold State.nrstRise
  dsimp only
  rw [if_neg (by simp [h])]
  split <;> rfl

theorem State.nrstRise_lastHold {aon : Nat} (h : s.dev.nrst = false) :
    (s.nrstRise aon).dev.lastHold = min (aon * 1000 / 32768) (2 ^ 32 - 1) := by
  unfold State.nrstRise
  dsimp only
  rw [if_neg (by simp [h])]
  split <;> rfl

/-! ### The resets -/

/-- VAON carries the histogram: its loss leaves the AON domain at its reset values. -/
theorem State.vaonLost_histogram (h : s.dev.vaon = true) : s.vaonLost.dev.histogram = [0, 0, 0, 0, 0, 0] := by
  unfold State.vaonLost
  rw [if_neg (by simp [h])]
  rfl

/-- The histogram and the last hold are as they were. -/
def HoldKept (s t : State) : Prop := t.dev.histogram = s.dev.histogram ∧ t.dev.lastHold = s.dev.lastHold

theorem State.nrstLow_holdKept (s : State) : HoldKept s s.nrstLow := by
  unfold State.nrstLow
  dsimp only
  split
  · exact ⟨rfl, rfl⟩
  · split <;> exact ⟨rfl, rfl⟩

theorem State.nporFall_holdKept (s : State) : HoldKept s s.nporFall := by
  unfold State.nporFall
  dsimp only
  split <;> exact ⟨rfl, rfl⟩

theorem State.nporRise_holdKept (straps : Nat) (ref : Bool) (s : State) : HoldKept s (s.nporRise straps ref) := by
  unfold State.nporRise
  dsimp only
  split
  · exact ⟨rfl, rfl⟩
  · split <;> exact ⟨rfl, rfl⟩

end Sys2Proof.Machine
end

section
/-! PROOFS. The statement about the nRST hold histogram (R410). -/

open Sys2Proof Sys2Proof.Machine

/-- Settles O15: the release counts in the bin that `State.holdBin_edges` bounds, and of the resets only the loss of VAON empties the bins. -/
theorem holdHistogram : Obligations.HoldHistogram := by
  unfold Obligations.HoldHistogram
  refine ⟨fun aon s hnrst hlength => ?_, fun s hvaon => ⟨_, rfl, State.vaonLost_histogram hvaon⟩, fun c s hc => ?_⟩
  · obtain ⟨hedge0, hedge1, hedge2, hedge3, hedge4⟩ := State.holdBin_edges aon
    have hlt := State.holdBin_lt_six aon
    refine ⟨_, State.holdBin aon, rfl, hlt, by omega, by omega, by omega, by omega, by omega, by omega, ?_, fun j hj => ?_, fun hfits => ?_⟩
    · rw [State.nrstRise_histogram hnrst, nth_upd_of_lt (hlength ▸ hlt)]
    · rw [State.nrstRise_histogram hnrst, nth_upd_of_ne hj]
    · rw [State.nrstRise_lastHold hnrst]
      exact Nat.min_eq_left (Nat.le_pred_of_lt hfits)
  · obtain rfl | rfl | ⟨straps, ref, rfl⟩ := hc
    · exact ⟨_, rfl, State.nrstLow_holdKept s⟩
    · exact ⟨_, rfl, State.nporFall_holdKept s⟩
    · exact ⟨_, rfl, State.nporRise_holdKept straps ref s⟩

end

section
/-! PROOFS. The parts of the state that each command may change, and that a step takes the front of the queue. -/

set_option Elab.async false

namespace Sys2Proof.Machine

/-- What applies at a boundary may change. -/
abbrev boundaryParts : List Part :=
  [.active, .staged, .commit, .persist, .sense, .mod, .trip, .hearth, .canc, .loads, .diag, .audio, .crust, .hk, .chain]

/-- What a host's WRITE item may change. -/
abbrev itemParts : List Part := boundaryParts ++ [.dev, .token, .table, .lanes, .net, .flash]

/-- What a write of the Bench port may change. -/
abbrev benchParts : List Part := [.dev, .active, .staged, .token, .commit, .bench, .banks, .flash]

/-- A reset may change everything but the queue. -/
abbrev resetParts : List Part :=
  [.mode, .clock, .dev, .frame, .active, .staged, .token, .commit, .persist, .table, .sense, .ctl, .lanes, .mod, .trip, .hearth, .canc, .loads, .diag,
    .audio, .crust, .fault, .hk, .net, .bench, .chain, .banks, .flash]

/-- The parts of the state that a command may change. -/
def commandParts : Instr → List Part
  | .m0Trough .. => faultParts ++ [.frame, .active, .sense, .mod, .hk]
  | .crest .. => faultParts ++ [.sense, .mod]
  | .windowResult .. | .currentPairAmbiguous .. | .restoredPathEligible .. | .speakerSenseResult .. | .resolverLoopStep .. | .encoderEdge ..
    | .ssiReadDone .. | .splitMachineRecord .. => faultParts ++ [.sense]
  | .fastPathOutput .. => [.dev, .sense, .trip, .canc, .diag, .flash]
  | .restorePaths .. | .positionSourceSelect .. | .swapActive .. | .laneTestRequest .. | .voteTest .. | .controlMode .. | .outputEnable ..
    | .tripClear .. | .dischargeDemand .. | .gdlRequestEntry .. | .gdlSetupRerun .. | .chimePlay .. | .chimeStop ..
    | .identificationRequest .. | .adoptIdentification .. | .tapTestSweep .. | .tapTestStandstill .. | .tapTestPhase .. | .tapTestSpin ..
    | .tapTestAbort .. | .testSignalStart .. | .testSignalStop .. | .captureStart .. | .captureStop .. | .captureDiscard ..
    | .safeOffTestRequest .. | .writeItem .. | .commitSets .. | .discardStaged .. | .saveGroups .. | .restoreDefaults .. | .keySlotWrite ..
    | .stateRequestReady .. | .stateRequestRun .. | .stateRequestService .. | .stateRequestStandby .. | .clearShutdownCause ..
    | .twinSwap .. | .updateErase .. | .updateVerify .. | .updateActivate .. | .updateConfirm .. | .updateAbort .. => itemParts
  | .injectionConverged .. => [.sense]
  | .laneStart => faultParts ++ [.active, .sense]
  | .laneReport .. | .laneDeadline | .laneSelftestDone .. | .laneSyncDone .. | .probationDone .. | .recipeImageCheck .. => [.lanes]
  | .vote .. => faultParts ++ [.mod]
  | .modeFadeEnd .. => [.ctl, .diag]
  | .eventFire .. => [.mod, .canc, .diag, .hk]
  | .ctcFire .. => [.mod, .hk]
  | .speakerCarrierPeriod .. => [.mod, .hearth, .loads, .audio, .crust]
  | .fltInput .. => [.dev, .trip, .canc, .diag, .flash]
  | .safePatternDelayEnd .. | .dischargeDone | .dischargeTimeLimit | .dchgTimeout | .dchgLockEnd => [.trip]
  | .gdlTransferDone .. | .laneWatchdogExpiry | .hearthWatchdogExpiry | .offPulseEnd | .crustFault .. | .lockstepMismatch
    | .sgmiiLinkDown .. | .timebaseLoss | .refLost .. | .sgmiiLinkUp .. | .pllSlewComplete => faultParts
  | .hearthBlockBoundary .. | .imageItem .. => faultParts ++ [.active, .token, .sense, .mod, .hk]
  | .blockOverrun => [.hearth]
  | .alignmentShift .. => [.hearth, .audio]
  | .accReadDone .. | .divergedHoldEnd .. | .accReadStart .. => [.canc]
  | .identPointDone => [.dev, .table, .canc, .diag, .flash]
  | .speakerResistanceEstimate .. => [.loads]
  | .tapStepDone => [.dev, .diag, .flash]
  | .driftWindowEnd .. => [.loads, .diag]
  | .imbalanceWindowEnd .. | .testSignalDurationEnd => [.diag]
  | .aspFrame .. => boundaryParts
  | .leadInEnd .. | .leadOutEnd .. | .aspClockLoss .. | .pdmWakeEnd .. | .listenerTimeout .. => [.audio]
  | .listenerPdu .. => [.audio, .net]
  | .crustInputSample .. | .testPulse .. | .hearthGateReopen | .safeOffMaxWait | .safeOffTestStepEnd | .offPulseStart
    | .bedrockToneAlternation => [.crust]
  | .crustCycle | .hkRoundBoundary | .yoapFrame .. => faultParts ++ [.active, .sense, .mod, .hk]
  | .srstStuck => [.crust, .flash]
  | .bedrockStatusFrame => [.fault, .net]
  | .hkSlotConversion .. | .eventSlotGroup .. => [.hk]
  | .thermalStopEntry => [.mode, .dev, .persist, .ctl, .trip, .hearth, .canc, .loads, .diag, .audio, .crust, .hk, .chain, .flash]
  | .thermalStopRelease => [.mode, .dev, .trip, .hearth, .canc, .loads, .diag, .audio, .crust, .hk, .flash]
  | .readItem .. | .readSeg .. | .closeSession .. | .nopItem .. => boundaryParts ++ [.dev, .table, .net]
  | .writeSeg .. => boundaryParts ++ [.dev, .token, .table, .net, .flash]
  | .openSession .. | .sessionIdleTimeout .. => [.dev, .table, .net]
  | .commitChecksDone => boundaryParts ++ [.dev, .token, .table, .net, .bench]
  | .saveDone .. => [.persist]
  | .blobTransferTimeout .. => [.table]
  | .imageTimeout .. => faultParts ++ [.token]
  | .runExitFadeEnd | .refReturn | .wakeUp .. | .failedWake | .vaonApplied | .serviceCoresResume => [.dev]
  | .arpRequest .. | .icmpEcho .. | .frameForward .. | .pdelayRequest .. | .gptpLoss | .pdelayResponse .. | .canBusOff ..
    | .canBusOffRecovery .. | .learningTableAgeing .. => [.net]
  | .gptpSync .. => [.frame, .net]
  | .benchTransaction .. => [.net, .bench]
  | .benchRead .. | .unlockLockoutEnd => [.bench]
  | .benchWrite .. | .bootHold | .bootGo | .eraseBank .. | .programChunk .. | .verifyBank .. | .starterImportChunk .. | .starterImportCommit
    | .keySlotReset | .persistedSetErase | .unlockHi .. | .unlockLo .. | .ctcCommit .. | .benchStart .. => benchParts
  | .bankVerificationDone .. => faultParts ++ [.active, .bench, .banks]
  | .recoveryActionDone .. => [.dev, .persist, .net, .bench, .banks, .flash]
  | .troughMark .. => [.frame, .net, .chain]
  | .ridgeLinkLoss .. | .ridgeLinkUp .. | .ridgeTrip .. => [.dev, .trip, .canc, .diag, .chain, .flash]
  | .ridgeHopRemeasure .. | .handOff .. => [.chain]
  | .flashOperationDone .. => [.dev, .banks, .flash]
  | .updateActionDone .. => [.banks, .flash]
  | .nporRise .. | .nporFall | .nrstLow | .vaonLost => resetParts
  | .nrstRise .. => [.mode, .dev]
  | .proofingStepDone .. => faultParts ++ [.frame, .sense]
  | .bankStarted => faultParts ++ [.frame, .sense, .hk]

/-- A command answers a next state, which differs from the state that it finds in no part outside ps. -/
def MayChange (ps : List Part) (s : State) (o : Out) : Prop := ∃ t, o = .next t ∧ Changes ps s t

theorem MayChange.of {ps qs : List Part} {s : State} {o : Out} (h : ∃ t, o = .next t ∧ Changes qs s t) (hs : qs ⊆ ps := by exact of_decide_eq_true rfl) :
    MayChange ps s o :=
  h.imp fun _ ⟨ho, c⟩ => ⟨ho, c.mono hs⟩

/-- Each command's own law, read off in one table. -/
theorem exec_mayChange (c : Instr) (s : State) : MayChange (commandParts c) s (exec c s) := by
  cases c with
  | m0Trough => exact .of (execM0Trough_changes ..)
  | crest => exact .of (execCrest_changes ..)
  | windowResult => exact .of (execWindowResult_changes ..)
  | currentPairAmbiguous => exact .of (execCurrentPairAmbiguous_changes ..)
  | restoredPathEligible => exact .of (execRestoredPathEligible_changes ..)
  | speakerSenseResult => exact .of (execSpeakerSenseResult_changes ..)
  | fastPathOutput => exact .of (execFastPathOutput_changes ..)
  | restorePaths => exact .of (execRestorePaths_changes ..)
  | resolverLoopStep => exact .of (execResolverLoopStep_changes ..)
  | encoderEdge => exact .of (execEncoderEdge_changes ..)
  | ssiReadDone => exact .of (execSsiReadDone_changes ..)
  | positionSourceSelect => exact .of (execPositionSourceSelect_changes ..)
  | injectionConverged => exact .of (execInjectionConverged_changes ..)
  | laneStart => exact .of (execLaneStart_changes ..)
  | laneReport => exact .of (execLaneReport_changes ..)
  | laneDeadline => exact .of (execLaneDeadline_changes ..)
  | vote => exact .of (execVote_changes ..)
  | laneSelftestDone => exact .of (execLaneSelftestDone_changes ..)
  | laneSyncDone => exact .of (execLaneSyncDone_changes ..)
  | probationDone => exact .of (execProbationDone_changes ..)
  | recipeImageCheck => exact .of (execRecipeImageCheck_changes ..)
  | swapActive => exact .of (execSwapActive_changes ..)
  | laneTestRequest => exact .of (execLaneTestRequest_changes ..)
  | voteTest => exact .of (execVoteTest_changes ..)
  | controlMode => exact .of (execControlMode_changes ..)
  | modeFadeEnd => exact .of (execModeFadeEnd_changes ..)
  | outputEnable => exact .of (execOutputEnable_changes ..)
  | eventFire => exact .of (execEventFire_changes ..)
  | ctcFire => exact .of (execCtcFire_changes ..)
  | speakerCarrierPeriod => exact .of (execSpeakerCarrierPeriod_changes ..)
  | fltInput => exact .of (execFltInput_changes ..)
  | safePatternDelayEnd => exact .of (execSafePatternDelayEnd_changes ..)
  | tripClear => exact .of (execTripClear_changes ..)
  | dischargeDemand => exact .of (execDischargeDemand_changes ..)
  | dischargeDone => exact .of (execDischargeDone_changes ..)
  | dischargeTimeLimit => exact .of (execDischargeTimeLimit_changes ..)
  | dchgTimeout => exact .of (execDchgTimeout_changes ..)
  | dchgLockEnd => exact .of (execDchgLockEnd_changes ..)
  | gdlTransferDone => exact .of (execGdlTransferDone_changes ..)
  | gdlRequestEntry => exact .of (execGdlRequestEntry_changes ..)
  | gdlSetupRerun => exact .of (execGdlSetupRerun_changes ..)
  | hearthBlockBoundary => exact .of (execHearthBlockBoundary_changes ..)
  | blockOverrun => exact .of (execBlockOverrun_changes ..)
  | alignmentShift => exact .of (execAlignmentShift_changes ..)
  | chimePlay => exact .of (execChimePlay_changes ..)
  | chimeStop => exact .of (execChimeStop_changes ..)
  | accReadDone => exact .of (execAccReadDone_changes ..)
  | identificationRequest => exact .of (execIdentificationRequest_changes ..)
  | identPointDone => exact .of (execIdentPointDone_changes ..)
  | divergedHoldEnd => exact .of (execDivergedHoldEnd_changes ..)
  | speakerResistanceEstimate => exact .of (execSpeakerResistanceEstimate_changes ..)
  | adoptIdentification => exact .of (execAdoptIdentification_changes ..)
  | tapTestSweep => exact .of (execTapTestSweep_changes ..)
  | tapTestStandstill => exact .of (execTapTestStandstill_changes ..)
  | tapTestPhase => exact .of (execTapTestPhase_changes ..)
  | tapTestSpin => exact .of (execTapTestSpin_changes ..)
  | tapTestAbort => exact .of (execTapTestAbort_changes ..)
  | tapStepDone => exact .of (execTapStepDone_changes ..)
  | driftWindowEnd => exact .of (execDriftWindowEnd_changes ..)
  | imbalanceWindowEnd => exact .of (execImbalanceWindowEnd_changes ..)
  | testSignalStart => exact .of (execTestSignalStart_changes ..)
  | testSignalStop => exact .of (execTestSignalStop_changes ..)
  | testSignalDurationEnd => exact .of (execTestSignalDurationEnd_changes ..)
  | captureStart => exact .of (execCaptureStart_changes ..)
  | captureStop => exact .of (execCaptureStop_changes ..)
  | captureDiscard => exact .of (execCaptureDiscard_changes ..)
  | aspFrame => exact .of (execAspFrame_changes ..)
  | leadInEnd => exact .of (execLeadInEnd_changes ..)
  | leadOutEnd => exact .of (execLeadOutEnd_changes ..)
  | aspClockLoss => exact .of (execAspClockLoss_changes ..)
  | pdmWakeEnd => exact .of (execPdmWakeEnd_changes ..)
  | listenerPdu => exact .of (execListenerPdu_changes ..)
  | listenerTimeout => exact .of (execListenerTimeout_changes ..)
  | crustInputSample => exact .of (execCrustInputSample_changes ..)
  | crustCycle => exact .of (execCrustCycle_changes ..)
  | testPulse => exact .of (execTestPulse_changes ..)
  | srstStuck => exact .of (execSrstStuck_changes ..)
  | laneWatchdogExpiry => exact .of (execLaneWatchdogExpiry_changes ..)
  | hearthWatchdogExpiry => exact .of (execHearthWatchdogExpiry_changes ..)
  | hearthGateReopen => exact .of (execHearthGateReopen_changes ..)
  | safeOffMaxWait => exact .of (execSafeOffMaxWait_changes ..)
  | safeOffTestRequest => exact .of (execSafeOffTestRequest_changes ..)
  | safeOffTestStepEnd => exact .of (execSafeOffTestStepEnd_changes ..)
  | offPulseStart => exact .of (execOffPulseStart_changes ..)
  | offPulseEnd => exact .of (execOffPulseEnd_changes ..)
  | crustFault => exact .of (execCrustFault_changes ..)
  | bedrockToneAlternation => exact .of (execBedrockToneAlternation_changes ..)
  | bedrockStatusFrame => exact .of (execBedrockStatusFrame_changes ..)
  | lockstepMismatch => exact .of (execLockstepMismatch_changes ..)
  | hkRoundBoundary => exact .of (execHkRoundBoundary_changes ..)
  | hkSlotConversion => exact .of (execHkSlotConversion_changes ..)
  | eventSlotGroup => exact .of (execEventSlotGroup_changes ..)
  | thermalStopEntry => exact .of (execThermalStopEntry_changes ..)
  | thermalStopRelease => exact .of (execThermalStopRelease_changes ..)
  | yoapFrame => exact .of (execYoapFrame_changes ..)
  | readItem => exact .of (execReadItem_changes ..)
  | writeItem => exact .of (execWriteItem_changes ..)
  | readSeg => exact .of (execReadSeg_changes ..)
  | writeSeg => exact .of (execWriteSeg_changes ..)
  | openSession => exact .of (execOpenSession_changes ..)
  | closeSession => exact .of (execCloseSession_changes ..)
  | nopItem => exact .of (execNopItem_changes ..)
  | imageItem => exact .of (execImageItem_changes ..)
  | commitSets => exact .of (execCommitSets_changes ..)
  | commitChecksDone => exact .of (execCommitChecksDone_changes ..)
  | discardStaged => exact .of (execDiscardStaged_changes ..)
  | saveGroups => exact .of (execSaveGroups_changes ..)
  | saveDone => exact .of (execSaveDone_changes ..)
  | restoreDefaults => exact .of (execRestoreDefaults_changes ..)
  | blobTransferTimeout => exact .of (execBlobTransferTimeout_changes ..)
  | sessionIdleTimeout => exact .of (execSessionIdleTimeout_changes ..)
  | imageTimeout => exact .of (execImageTimeout_changes ..)
  | keySlotWrite => exact .of (execKeySlotWrite_changes ..)
  | stateRequestReady => exact .of (execStateRequestReady_changes ..)
  | stateRequestRun => exact .of (execStateRequestRun_changes ..)
  | stateRequestService => exact .of (execStateRequestService_changes ..)
  | stateRequestStandby => exact .of (execStateRequestStandby_changes ..)
  | runExitFadeEnd => exact .of (execRunExitFadeEnd_changes ..)
  | clearShutdownCause => exact .of (execClearShutdownCause_changes ..)
  | arpRequest => exact .of (execArpRequest_changes ..)
  | icmpEcho => exact .of (execIcmpEcho_changes ..)
  | frameForward => exact .of (execFrameForward_changes ..)
  | sgmiiLinkDown => exact .of (execSgmiiLinkDown_changes ..)
  | gptpSync => exact .of (execGptpSync_changes ..)
  | pdelayRequest => exact .of (execPdelayRequest_changes ..)
  | gptpLoss => exact .of (execGptpLoss_changes ..)
  | benchTransaction => exact .of (execBenchTransaction_changes ..)
  | benchRead => exact .of (execBenchRead_changes ..)
  | benchWrite => exact .of (execBenchWrite_changes ..)
  | bootHold => exact .of (execBootHold_changes ..)
  | bootGo => exact .of (execBootGo_changes ..)
  | bankVerificationDone => exact .of (execBankVerificationDone_changes ..)
  | eraseBank => exact .of (execEraseBank_changes ..)
  | programChunk => exact .of (execProgramChunk_changes ..)
  | verifyBank => exact .of (execVerifyBank_changes ..)
  | starterImportChunk => exact .of (execStarterImportChunk_changes ..)
  | starterImportCommit => exact .of (execStarterImportCommit_changes ..)
  | keySlotReset => exact .of (execKeySlotReset_changes ..)
  | persistedSetErase => exact .of (execPersistedSetErase_changes ..)
  | recoveryActionDone => exact .of (execRecoveryActionDone_changes ..)
  | unlockHi => exact .of (execUnlockHi_changes ..)
  | unlockLo => exact .of (execUnlockLo_changes ..)
  | unlockLockoutEnd => exact .of (execUnlockLockoutEnd_changes ..)
  | ctcCommit => exact .of (execCtcCommit_changes ..)
  | benchStart => exact .of (execBenchStart_changes ..)
  | troughMark fn => exact .of (execTroughMark_changes fn ..)
  | timebaseLoss => exact .of (execTimebaseLoss_changes ..)
  | ridgeLinkLoss => exact .of (execRidgeLinkLoss_changes ..)
  | ridgeLinkUp => exact .of (execRidgeLinkUp_changes ..)
  | ridgeHopRemeasure => exact .of (execRidgeHopRemeasure_changes ..)
  | ridgeTrip => exact .of (execRidgeTrip_changes ..)
  | splitMachineRecord => exact .of (execSplitMachineRecord_changes ..)
  | handOff => exact .of (execHandOff_changes ..)
  | twinSwap => exact .of (execTwinSwap_changes ..)
  | flashOperationDone => exact .of (execFlashOperationDone_changes ..)
  | updateErase => exact .of (execUpdateErase_changes ..)
  | updateVerify => exact .of (execUpdateVerify_changes ..)
  | updateActivate => exact .of (execUpdateActivate_changes ..)
  | updateConfirm => exact .of (execUpdateConfirm_changes ..)
  | updateAbort => exact .of (execUpdateAbort_changes ..)
  | updateActionDone => exact .of (execUpdateActionDone_changes ..)
  | refLost => exact .of (execRefLost_changes ..)
  | refReturn => exact .of (execRefReturn_changes ..)
  | nporRise => exact .of (execNporRise_changes ..)
  | nporFall => exact .of (execNporFall_changes ..)
  | nrstLow => exact .of (execNrstLow_changes ..)
  | nrstRise => exact .of (execNrstRise_changes ..)
  | vaonLost => exact .of (execVaonLost_changes ..)
  | wakeUp => exact .of (execWakeUp_changes ..)
  | failedWake => exact .of (execFailedWake_changes ..)
  | proofingStepDone => exact .of (execProofingStepDone_changes ..)
  | accReadStart => exact .of (execAccReadStart_changes ..)
  | sgmiiLinkUp => exact .of (execSgmiiLinkUp_changes ..)
  | pdelayResponse => exact .of (execPdelayResponse_changes ..)
  | pllSlewComplete => exact .of (execPllSlewComplete_changes ..)
  | bankStarted => exact .of (execBankStarted_changes ..)
  | vaonApplied => exact .of (execVaonApplied_changes ..)
  | canBusOff => exact .of (execCanBusOff_changes ..)
  | canBusOffRecovery => exact .of (execCanBusOffRecovery_changes ..)
  | learningTableAgeing => exact .of (execLearningTableAgeing_changes ..)
  | serviceCoresResume => exact .of (execServiceCoresResume_changes ..)

theorem exec_changes {c : Instr} {s t : State} (h : exec c s = .next t) : Changes (commandParts c) s t := by
  obtain ⟨u, hu, hc⟩ := exec_mayChange c s
  cases hu.symm.trans h
  exact hc

theorem step_of_cons {c : Instr} {l : List Instr} {s : State} (h : s.pending = c :: l) : step s = exec c { s with pending := l } := by
  rw [step, h]

theorem step_of_nil {s : State} (h : s.pending = []) : step s = .next (idle s) := by
  rw [step, h]

/-- What a command leaves alone, a step that takes it leaves alone; the queue apart. -/
theorem step_changes {c : Instr} {l : List Instr} {s t : State} (hp : s.pending = c :: l) (h : step s = .next t) :
    Changes (commandParts c) { s with pending := l } t := exec_changes ((step_of_cons hp).symm.trans h)

theorem pending_not_mem_commandParts (c : Instr) : .pending ∉ commandParts c := by
  cases c <;> exact of_decide_eq_true rfl

end Sys2Proof.Machine
end

section
/-! PROOFS. Every step keeps a sound state sound. -/

set_option Elab.async false

namespace Sys2Proof.Machine

/-- A command that leaves the settings, the token, the banks and the device state alone keeps soundness by its table entry; each other one by the
soundness law of its function. -/
theorem exec_sound {c : Instr} {s t : State} (h : exec c s = .next t) (hs : Sound s) : Sound t := by
  by_cases hp : ∀ p ∈ ([.mode, .active, .staged, .token, .banks] : List Part), p ∉ commandParts c
  · exact Sound.after (exec_changes h) hs hp
  · cases c with
    | restorePaths | positionSourceSelect | swapActive | laneTestRequest | voteTest | controlMode | outputEnable | tripClear | dischargeDemand
    | gdlRequestEntry | gdlSetupRerun | chimePlay | chimeStop | identificationRequest | adoptIdentification | tapTestSweep
    | tapTestStandstill | tapTestPhase | tapTestSpin | tapTestAbort | testSignalStart | testSignalStop | captureStart | captureStop
    | captureDiscard | safeOffTestRequest | commitSets | discardStaged | saveGroups | restoreDefaults | stateRequestReady | stateRequestRun
    | stateRequestService | stateRequestStandby | clearShutdownCause | twinSwap | updateErase | updateVerify | updateActivate
    | updateConfirm | updateAbort => cases h; exact State.hostAction_sound _ _ _ _ _ hs
    | m0Trough => cases h; exact State.m0Trough_sound _ hs
    | crest => cases h; exact State.crest_sound _ hs
    | windowResult => cases h; exact .ite (State.windows_sound _ _ hs) hs
    | currentPairAmbiguous => cases h; exact .ite (State.reportAmbiguous_sound _ hs) hs
    | restoredPathEligible => cases h; exact .ite (State.pathEligible_sound _ hs) hs
    | speakerSenseResult => cases h; exact .ite (State.speakerSense_sound _ hs) hs
    | resolverLoopStep => cases h; exact .ite (State.resolver_sound _ _ hs) hs
    | encoderEdge => cases h; exact .ite (State.encoder_sound _ _ _ _ hs) hs
    | ssiReadDone => cases h; exact .ite (State.ssi_sound _ _ hs) hs
    | laneStart => cases h; exact State.updateStart_sound hs
    | vote => cases h; exact State.vote_sound _ hs
    | gdlTransferDone => cases h; exact .ite (State.linkDone_sound _ _ hs) hs
    | hearthBlockBoundary => cases h; exact State.hearthBoundary_sound _ hs
    | aspFrame => cases h; exact .ite (State.aspFrame_sound _ _ hs) hs
    | crustCycle => cases h; exact .ite (State.crustCycle_sound hs) hs
    | laneWatchdogExpiry => cases h; exact .ite (State.laneWatchdog_sound hs) hs
    | hearthWatchdogExpiry => cases h; exact State.hearthWatchdog_sound hs
    | offPulseEnd => cases h; exact .ite (State.offPulseEnd_sound hs) hs
    | crustFault => cases h; exact .ite (State.crustFault_sound _ hs) hs
    | lockstepMismatch => cases h; exact .ite (State.lockstep_sound hs) hs
    | hkRoundBoundary => cases h; exact .ite (State.hkRound_sound hs) hs
    | thermalStopEntry => cases h; exact .ite (State.thermalEntry_sound hs) hs
    | thermalStopRelease => cases h; exact .ite (State.thermalExit_sound hs) hs
    | yoapFrame => cases h; exact State.yoapFrame_sound _ _ hs
    | readItem => cases h; exact State.hostRead_sound _ _ hs
    | writeItem => cases h; exact State.hostWrite_sound _ _ _ hs
    | readSeg => cases h; exact State.hostReadSeg_sound _ _ _ _ hs
    | writeSeg => cases h; exact State.hostWriteSeg_sound _ _ _ _ _ hs
    | closeSession => cases h; exact State.plainItem_sound _ _ hs
    | nopItem => cases h; exact State.plainItem_sound _ _ hs
    | imageItem => cases h; exact State.imageItem_sound _ _ _ _ _ hs
    | commitChecksDone => cases h; exact State.commitDecided_sound hs
    | imageTimeout => cases h; exact State.imageLate_sound _ hs
    | keySlotWrite => cases h; exact State.hostKeySlot_sound _ _ _ hs
    | sgmiiLinkDown => cases h; exact State.linkDown_sound _ hs
    | bankVerificationDone => cases h; exact .ite (State.verificationDone_sound _ _ hs) hs
    | recoveryActionDone => cases h; exact .ite (State.recoveryDone_sound _ hs) hs
    | timebaseLoss => cases h; exact State.lossOfMark_sound hs
    | splitMachineRecord => cases h; exact State.splitRecord_sound _ _ hs
    | flashOperationDone => cases h; exact .ite (State.flashDone_sound _ hs) hs
    | updateActionDone => cases h; exact .ite (State.updateDone_sound _ hs) hs
    | refLost => cases h; exact .ite (State.refLoss_sound _ hs) hs
    | nporRise => cases h; exact State.nporRise_sound _ _ hs
    | nporFall => cases h; exact State.nporFall_sound hs
    | nrstLow => cases h; exact State.nrstLow_sound hs
    | nrstRise => cases h; exact State.nrstRise_sound _ hs
    | vaonLost => cases h; exact State.vaonLost_sound hs
    | proofingStepDone => cases h; exact .ite (State.stepDone_sound _ hs) hs
    | sgmiiLinkUp => cases h; exact State.linkUpSgmii_sound _ hs
    | pllSlewComplete => cases h; exact .ite (State.slewDone_sound hs) hs
    | bankStarted => cases h; exact .ite (State.leaveBoot_sound hs) hs
    | benchWrite | bootHold | bootGo | unlockHi | unlockLo | ctcCommit | benchStart => cases h; exact State.benchWriteIf_sound _ _ hs
    | eraseBank | programChunk | verifyBank | starterImportChunk | starterImportCommit | keySlotReset | persistedSetErase => cases h; exact State.recoveryIf_sound _ _ hs
    | _ => exact absurd (of_decide_eq_true rfl) hp

end Sys2Proof.Machine
end

section
/-! PROOFS. What moves the frame number: an M0 Trough counts it, and nothing after the count in that Trough touches it. -/

set_option Elab.async false

namespace Sys2Proof.Machine

variable {ps : List Part} {s t u : State}

theorem Changes.fn_eq (c : Changes ps s t) (h : .frame ∉ ps := by decide) : t.frame.fn = s.frame.fn := congrArg FrameState.fn (c.same .frame h)

theorem State.ite_fn {c : Prop} [Decidable c] (hs : s.frame.fn = u.frame.fn) (ht : t.frame.fn = u.frame.fn) :
    (if c then s else t).frame.fn = u.frame.fn := by
  split
  · exact hs
  · exact ht

theorem State.beginFrame_fn (m1 : Bool) (s : State) :
    (s.beginFrame m1).frame.fn = if s.frame.started then (s.frame.fn + 1) % 2 ^ 32 else s.frame.fn := rfl

/-- The frame number after a Trough is the one that the frame began with. -/
theorem State.m0Trough_fn (edges : Nat) (s : State) : (s.m0Trough edges).frame.fn = s.frame.fn ∨ (s.m0Trough edges).frame.fn = (s.frame.fn + 1) % 2 ^ 32 := by
  unfold State.m0Trough
  split
  · exact .inl rfl
  · extract_lets held old marked m1 begun repaired applied set body requested
    have hbegun : begun.frame.fn = if s.frame.started then (s.frame.fn + 1) % 2 ^ 32 else s.frame.fn := State.beginFrame_fn m1 s
    have hrepaired : repaired.frame.fn = begun.frame.fn := State.ite_fn (State.repairStore_changes _).fn_eq rfl
    have hset : set.frame.fn = begun.frame.fn := ((State.troughSettings_changes ..).fn_eq.trans (State.troughBoundary_changes ..).fn_eq).trans hrepaired
    have hbody : body.frame.fn = begun.frame.fn := ((State.troughBody_changes ..).fn_eq.trans (State.modulate_changes ..).fn_eq).trans hset
    have hrequested : requested.frame.fn = begun.frame.fn := (State.requestTrough_changes ..).fn_eq.trans hbody
    have hsent := State.ite_fn (c := requested.live && requested.dev.state != 7) ((State.sendImages_changes _).fn_eq.trans hrequested) hrequested
    rw [hsent, hbegun]
    split
    · exact .inr rfl
    · exact .inl rfl

theorem State.troughMark_fn (period : Nat) (gptp : Option Nat) (summit : Bool) (s : State) : (s.troughMark period gptp summit).frame.fn = s.frame.fn := by
  unfold State.troughMark
  refine State.ite_fn rfl ?_
  cases gptp <;> rfl

theorem State.counted_fn (s : State) : s.counted.frame.fn = s.frame.fn := (State.counted_changes s).fn_eq

/-- What a gPTP message writes of the frame state. -/
def State.withGptp (offset : Nat) (trim : Int) (n : NetState) (s : State) : State :=
  { s with frame := { s.frame with gptpOffset := offset, rateTrim := trim }, net := n }

theorem State.withGptp_fn (offset : Nat) (trim : Int) (n : NetState) (s : State) : (s.withGptp offset trim n).frame.fn = s.frame.fn := rfl

theorem State.sync_fn (port domain origin correction interval : Nat) (rate : Int) (s : State) :
    (State.sync port domain origin correction interval rate s).frame.fn = s.frame.fn := by
  unfold State.sync
  split
  · rfl
  · exact State.withGptp_fn ..

theorem State.gptpFrame_fn (port backlog : Nat) {take : State → State} (s : State) (ht : ∀ u, (take u).frame.fn = u.frame.fn) :
    (s.gptpFrame port backlog take).frame.fn = s.frame.fn := by
  have hc := s.counted_fn
  unfold State.gptpFrame
  exact State.ite_fn rfl (State.ite_fn ((State.notSupported_changes _).fn_eq.trans hc) (State.ite_fn hc ((ht _).trans hc)))

/-! ### The system counter through a reset -/

theorem State.nporFall_counter (s : State) : s.nporFall.dev.counter = s.dev.counter := by
  unfold State.nporFall
  dsimp only
  split <;> rfl

theorem State.nrstLow_counter (s : State) : s.nrstLow.dev.counter = s.dev.counter := by
  unfold State.nrstLow
  dsimp only
  split
  · rfl
  · split <;> rfl

theorem State.vaonLost_counter (s : State) : s.vaonLost.dev.counter = s.dev.counter := by
  unfold State.vaonLost
  split <;> rfl

/-- Of the resets only nPOR's rising edge touches the counter; no other command lists the counter among its parts. -/
theorem exec_counter {c : Instr} (h : exec c s = .next t) (hc : ∀ straps ref, c ≠ .nporRise straps ref) : t.dev.counter = s.dev.counter := by
  by_cases hp : .clock ∉ commandParts c
  · exact (exec_changes h).same .clock hp
  · cases c with
    | nporRise straps ref => exact absurd rfl (hc straps ref)
    | nporFall => cases h; exact s.nporFall_counter
    | nrstLow => cases h; exact s.nrstLow_counter
    | vaonLost => cases h; exact s.vaonLost_counter
    | _ => exact absurd (of_decide_eq_true rfl) hp

/-- The timing marks of R374 and R361 write the gPTP offset of the frame state, never the frame number. -/
theorem exec_fn {c : Instr} (h : exec c s = .next t) (htrough : ∀ edges, c ≠ .m0Trough edges) (hstep : ∀ r, c ≠ .proofingStepDone r)
    (hbank : c ≠ .bankStarted) (hreset : resetItem c = false) : t.frame.fn = s.frame.fn := by
  by_cases hp : .frame ∉ commandParts c
  · exact (exec_changes h).fn_eq hp
  · cases c with
    | m0Trough edges => exact absurd rfl (htrough edges)
    | proofingStepDone r => exact absurd rfl (hstep r)
    | bankStarted => exact absurd rfl hbank
    | troughMark => cases h; exact State.troughMark_fn ..
    | gptpSync => cases h; exact State.gptpFrame_fn _ _ _ (fun _ => State.sync_fn ..)
    | nporRise | nporFall | nrstLow | vaonLost => cases hreset
    | _ => exact absurd (of_decide_eq_true rfl) hp

end Sys2Proof.Machine
end

section
/-! PROOFS. The Bench port's writes leave the bytes of the firmware banks alone: a recovery action that starts clears an OK bit at most, and the start
of a bank writes its boot record. -/

set_option Elab.async false

namespace Sys2Proof.Machine

/-- Two states hold the same bytes in both firmware banks. -/
structure SameImages (s t : State) : Prop where
  bankA : t.flash.bankA.image = s.flash.bankA.image
  bankB : t.flash.bankB.image = s.flash.bankB.image

namespace SameImages

variable {s t u : State}

theorem refl (s : State) : SameImages s s := ⟨rfl, rfl⟩

theorem trans (h : SameImages s t) (k : SameImages t u) : SameImages s u := ⟨k.bankA.trans h.bankA, k.bankB.trans h.bankB⟩

theorem of_changes {ps : List Part} (c : Changes ps s t) (h : .banks ∉ ps := by decide) : SameImages s t :=
  ⟨congrArg FlashBank.image (c.same .banks h).1, congrArg FlashBank.image (c.same .banks h).2⟩

theorem ite {c : Prop} [Decidable c] (h : SameImages s t) (k : SameImages s u) : SameImages s (if c then t else u) := by
  split
  · exact h
  · exact k

end SameImages

end Sys2Proof.Machine
end

section
/-! PROOFS. The writes of the Bench port leave the bytes of both firmware banks. -/

set_option Elab.async false

namespace Sys2Proof.Machine

namespace FlashState

variable {f : FlashState}

/-- A change of one bank that keeps the bank's bytes keeps the bytes of both. -/
theorem setBank_sameImages (f : FlashState) (b : Bool) {g : FlashBank → FlashBank} (hg : ∀ x, (g x).image = x.image) :
    (f.setBank b g).bankA.image = f.bankA.image ∧ (f.setBank b g).bankB.image = f.bankB.image := by
  cases b
  · exact ⟨hg _, rfl⟩
  · exact ⟨rfl, hg _⟩

theorem startBank_sameImages (f : FlashState) (b : Bool) :
    (f.startBank b).bankA.image = f.bankA.image ∧ (f.startBank b).bankB.image = f.bankB.image := by
  have h1 := f.setBank_sameImages (!b) (g := fun x => if x.spent then { x with record := x.record.map (fun r => { r with trial := 3 }) } else x)
    (fun x => by split <;> rfl)
  have h2 := (f.setBank (!b) (fun x => if x.spent then { x with record := x.record.map (fun r => { r with trial := 3 }) } else x)).setBank_sameImages b
    (g := fun x => { x with record := x.record.map (fun r => if r.trial = 1 then { r with count := r.count + 1 } else r) }) (fun _ => rfl)
  exact ⟨h2.1.trans h1.1, h2.2.trans h1.2⟩

end FlashState

namespace State

variable {s : State}

theorem startBank_sameImages (b : Bool) (s : State) : SameImages s (s.startBank b) :=
  ⟨(s.flash.startBank_sameImages b).1, (s.flash.startBank_sameImages b).2⟩

theorem bootEnds_sameImages (s : State) : SameImages s s.bootEnds := by
  unfold State.bootEnds
  refine .ite (.refl s) ?_
  split
  · exact startBank_sameImages _ s
  · exact .refl s

theorem bootGo_sameImages (s : State) : SameImages s s.bootGo.2 := by
  unfold State.bootGo
  split
  · exact .refl s
  · split
    · exact .refl s
    · split
      · exact .refl s
      · split
        · exact .trans (t := { s with bench := { s.bench with hold := false } }) ⟨rfl, rfl⟩ (startBank_sameImages ..)
        · exact .refl s

theorem bootCtl_sameImages (data : Nat) (s : State) : SameImages s (s.bootCtl data).2 := by
  unfold State.bootCtl
  split
  · exact bootGo_sameImages s
  · split
    · exact .refl s
    · exact .trans (t := { s with bench := { s.bench with hold := bit data 0 } }) ⟨rfl, rfl⟩ (bootEnds_sameImages _)

theorem recoveryStart_sameImages (action bank chunk : Nat) (s : State) : SameImages s (s.recoveryStart action bank chunk) := by
  unfold State.recoveryStart
  extract_lets b u
  have hu : SameImages s u := ⟨rfl, rfl⟩
  refine .ite ?_ (.ite ?_ hu)
  · have h := u.flash.setBank_sameImages (bank == 1) (g := fun b => { b with passes := false }) (fun _ => rfl)
    exact hu.trans ⟨h.1, h.2⟩
  · split
    · exact hu.trans (.of_changes (importWrite_changes ..))
    · exact hu

theorem recoveryCmd_sameImages (data : Nat) (s : State) : SameImages s (s.recoveryCmd data).2 := .ite (recoveryStart_sameImages ..) (.refl s)

theorem startWrite_sameImages (data : Nat) (s : State) : SameImages s (s.startWrite data).2 := by
  unfold State.startWrite
  split
  · exact bootGo_sameImages s
  · exact .refl s

/-- One law for each register that takes a write. -/
theorem benchEffect_sameImages (a data : Nat) (s : State) : SameImages s (s.benchEffect a data).2 := by
  unfold State.benchEffect
  split
  · split
    · exact .refl s
    · exact ⟨rfl, rfl⟩
  · split
    · exact .of_changes (ctcWrite_changes ..)
    · split
      · exact .of_changes (statusWrite_changes ..)
      · exact bootCtl_sameImages ..
      · exact recoveryCmd_sameImages ..
      · exact .of_changes (unlock_changes ..)
      · exact .of_changes (unlock_changes ..)
      · exact .of_changes (ctcCommitWrite_changes ..)
      · exact startWrite_sameImages ..

theorem benchWriteAt_sameImages (a data : Nat) (s : State) : SameImages s (s.benchWriteAt a data) := by
  unfold State.benchWriteAt
  extract_lets drop
  have hdrop (u : State) (code v : Nat) : SameImages u ((drop u).benchAnswer code v) :=
    .trans (t := drop u) (.ite (.refl u) ⟨rfl, rfl⟩) (.of_changes (benchAnswer_changes ..))
  exact .ite (hdrop ..) (.ite (hdrop ..) ((benchEffect_sameImages a data s).trans (hdrop ..)))

theorem benchWriteIf_sameImages (a : Nat) (p : Nat → Bool) (s : State) : SameImages s (s.benchWriteIf a p) := by
  unfold State.benchWriteIf
  split
  · exact .ite (benchWriteAt_sameImages ..) (.refl s)
  · exact .refl s

theorem recoveryIf_sameImages (action : Nat) (p : Nat → Bool) (s : State) : SameImages s (s.recoveryIf action p) := benchWriteIf_sameImages ..

end State

/-- Of the commands that O11's statement leaves, only the writes of the Bench port may touch a bank at all. -/
theorem exec_sameImages {c : Instr} {s t : State} (h : exec c s = .next t) (hreset : resetItem c = false) (hflash : ∀ ok, c ≠ .flashOperationDone ok)
    (hupdate : ∀ ok, c ≠ .updateActionDone ok) (hrecovery : ∀ ok, c ≠ .recoveryActionDone ok) (hverified : ∀ a b, c ≠ .bankVerificationDone a b) :
    SameImages s t := by
  by_cases hp : .banks ∉ commandParts c
  · exact .of_changes (exec_changes h) hp
  · cases c with
    | flashOperationDone ok => exact absurd rfl (hflash ok)
    | updateActionDone ok => exact absurd rfl (hupdate ok)
    | recoveryActionDone ok => exact absurd rfl (hrecovery ok)
    | bankVerificationDone a b => exact absurd rfl (hverified a b)
    | nporRise | nporFall | nrstLow | vaonLost => cases hreset
    | benchWrite | bootHold | bootGo | unlockHi | unlockLo | ctcCommit | benchStart => cases h; exact State.benchWriteIf_sameImages ..
    | eraseBank | programChunk | verifyBank | starterImportChunk | starterImportCommit | keySlotReset | persistedSetErase =>
      cases h; exact State.recoveryIf_sameImages ..
    | _ => exact absurd (of_decide_eq_true rfl) hp

/-- Whether a command is an instant at which settings apply or are mended, or the end of BOOT's verification. -/
def settingsInstant : Instr → Bool
  | .m0Trough .. | .hkRoundBoundary | .hearthBlockBoundary .. | .aspFrame .. | .crustCycle | .laneStart | .yoapFrame .. | .bankVerificationDone .. => true
  | _ => false

/-- The settings in force are listed among the parts of no other command. -/
theorem active_not_mem_commandParts {c : Instr} (h : (hostItem c || benchItem c || resetItem c || settingsInstant c) = false) :
    .active ∉ commandParts c := by
  have key : (decide (.active ∉ commandParts c) || (hostItem c || benchItem c || resetItem c || settingsInstant c)) = true := by cases c <;> rfl
  rw [h, Bool.or_false] at key
  exact of_decide_eq_true key

theorem settingsInstant_eq_false {c : Instr} (htrough : ∀ edges, c ≠ .m0Trough edges) (hround : c ≠ .hkRoundBoundary)
    (hblock : ∀ pdm, c ≠ .hearthBlockBoundary pdm) (hasp : ∀ n cycles, c ≠ .aspFrame n cycles) (hcrust : c ≠ .crustCycle) (hlane : c ≠ .laneStart)
    (hyoap : ∀ p bytes, c ≠ .yoapFrame p bytes) (hverified : ∀ a b, c ≠ .bankVerificationDone a b) : settingsInstant c = false := by
  unfold settingsInstant
  split
  · exact absurd rfl (htrough _)
  · exact absurd rfl hround
  · exact absurd rfl (hblock _)
  · exact absurd rfl (hasp _ _)
  · exact absurd rfl hcrust
  · exact absurd rfl hlane
  · exact absurd rfl (hyoap _ _)
  · exact absurd rfl (hverified _ _)
  · rfl

end Sys2Proof.Machine
end

section
/-! PROOFS. The statements about the step, the counters, the settings in force, the firmware banks and soundness. -/

set_option Elab.async false

open Sys2Proof Sys2Proof.Machine

/-- Settles O1: step's own equation on a queue that is not empty. -/
theorem stepRunsCommand : Obligations.StepRunsCommand := by
  unfold Obligations.StepRunsCommand
  intro c l s h
  exact step_of_cons h

/-- Settles O2: the idle tick, and for a command the table of the parts it may change, which never lists the queue. -/
theorem stepCompletes : Obligations.StepCompletes := by
  unfold Obligations.StepCompletes
  refine ⟨fun s h => step_of_nil h, fun s => ?_⟩
  cases hp : s.pending with
  | nil =>
    refine ⟨idle s, step_of_nil hp, ?_⟩
    unfold idle
    split <;> exact hp
  | cons c l =>
    obtain ⟨t, ht, hc⟩ := exec_mayChange c { s with pending := l }
    exact ⟨t, (step_of_cons hp).trans ht, hc.same .pending (pending_not_mem_commandParts c)⟩

/-- Settles O4: the idle tick writes the counter alone, and every command keeps soundness. -/
theorem stepsKeepSound : Obligations.StepsKeepSound := by
  unfold Obligations.StepsKeepSound
  intro s t hs h
  cases hp : s.pending with
  | nil =>
    cases (step_of_nil hp).symm.trans h
    exact .ite hs.update hs
  | cons c l => exact exec_sound ((step_of_cons hp).symm.trans h) hs.update

/-- Settles O8, from the table of parts and the few commands that list the counter or the frame state. -/
theorem countersMove : Obligations.CountersMove := by
  unfold Obligations.CountersMove
  intro c l s t hp h
  have hx : exec c { s with pending := l } = .next t := (step_of_cons hp).symm.trans h
  refine ⟨fun hc => ?_, fun htrough hstep hbank hreset => ?_, ?_⟩
  · have hcounter := exec_counter hx hc
    exact hcounter
  · have hfn := exec_fn hx htrough hstep hbank hreset
    exact hfn
  · rintro ⟨edges, rfl⟩
    cases hx
    have hfn := State.m0Trough_fn edges { s with pending := l }
    exact hfn

/-- Settles O10, from the table of parts. -/
theorem settingsInForce : Obligations.SettingsInForce := by
  unfold Obligations.SettingsInForce
  intro c l s t hp h hhost hbench hreset htrough hround hblock hasp hcrust hlane hyoap hverified
  have hi := settingsInstant_eq_false htrough hround hblock hasp hcrust hlane hyoap hverified
  obtain ⟨h1, h2, -⟩ := (step_changes hp h).same .active (active_not_mem_commandParts (by rw [hhost, hbench, hreset, hi]; rfl))
  exact ⟨h1, h2⟩

/-- Settles O11, from the table of parts and the writes of the Bench port. -/
theorem firmwareBytes : Obligations.FirmwareBytes := by
  unfold Obligations.FirmwareBytes
  intro c l s t hp h hreset hflash hupdate hrecovery hverified
  have hi := exec_sameImages ((step_of_cons hp).symm.trans h) hreset hflash hupdate hrecovery hverified
  exact ⟨hi.bankA, hi.bankB⟩

end

section
/-! PROOFS. What the trip logic's own operations leave of the groups: the discharge never touches one, and no operation but a reset takes a group out of
LOCKED (R151). -/

set_option Elab.async false

namespace Sys2Proof.Machine

/-! ### An element by its place -/

theorem getD_of_lt {α : Type} {l : List α} {i : Nat} {d : α} (h : i < l.length) : l.getD i d = l[i] := by
  rw [List.getD_eq_getElem?_getD, List.getElem?_eq_getElem h, Option.getD_some]

theorem nth_of_lt {α : Type} {l : List α} {i : Nat} {d : α} (h : i < l.length) : nth l i d = l[i] := getD_of_lt h

theorem nth_of_le {α : Type} {l : List α} {i : Nat} {d : α} (h : l.length ≤ i) : nth l i d = d := by
  rw [nth, List.getD_eq_getElem?_getD, List.getElem?_eq_none h, Option.getD_none]

namespace TripState

variable {t u v : TripState}

/-! ### The discharge leaves the groups, the filtered levels and the links -/

/-- Two trip states differ in the discharge alone. -/
structure SameTrips (t u : TripState) : Prop where
  g : u.g = t.g
  flt : u.flt = t.flt
  gdl : u.gdl = t.gdl

namespace SameTrips

theorem refl (t : TripState) : SameTrips t t := ⟨rfl, rfl, rfl⟩

theorem trans (h : SameTrips t u) (k : SameTrips u v) : SameTrips t v := ⟨k.g.trans h.g, k.flt.trans h.flt, k.gdl.trans h.gdl⟩

theorem ite {c : Prop} [Decidable c] (h : SameTrips t u) (k : SameTrips t v) : SameTrips t (if c then u else v) := by
  split
  · exact h
  · exact k

theorem foldl {α : Type} {f : TripState → α → TripState} (hf : ∀ u x, SameTrips u (f u x)) (l : List α) (t : TripState) : SameTrips t (l.foldl f t) := by
  induction l generalizing t with
  | nil => exact refl t
  | cons x l ih => exact (hf t x).trans (ih _)

end SameTrips

theorem dchgStart_same (now : Nat) (t : TripState) : SameTrips t (t.dchgStart now) := .ite (.refl t) (.ite ⟨rfl, rfl, rfl⟩ ⟨rfl, rfl, rfl⟩)

theorem windStop_same (t : TripState) : SameTrips t t.windStop := ⟨rfl, rfl, rfl⟩

theorem disStart_same (c : Store) (now : Nat) (env : List WindEnv) (t : TripState) : SameTrips t (t.disStart c now env) := by
  unfold disStart
  extract_lets method d u ms
  have hu : SameTrips t u := ⟨rfl, rfl, rfl⟩
  exact .ite (hu.trans (dchgStart_same ..)) (.ite hu (.ite (.ite (hu.trans (dchgStart_same ..)) hu) ⟨rfl, rfl, rfl⟩))

theorem disStop_same (t : TripState) : SameTrips t t.disStop := ⟨rfl, rfl, rfl⟩

theorem disDemand_same (c : Store) (now : Nat) (env : List WindEnv) (host crust : Bool) (t : TripState) : SameTrips t (t.disDemand c now env host crust) := by
  unfold disDemand
  extract_lets was d u
  have hu : SameTrips t u := ⟨rfl, rfl, rfl⟩
  exact .ite (hu.trans (disStart_same ..)) (.ite (hu.trans (disStop_same ..)) hu)

theorem windFail_same (c : Store) (now m : Nat) (t : TripState) : SameTrips t (t.windFail c now m) := by
  unfold windFail
  extract_lets d u
  have hu : SameTrips t u := ⟨rfl, rfl, rfl⟩
  exact .ite (.refl t) (.ite (hu.trans (dchgStart_same ..)) hu)

theorem windCheck_same (c : Store) (now : Nat) (env : List WindEnv) (t : TripState) : SameTrips t (t.windCheck c now env) :=
  .foldl (fun u m => .ite (windFail_same c now m u) (.refl u)) _ t

theorem disBelow_same (c : Store) (volts : List Rat) (t : TripState) : SameTrips t (t.disBelow c volts) := .ite (.refl t) ⟨rfl, rfl, rfl⟩

theorem disDone_same (t : TripState) : SameTrips t t.disDone := .ite ⟨rfl, rfl, rfl⟩ (.refl t)

theorem disTimeLimit_same (c : Store) (now : Nat) (t : TripState) : SameTrips t (t.disTimeLimit c now) :=
  .foldl (fun u m => .ite (windFail_same c now m u) (.refl u)) _ t

theorem dchgTimeout_same (c : Store) (now : Nat) (t : TripState) : SameTrips t (t.dchgTimeout c now) := by
  unfold dchgTimeout
  split
  · exact .refl t
  · exact .ite ⟨rfl, rfl, rfl⟩ (.refl t)

theorem dchgLockEnd_same (now : Nat) (t : TripState) : SameTrips t (t.dchgLockEnd now) := by
  unfold dchgLockEnd
  split
  · exact .refl t
  · extract_lets d u
    have hu : SameTrips t u := ⟨rfl, rfl, rfl⟩
    exact .ite (.refl t) (.ite (hu.trans (dchgStart_same ..)) ⟨rfl, rfl, rfl⟩)

theorem windStep_same (c : Store) (m period : Nat) (amps udc angle : Rat) (t : TripState) : SameTrips t (t.windStep c m period amps udc angle) :=
  .ite (.refl t) ⟨rfl, rfl, rfl⟩

/-! ### LOCKED lasts -/

/-- Every group that is LOCKED in t is LOCKED in u, and u has t's number of groups. -/
structure KeepsLocks (t u : TripState) : Prop where
  length : u.g.length = t.g.length
  locked : ∀ k, (nth t.g k {}).state = 5 → (nth u.g k {}).state = 5

namespace KeepsLocks

theorem refl (t : TripState) : KeepsLocks t t := ⟨rfl, fun _ h => h⟩

theorem trans (h : KeepsLocks t u) (k : KeepsLocks u v) : KeepsLocks t v := ⟨k.length.trans h.length, fun i hi => k.locked i (h.locked i hi)⟩

theorem ite {c : Prop} [Decidable c] (h : KeepsLocks t u) (k : KeepsLocks t v) : KeepsLocks t (if c then u else v) := by
  split
  · exact h
  · exact k

theorem foldl {α : Type} {f : TripState → α → TripState} (hf : ∀ u x, KeepsLocks u (f u x)) (l : List α) (t : TripState) : KeepsLocks t (l.foldl f t) := by
  induction l generalizing t with
  | nil => exact refl t
  | cons x l ih => exact (hf t x).trans (ih _)

theorem of_g (h : u.g = t.g) : KeepsLocks t u := ⟨congrArg _ h, fun _ hk => h ▸ hk⟩

theorem of_same (h : SameTrips t u) : KeepsLocks t u := of_g h.g

/-- A LOCKED group lies within the list. -/
theorem lt_length {k : Nat} (h : (nth t.g k {}).state = 5) : k < t.g.length := by
  refine Decidable.byContradiction fun hk => ?_
  rw [nth_of_le (Nat.le_of_not_lt hk)] at h
  cases h

theorem of_mapIdx {f : Nat → TripGroup → TripGroup} (h : u.g = t.g.mapIdx f) (hf : ∀ k g, g.state = 5 → (f k g).state = 5) : KeepsLocks t u := by
  refine ⟨by rw [h, List.length_mapIdx], fun k hk => ?_⟩
  have hlt := lt_length hk
  rw [nth_of_lt hlt] at hk
  rw [h, nth_of_lt (by rwa [List.length_mapIdx]), List.getElem_mapIdx]
  exact hf _ _ hk

theorem of_map {f : TripGroup → TripGroup} (h : u.g = t.g.map f) (hf : ∀ g, g.state = 5 → (f g).state = 5) : KeepsLocks t u :=
  of_mapIdx (f := fun _ => f) (h.trans (List.ext_getElem (by simp) (by simp))) (fun _ g hg => hf g hg)

/-- With every group locked, every group stays locked. -/
theorem all (h : KeepsLocks t u) (ht : ∀ g ∈ t.g, g.state = 5) : ∀ g ∈ u.g, g.state = 5 := by
  intro g hg
  obtain ⟨k, hk, rfl⟩ := List.getElem_of_mem hg
  have hlt : k < t.g.length := h.length ▸ hk
  have hu := h.locked k (by rw [nth_of_lt hlt]; exact ht _ (List.getElem_mem hlt))
  rwa [nth_of_lt hk] at hu

end KeepsLocks

theorem setGroup_keepsLocks (k : Nat) {f : TripGroup → TripGroup} (t : TripState) (hf : ∀ g, g.state = 5 → (f g).state = 5) : KeepsLocks t (t.setGroup k f) := by
  refine ⟨List.length_modify .., fun i hi => ?_⟩
  have hlt := KeepsLocks.lt_length hi
  by_cases hk : i = k
  · subst hk
    rw [setGroup, nth_upd_of_lt hlt]
    exact hf _ hi
  · rw [setGroup, nth_upd_of_ne hk]
    exact hi

end TripState

namespace TripGroup

theorem startDelay_state (now : Nat) (traction : Bool) (g : TripGroup) : (g.startDelay now traction).state = g.state := by
  unfold startDelay
  split <;> rfl

theorem activate_locked (now : Nat) (traction : Bool) (src : Nat) (inhibit : Bool) {g : TripGroup} (h : g.state = 5) :
    (g.activate now traction src inhibit).state = 5 := by
  unfold activate
  rw [if_pos (.inl h)]
  exact h

theorem release_locked (src : Nat) {g : TripGroup} (h : g.state = 5) : (g.release src).state = 5 := by
  unfold release
  rw [if_neg (fun hc => by rw [h] at hc; cases hc.1)]
  exact h

end TripGroup

namespace TripState

open KeepsLocks

theorem source_keepsLocks (now k src : Nat) (inhibit on : Bool) (t : TripState) : KeepsLocks t (t.source now k src inhibit on) := by
  unfold source
  extract_lets g u
  have hu : KeepsLocks t u := .ite (of_g rfl) (refl t)
  exact .ite
    (.ite (.ite (setGroup_keepsLocks _ _ fun _ h => h) (refl t)) (hu.trans (setGroup_keepsLocks _ _ fun _ h => TripGroup.activate_locked _ _ _ _ h)))
    (.ite (setGroup_keepsLocks _ _ fun _ h => TripGroup.release_locked _ h) (refl t))

theorem fltSources_keepsLocks (c : Store) (now : Nat) (t : TripState) : KeepsLocks t (t.fltSources c now) :=
  .foldl (fun u n => .foldl (fun v k => source_keepsLocks now k n _ _ v) _ u) _ t

theorem fltInput_keepsLocks (c : Store) (now n : Nat) (level : Bool) (t : TripState) : KeepsLocks t (t.fltInput c now n level) :=
  (of_g rfl : KeepsLocks t { t with flt := upd t.flt n (fun _ => level) }).trans (fltSources_keepsLocks ..)

theorem ridgeSource_keepsLocks (c : Store) (now : Nat) (on : Bool) (t : TripState) : KeepsLocks t (t.ridgeSource c now on) :=
  .foldl (fun u k => source_keepsLocks now k srcRidge _ _ u) _ t

theorem inhibits_keepsLocks (c : Store) (t : TripState) : KeepsLocks t (t.inhibits c) := of_mapIdx rfl fun _ _ h => h

theorem overcurrent_keepsLocks (c : Store) (now m : Nat) (on : Bool) (t : TripState) : KeepsLocks t (t.overcurrent c now m on) := source_keepsLocks ..

theorem lockAll_state (now : Nat) (byVote : Bool) (t : TripState) : ∀ g ∈ (t.lockAll now byVote).g, g.state = 5 := by
  intro g hg
  obtain ⟨k, hk, rfl⟩ := List.getElem_of_mem hg
  simp only [lockAll, List.getElem_mapIdx]
  exact TripGroup.startDelay_state ..

theorem lockAll_keepsLocks (now : Nat) (byVote : Bool) (t : TripState) : KeepsLocks t (t.lockAll now byVote) :=
  of_mapIdx rfl fun _ _ _ => TripGroup.startDelay_state ..

theorem clearOne_keepsLocks (now k : Nat) (t : TripState) : KeepsLocks t (t.clearOne now k).1 := by
  unfold clearOne
  extract_lets g
  split
  · exact refl t
  · split
    case isTrue h => exact ⟨List.length_modify .., fun i hi => by
      by_cases hk : i = k
      · subst hk
        exact absurd (hi.symm.trans h.1) (by decide)
      · exact (congrArg TripGroup.state (nth_upd_of_ne hk)).trans hi⟩
    case isFalse => exact of_g rfl

theorem clear_keepsLocks (now mask : Nat) (t : TripState) : KeepsLocks t (t.clear now mask).1 := by
  unfold clear
  generalize bitsSet 4 mask = l
  suffices h : ∀ (l : List Nat) (a : TripState × Bool), KeepsLocks a.1
      (l.foldl (fun a k => let r := clearOne now k a.1; (r.1, a.2 || r.2)) a).1 from h l (t, false)
  intro l
  induction l with
  | nil => exact fun a => refl a.1
  | cons k l ih => exact fun a => (clearOne_keepsLocks now k a.1).trans (ih ((clearOne now k a.1).1, a.2 || (clearOne now k a.1).2))

theorem trough_keepsLocks (now : Nat) (ks : List Nat) (t : TripState) : KeepsLocks t (t.trough now ks) := by
  refine .foldl (fun u k => setGroup_keepsLocks _ _ fun g h => ?_) _ t
  rw [if_neg (by omega), if_neg (by omega)]
  exact h

theorem countQuiet_keepsLocks (t : TripState) : KeepsLocks t t.countQuiet := by
  refine of_map rfl fun g h => ?_
  rw [if_neg (by omega)]
  exact h

theorem delayEnd_keepsLocks (c : Store) (now m : Nat) (speed : Rat) (valid : Bool) (t : TripState) : KeepsLocks t (t.delayEnd c now m speed valid) := by
  unfold delayEnd
  dsimp only
  split
  · exact refl t
  · exact .ite (refl t) (setGroup_keepsLocks _ _ fun _ h => h)

theorem patternCycle_keepsLocks (c : Store) (m : Nat) (speed : Rat) (valid : Bool) (t : TripState) : KeepsLocks t (t.patternCycle c m speed valid) := by
  refine setGroup_keepsLocks _ _ fun g h => ?_
  dsimp only
  (repeat' split) <;> exact h

theorem cutLinks_keepsLocks (t : TripState) : KeepsLocks t t.cutLinks := of_g rfl

end TripState

end Sys2Proof.Machine
end

section
/-! PROOFS. How "a locked group stays locked, and BEDROCK is entered only with every group locked" composes along an operation (R151). -/

set_option Elab.async false

namespace Sys2Proof.Machine

/-- Along a step from s to t no group leaves LOCKED, and where the step enters BEDROCK every group ends LOCKED. -/
structure Locks (s t : State) : Prop where
  trip : s.trip.KeepsLocks t.trip
  enters : t.dev.state = 7 → s.dev.state = 7 ∨ ∀ g ∈ t.trip.g, g.state = 5

namespace Locks

variable {ps : List Part} {s t u : State}

theorem refl (s : State) : Locks s s := ⟨.refl _, .inl⟩

theorem trans (h : Locks s t) (k : Locks t u) : Locks s u := by
  refine ⟨h.trip.trans k.trip, fun hu => ?_⟩
  rcases k.enters hu with ht | ha
  · exact (h.enters ht).imp_right k.trip.all
  · exact .inr ha

/-- A known step follows others. -/
theorem after (k : Locks t u) (h : Locks s t) : Locks s u := h.trans k

/-- A step that touches neither the trips nor the device state follows others. -/
theorem same (k : Changes ps t u) (h : Locks s t) (h1 : .trip ∉ ps := by decide) (h2 : .mode ∉ ps := by decide) : Locks s u :=
  h.trans ⟨.of_g (congrArg TripState.g (k.same .trip h1)), fun hu => .inl ((k.same .mode h2).symm.trans hu)⟩

/-- A step that leaves the device state alone needs its law about the groups only. -/
theorem of_trip (k : Changes ps s t) (ht : s.trip.KeepsLocks t.trip) (hm : .mode ∉ ps := by decide) : Locks s t :=
  ⟨ht, fun h => .inl ((k.same .mode hm).symm.trans h)⟩

theorem ite {c : Prop} [Decidable c] (h : Locks s t) (k : Locks s u) : Locks s (if c then t else u) := by
  split
  · exact h
  · exact k

theorem foldl {α : Type} {f : State → α → State} {l : List α} (h : Locks s t) (k : ∀ x u, Locks s u → Locks s (f u x)) : Locks s (l.foldl f t) := by
  induction l generalizing t with
  | nil => exact h
  | cons x l ih => exact ih (k x t h)

/-- A record update that enters no BEDROCK and keeps what is locked. -/
theorem update (h : Locks s t) {p : List Instr} {v : DevState} {fr : FrameState} {a a2 pa st : Store} {c : CommitState} {pe : PersistState}
    {ta : TableState} {se : SenseState} {ct : List MachCtl} {la : LaneState} {mo : ModState} {tr : TripState} {he : HearthState} {ca : CancState}
    {lo : List LoadModel} {di : DiagState} {au : AudioState} {cr : CrustState} {fa : FaultState} {hk : HkState} {ne : NetState} {be : BenchState}
    {ch : ChainState} {fl : FlashState} (hv : v.state = t.dev.state := by with_reducible rfl)
    (htr : t.trip.KeepsLocks tr := by with_reducible exact .refl _) :
    Locks s ⟨p, v, fr, a, a2, pa, st, c, pe, ta, se, ct, la, mo, tr, he, ca, lo, di, au, cr, fa, hk, ne, be, ch, fl⟩ :=
  h.trans ⟨htr, fun hu => .inl (hv.symm.trans hu)⟩

end Locks

namespace State

variable {s : State}

theorem hardStates_locks (s : State) : Locks s s.hardStates := .of_trip (hardStates_changes s) (.of_map rfl fun _ h => h)

theorem handOffTo_locks (m : Nat) (s : State) : Locks s (s.handOffTo m) := .same (handOffTo_changes m s) (.refl s)

theorem twinHandOff_locks (m : Nat) (s : State) : Locks s (s.twinHandOff m) :=
  .ite (.update (handOffTo_locks m s) (htr := TripState.setGroup_keepsLocks _ _ fun _ h => h)) (.refl s)

theorem bedrockStops_locks (byVote : Bool) (s : State) : Locks s (s.bedrockStops byVote) :=
  .of_trip (bedrockStops_changes byVote s) ((TripState.lockAll_keepsLocks ..).trans (.of_g rfl))

theorem bedrockStops_trip (byVote : Bool) (s : State) : ∀ g ∈ (s.bedrockStops byVote).trip.g, g.state = 5 :=
  TripState.lockAll_state s.now byVote s.trip

theorem goState_trip (dst cause : Nat) (own : Bool) (s : State) : (s.goState dst cause own).trip = s.trip :=
  (goState_changes dst cause own s).same .trip (by decide)

/-- A transition to another state than BEDROCK. -/
theorem goState_locks (dst cause : Nat) (own : Bool) (s : State) (hd : dst ≠ 7 := by decide) : Locks s (s.goState dst cause own) :=
  ⟨.of_g (congrArg TripState.g (goState_trip ..)), fun h => absurd ((goState_state dst cause own s).symm.trans h) hd⟩

theorem goState_keepsLocks (dst cause : Nat) (own : Bool) (s : State) : s.trip.KeepsLocks (s.goState dst cause own).trip :=
  .of_g (congrArg TripState.g (goState_trip ..))

/-- BEDROCK entry locks every group first (R151); what follows only adds inhibits. -/
theorem enterBedrock_locks (cause group : Nat) (byVote : Bool) (s : State) : Locks s (s.enterBedrock cause group byVote) := by
  unfold State.enterBedrock
  refine .ite (.same (logEvent_changes ..) (.refl s)) (.ite (.refl s) ?_)
  extract_lets hard stopped tr eased handed gone recorded closed logged
  have hstop : Locks s stopped := bedrockStops_locks byVote s
  have hease : stopped.trip.KeepsLocks eased.trip := .of_map rfl fun _ h => h
  have hhand : Locks eased handed := (twinHandOff_locks 0 eased).trans (twinHandOff_locks 1 _)
  have hgo : handed.trip.KeepsLocks gone.trip := goState_keepsLocks ..
  have hclosed : Locks recorded closed := .same (closeSessions_changes ..) (.same (retainBedrock_changes ..) (.refl recorded))
  have hlog : Locks recorded logged := .same (logEvent_changes ..) hclosed
  have hlate : Locks recorded (if hard then logged.hardStates else logged) := .ite (hlog.trans (hardStates_locks logged)) hlog
  have hkept : stopped.trip.KeepsLocks (if hard then logged.hardStates else logged).trip :=
    hease.trans (hhand.trip.trans ((hgo.trans (.refl _)).trans hlate.trip))
  exact ⟨hstop.trip.trans hkept, fun _ => .inr (hkept.all (bedrockStops_trip byVote s))⟩

theorem thermalStop_locks (hard : Bool) (s : State) : Locks s (s.thermalStop hard) := by
  unfold State.thermalStop
  extract_lets from_ f rec_ tr pe hk d stopped gone
  have hstopped : Locks s stopped := .update (.refl s) (htr := .of_map rfl fun _ h => h)
  have hgone : Locks s gone := .after (goState_locks ..) (.same (twinLeave_changes ..) (.same (twinLeave_changes ..) hstopped))
  exact .ite hgone.update hgone.update

end State

end Sys2Proof.Machine
end

section
/-! PROOFS. The law of the locked groups for each operation that may touch a trip or enter BEDROCK, in the order of the operations. -/

set_option Elab.async false

namespace Sys2Proof.Machine

namespace State

theorem singleFault_locks (code group detail : Nat) (s : State) : Locks s (State.singleFault code group detail s) := by
  unfold State.singleFault
  repeat' first
    | with_reducible exact .refl .. | with_reducible apply Locks.same (State.logEvent_changes ..)
    | with_reducible apply Locks.after (State.enterBedrock_locks ..) | extract_lets | with_reducible refine Locks.ite ?_ ?_
    | with_reducible refine Locks.update ?_

theorem raise_locks (g : Signal) (s : State) : Locks s (State.raise g s) := by
  unfold State.raise
  repeat' first
    | with_reducible exact .refl .. | with_reducible apply Locks.after (State.enterBedrock_locks ..)
    | with_reducible apply Locks.after (State.singleFault_locks ..) | extract_lets | split | with_reducible refine Locks.update ?_

theorem raiseAll_locks (l : List Signal) (s : State) : Locks s (State.raiseAll l s) := by
  unfold State.raiseAll
  repeat' first
    | with_reducible exact .refl .. | with_reducible assumption | with_reducible apply Locks.after (State.raise_locks ..)
    | with_reducible refine Locks.foldl ?_ (fun _ _ _ => ?_)

theorem thermalRelease_locks (s : State) : Locks s (State.thermalRelease s) := by
  unfold State.thermalRelease
  extract_lets tr hk cooled gone
  have hcooled : Locks s cooled := .update (.refl s) (htr := .of_map rfl fun _ h => h)
  have hgone : Locks s gone := .after (goState_locks ..) hcooled
  exact hgone.update

/-- The winding discharge that a trip fails leaves the groups as the new trip logic has them. -/
theorem tripTo_locks {t : TripState} (s : State) (ht : s.trip.KeepsLocks t) : Locks s (s.tripTo t) := by
  unfold State.tripTo
  extract_lets new first t1 t0 d sig tap ident tripped
  have h1 : s.trip.KeepsLocks t1 := .ite (ht.trans (.of_same (TripState.windFail_same ..))) ht
  have h0 : s.trip.KeepsLocks t0 := .ite (h1.trans (.of_same (TripState.windFail_same ..))) h1
  exact .same (tapLog_changes ..) (.update (.refl s) (htr := h0))

theorem voteSource_locks (m : Nat) (on : Bool) (s : State) : Locks s (State.voteSource m on s) := tripTo_locks s (TripState.source_keepsLocks ..)

/-- The flags of the discharge and of the links are the only ones kept with the trips. -/
theorem clearFlags_locks (key w : Nat) (s : State) : Locks s (State.clearFlags key w s) := by
  refine .of_trip (clearFlags_changes key w s) (.of_g ?_)
  unfold State.clearFlags
  dsimp only
  (repeat' split) <;> rfl

theorem actAtBoundary_locks (key raw : Nat) (s : State) : Locks s (State.actAtBoundary key raw s) := by
  unfold State.actAtBoundary
  repeat' first
    | with_reducible exact .refl ..
    | with_reducible apply Locks.same (restorePaths_changes ..)
    | with_reducible apply Locks.after (clearFlags_locks ..)
    | extract_lets | split

theorem applyPart_locks (w : PendWrite) (s : State) : Locks s (State.applyPart w s) := by
  unfold State.applyPart
  repeat' first
    | with_reducible exact .refl ..
    | with_reducible apply Locks.after (actAtBoundary_locks ..)
    | with_reducible apply Locks.same (applyValue_changes ..)
    | extract_lets | split

theorem boundary_locks (groups wait : Nat) (s : State) : Locks s (State.boundary groups wait s).1 := by
  unfold State.boundary
  repeat' first
    | with_reducible exact .refl .. | with_reducible assumption | with_reducible apply Locks.after (State.applyPart_locks ..)
    | with_reducible apply Locks.same (State.applyCommit_changes ..) | extract_lets | split | dsimp only
    | with_reducible refine Locks.foldl ?_ (fun _ _ _ => ?_) | with_reducible refine Locks.update ?_

theorem sensed_locks (r : SenseState × List Signal) (s : State) : Locks s (State.sensed r s) := by
  unfold State.sensed
  repeat' first
    | with_reducible exact .refl .. | with_reducible apply Locks.after (State.raiseAll_locks ..) | extract_lets
    | with_reducible refine Locks.ite ?_ ?_ | with_reducible refine Locks.update ?_

theorem windows_locks (ws : List PathWindow) (mismatch : Bool) (s : State) : Locks s (State.windows ws mismatch s) := by
  unfold State.windows
  repeat' first
    | with_reducible exact .refl .. | with_reducible apply Locks.after (State.sensed_locks ..)

theorem twinRecord_locks (m : Nat) (paths : List (Nat × Int)) (hits : List (Nat × Bool × Bool)) (s : State) :
    Locks s (State.twinRecord m paths hits s) := by
  unfold State.twinRecord
  extract_lets own x f ps sensed
  exact (sensed_locks ..).trans (tripTo_locks sensed (TripState.overcurrent_keepsLocks ..))

theorem reportAmbiguous_locks (hb : Nat) (s : State) : Locks s (State.reportAmbiguous hb s) := by
  unfold State.reportAmbiguous
  repeat' first
    | with_reducible exact .refl .. | with_reducible apply Locks.after (State.raise_locks ..) | extract_lets
    | with_reducible refine Locks.ite ?_ ?_ | with_reducible refine Locks.update ?_

theorem pathEligible_locks (sd : Nat) (s : State) : Locks s (State.pathEligible sd s) := by
  unfold State.pathEligible
  repeat' first
    | with_reducible exact .refl .. | with_reducible apply Locks.after (State.raiseAll_locks ..) | extract_lets | split
    | with_reducible refine Locks.ite ?_ ?_ | with_reducible refine Locks.update ?_

theorem speakerSense_locks (w : PathWindow) (s : State) : Locks s (State.speakerSense w s) := by
  unfold State.speakerSense
  repeat' first
    | with_reducible exact .refl .. | with_reducible apply Locks.after (State.raise_locks ..) | extract_lets
    | with_reducible refine Locks.ite ?_ ?_ | with_reducible refine Locks.update ?_

theorem fastPath_locks (sd sum : Nat) (s : State) : Locks s (State.fastPath sd sum s) := by
  unfold State.fastPath
  extract_lets c x m sensed f failed
  have hsensed : Locks s sensed := .update (.refl s)
  have hfailed : Locks s failed := .ite (.update hsensed (htr := .of_same (TripState.windFail_same ..))) hsensed
  exact hfailed.trans (tripTo_locks failed (TripState.overcurrent_keepsLocks ..))

theorem resolver_locks (n : Nat) (o : ResolverStep) (s : State) : Locks s (State.resolver n o s) := by
  unfold State.resolver
  repeat' first
    | with_reducible exact .refl .. | with_reducible apply Locks.after (State.raiseAll_locks ..) | extract_lets
    | with_reducible refine Locks.update ?_

theorem encoder_locks (n : Nat) (a b z : Bool) (s : State) : Locks s (State.encoder n a b z s) := by
  unfold State.encoder
  repeat' first
    | with_reducible exact .refl .. | with_reducible apply Locks.after (State.raiseAll_locks ..) | extract_lets
    | with_reducible refine Locks.ite ?_ ?_ | with_reducible refine Locks.update ?_

theorem ssi_locks (n : Nat) (o : SsiRead) (s : State) : Locks s (State.ssi n o s) := by
  unfold State.ssi
  repeat' first
    | with_reducible exact .refl .. | with_reducible apply Locks.after (State.raiseAll_locks ..) | extract_lets
    | with_reducible refine Locks.ite ?_ ?_ | with_reducible refine Locks.update ?_

theorem latchPos_locks (m tc : Nat) (s : State) : Locks s (State.latchPos m tc s) := by
  unfold State.latchPos
  repeat' first
    | with_reducible exact .refl .. | with_reducible apply Locks.after (State.raise_locks ..) | extract_lets
    | with_reducible refine Locks.ite ?_ ?_ | with_reducible refine Locks.update ?_

theorem repairStore_locks (s : State) : Locks s (State.repairStore s) := by
  unfold State.repairStore
  repeat' first
    | with_reducible exact .refl ..
    | with_reducible apply Locks.after (raise_locks ..)
    | extract_lets | split | dsimp only | with_reducible refine Locks.ite ?_ ?_ | with_reducible refine Locks.update ?_

theorem laneStart_locks (s : State) : Locks s (State.laneStart s) := by
  unfold State.laneStart
  repeat' first
    | with_reducible exact .refl .. | with_reducible apply Locks.after (State.repairStore_locks ..)
    | with_reducible apply Locks.same (State.latchMachine_changes ..) | extract_lets | with_reducible refine Locks.ite ?_ ?_
    | with_reducible refine Locks.update ?_

theorem voteUse_locks (used : Option LaneReport) (ul : FullLane) (s : State) : Locks s (State.voteUse used ul s) := by
  unfold State.voteUse
  repeat' first
    | with_reducible exact .refl .. | with_reducible apply Locks.after (State.voteSource_locks ..)
    | with_reducible apply Locks.same (State.voteMachine_changes ..) | with_reducible apply Locks.same (State.loadShadow_changes ..)
    | extract_lets | split | with_reducible refine Locks.ite ?_ ?_ | with_reducible refine Locks.update ?_

theorem vote_locks (copies : Bool) (s : State) : Locks s (State.vote copies s) := by
  unfold State.vote
  repeat' first
    | with_reducible exact .refl .. | with_reducible apply Locks.after (State.raise_locks ..)
    | with_reducible apply Locks.after (State.raiseAll_locks ..) | with_reducible apply Locks.after (State.voteUse_locks ..)
    | with_reducible apply Locks.same (State.voteEnds_changes ..) | extract_lets | with_reducible refine Locks.ite ?_ ?_
    | with_reducible refine Locks.update ?_

theorem aspSettings_locks (n : Nat) (s : State) : Locks s (State.aspSettings n s) := by
  unfold State.aspSettings
  repeat' first
    | with_reducible exact .refl .. | with_reducible apply Locks.after (State.boundary_locks ..) | extract_lets
    | with_reducible refine Locks.update ?_

theorem aspAtBlock_locks (s : State) : Locks s (State.aspAtBlock s) := by
  unfold State.aspAtBlock
  repeat' first
    | with_reducible exact .refl .. | with_reducible assumption | with_reducible apply Locks.after (State.aspSettings_locks ..) | extract_lets
    | with_reducible refine Locks.ite ?_ ?_ | with_reducible refine Locks.foldl ?_ (fun _ _ _ => ?_) | with_reducible refine Locks.update ?_

theorem hearthSettings_locks (s : State) : Locks s (State.hearthSettings s).1 := by
  unfold State.hearthSettings
  repeat' first
    | with_reducible exact .refl .. | with_reducible apply Locks.after (State.boundary_locks ..)
    | with_reducible apply Locks.same (State.chimePlays_changes ..) | with_reducible apply Locks.same (State.chimeChange_changes ..)
    | with_reducible apply Locks.same (State.micSettings_changes ..) | with_reducible apply Locks.same (State.identTable_changes ..)
    | with_reducible apply Locks.after (State.aspAtBlock_locks ..)

theorem sensorFaults_locks (s : State) : Locks s (State.sensorFaults s) := by
  unfold State.sensorFaults
  repeat' first
    | with_reducible exact .refl .. | with_reducible apply Locks.after (State.raiseAll_locks ..) | extract_lets
    | with_reducible refine Locks.ite ?_ ?_ | with_reducible refine Locks.update ?_

theorem updateStart_locks (s : State) : Locks s (State.updateStart s) := by
  unfold State.updateStart
  repeat' first
    | with_reducible exact .refl ..
    | with_reducible apply Locks.after (laneStart_locks ..)
    | with_reducible apply Locks.same (completeFor_changes ..)
    | extract_lets | split

theorem hearthStep_locks (mics : List (List Int)) (blocks : List SensorBlock) (s : State) : Locks s (State.hearthStep mics blocks s) := by
  unfold State.hearthStep
  repeat' first
    | with_reducible exact .refl .. | with_reducible apply Locks.after (State.hearthSettings_locks ..)
    | with_reducible apply Locks.same (State.cancellers_changes ..) | with_reducible apply Locks.same (State.orderMonitors_changes ..)
    | with_reducible apply Locks.after (State.sensorFaults_locks ..) | with_reducible apply Locks.same (State.tapBoundary_changes ..)
    | with_reducible apply Locks.same (State.blockJob_changes ..) | with_reducible apply Locks.same (State.blockParts_changes ..)
    | with_reducible apply Locks.same (State.blockProcess_changes ..) | with_reducible apply Locks.same (State.streamBoundary_changes ..)
    | with_reducible apply Locks.same (State.meanCurrents_changes ..) | extract_lets | with_reducible refine Locks.update ?_

theorem hearthBoundary_locks (pdm : List (List Bool)) (s : State) : Locks s (State.hearthBoundary pdm s) := by
  unfold State.hearthBoundary
  repeat' first
    | with_reducible exact .refl .. | with_reducible apply Locks.same (State.identTable_changes ..)
    | with_reducible apply Locks.same (State.sensorBoundary_changes ..) | with_reducible apply Locks.after (State.sensorFaults_locks ..)
    | with_reducible apply Locks.same (State.tapBoundary_changes ..) | with_reducible apply Locks.after (State.hearthStep_locks ..)
    | extract_lets | with_reducible refine Locks.ite ?_ ?_ | with_reducible refine Locks.update ?_

theorem aspFrame_locks (n : Nat) (cycles : List BitCycle) (s : State) : Locks s (State.aspFrame n cycles s) := by
  unfold State.aspFrame
  repeat' first
    | with_reducible exact .refl ..
    | with_reducible apply Locks.same (aspSend_changes ..)
    | with_reducible apply Locks.same (aspLeadOut_changes ..)
    | with_reducible apply Locks.after (aspSettings_locks ..)
    | with_reducible apply Locks.same (setPort_changes ..)
    | extract_lets | split

theorem discharge_locks (host crust : Bool) (s : State) : Locks s (State.discharge host crust s) :=
  .ite (.refl s) (.update (.refl s) (htr := .of_same (TripState.disDemand_same ..)))

theorem fltLevel_locks (n : Nat) (level : Bool) (s : State) : Locks s (State.fltLevel n level s) :=
  .ite (tripTo_locks s (TripState.fltInput_keepsLocks ..)) (.update (.refl s) (htr := .of_g rfl))

theorem fltApply_locks (s : State) : Locks s (State.fltApply s) :=
  tripTo_locks s ((TripState.fltSources_keepsLocks ..).trans (TripState.inhibits_keepsLocks ..))

theorem ridgeApply_locks (s : State) : Locks s (State.ridgeApply s) := tripTo_locks s (TripState.ridgeSource_keepsLocks ..)

theorem patternDelayEnd_locks (m : Nat) (s : State) : Locks s (State.patternDelayEnd m s) :=
  .update (.refl s) (htr := TripState.delayEnd_keepsLocks ..)

theorem tripClear_locks (mask : Nat) (s : State) : Locks s (State.tripClear mask s).1 := .update (.refl s) (htr := TripState.clear_keepsLocks ..)

theorem gdlSource_locks (link : Nat) (s : State) : Locks s (State.gdlSource link s) := tripTo_locks s (TripState.source_keepsLocks ..)

theorem setLink_locks (link : Nat) (x : GdlLink) (s : State) : Locks s (State.setLink link x s) := .update (.refl s) (htr := .of_g rfl)

theorem linkDone_locks (link : Nat) (rx : List Nat) (s : State) : Locks s (State.linkDone link rx s) := by
  unfold State.linkDone
  extract_lets r sourced tr worded
  have hsourced : Locks s sourced := .after (gdlSource_locks ..) (setLink_locks ..)
  have hworded : Locks s worded := by
    unfold worded
    split
    · exact hsourced.update (htr := .of_g rfl)
    · exact hsourced
  exact .ite (.after (raise_locks ..) hworded) hworded

theorem linkRequest_locks (link k : Nat) (s : State) : Locks s (State.linkRequest link k s) := setLink_locks ..

theorem linkRerun_locks (link : Nat) (s : State) : Locks s (State.linkRerun link s) := by
  unfold State.linkRerun
  repeat' first
    | with_reducible exact .refl .. | with_reducible apply Locks.after (State.gdlSource_locks ..)
    | with_reducible apply Locks.after (State.setLink_locks ..)

theorem linkSetup_locks (s : State) : Locks s (State.linkSetup s) := (setLink_locks ..).trans (setLink_locks ..)

theorem toBoot_locks (from_ cause : Nat) (s : State) : Locks s (State.toBoot from_ cause s) := ⟨.refl _, fun h => by cases h⟩

theorem nrstRise_locks (aon : Nat) (s : State) : Locks s (State.nrstRise aon s) := by
  unfold State.nrstRise
  repeat' first
    | with_reducible exact .refl .. | with_reducible apply Locks.after (State.toBoot_locks ..) | extract_lets
    | with_reducible refine Locks.ite ?_ ?_ | with_reducible refine Locks.update ?_

theorem checkStarter_locks (s : State) : Locks s (State.checkStarter s) := by
  unfold State.checkStarter
  repeat' first
    | with_reducible exact .refl .. | with_reducible assumption | with_reducible apply Locks.after (State.raise_locks ..) | extract_lets
    | with_reducible refine Locks.ite ?_ ?_ | with_reducible refine Locks.foldl ?_ (fun _ _ _ => ?_) | with_reducible refine Locks.update ?_

theorem verificationDone_locks (eccA eccB : Bool) (s : State) : Locks s (State.verificationDone eccA eccB s) := by
  unfold State.verificationDone
  repeat' first
    | with_reducible exact .refl .. | with_reducible apply Locks.same (State.loadPersisted_changes ..)
    | with_reducible apply Locks.after (State.checkStarter_locks ..) | with_reducible apply Locks.same (State.bootThermal_changes ..)
    | with_reducible apply Locks.same (State.startAdmitted_changes ..) | extract_lets | with_reducible refine Locks.ite ?_ ?_
    | with_reducible refine Locks.update ?_

theorem startRounds_locks (s : State) : Locks s (State.startRounds s) := by
  unfold State.startRounds
  repeat' first
    | with_reducible exact .refl .. | with_reducible apply Locks.after (State.fltApply_locks ..)
    | with_reducible apply Locks.after (State.boundary_locks ..) | with_reducible apply Locks.same (State.positionApply_changes ..)
    | extract_lets | with_reducible refine Locks.update ?_

/-- Straight from BOOT every group is locked as at any other entry (R300). -/
theorem bootBedrock_locks (word : Nat) (s : State) : Locks s (State.bootBedrock word s) := by
  unfold State.bootBedrock
  extract_lets gone recorded
  have hgone : (s.bedrockStops false).trip.KeepsLocks gone.trip := goState_keepsLocks ..
  have hlate : Locks recorded ((recorded.retainBedrock word).logEvent 3 (toBytes 2 word ++ [1])).startRounds.startTimebase :=
    .same (startTimebase_changes _) (.after (startRounds_locks _) (.same (logEvent_changes ..) (.same (retainBedrock_changes ..) (.refl recorded))))
  have hkept := hgone.trans hlate.trip
  exact ⟨(bedrockStops_locks false s).trip.trans hkept, fun _ => .inr (hkept.all (bedrockStops_trip false s))⟩

theorem enterProofing_locks (s : State) : Locks s (State.enterProofing s) := by
  unfold State.enterProofing
  repeat' first
    | with_reducible exact .refl .. | with_reducible apply Locks.after (State.goState_locks ..)
    | with_reducible apply Locks.after (State.raise_locks ..) | with_reducible apply Locks.after (State.startRounds_locks ..) | extract_lets
    | with_reducible refine Locks.ite ?_ ?_ | with_reducible refine Locks.update ?_

theorem leaveBoot_locks (s : State) : Locks s (State.leaveBoot s) := by
  unfold State.leaveBoot
  repeat' first
    | with_reducible exact .refl .. | with_reducible apply Locks.same (State.logEvent_changes ..)
    | with_reducible apply Locks.after (State.bootBedrock_locks ..) | with_reducible apply Locks.after (State.enterProofing_locks ..)
    | extract_lets | with_reducible refine Locks.ite ?_ ?_ | with_reducible refine Locks.update ?_

theorem lossOfMark_locks (s : State) : Locks s (State.lossOfMark s) := by
  unfold State.lossOfMark
  repeat' first
    | with_reducible exact .refl .. | with_reducible apply Locks.after (State.raise_locks ..)
    | with_reducible apply Locks.same (State.succeed_changes ..) | extract_lets | with_reducible refine Locks.ite ?_ ?_
    | with_reducible refine Locks.update ?_

theorem linkLoss_locks (upper : Bool) (s : State) : Locks s (State.linkLoss upper s) := by
  unfold State.linkLoss
  repeat' first
    | with_reducible exact .refl .. | with_reducible apply Locks.same (State.logEvent_changes ..)
    | with_reducible apply Locks.after (State.ridgeApply_locks ..) | with_reducible apply Locks.same (State.twinLinks_changes ..)
    | with_reducible apply Locks.same (State.succeed_changes ..) | extract_lets | with_reducible refine Locks.ite ?_ ?_
    | with_reducible refine Locks.update ?_

theorem linkUp_locks (upper : Bool) (s : State) : Locks s (State.linkUp upper s) := by
  unfold State.linkUp
  repeat' first
    | with_reducible exact .refl .. | with_reducible apply Locks.after (State.ridgeApply_locks ..)
    | with_reducible apply Locks.same (State.twinLinks_changes ..) | extract_lets | with_reducible refine Locks.ite ?_ ?_
    | with_reducible refine Locks.update ?_

theorem ridgeTrip_locks (upper on : Bool) (s : State) : Locks s (State.ridgeTrip upper on s) := by
  unfold State.ridgeTrip
  repeat' first
    | with_reducible exact .refl .. | with_reducible apply Locks.after (State.ridgeApply_locks ..) | extract_lets
    | with_reducible refine Locks.ite ?_ ?_ | with_reducible refine Locks.update ?_

theorem splitRecord_locks (m : Nat) (r : SplitRecord) (s : State) : Locks s (State.splitRecord m r s) := by
  unfold State.splitRecord
  repeat' first
    | with_reducible exact .refl .. | with_reducible apply Locks.after (State.twinRecord_locks ..) | extract_lets
    | with_reducible refine Locks.ite ?_ ?_ | with_reducible refine Locks.update ?_

theorem crustFault_locks (kind : CrustFaultKind) (s : State) : Locks s (State.crustFault kind s) := by
  unfold State.crustFault
  repeat' first
    | with_reducible exact .refl .. | with_reducible apply Locks.after (State.enterBedrock_locks ..) | extract_lets | split
    | with_reducible refine Locks.update ?_

theorem crustSettings_locks (s : State) : Locks s (State.crustSettings s) := by
  unfold State.crustSettings
  repeat' first
    | with_reducible exact .refl .. | with_reducible apply Locks.after (State.boundary_locks ..) | extract_lets
    | with_reducible refine Locks.ite ?_ ?_ | with_reducible refine Locks.update ?_

theorem crustSource_locks (trip inhibit : Nat) (s : State) : Locks s (State.crustSource trip inhibit s) :=
  tripTo_locks s (.foldl (fun t k => TripState.source_keepsLocks s.now k srcCrust _ _ t) _ s.trip)

theorem crustTrips_locks (s : State) : Locks s (State.crustTrips s) :=
  .update (.refl s) (htr := (TripState.KeepsLocks.foldl (fun t m => TripState.patternCycle_keepsLocks s.cfg m _ _ t) _ s.trip).trans
    (.of_same ((TripState.windCheck_same ..).trans (TripState.disBelow_same ..))))

theorem crustCycle_locks (s : State) : Locks s (State.crustCycle s) := by
  unfold State.crustCycle
  repeat' first
    | with_reducible exact .refl .. | with_reducible apply Locks.after (State.enterBedrock_locks ..)
    | with_reducible apply Locks.after (State.raise_locks ..) | with_reducible apply Locks.after (State.raiseAll_locks ..)
    | with_reducible apply Locks.after (State.repairStore_locks ..) | with_reducible apply Locks.after (State.discharge_locks ..)
    | with_reducible apply Locks.after (State.crustFault_locks ..) | with_reducible apply Locks.after (State.crustSettings_locks ..)
    | with_reducible apply Locks.after (State.crustSource_locks ..) | with_reducible apply Locks.after (State.crustTrips_locks ..)
    | extract_lets | with_reducible refine Locks.ite ?_ ?_ | with_reducible refine Locks.update ?_

theorem laneWatchdog_locks (s : State) : Locks s (State.laneWatchdog s) := by
  unfold State.laneWatchdog
  repeat' first
    | with_reducible exact .refl .. | with_reducible apply Locks.after (State.enterBedrock_locks ..)
    | with_reducible apply Locks.after (State.crustSource_locks ..) | extract_lets | with_reducible refine Locks.ite ?_ ?_
    | with_reducible refine Locks.update ?_

theorem hearthWatchdog_locks (s : State) : Locks s (State.hearthWatchdog s) :=
  .ite (.refl s) (.after (raise_locks ..) (.update (.refl s)))

theorem offPulseEnd_locks (s : State) : Locks s (State.offPulseEnd s) := by
  unfold State.offPulseEnd
  repeat' first
    | with_reducible exact .refl .. | with_reducible apply Locks.after (State.raise_locks ..) | extract_lets
    | with_reducible refine Locks.ite ?_ ?_ | with_reducible refine Locks.update ?_

theorem lockstep_locks (s : State) : Locks s (State.lockstep s) := .after (raise_locks ..) (.update (.refl s))

theorem refLoss_locks (deviation : Int) (s : State) : Locks s (State.refLoss deviation s) := by
  unfold State.refLoss
  repeat' first
    | with_reducible exact .refl .. | with_reducible apply Locks.after (State.enterBedrock_locks ..)
    | with_reducible apply Locks.after (State.raise_locks ..) | extract_lets | with_reducible refine Locks.ite ?_ ?_
    | with_reducible refine Locks.update ?_

theorem slewDone_locks (s : State) : Locks s (State.slewDone s) := by
  unfold State.slewDone
  repeat' first
    | with_reducible exact .refl .. | with_reducible apply Locks.after (State.raise_locks ..) | extract_lets
    | with_reducible refine Locks.ite ?_ ?_ | with_reducible refine Locks.update ?_

theorem voteInstant_locks (m : Nat) (loaded had : Bool) (s : State) : Locks s (State.voteInstant m loaded had s) := by
  unfold State.voteInstant
  repeat' first
    | with_reducible exact .refl ..
    | with_reducible apply Locks.after (voteSource_locks ..)
    | extract_lets | split

theorem dropHeld_locks (loaded : Bool) (s : State) : Locks s (State.dropHeld loaded s) := by
  unfold State.dropHeld
  repeat' first
    | with_reducible exact .refl ..
    | with_reducible apply Locks.after (voteInstant_locks ..)
    | extract_lets | split | dsimp only | with_reducible refine Locks.ite ?_ ?_ | with_reducible refine Locks.update ?_

theorem periodMismatch_locks (marked : Option Nat) (own : Nat) (s : State) : Locks s (State.periodMismatch marked own s) := by
  unfold State.periodMismatch
  repeat' first
    | with_reducible exact .refl ..
    | with_reducible apply Locks.after (voteSource_locks ..)
    | extract_lets | split | dsimp only | with_reducible refine Locks.ite ?_ ?_ | with_reducible refine Locks.update ?_

theorem modulate_locks (old : Store) (keys : List Nat) (marked : Option Nat) (m1 nextM1 : Bool) (s : State) : Locks s (State.modulate old keys marked m1 nextM1 s) := by
  unfold State.modulate
  repeat' first
    | with_reducible exact .refl ..
    | with_reducible apply Locks.after (voteInstant_locks ..)
    | with_reducible apply Locks.after (periodMismatch_locks ..)
    | with_reducible apply Locks.after (dropHeld_locks ..)
    | extract_lets | split | dsimp only | with_reducible refine Locks.ite ?_ ?_ | with_reducible refine Locks.update ?_

theorem deviceSettings_locks (old : Store) (a : Applied) (s : State) : Locks s (State.deviceSettings old a s) := by
  unfold State.deviceSettings
  repeat' first
    | with_reducible exact .refl .. | with_reducible apply Locks.after (State.discharge_locks ..)
    | with_reducible apply Locks.same (State.clockSettings_changes ..)
    | with_reducible apply Locks.after (State.fltApply_locks ..) | with_reducible apply Locks.after (State.ridgeApply_locks ..)
    | with_reducible apply Locks.same (State.positionApply_changes ..) | with_reducible apply Locks.same (State.chainSettings_changes ..)
    | with_reducible apply Locks.same (State.starterApply_changes ..) | with_reducible apply Locks.same (State.recipeSettings_changes ..)
    | extract_lets | with_reducible refine Locks.ite ?_ ?_ | with_reducible refine Locks.update ?_

theorem windTrough_locks (m : Nat) (s : State) : Locks s (State.windTrough m s) :=
  .update (.refl s) (htr := .of_same (TripState.SameTrips.ite (TripState.windStep_same ..) (.refl _)))

theorem tripTrough_locks (m1 : Bool) (s : State) : Locks s (State.tripTrough m1 s) := by
  unfold State.tripTrough
  extract_lets t s0 s1
  have h0 : Locks s s0 := .after (windTrough_locks ..) (.update (.refl s) (htr := (TripState.countQuiet_keepsLocks _).trans (TripState.trough_keepsLocks ..)))
  have h1 : Locks s s1 := .ite (.after (windTrough_locks ..) h0) h0
  exact .ite (h1.update (htr := .of_g rfl)) h1

theorem voteDue_locks (trough : Bool) (s : State) : Locks s (State.voteDue trough s) := by
  unfold State.voteDue
  repeat' first
    | with_reducible exact .refl .. | with_reducible apply Locks.after (State.enterBedrock_locks ..)
    | with_reducible apply Locks.after (State.voteSource_locks ..) | extract_lets | with_reducible refine Locks.ite ?_ ?_
    | with_reducible refine Locks.update ?_

theorem centre_locks (m : Nat) (s : State) : Locks s (State.centre m s) := by
  unfold State.centre
  repeat' first
    | with_reducible exact .refl .. | with_reducible apply Locks.after (State.latchPos_locks ..) | extract_lets
    | with_reducible refine Locks.ite ?_ ?_ | with_reducible refine Locks.update ?_

theorem enterRun_locks (s : State) : Locks s (State.enterRun s) := by
  unfold State.enterRun
  repeat' first
    | with_reducible exact .refl .. | with_reducible apply Locks.after (State.goState_locks ..)
    | with_reducible apply Locks.same (State.twinsRun_changes ..) | extract_lets | with_reducible refine Locks.update ?_

theorem leaveRun_locks (s : State) : Locks s (State.leaveRun s) := by
  unfold State.leaveRun
  repeat' first
    | with_reducible exact .refl .. | with_reducible apply Locks.after (State.goState_locks ..)
    | with_reducible apply Locks.same (State.modeOff_changes ..) | extract_lets
    | with_reducible refine Locks.update ?_

theorem enterService_locks (session : Nat) (s : State) : Locks s (State.enterService session s) := by
  unfold State.enterService
  repeat' first
    | with_reducible exact .refl .. | with_reducible apply Locks.after (State.goState_locks ..) | extract_lets
    | with_reducible refine Locks.ite ?_ ?_ | with_reducible refine Locks.update ?_

theorem enterStandby_locks (s : State) : Locks s (State.enterStandby s) := by
  unfold State.enterStandby
  repeat' first
    | with_reducible exact .refl .. | with_reducible apply Locks.same (State.closeSessions_changes ..)
    | with_reducible apply Locks.after (State.goState_locks ..) | extract_lets | with_reducible refine Locks.update ?_

theorem requestTrough_locks (held : Bool) (s : State) : Locks s (State.requestTrough held s) := by
  unfold State.requestTrough
  repeat' first
    | with_reducible exact .refl .. | with_reducible apply Locks.after (State.goState_locks ..)
    | with_reducible apply Locks.same (State.summitAlone_changes ..) | with_reducible apply Locks.after (State.enterRun_locks ..)
    | with_reducible apply Locks.after (State.leaveRun_locks ..) | with_reducible apply Locks.after (State.enterService_locks ..)
    | with_reducible apply Locks.after (State.enterStandby_locks ..) | extract_lets | split | with_reducible refine Locks.ite ?_ ?_
    | with_reducible refine Locks.update ?_

theorem troughBoundary_locks (m1 : Bool) (s : State) : Locks s (State.troughBoundary m1 s).1 := by
  unfold State.troughBoundary
  repeat' first
    | with_reducible exact .refl .. | with_reducible apply Locks.after (State.boundary_locks ..) | split

theorem troughSettings_locks (old : Store) (a : Applied) (m1 : Bool) (s : State) : Locks s (State.troughSettings old a m1 s) := by
  unfold State.troughSettings
  repeat' first
    | with_reducible exact .refl .. | with_reducible apply Locks.same (State.zeroModes_changes ..) | with_reducible apply Locks.same (State.machineSettings_changes ..)
    | with_reducible apply Locks.after (State.deviceSettings_locks ..) | extract_lets | with_reducible refine Locks.ite ?_ ?_

theorem troughBody_locks (edges : Nat) (m1 : Bool) (s : State) : Locks s (State.troughBody edges m1 s) := by
  unfold State.troughBody
  repeat' first
    | with_reducible exact .refl .. | with_reducible apply Locks.same (State.chainTrough_changes ..)
    | with_reducible apply Locks.same (State.engineTrough_changes ..)
    | with_reducible apply Locks.same (State.testTrough_changes ..) | with_reducible apply Locks.same (State.captureTrough_changes ..)
    | with_reducible apply Locks.same (State.captureInstant_changes ..) | with_reducible apply Locks.after (State.tripTrough_locks ..)
    | with_reducible apply Locks.after (State.voteDue_locks ..) | with_reducible apply Locks.same (State.lanesTrough_changes ..)
    | with_reducible apply Locks.after (State.centre_locks ..) | extract_lets | with_reducible refine Locks.ite ?_ ?_
    | with_reducible refine Locks.update ?_

theorem m0Trough_locks (edges : Nat) (s : State) : Locks s (State.m0Trough edges s) := by
  unfold State.m0Trough
  repeat' first
    | with_reducible exact .refl .. | with_reducible apply Locks.after (State.repairStore_locks ..)
    | with_reducible apply Locks.same (State.sendImages_changes ..) | with_reducible apply Locks.after (State.modulate_locks ..)
    | with_reducible apply Locks.after (State.requestTrough_locks ..) | with_reducible apply Locks.same (State.beginFrame_changes ..)
    | with_reducible apply Locks.after (State.troughBoundary_locks ..) | with_reducible apply Locks.after (State.troughSettings_locks ..)
    | with_reducible apply Locks.after (State.troughBody_locks ..) | extract_lets | with_reducible refine Locks.ite ?_ ?_

theorem crest_locks (m : Nat) (s : State) : Locks s (State.crest m s) := by
  unfold State.crest
  repeat' first
    | with_reducible exact .refl .. | with_reducible apply Locks.same (State.captureInstant_changes ..)
    | with_reducible apply Locks.same (State.setCtl_changes ..) | with_reducible apply Locks.after (State.voteDue_locks ..)
    | with_reducible apply Locks.after (State.voteInstant_locks ..) | with_reducible apply Locks.after (State.dropHeld_locks ..)
    | with_reducible apply Locks.after (State.centre_locks ..) | extract_lets | with_reducible refine Locks.ite ?_ ?_
    | with_reducible refine Locks.update ?_

theorem loadStep_locks (s : State) : Locks s (State.loadStep s) := by
  unfold State.loadStep
  repeat' first
    | with_reducible exact .refl .. | with_reducible apply Locks.after (State.raiseAll_locks ..) | extract_lets
    | with_reducible refine Locks.update ?_

theorem backupLost_locks (s : State) : Locks s (State.backupLost s) := by
  unfold State.backupLost
  repeat' first
    | with_reducible exact .refl .. | with_reducible apply Locks.after (State.enterBedrock_locks ..) | extract_lets | split

theorem hardLimit_locks (s : State) : Locks s (State.hardLimit s) := by
  unfold State.hardLimit
  repeat' first
    | with_reducible exact .refl .. | with_reducible apply Locks.after (State.hardStates_locks ..)
    | with_reducible apply Locks.after (State.thermalStop_locks ..) | with_reducible apply Locks.same (State.hardenStop_changes ..)
    | extract_lets | with_reducible refine Locks.ite ?_ ?_ | with_reducible refine Locks.update ?_

theorem hkRound_locks (s : State) : Locks s (State.hkRound s) := by
  unfold State.hkRound
  repeat' first
    | with_reducible exact .refl .. | with_reducible apply Locks.after (State.raiseAll_locks ..)
    | with_reducible apply Locks.after (State.repairStore_locks ..) | with_reducible apply Locks.after (State.boundary_locks ..)
    | with_reducible apply Locks.after (State.loadStep_locks ..) | with_reducible apply Locks.after (State.backupLost_locks ..)
    | with_reducible apply Locks.same (State.hkRecords_changes ..) | with_reducible apply Locks.after (State.hardLimit_locks ..)
    | extract_lets | with_reducible refine Locks.ite ?_ ?_ | with_reducible refine Locks.update ?_

theorem thermalEntry_locks (s : State) : Locks s (State.thermalEntry s) := by
  unfold State.thermalEntry
  repeat' first
    | with_reducible exact .refl .. | with_reducible apply Locks.after (State.thermalStop_locks ..) | with_reducible refine Locks.ite ?_ ?_

theorem thermalExit_locks (s : State) : Locks s (State.thermalExit s) := by
  unfold State.thermalExit
  repeat' first
    | with_reducible exact .refl .. | with_reducible apply Locks.after (State.thermalRelease_locks ..) | with_reducible refine Locks.ite ?_ ?_

theorem act_locks (k key raw : Nat) (s : State) : Locks s (State.act k key raw s).1 := by
  unfold State.act
  repeat' first
    | with_reducible exact .refl .. | with_reducible apply Locks.same (State.swapRequest_changes ..)
    | with_reducible apply Locks.same (State.laneTest_changes ..) | with_reducible apply Locks.same (State.voteTestRequest_changes ..)
    | with_reducible apply Locks.after (State.tripClear_locks ..) | with_reducible apply Locks.after (State.linkRequest_locks ..)
    | with_reducible apply Locks.after (State.linkRerun_locks ..) | with_reducible apply Locks.same (State.acceptAction_changes ..)
    | with_reducible apply Locks.same (State.chimeWrite_changes ..) | with_reducible apply Locks.same (State.swapTwins_changes ..)
    | with_reducible apply Locks.same (State.updateAction_changes ..) | with_reducible apply Locks.same (State.identRequest_changes ..)
    | with_reducible apply Locks.same (State.adopt_changes ..) | with_reducible apply Locks.same (State.soffTest_changes ..)
    | with_reducible apply Locks.same (State.tapRequest_changes ..) | with_reducible apply Locks.same (State.testStart_changes ..)
    | with_reducible apply Locks.same (State.testStop_changes ..) | with_reducible apply Locks.same (State.captureWrite_changes ..)
    | with_reducible apply Locks.same (State.requestState_changes ..) | with_reducible apply Locks.same (State.discardSets_changes ..)
    | extract_lets | split | dsimp only | with_reducible refine Locks.ite ?_ ?_ | with_reducible refine Locks.update ?_

theorem writeValue_locks (k key : Nat) (data : List Byte) (s : State) : Locks s (State.writeValue k key data s).1 := by
  unfold State.writeValue
  repeat' first
    | with_reducible exact .refl .. | with_reducible apply Locks.same (State.putActive_changes ..)
    | with_reducible apply Locks.same (State.moveToken_changes ..) | with_reducible apply Locks.same (State.acceptWrite_changes ..)
    | with_reducible apply Locks.same (State.stage_changes ..) | with_reducible apply Locks.same (State.starterStaged_changes ..)
    | with_reducible apply Locks.same (State.setSession_changes ..) | with_reducible apply Locks.same (State.dropTransfer_changes ..)
    | with_reducible apply Locks.same (State.acceptAction_changes ..) | with_reducible apply Locks.after (State.act_locks ..)
    | with_reducible apply Locks.same (State.storeBlob_changes ..) | with_reducible apply Locks.same (State.imageOpen_changes ..)
    | extract_lets | split | dsimp only | with_reducible refine Locks.ite ?_ ?_ | with_reducible refine Locks.update ?_

theorem hostWrite_locks (k key : Nat) (data : List Byte) (s : State) : Locks s (State.hostWrite k key data s) := by
  unfold State.hostWrite
  repeat' first
    | with_reducible exact .refl .. | with_reducible apply Locks.same (State.answer_changes ..)
    | with_reducible apply Locks.after (State.writeValue_locks ..) | with_reducible apply Locks.same (State.noteRefusal_changes ..)
    | with_reducible apply Locks.same (State.fresh_changes ..) | with_reducible apply Locks.same (State.startCommit_changes ..) | extract_lets
    | split

theorem commitDecided_locks (s : State) : Locks s (State.commitDecided s) := by
  unfold State.commitDecided
  repeat' first
    | with_reducible exact .refl .. | with_reducible apply Locks.same (State.commitEnd_changes ..)
    | with_reducible apply Locks.same (State.answer_changes ..) | with_reducible apply Locks.same (State.fresh_changes ..) | extract_lets
    | split | with_reducible refine Locks.ite ?_ ?_ | with_reducible refine Locks.update ?_

theorem segmentWrite_locks (k key offset : Nat) (last : Bool) (data : List Byte) (bad : Option Abort) (s : State) : Locks s (State.segmentWrite k key offset last data bad s) := by
  unfold State.segmentWrite
  repeat' first
    | with_reducible exact .refl .. | with_reducible apply Locks.same (State.answer_changes ..)
    | with_reducible apply Locks.same (State.dropTransfer_changes ..) | with_reducible apply Locks.same (State.segment_changes ..)
    | extract_lets | split

theorem hostWriteSeg_locks (k key offset : Nat) (last : Bool) (data : List Byte) (s : State) : Locks s (State.hostWriteSeg k key offset last data s) := by
  unfold State.hostWriteSeg
  repeat' first
    | with_reducible exact .refl .. | with_reducible apply Locks.same (State.fresh_changes ..)
    | with_reducible apply Locks.after (State.segmentWrite_locks ..) | extract_lets | split

theorem hostRead_locks (k key : Nat) (s : State) : Locks s (State.hostRead k key s) := by
  unfold State.hostRead
  repeat' first
    | with_reducible exact .refl .. | with_reducible apply Locks.same (State.answer_changes ..)
    | with_reducible apply Locks.same (State.fresh_changes ..) | extract_lets | split

theorem segmentRead_locks (k key offset maxLen : Nat) (view : Bool) (bad : Option Abort) (s : State) : Locks s (State.segmentRead k key offset maxLen view bad s) := by
  unfold State.segmentRead
  repeat' first
    | with_reducible exact .refl .. | with_reducible apply Locks.same (State.answer_changes ..)
    | with_reducible apply Locks.same (State.readSegment_changes ..) | extract_lets | split

theorem hostReadSeg_locks (k key offset maxLen : Nat) (s : State) : Locks s (State.hostReadSeg k key offset maxLen s) := by
  unfold State.hostReadSeg
  repeat' first
    | with_reducible exact .refl .. | with_reducible apply Locks.same (State.fresh_changes ..)
    | with_reducible apply Locks.after (State.segmentRead_locks ..) | extract_lets | split

theorem hostAction_locks (k idx sub : Nat) (data : List Byte) (p : Nat → Bool) (s : State) : Locks s (State.hostAction k idx sub data p s) := by
  unfold State.hostAction
  repeat' first
    | with_reducible exact .refl .. | with_reducible apply Locks.after (State.hostWrite_locks ..) | with_reducible refine Locks.ite ?_ ?_

theorem hostKeySlot_locks (k slot : Nat) (data : List Byte) (s : State) : Locks s (State.hostKeySlot k slot data s) := by
  unfold State.hostKeySlot
  repeat' first
    | with_reducible exact .refl .. | with_reducible apply Locks.after (State.hostWrite_locks ..)
    | with_reducible apply Locks.after (State.hostWriteSeg_locks ..) | extract_lets | split

theorem networkRestored_locks (s : State) : Locks s (State.networkRestored s) := .ite (raise_locks ..) (.refl s)

theorem deliver_locks (n port : Nat) (s : State) : Locks s (State.deliver n port s) := by
  unfold State.deliver
  repeat' first
    | with_reducible exact .refl .. | with_reducible assumption | with_reducible apply Locks.after (State.networkRestored_locks ..)
    | extract_lets | with_reducible refine Locks.ite ?_ ?_ | with_reducible refine Locks.foldl ?_ (fun _ _ _ => ?_)
    | with_reducible refine Locks.update ?_

theorem applyImage_locks (k n level : Nat) (l : List (Nat × List Byte)) (s : State) : Locks s (State.applyImage k n level l s) := by
  unfold State.applyImage
  repeat' first
    | with_reducible exact .refl .. | with_reducible assumption | with_reducible apply Locks.after (State.applyPart_locks ..)
    | with_reducible apply Locks.after (State.writeValue_locks ..) | with_reducible apply Locks.same (State.setImage_changes ..)
    | extract_lets | with_reducible refine Locks.foldl ?_ (fun _ _ _ => ?_) | with_reducible refine Locks.update ?_

theorem imageCome_locks (k n seq port : Nat) (data : List Byte) (s : State) : Locks s (State.imageCome k n seq port data s) := by
  unfold State.imageCome
  repeat' first
    | with_reducible exact .refl .. | with_reducible apply Locks.same (State.setSession_changes ..)
    | with_reducible apply Locks.after (State.deliver_locks ..) | with_reducible apply Locks.same (State.setImage_changes ..)
    | with_reducible apply Locks.after (State.applyImage_locks ..) | extract_lets | split

theorem imageLate_locks (n : Nat) (s : State) : Locks s (State.imageLate n s) := by
  unfold State.imageLate
  repeat' first
    | with_reducible exact .refl .. | with_reducible assumption | with_reducible apply Locks.after (State.raise_locks ..)
    | with_reducible apply Locks.same (State.setImage_changes ..) | with_reducible apply Locks.same (State.timeoutReaction_changes ..)
    | extract_lets | with_reducible refine Locks.ite ?_ ?_ | with_reducible refine Locks.foldl ?_ (fun _ _ _ => ?_)

theorem duplicateFrame_locks (f : RxFrame) (iface : Nat) (s : State) : Locks s (State.duplicateFrame f iface s) := by
  unfold State.duplicateFrame
  repeat' first
    | with_reducible exact .refl .. | with_reducible apply Locks.after (State.deliver_locks ..) | extract_lets | split
    | with_reducible refine Locks.ite ?_ ?_ | with_reducible refine Locks.update ?_

theorem enqueue_locks (k : Nat) (f : RxFrame) (seq : Nat) (p : Packet) (s : State) : Locks s (State.enqueue k f seq p s) := by
  unfold State.enqueue
  repeat' first
    | with_reducible exact .refl .. | with_reducible assumption | with_reducible apply Locks.same (State.setSession_changes ..)
    | with_reducible apply Locks.same (State.noteAbort_changes ..) | with_reducible apply Locks.same (State.settleAll_changes ..)
    | extract_lets | split | with_reducible refine Locks.ite ?_ ?_ | with_reducible refine Locks.foldl ?_ (fun _ _ _ => ?_)

theorem checkFrame_locks (k : Nat) (x : Session) (f : RxFrame) (p : Packet) (s : State) : Locks s (State.checkFrame k x f p s) := by
  unfold State.checkFrame
  repeat' first
    | with_reducible exact .refl .. | with_reducible apply Locks.same (State.frameAbort_changes ..)
    | with_reducible apply Locks.after (State.duplicateFrame_locks ..) | with_reducible apply Locks.after (State.enqueue_locks ..)
    | extract_lets | with_reducible refine Locks.ite ?_ ?_ | with_reducible refine Locks.update ?_

theorem parsedFrame_locks (f : RxFrame) (p : Packet) (s : State) : Locks s (State.parsedFrame f p s) := by
  unfold State.parsedFrame
  dsimp only
  refine .ite (.update (.refl s)) ?_
  split
  · exact checkFrame_locks ..
  · exact .same (strangeFrame_changes ..) (.refl s)

theorem takeYoap_locks (p : Packet) (bytes : List Byte) (s : State) : Locks s (State.takeYoap p bytes s) := by
  unfold State.takeYoap
  repeat' first
    | with_reducible exact .refl ..
    | with_reducible apply Locks.after (parsedFrame_locks ..)
    | extract_lets | split | dsimp only | with_reducible refine Locks.ite ?_ ?_ | with_reducible refine Locks.update ?_

theorem yoapFrame_locks (p : Packet) (bytes : List Byte) (s : State) : Locks s (State.yoapFrame p bytes s) := by
  unfold State.yoapFrame
  repeat' first
    | with_reducible exact .refl ..
    | with_reducible apply Locks.same (fresh_changes ..)
    | with_reducible apply Locks.same (notSupported_changes ..)
    | with_reducible apply Locks.same (counted_changes ..)
    | with_reducible apply Locks.after (takeYoap_locks ..)
    | extract_lets | split

theorem plainItem_locks (op k : Nat) (s : State) : Locks s (State.plainItem op k s) := by
  unfold State.plainItem
  repeat' first
    | with_reducible exact .refl .. | with_reducible apply Locks.same (State.answer_changes ..)
    | with_reducible apply Locks.same (State.fresh_changes ..) | extract_lets | split

theorem imageItem_locks (k n seq : Nat) (p : Packet) (data : List Byte) (s : State) : Locks s (State.imageItem k n seq p data s) := by
  unfold State.imageItem
  repeat' first
    | with_reducible exact .refl .. | with_reducible apply Locks.same (State.unanswered_changes ..)
    | with_reducible apply Locks.same (State.fresh_changes ..) | with_reducible apply Locks.after (State.imageCome_locks ..) | extract_lets
    | split

theorem linkDown_locks (port : Nat) (s : State) : Locks s (State.linkDown port s) := by
  unfold State.linkDown
  repeat' first
    | with_reducible exact .refl .. | with_reducible apply Locks.after (State.raise_locks ..) | extract_lets
    | with_reducible refine Locks.ite ?_ ?_ | with_reducible refine Locks.update ?_

theorem linkUpSgmii_locks (port : Nat) (s : State) : Locks s (State.linkUpSgmii port s) := by
  unfold State.linkUpSgmii
  repeat' first
    | with_reducible exact .refl .. | with_reducible apply Locks.after (State.networkRestored_locks ..) | extract_lets
    | with_reducible refine Locks.ite ?_ ?_ | with_reducible refine Locks.update ?_

theorem proofLanes_locks (failed : Nat) (s : State) : Locks s (State.proofLanes failed s) := by
  unfold State.proofLanes
  repeat' first
    | with_reducible exact .refl .. | with_reducible apply Locks.after (State.raiseAll_locks ..) | extract_lets
    | with_reducible refine Locks.ite ?_ ?_ | with_reducible refine Locks.update ?_

theorem zeroPath_locks (sd : Nat) (avg : Rat) (s : State) : Locks s (State.zeroPath sd avg s) := by
  unfold State.zeroPath
  repeat' first
    | with_reducible exact .refl .. | with_reducible apply Locks.after (State.raise_locks ..)
    | with_reducible apply Locks.after (State.raiseAll_locks ..) | extract_lets | with_reducible refine Locks.ite ?_ ?_
    | with_reducible refine Locks.update ?_

theorem zeroCheck_locks (avgs : List Rat) (s : State) : Locks s (State.zeroCheck avgs s) := by
  unfold State.zeroCheck
  repeat' first
    | with_reducible exact .refl .. | with_reducible assumption | with_reducible apply Locks.after (State.zeroPath_locks ..)
    | with_reducible refine Locks.foldl ?_ (fun _ _ _ => ?_)

theorem startStep_locks (n : Nat) (s : State) : Locks s (State.startStep n s) := by
  unfold State.startStep
  repeat' first
    | with_reducible exact .refl .. | with_reducible apply Locks.after (State.gdlSource_locks ..)
    | with_reducible apply Locks.after (State.linkSetup_locks ..) | with_reducible apply Locks.same (State.startTimebase_changes ..)
    | with_reducible apply Locks.same (State.soffTest_changes ..) | with_reducible apply Locks.same (State.queueTaps_changes ..) | extract_lets
    | split

theorem nextStep_locks (n : Nat) (s : State) : Locks s (State.nextStep n s) := by
  unfold State.nextStep
  repeat' first
    | with_reducible exact .refl .. | with_reducible apply Locks.after (State.startStep_locks ..) | extract_lets
    | with_reducible refine Locks.ite ?_ ?_ | with_reducible refine Locks.update ?_

theorem readbackDone_locks (s : State) : Locks s (State.readbackDone s) := by
  unfold State.readbackDone
  repeat' first
    | with_reducible exact .refl .. | with_reducible apply Locks.same (State.markStep_changes ..)
    | with_reducible apply Locks.after (State.nextStep_locks ..) | extract_lets | with_reducible refine Locks.ite ?_ ?_
    | with_reducible refine Locks.update ?_

theorem stepDone_locks (r : ProofResult) (s : State) : Locks s (State.stepDone r s) := by
  unfold State.stepDone
  repeat' first
    | with_reducible exact .refl .. | with_reducible apply Locks.same (State.calibrate_changes ..)
    | with_reducible apply Locks.after (State.proofLanes_locks ..) | with_reducible apply Locks.after (State.zeroCheck_locks ..)
    | with_reducible apply Locks.same (State.markStep_changes ..) | with_reducible apply Locks.after (State.nextStep_locks ..)
    | with_reducible apply Locks.after (State.readbackDone_locks ..) | extract_lets | split

end State

end Sys2Proof.Machine
end

section
/-! PROOFS. No command but a reset takes a group out of LOCKED, and each that enters BEDROCK locks every group (R151). -/

set_option Elab.async false

namespace Sys2Proof.Machine

/-- A command that touches neither the trips nor the device state by its table entry; each other one by the law of its function. -/
theorem exec_locks {c : Instr} {s t : State} (h : exec c s = .next t) (hreset : resetItem c = false) : Locks s t := by
  by_cases hp : ∀ p ∈ ([.trip, .mode] : List Part), p ∉ commandParts c
  · exact .same (exec_changes h) (.refl s) (hp _ (by decide)) (hp _ (by decide))
  · cases c with
    | windowResult => cases h; exact .ite (State.windows_locks ..) (.refl s)
    | currentPairAmbiguous => cases h; exact .ite (State.reportAmbiguous_locks ..) (.refl s)
    | restoredPathEligible => cases h; exact .ite (State.pathEligible_locks ..) (.refl s)
    | speakerSenseResult => cases h; exact .ite (State.speakerSense_locks ..) (.refl s)
    | fastPathOutput => cases h; exact .ite (State.fastPath_locks ..) (.refl s)
    | resolverLoopStep => cases h; exact .ite (State.resolver_locks ..) (.refl s)
    | encoderEdge => cases h; exact .ite (State.encoder_locks ..) (.refl s)
    | ssiReadDone => cases h; exact .ite (State.ssi_locks ..) (.refl s)
    | vote => cases h; exact State.vote_locks ..
    | laneStart => cases h; exact State.updateStart_locks ..
    | hearthBlockBoundary => cases h; exact State.hearthBoundary_locks ..
    | aspFrame => cases h; exact .ite (State.aspFrame_locks ..) (.refl s)
    | fltInput => cases h; exact State.fltLevel_locks ..
    | safePatternDelayEnd => cases h; exact .ite (State.patternDelayEnd_locks ..) (.refl s)
    | dischargeDone => cases h; exact .ite (.update (.refl s) (htr := .of_same (TripState.disDone_same ..))) (.refl s)
    | dischargeTimeLimit => cases h; exact .ite (.update (.refl s) (htr := .of_same (TripState.disTimeLimit_same ..))) (.refl s)
    | dchgTimeout => cases h; exact .ite (.update (.refl s) (htr := .of_same (TripState.dchgTimeout_same ..))) (.refl s)
    | dchgLockEnd => cases h; exact .ite (.update (.refl s) (htr := .of_same (TripState.dchgLockEnd_same ..))) (.refl s)
    | gdlTransferDone => cases h; exact .ite (State.linkDone_locks ..) (.refl s)
    | nrstRise => cases h; exact State.nrstRise_locks ..
    | bankVerificationDone => cases h; exact .ite (State.verificationDone_locks ..) (.refl s)
    | bankStarted => cases h; exact .ite (State.leaveBoot_locks ..) (.refl s)
    | timebaseLoss => cases h; exact State.lossOfMark_locks ..
    | ridgeLinkLoss => cases h; exact State.linkLoss_locks ..
    | ridgeLinkUp => cases h; exact State.linkUp_locks ..
    | ridgeTrip => cases h; exact State.ridgeTrip_locks ..
    | splitMachineRecord => cases h; exact State.splitRecord_locks ..
    | crustCycle => cases h; exact .ite (State.crustCycle_locks ..) (.refl s)
    | laneWatchdogExpiry => cases h; exact .ite (State.laneWatchdog_locks ..) (.refl s)
    | hearthWatchdogExpiry => cases h; exact State.hearthWatchdog_locks ..
    | offPulseEnd => cases h; exact .ite (State.offPulseEnd_locks ..) (.refl s)
    | crustFault => cases h; exact .ite (State.crustFault_locks ..) (.refl s)
    | lockstepMismatch => cases h; exact .ite (State.lockstep_locks ..) (.refl s)
    | refLost => cases h; exact .ite (State.refLoss_locks ..) (.refl s)
    | pllSlewComplete => cases h; exact .ite (State.slewDone_locks ..) (.refl s)
    | m0Trough => cases h; exact State.m0Trough_locks ..
    | crest => cases h; exact State.crest_locks ..
    | hkRoundBoundary => cases h; exact .ite (State.hkRound_locks ..) (.refl s)
    | thermalStopEntry => cases h; exact .ite (State.thermalEntry_locks ..) (.refl s)
    | thermalStopRelease => cases h; exact .ite (State.thermalExit_locks ..) (.refl s)
    | restorePaths | positionSourceSelect | swapActive | laneTestRequest | voteTest | controlMode | outputEnable | tripClear | dischargeDemand
      | gdlRequestEntry | gdlSetupRerun | chimePlay | chimeStop | identificationRequest | adoptIdentification | tapTestSweep
      | tapTestStandstill | tapTestPhase | tapTestSpin | tapTestAbort | testSignalStart | testSignalStop | captureStart | captureStop
      | captureDiscard | safeOffTestRequest | commitSets | discardStaged | saveGroups | restoreDefaults | stateRequestReady | stateRequestRun
      | stateRequestService | stateRequestStandby | clearShutdownCause | twinSwap | updateErase | updateVerify | updateActivate
      | updateConfirm | updateAbort => cases h; exact State.hostAction_locks ..
    | readItem => cases h; exact State.hostRead_locks ..
    | writeItem => cases h; exact State.hostWrite_locks ..
    | readSeg => cases h; exact State.hostReadSeg_locks ..
    | writeSeg => cases h; exact State.hostWriteSeg_locks ..
    | commitChecksDone => cases h; exact State.commitDecided_locks ..
    | keySlotWrite => cases h; exact State.hostKeySlot_locks ..
    | yoapFrame => cases h; exact State.yoapFrame_locks ..
    | closeSession | nopItem => cases h; exact State.plainItem_locks ..
    | imageItem => cases h; exact State.imageItem_locks ..
    | imageTimeout => cases h; exact State.imageLate_locks ..
    | sgmiiLinkDown => cases h; exact State.linkDown_locks ..
    | sgmiiLinkUp => cases h; exact State.linkUpSgmii_locks ..
    | proofingStepDone => cases h; exact .ite (State.stepDone_locks ..) (.refl s)
    | nporRise | nporFall | nrstLow | vaonLost => cases hreset
    | _ => exact absurd (of_decide_eq_true rfl) hp

/-- A reset leaves a device in BEDROCK only where its edge has no effect. -/
structure ResetStays (s t : State) : Prop where
  trip : t.trip = s.trip
  mode : t.dev.state = s.dev.state

theorem ite_resetStays {c : Prop} [Decidable c] {s u v : State} (hu : u.dev.state = 7 → ResetStays s u) (hv : v.dev.state = 7 → ResetStays s v) :
    (if c then u else v).dev.state = 7 → ResetStays s (if c then u else v) := by
  split
  · exact hu
  · exact hv

theorem State.nporRise_stays (straps : Nat) (ref : Bool) (s : State) : (s.nporRise straps ref).dev.state = 7 → ResetStays s (s.nporRise straps ref) := by
  unfold State.nporRise
  exact ite_resetStays (fun _ => ⟨rfl, rfl⟩) (ite_resetStays (fun _ => ⟨rfl, rfl⟩) (fun h => by cases h))

theorem State.nporFall_stays (s : State) : s.nporFall.dev.state = 7 → ResetStays s s.nporFall := by
  unfold State.nporFall
  exact ite_resetStays (fun _ => ⟨rfl, rfl⟩) (fun h => by cases h)

theorem State.nrstLow_stays (s : State) : s.nrstLow.dev.state = 7 → ResetStays s s.nrstLow := by
  unfold State.nrstLow
  exact ite_resetStays (fun _ => ⟨rfl, rfl⟩) (ite_resetStays (fun _ => ⟨rfl, rfl⟩) (fun h => by cases h))

theorem State.vaonLost_stays (s : State) : s.vaonLost.dev.state = 7 → ResetStays s s.vaonLost := by
  unfold State.vaonLost
  exact ite_resetStays (fun _ => ⟨rfl, rfl⟩) (fun h => by cases h)

theorem exec_reset_stays {c : Instr} {s t : State} (h : exec c s = .next t) (hreset : resetItem c = true) (ht : t.dev.state = 7) : ResetStays s t := by
  cases c with
  | nporRise straps ref => cases h; exact State.nporRise_stays straps ref s ht
  | nporFall => cases h; exact s.nporFall_stays ht
  | nrstLow => cases h; exact s.nrstLow_stays ht
  | vaonLost => cases h; exact s.vaonLost_stays ht
  | _ => cases hreset

theorem idle_stays (s : State) : ResetStays s (idle s) := by
  unfold idle
  split <;> exact ⟨rfl, rfl⟩

end Sys2Proof.Machine
end

section
/-! PROOFS. The statement about locked groups. -/

set_option Elab.async false

open Sys2Proof Sys2Proof.Machine

/-- Settles O7, from the law of the locked groups for every command but the resets, and from the state that a reset leaves. -/
theorem lockedGroups : Obligations.LockedGroups := by
  unfold Obligations.LockedGroups
  refine ⟨fun c l k s t hp h hk hreset => ?_, fun s t hs h ht => ?_⟩
  · have hl : Locks { s with pending := l } t := exec_locks ((step_of_cons hp).symm.trans h) hreset
    exact hl.trip.locked k hk
  · cases hp : s.pending with
    | nil =>
      cases (step_of_nil hp).symm.trans h
      have hi := idle_stays s
      rw [hi.trip]
      exact hs (hi.mode.symm.trans ht)
    | cons c l =>
      have hx : exec c { s with pending := l } = .next t := (step_of_cons hp).symm.trans h
      cases hreset : resetItem c with
      | false =>
        have hl := exec_locks hx hreset
        rcases hl.enters ht with h7 | ha
        · exact hl.trip.all (hs h7)
        · exact ha
      | true =>
        have hr := exec_reset_stays hx hreset ht
        rw [hr.trip]
        exact hs (hr.mode.symm.trans ht)

end

section
/-! PROOFS. How a WRITE item on a given object runs: the rows of the object table that the commands name, and the equations of hostWrite, writeValue and
act that the statements about a host's items use. -/

set_option Elab.async false

namespace Sys2Proof.Machine

/-! ### Rows -/

/-- Whether a key's row is write-only and holds a value, and the value is stored as it comes. -/
def actionKey (key : Nat) : Bool := match findRow key with | some r => !r.ty.isBlob && r.acc == .wo && r.ty != .f32 | none => false

theorem storedRaw_of_ne {ty : ObjTy} (h : ty ≠ .f32) (raw : Nat) : storedRaw ty raw = raw := by
  unfold storedRaw
  split
  · exact absurd rfl h
  · rfl

theorem actionKey_row {key : Nat} (h : actionKey key = true) : ∃ r, findRow key = some r ∧ r.ty.isBlob = false ∧ r.acc = .wo ∧ r.ty ≠ .f32 := by
  unfold actionKey at h
  cases hr : findRow key with
  | none => rw [hr] at h; cases h
  | some r =>
    rw [hr] at h
    simp only [Bool.and_eq_true, Bool.not_eq_true', beq_iff_eq, bne_iff_ne] at h
    exact ⟨r, rfl, h.1.1, h.1.2, h.2⟩

namespace State

variable {s : State}

/-- An accepted write of a write-only value is its action. -/
theorem writeValue_of_actionKey {key : Nat} (h : actionKey key = true) (k : Nat) (data : List Byte) (s : State) :
    s.writeValue k key data = s.act k key (ofBytes data) := by
  obtain ⟨r, hr, hblob, hacc, hty⟩ := actionKey_row h
  simp only [writeValue, hr, hblob, hacc, storedRaw_of_ne hty, Bool.false_eq_true, if_false]

/-! ### What a WRITE item does -/

/-- An item at the front belongs to an open session. -/
theorem session_of_atFront {k op key : Nat} {data : List Byte} (h : s.atFront k op key data = true) :
    ∃ x i, s.session k = some x ∧ x.front = some i ∧ s.frontItem k = some i := by
  unfold atFront at h
  cases hi : s.frontItem k with
  | none => rw [hi] at h; cases h
  | some i =>
    unfold frontItem at hi
    cases hx : s.session k with
    | none => rw [hx] at hi; cases hi
    | some x => rw [hx] at hi; exact ⟨x, i, rfl, hi, rfl⟩

/-- A WRITE item that meets no condition of Table 16-5, and is no Commit: its effect and its answer. -/
theorem hostWrite_of_accepted {k key : Nat} {data : List Byte} (h : Accepted k key data s) (hc : key ≠ objKey 0x2100 1) :
    s.hostWrite k key data
      = (s.fresh.writeValue k key data).1.answer k (reply 2 key k (if (s.fresh.writeValue k key data).2 then some .state else none) false []) := by
  obtain ⟨x, i, hx, -, -⟩ := session_of_atFront h.front
  simp only [hostWrite, hx, h.front, h.checks x hx, Bool.not_true, Bool.false_eq_true, if_false, if_neg hc]

/-- The same, where the write cannot be refused while it acts. -/
theorem hostWrite_acked {k key : Nat} {data : List Byte} {u : State} (h : Accepted k key data s) (hc : key ≠ objKey 0x2100 1)
    (hu : s.fresh.writeValue k key data = (u, false)) : s.hostWrite k key data = u.acked k key := by
  rw [hostWrite_of_accepted h hc, hu]
  rfl

/-- A WRITE item that meets a condition of Table 16-5. -/
theorem hostWrite_of_abort {k key : Nat} {data : List Byte} {x : Session} {a : Abort} (hx : s.session k = some x) (hf : s.atFront k 2 key data = true)
    (ha : s.fresh.writeAbort k x.level key data = some a) :
    s.hostWrite k key data = (s.fresh.noteRefusal key x.level data).answer k (reply 2 key k (some a) false []) := by
  simp only [hostWrite, hx, hf, ha, Bool.not_true, Bool.false_eq_true, if_false]

/-- A write that names an action, and does it. -/
theorem hostWrite_action {k key : Nat} {data : List Byte} {u : State} (h : Accepted k key data s) (hk : actionKey key = true)
    (hc : key ≠ objKey 0x2100 1) (hu : s.fresh.act k key (ofBytes data) = (u, false)) : s.hostWrite k key data = u.acked k key :=
  hostWrite_acked h hc ((writeValue_of_actionKey hk ..).trans hu)

theorem hostAction_of {k idx sub : Nat} {data : List Byte} {p : Nat → Bool} (hp : p (ofBytes data) = true) :
    s.hostAction k idx sub data p = s.hostWrite k (objKey idx sub) data := if_pos hp

end State

end Sys2Proof.Machine
end

section
/-! PROOFS. Which writes move the commit token (R326): of the actions only Discard staged and Adopt identification do. -/

set_option Elab.async false

namespace Sys2Proof.Machine

/-- Two states have the same commit token. -/
def SameToken (s t : State) : Prop := t.commit.token = s.commit.token

namespace SameToken

variable {ps : List Part} {s t u : State}

theorem refl (s : State) : SameToken s s := rfl

theorem trans (h : SameToken s t) (k : SameToken t u) : SameToken s u := Eq.trans k h

theorem of_changes (c : Changes ps s t) (h : .token ∉ ps := by decide) : SameToken s t := c.same .token h

theorem ite {c : Prop} [Decidable c] (h : SameToken s t) (k : SameToken s u) : SameToken s (if c then t else u) := by
  split
  · exact h
  · exact k

end SameToken

namespace State

/-- One case for each object of Table 16-3 with an action; objects 0x2100 and 0x8000 are left out. -/
theorem act_token (k key raw : Nat) (s : State) (h1 : key / 256 ≠ 0x2100) (h2 : key / 256 ≠ 0x8000) : SameToken s (s.act k key raw).1 := by
  unfold State.act
  dsimp only
  split
  case h_1 =>
    split
    · exact .of_changes (requestState_changes ..)
    · exact rfl
  case h_2 h => exact absurd h h1
  case h_3 => split <;> exact rfl
  case h_4 =>
    split
    · exact .of_changes (swapRequest_changes ..)
    · split
      · exact .of_changes (laneTest_changes ..)
      · exact .of_changes (voteTestRequest_changes ..)
  case h_5 => exact .of_changes (tripClear_changes ..)
  case h_6 =>
    split
    · exact .of_changes (linkRerun_changes ..)
    · exact .of_changes (linkRequest_changes ..)
  case h_7 => exact .of_changes (acceptAction_changes ..)
  case h_8 => exact .of_changes (chimeWrite_changes ..)
  case h_9 => exact .of_changes (chimeWrite_changes ..)
  case h_10 => exact .of_changes (identRequest_changes ..)
  case h_11 h => exact absurd h h2
  case h_12 => exact .of_changes (tapRequest_changes ..)
  case h_13 => exact .of_changes (soffTest_changes ..)
  case h_14 => exact .of_changes (updateAction_changes ..)
  case h_15 => exact .of_changes (swapTwins_changes ..)
  case h_16 => exact .of_changes (captureWrite_changes ..)
  case h_17 =>
    split
    · exact .of_changes (testStart_changes ..)
    · exact .of_changes (testStop_changes ..)
  case h_18 => exact rfl

theorem answer_token (k : Nat) (a : Answer) (s : State) : SameToken s (s.answer k a) := .of_changes (answer_changes k a s)

/-- A WRITE item moves no token where its accepted write moves none. -/
theorem hostWrite_token (k key : Nat) (data : List Byte) (s : State) (hw : ∀ u : State, SameToken u (u.writeValue k key data).1) :
    SameToken s (s.hostWrite k key data) := by
  unfold State.hostWrite
  have hfresh : SameToken s s.fresh := rfl
  split
  · exact .refl s
  · refine .ite (.refl s) ?_
    dsimp only
    split
    · exact (hfresh.trans (.of_changes (noteRefusal_changes ..))).trans (answer_token ..)
    · exact .ite (hfresh.trans (.of_changes (startCommit_changes ..))) ((hfresh.trans (hw _)).trans (answer_token ..))

theorem hostAction_token (k idx sub : Nat) (data : List Byte) (p : Nat → Bool) (s : State) (hkey : actionKey (objKey idx sub) = true)
    (h1 : objKey idx sub / 256 ≠ 0x2100) (h2 : objKey idx sub / 256 ≠ 0x8000) : SameToken s (s.hostAction k idx sub data p) :=
  .ite (hostWrite_token _ _ _ _ fun u => by rw [writeValue_of_actionKey hkey]; exact act_token _ _ _ u h1 h2) (.refl s)

/-! ### Key slots -/

theorem keySlotStore_token (k slot : Nat) (v : List Byte) (s : State) : SameToken s (s.keySlotStore k slot v) := .of_changes (keySlotStore_changes ..)

theorem storeBlob_of_keySlot {key : Nat} (h : key / 256 = 0x1410) (k : Nat) (v : List Byte) (s : State) :
    s.storeBlob k key v = s.keySlotStore k (key % 256 - 1) v := by
  unfold State.storeBlob
  rw [h]
  rfl

theorem ne_imageKey_of_keySlot {key : Nat} (h : key / 256 = 0x1410) : key ≠ imageKey := by
  rintro rfl
  exact absurd h (by decide)

theorem writeValue_keySlot_token {key : Nat} (h : key / 256 = 0x1410) (hblob : ∀ r, findRow key = some r → r.ty.isBlob = true) (k : Nat)
    (data : List Byte) (s : State) : SameToken s (s.writeValue k key data).1 := by
  unfold State.writeValue
  cases hr : findRow key with
  | none => exact .refl s
  | some r =>
    simp only [hblob r hr, if_true, if_neg (ne_imageKey_of_keySlot h), storeBlob_of_keySlot h]
    exact SameToken.trans (.of_changes (dropTransfer_changes k key s)) (keySlotStore_token ..)

theorem segment_keySlot_token {key : Nat} (h : key / 256 = 0x1410) (k offset : Nat) (last : Bool) (data : List Byte) (s : State) :
    SameToken s (s.segment k key offset last data) := by
  unfold State.segment
  extract_lets before u keep opened
  have hu : SameToken s u := .of_changes (dropTransfer_changes k key s)
  rw [if_neg (ne_imageKey_of_keySlot h), storeBlob_of_keySlot h]
  exact .ite (hu.trans (keySlotStore_token ..)) hu

theorem segmentWrite_keySlot_token {key : Nat} (h : key / 256 = 0x1410) (k offset : Nat) (last : Bool) (data : List Byte) (bad : Option Abort)
    (s : State) : SameToken s (s.segmentWrite k key offset last data bad) := by
  unfold State.segmentWrite
  split
  · exact SameToken.trans (.ite (.of_changes (dropTransfer_changes k key s)) (.refl s)) (answer_token ..)
  · exact SameToken.trans (segment_keySlot_token h ..) (answer_token ..)

theorem hostWriteSeg_keySlot_token {key : Nat} (h : key / 256 = 0x1410) (k offset : Nat) (last : Bool) (data : List Byte) (s : State) :
    SameToken s (s.hostWriteSeg k key offset last data) := by
  have hfresh : SameToken s s.fresh := rfl
  unfold State.hostWriteSeg
  split
  · exact .ite (.refl s) (hfresh.trans (segmentWrite_keySlot_token h ..))
  · exact .refl s

/-- Every row of object 0x1410 is a BLOB. -/
theorem keySlot_row_isBlob : ∀ slot < 8, ((findRow (objKey 0x1410 (slot + 1))).all (fun r => r.ty.isBlob)) = true := by decide

theorem hostKeySlot_token {slot : Nat} (hslot : slot < 8) (k : Nat) (data : List Byte) (s : State) : SameToken s (s.hostKeySlot k slot data) := by
  have hkey : objKey 0x1410 (slot + 1) / 256 = 0x1410 := by unfold objKey; omega
  have hblob : ∀ r, findRow (objKey 0x1410 (slot + 1)) = some r → r.ty.isBlob = true := fun r hr => by
    have h := keySlot_row_isBlob slot hslot
    rw [hr] at h
    exact h
  unfold State.hostKeySlot
  split
  · exact .ite (hostWriteSeg_keySlot_token hkey ..) (hostWrite_token _ _ _ _ fun u => writeValue_keySlot_token hkey hblob k data u)
  · exact .refl s

end State

/-- A host's item that stores, stages, commits or discards no value moves no token; of the other commands none but those that the statement excepts
lists the token. -/
theorem exec_token {c : Instr} {s t : State} (h : exec c s = .next t) (hwf : c.wellFormed = true) (hhost : hostItem c = false ∨ actionItem c = true)
    (hbench : benchItem c = false) (hreset : resetItem c = false) (hblock : ∀ pdm, c ≠ .hearthBlockBoundary pdm) (himage : ∀ n, c ≠ .imageTimeout n) :
    SameToken s t := by
  by_cases hp : .token ∉ commandParts c
  · exact .of_changes (exec_changes h) hp
  · cases c with
    | chimePlay g k data | chimeStop g k data =>
      cases h
      have hg : g < 2 := by simp only [Instr.wellFormed, Bool.and_eq_true, decide_eq_true_eq] at hwf; exact hwf.1
      have hkey : ∀ g < 2, actionKey (objKey (0x7020 + g) 1) = true := by decide
      exact State.hostAction_token _ _ _ _ _ s (hkey g hg) (by unfold objKey; omega) (by unfold objKey; omega)
    | keySlotWrite slot k data =>
      cases h
      have hslot : slot < 8 := by simp only [Instr.wellFormed, Bool.and_eq_true, decide_eq_true_eq] at hwf; exact hwf.1
      exact State.hostKeySlot_token hslot k data s
    | restorePaths | swapActive | laneTestRequest | voteTest | tripClear | gdlRequestEntry | gdlSetupRerun | identificationRequest | tapTestSweep
      | tapTestStandstill | tapTestPhase | tapTestSpin | tapTestAbort | testSignalStart | testSignalStop | captureStart | captureStop
      | captureDiscard | safeOffTestRequest | saveGroups | restoreDefaults | stateRequestReady | stateRequestRun | stateRequestService
      | stateRequestStandby | clearShutdownCause | twinSwap | updateErase | updateVerify | updateActivate | updateConfirm | updateAbort =>
      cases h
      exact State.hostAction_token _ _ _ _ _ s (by decide) (by decide) (by decide)
    | hearthBlockBoundary pdm => exact absurd rfl (hblock pdm)
    | imageTimeout n => exact absurd rfl (himage n)
    | nporRise | nporFall | nrstLow | vaonLost => cases hreset
    | benchWrite | bootHold | bootGo | unlockHi | unlockLo | ctcCommit | benchStart | eraseBank | programChunk | verifyBank | starterImportChunk
      | starterImportCommit | keySlotReset | persistedSetErase => cases hbench
    | positionSourceSelect | controlMode | outputEnable | dischargeDemand | adoptIdentification | writeItem | writeSeg | imageItem | commitSets
      | commitChecksDone | discardStaged => exact absurd hhost (of_decide_eq_true rfl)
    | _ => exact absurd (of_decide_eq_true rfl) hp

end Sys2Proof.Machine
end

section
/-! PROOFS. The statement about the commit token. -/

set_option Elab.async false

open Sys2Proof Sys2Proof.Machine

/-- Settles O9, from the table of parts and the actions of the write-only objects. -/
theorem tokenMoves : Obligations.TokenMoves := by
  unfold Obligations.TokenMoves
  intro c l s t hp h hwf hhost hbench hreset hblock himage
  have hx : exec c { s with pending := l } = .next t := (step_of_cons hp).symm.trans h
  have htoken := exec_token hx hwf hhost hbench hreset hblock himage
  exact htoken

end

section
/-! PROOFS. What is read from a mended store and from a merged one. -/

set_option Elab.async false

namespace Sys2Proof.Machine

/-- In a list of ascending keys each entry is found under its key. -/
theorem lookupKey_of_mem {α : Type} {l : List (Nat × α)} {k : Nat} {v : α} (h : ascendingKeys l = true) (hm : (k, v) ∈ l) : lookupKey l k = some v := by
  induction l with
  | nil => cases hm
  | cons e l ih =>
    rw [ascendingKeys_iff, List.pairwise_cons] at h
    obtain ⟨hlt, hl⟩ := h
    rcases List.mem_cons.1 hm with rfl | hm
    · simp [lookupKey]
    · have hne : (e.1 == k) = false := by simpa using Nat.ne_of_lt (hlt _ hm)
      simpa [lookupKey, List.find?_cons, hne] using ih ((ascendingKeys_iff l).2 hl) hm

theorem lookupKey_eq_none {α : Type} {l : List (Nat × α)} {k : Nat} (h : ∀ e ∈ l, e.1 ≠ k) : lookupKey l k = none := by
  simpa [lookupKey] using fun a b hm => h (a, b) hm

theorem lookupKey_filter {α : Type} (p : Nat → Bool) (l : List (Nat × α)) (k : Nat) :
    lookupKey (l.filter (fun e => p e.1)) k = if p k then lookupKey l k else none := by
  induction l with
  | nil => simp [lookupKey]
  | cons e l ih =>
    by_cases hk : e.1 = k
    · subst hk
      cases hp : p e.1 with
      | true => simp [lookupKey, hp]
      | false => simpa [List.filter_cons, hp] using ih
    · have hne : (e.1 == k) = false := by simpa using hk
      cases hp : p e.1 with
      | true => simpa [lookupKey, List.filter_cons, hp, hne] using ih
      | false => simpa [lookupKey, List.filter_cons, hp, hne] using ih

/-- Of a merge's list, a key that p selects has the source's value, any other what the list had. -/
theorem lookupKey_mergeList {α : Type} (p : Nat → Bool) {src : List (Nat × α)} (hs : ascendingKeys src = true) (dst : List (Nat × α)) (k : Nat) :
    lookupKey (src.foldl (fun a e => if p e.1 then insertKey e.1 e.2 a else a) dst) k
      = if p k then (lookupKey src k).or (lookupKey dst k) else lookupKey dst k := by
  induction src generalizing dst with
  | nil => simp [lookupKey]
  | cons e l ih =>
    rw [ascendingKeys_iff, List.pairwise_cons] at hs
    obtain ⟨hlt, hl⟩ := hs
    rw [List.foldl_cons, ih ((ascendingKeys_iff l).2 hl)]
    by_cases hk : e.1 = k
    · subst hk
      have hnone : lookupKey l e.1 = none := lookupKey_eq_none fun f hf => Nat.ne_of_gt (hlt f hf)
      cases hp : p e.1 with
      | true =>
        have hhead : lookupKey (e :: l) e.1 = some e.2 := by simp [lookupKey]
        simp [hnone, lookup_insertKey, hhead]
      | false => simp
    · have hne : (e.1 == k) = false := by simpa using hk
      have hd : lookupKey (if p e.1 then insertKey e.1 e.2 dst else dst) k = lookupKey dst k := by
        split
        · exact lookup_insertKey_ne _ _ (Ne.symm hk)
        · rfl
      rw [hd]
      simp [lookupKey, List.find?_cons, hne]

namespace Store

theorem raw_of_mem {a : Store} {key v : Nat} (h : a.wf = true) (hm : (key, v) ∈ a.vals) : a.raw key = v := by
  rw [raw, lookupKey_of_mem ((wf_iff a).1 h).1 hm]
  rfl

/-- A merged store's value: the source's where p selects the key, else the target's. -/
theorem raw_merge {p : Nat → Bool} {src dst : Store} (hs : src.wf = true) (key : Nat) :
    (merge p src dst).raw key = (if p key then src else dst).raw key := by
  have hsrc : ascendingKeys src.vals = true := ((wf_iff src).1 hs).1
  simp only [merge, raw, lookupKey_mergeList p hsrc, lookupKey_filter (fun k => !p k)]
  cases p key <;> simp

theorem blob_merge {p : Nat → Bool} {src dst : Store} (hs : src.wf = true) (key : Nat) :
    (merge p src dst).blob key = (if p key then src else dst).blob key := by
  obtain ⟨-, hsrc, -, -⟩ := (wf_iff src).1 hs
  simp only [merge, blob, lookupKey_mergeList p hsrc, lookupKey_filter (fun k => !p k)]
  cases p key <;> simp

/-- What mending does with one listed value. -/
def mendStep (f : Nat → Nat → Nat) (c : Store) (e : Nat × Nat) : Store :=
  match findRow e.1 with
  | some r => if r.ty.isPair && !pairOk e.2 then c.put e.1 (f e.1 e.2) else c
  | none => c

theorem mend_eq_foldl (f : Nat → Nat → Nat) (a : Store) : a.mend f = a.vals.foldl (mendStep f) a := rfl

theorem raw_mendStep_of_ne (f : Nat → Nat → Nat) (c : Store) {e : Nat × Nat} {key : Nat} (h : e.1 ≠ key) : (mendStep f c e).raw key = c.raw key := by
  unfold mendStep
  split
  · split
    · exact raw_put_ne _ _ h.symm
    · rfl
  · rfl

theorem raw_mendStep_pair (f : Nat → Nat → Nat) (c : Store) {key : Nat} (v : Nat) {r : ObjRow} (hr : findRow key = some r) (hp : r.ty.isPair = true) :
    (mendStep f c (key, v)).raw key = if pairOk v then c.raw key else f key v := by
  unfold mendStep
  simp only [hr, hp, Bool.true_and]
  cases pairOk v with
  | true => rfl
  | false => exact raw_put ..

/-- A fold of mending writes leaves a key that its list does not hold. -/
theorem raw_mendFold_of_not_mem (f : Nat → Nat → Nat) (l : List (Nat × Nat)) (c : Store) {key : Nat} (h : ∀ e ∈ l, e.1 ≠ key) :
    (l.foldl (mendStep f) c).raw key = c.raw key := by
  induction l generalizing c with
  | nil => rfl
  | cons e l ih => exact (ih _ (fun x hx => h x (List.mem_cons_of_mem _ hx))).trans (raw_mendStep_of_ne f c (h e (List.mem_cons_self ..)))

/-- The value of a pair in a mended store: its own where it passes its complement check, else what mends it. -/
theorem raw_mend_pair (f : Nat → Nat → Nat) {a : Store} {key v : Nat} {r : ObjRow} (h : a.wf = true) (hm : (key, v) ∈ a.vals)
    (hr : findRow key = some r) (hp : r.ty.isPair = true) : (a.mend f).raw key = if pairOk v then v else f key v := by
  obtain ⟨l₁, l₂, hl⟩ := List.append_of_mem hm
  have hsorted : (l₁ ++ (key, v) :: l₂).Pairwise (fun x y => x.1 < y.1) := hl ▸ (ascendingKeys_iff _).1 ((wf_iff a).1 h).1
  obtain ⟨-, htail, hcross⟩ := List.pairwise_append.1 hsorted
  have h₁ : ∀ e ∈ l₁, e.1 ≠ key := fun e he => Nat.ne_of_lt (hcross e he _ (List.mem_cons_self ..))
  have h₂ : ∀ e ∈ l₂, e.1 ≠ key := fun e he => Nat.ne_of_gt ((List.pairwise_cons.1 htail).1 e he)
  rw [mend_eq_foldl, hl, List.foldl_append, List.foldl_cons, raw_mendFold_of_not_mem f l₂ _ h₂, raw_mendStep_pair f _ v hr hp,
    raw_mendFold_of_not_mem f l₁ a h₁, raw_of_mem h hm]

theorem raw_foldl_put_of_ne {l : List (Nat × Nat)} {key : Nat} (h : ∀ e ∈ l, e.1 ≠ key) (c : Store) :
    (l.foldl (fun (c : Store) e => c.put e.1 e.2) c).raw key = c.raw key := by
  induction l generalizing c with
  | nil => rfl
  | cons e l ih =>
    rw [List.foldl_cons, ih (fun x hx => h x (List.mem_cons_of_mem _ hx))]
    exact raw_put_ne _ _ (h e (List.mem_cons_self ..)).symm

end Store

/-- No control mode is a stored pair. -/
theorem modeKey_not_pair {m : Nat} (hm : m < 2) {r : ObjRow} (hr : findRow (State.modeKey m) = some r) : r.ty.isPair = false := by
  have h : ∀ m < 2, ((findRow (State.modeKey m)).all (fun r => !r.ty.isPair)) = true := by decide
  have hk := h m hm
  rw [hr] at hk
  simpa using hk

/-- The values that a consumer uses differ from the mended store in the control modes and the offsets of the zero check alone. -/
theorem State.raw_cfg {s : State} {key : Nat} (h0 : key ≠ State.modeKey 0) (h1 : key ≠ State.modeKey 1) (hz : ∀ z ∈ s.sense.zeros, z.1 ≠ key) :
    s.cfg.raw key = (s.active.inForce s.active2 s.passed).raw key := by
  unfold State.cfg
  dsimp only
  rw [Store.raw_foldl_put_of_ne hz]
  split
  · rfl
  · rw [Store.raw_put_ne _ _ h1, Store.raw_put_ne _ _ h0]

end Sys2Proof.Machine
end

section
/-! PROOFS. The statements about the stored pairs and about the state right after reset. -/

set_option Elab.async false

open Sys2Proof Sys2Proof.Machine

/-- Settles O12: the mended store gives each pair its value, and what is laid over it names no pair. -/
theorem healedPairs : Obligations.HealedPairs := by
  unfold Obligations.HealedPairs
  intro key v r s hwf hmem hrow hpair hzeros
  have hne {m : Nat} (hm : m < 2) : key ≠ State.modeKey m := by
    rintro rfl
    rw [modeKey_not_pair hm hrow] at hpair
    cases hpair
  have hz : ∀ z ∈ s.sense.zeros, z.1 ≠ key := by simpa [List.all_eq_true] using hzeros
  rw [State.raw_cfg (hne (by decide)) (hne (by decide)) hz]
  exact Store.raw_mend_pair _ hwf hmem hrow hpair

/-- Settles O3: the reset state's own fields. -/
theorem resetState : Obligations.ResetState := by
  unfold Obligations.ResetState
  have hsession (k : Nat) : State.reset.session k = none := by
    show (List.replicate 16 (none : Option Session)).getD k none = none
    rw [List.getD_eq_getElem?_getD, List.getElem?_replicate]
    split <;> rfl
  have hsound : Sound State.reset :=
    { active := rfl, active2 := rfl, passed := rfl, staged := rfl, bankA := rfl, bankB := rfl, token := by decide, mode := by decide }
  exact ⟨rfl, rfl, rfl, rfl, rfl, fun _ => ⟨rfl, rfl⟩, hsession, rfl, rfl, rfl, hsound⟩

end

section
/-! PROOFS. Basic writes and boundary actions (R33, R35, R36): the parts that wait, and the values as last accepted. -/

set_option Elab.async false

namespace Sys2Proof.Machine

/-! ### The parts of a write -/

/-- The mask of a part of the Trough kind: the groups named that are of the kind. -/
theorem bit_troughMask (l : List Nat) (a n : Nat) :
    bit (l.foldl (fun a g => if bit troughKind g then a ||| 2 ^ g else a) a) n = (bit a n || (l.contains n && bit troughKind n)) := by
  induction l generalizing a with
  | nil => simp
  | cons g l ih =>
    rw [List.foldl_cons, ih]
    by_cases hg : n = g
    · subst hg
      cases hk : bit troughKind n <;> simp [bit]
    · have hbit : (2 ^ g).testBit n = false := by simpa [Nat.testBit_two_pow] using Ne.symm hg
      cases hk : bit troughKind g <;> simp [bit, hg, hbit, Nat.testBit_or]

/-- A part is the object's own where it holds the object's group. -/
theorem own_of_mem_writeParts {own : Nat} {derived : List Nat} {p : Nat × Bool} (h : p ∈ writeParts own derived) : p.2 = bit p.1 own := by
  unfold writeParts at h
  dsimp only at h
  rcases List.mem_append.1 h with h | h
  · split at h
    · cases h
    · cases List.mem_singleton.1 h
      rw [bit_troughMask]
      simp [bit]
  · obtain ⟨g, -, rfl⟩ := List.mem_map.1 h
    by_cases hg : g = own <;> simp [bit, hg]

theorem exists_own_writeParts (own : Nat) (derived : List Nat) : ∃ p ∈ writeParts own derived, p.2 = true := by
  unfold writeParts
  dsimp only
  cases hk : bit troughKind own with
  | true =>
    have hne : (own :: derived).foldl (fun a g => if bit troughKind g then a ||| 2 ^ g else a) 0 ≠ 0 := fun h0 => by
      have hb := bit_troughMask (own :: derived) 0 own
      rw [h0, hk] at hb
      simp [bit] at hb
    exact ⟨_, List.mem_append_left _ (by rw [if_neg hne]; exact List.mem_singleton.2 rfl), rfl⟩
  | false =>
    refine ⟨(2 ^ own, own == own), List.mem_append_right _ (List.mem_map.2 ⟨own, ?_, rfl⟩), beq_self_eq_true own⟩
    simp [hk]

namespace State

variable {s : State}

theorem mem_waitingParts {key raw : Nat} {fields : List (Nat × Nat)} {p : PendWrite} (h : p ∈ s.waitingParts key raw fields) :
    p.key = key ∧ p.raw = raw ∧ p.accepted = s.now ∧ p.own = bit p.groups (objGroup key) := by
  obtain ⟨q, hq, rfl⟩ := List.mem_map.1 h
  exact ⟨rfl, rfl, rfl, own_of_mem_writeParts hq⟩

theorem exists_own_waitingParts (key raw : Nat) (fields : List (Nat × Nat)) (s : State) : ∃ p ∈ s.waitingParts key raw fields, p.own = true := by
  obtain ⟨q, hq, ho⟩ := exists_own_writeParts (objGroup key) (fields.map (fun e => objGroup e.1))
  exact ⟨_, List.mem_map.2 ⟨q, hq, rfl⟩, ho⟩

/-- What R35 says of the parts that a write leaves waiting. -/
theorem waitingParts_spec (key raw : Nat) (fields : List (Nat × Nat)) (s : State) :
    (∀ p ∈ s.waitingParts key raw fields, p.key = key ∧ p.raw = raw ∧ p.accepted = s.now)
      ∧ ∃ p ∈ s.waitingParts key raw fields, p.own = true ∧ bit p.groups (objGroup key) = true := by
  refine ⟨fun p hp => ?_, ?_⟩
  · obtain ⟨hkey, hraw, htime, -⟩ := mem_waitingParts hp
    exact ⟨hkey, hraw, htime⟩
  · obtain ⟨p, hp, ho⟩ := exists_own_waitingParts key raw fields s
    obtain ⟨-, -, -, hgroup⟩ := mem_waitingParts hp
    exact ⟨p, hp, ho, hgroup.symm.trans ho⟩

/-! ### The last of several writes to one object -/

theorem mem_of_mem_lastWrites {l : List PendWrite} {w : PendWrite} (h : w ∈ lastWrites l) : w ∈ l := by
  induction l with
  | nil => cases h
  | cons v l ih =>
    unfold lastWrites at h
    split at h
    · exact List.mem_cons_of_mem _ (ih h)
    · rcases List.mem_cons.1 h with rfl | h
      · exact List.mem_cons_self ..
      · exact List.mem_cons_of_mem _ (ih h)

/-- Of the writes with one object and one set of groups the last one stands. -/
theorem exists_lastWrites {l : List PendWrite} {w : PendWrite} (h : w ∈ l) : ∃ v ∈ lastWrites l, v.key = w.key ∧ v.groups = w.groups := by
  induction l generalizing w with
  | nil => cases h
  | cons u l ih =>
    unfold lastWrites
    split
    case isTrue hany =>
      rcases List.mem_cons.1 h with rfl | h
      · obtain ⟨v, hv, heq⟩ := List.any_eq_true.1 hany
        simp only [Bool.and_eq_true, beq_iff_eq] at heq
        obtain ⟨x, hx, hkey, hgroups⟩ := ih hv
        exact ⟨x, hx, hkey.trans heq.1, hgroups.trans heq.2⟩
      · exact ih h
    case isFalse =>
      rcases List.mem_cons.1 h with rfl | h
      · exact ⟨w, List.mem_cons_self .., rfl, rfl⟩
      · obtain ⟨x, hx, hxw⟩ := ih h
        exact ⟨x, List.mem_cons_of_mem _ hx, hxw⟩

/-- The last writes of a list with more behind it end in the last writes of what is behind. -/
theorem lastWrites_append (l m : List PendWrite) : ∃ l', lastWrites (l ++ m) = l' ++ lastWrites m := by
  induction l with
  | nil => exact ⟨[], rfl⟩
  | cons w l ih =>
    obtain ⟨l', hl'⟩ := ih
    rw [List.cons_append, lastWrites]
    split
    · exact ⟨l', hl'⟩
    · exact ⟨w :: l', by rw [hl', List.cons_append]⟩

/-! ### The values as last accepted -/

theorem raw_withDerived (key raw : Nat) (c : Store) : (withDerived key raw c).raw key = raw := Store.raw_put ..

/-- What one waiting write makes of the values as last accepted. -/
def overWrite (c : Store) (w : PendWrite) : Store := if w.own && !actsAtBoundary w.key then withDerived w.key w.raw c else c

theorem overWrites_eq_foldl (l : List PendWrite) (c : Store) : overWrites l c = (lastWrites l).foldl overWrite c := rfl

/-- Writes of one value to one object keep that value once it stands. -/
theorem raw_foldl_overWrite {key raw : Nat} {l : List PendWrite} (hl : ∀ w ∈ l, w.key = key ∧ w.raw = raw) (c : Store)
    (h : c.raw key = raw ∨ ∃ w ∈ l, w.own = true ∧ actsAtBoundary key = false) : (l.foldl overWrite c).raw key = raw := by
  induction l generalizing c with
  | nil =>
    rcases h with h | ⟨w, hw, -⟩
    · exact h
    · cases hw
  | cons v l ih =>
    obtain ⟨hkey, hraw⟩ := hl v (List.mem_cons_self ..)
    refine ih (fun w hw => hl w (List.mem_cons_of_mem _ hw)) _ ?_
    unfold overWrite
    rw [hkey, hraw]
    split
    case isTrue => exact .inl (raw_withDerived ..)
    case isFalse hv =>
      refine h.imp_right fun ⟨w, hw, ho, ha⟩ => ?_
      rcases List.mem_cons.1 hw with rfl | hw
      · exact absurd (by simp [ho, ha]) hv
      · exact ⟨w, hw, ho, ha⟩

/-- A write behind all others gives its object its value. -/
theorem raw_overWrites_append (l : List PendWrite) (c : Store) {key raw : Nat} (fields : List (Nat × Nat)) (s : State) (ha : actsAtBoundary key = false) :
    (overWrites (l ++ s.waitingParts key raw fields) c).raw key = raw := by
  obtain ⟨l', hl'⟩ := lastWrites_append l (s.waitingParts key raw fields)
  rw [overWrites_eq_foldl, hl', List.foldl_append]
  refine raw_foldl_overWrite (fun w hw => ?_) _ (.inr ?_)
  · obtain ⟨hkey, hraw, -, -⟩ := mem_waitingParts (mem_of_mem_lastWrites hw)
    exact ⟨hkey, hraw⟩
  · obtain ⟨p, hp, ho⟩ := exists_own_waitingParts key raw fields s
    obtain ⟨v, hv, -, hgroups⟩ := exists_lastWrites hp
    obtain ⟨-, -, -, hown⟩ := mem_waitingParts hp
    obtain ⟨-, -, -, hown'⟩ := mem_waitingParts (mem_of_mem_lastWrites hv)
    exact ⟨v, hv, by rw [hown', hgroups, ← hown, ho], ha⟩

/-- The fields that an accepted basic write derives. -/
def acceptFields (key raw : Nat) (s : State) : List (Nat × Nat) :=
  deriveFields ((overWrites (s.commit.writes.filter (fun w => w.key != key)) s.cfg).put key raw) key

theorem acceptWrite_commit (key raw : Nat) (s : State) :
    (s.acceptWrite key raw).commit = { s.commit with
      writes := s.commit.writes ++ s.waitingParts key raw (s.acceptFields key raw)
      token := if s.commit.token = 65535 then 1 else s.commit.token + 1 } := rfl

theorem acceptWrite_cfg (key raw : Nat) (s : State) : (s.acceptWrite key raw).cfg = s.cfg := rfl

theorem acceptWrite_acceptedStore (key raw : Nat) (s : State) (ha : actsAtBoundary key = false) :
    (s.acceptWrite key raw).acceptedStore.raw key = raw := by
  rw [acceptedStore, acceptWrite_commit, acceptWrite_cfg]
  exact raw_overWrites_append _ _ _ _ ha

end State

/-! ### Rows of basic writes -/

/-- Whether a key's row is a basic value that is stored as it comes, and not one of the two that have an effect of their own (0x2100.08, 0x2100.09). -/
def basicKey (key : Nat) : Bool :=
  match findRow key with
  | some r => !r.ty.isBlob && r.acc == .rw && r.ty != .f32 && (match r.rng with | .flags _ => false | _ => true) && key != objKey 0x2100 8 && key != objKey 0x2100 9
  | none => false

theorem State.writeValue_of_rw {s : State} {key : Nat} {r : ObjRow} (hr : findRow key = some r) (hblob : r.ty.isBlob = false) (hacc : r.acc = .rw)
    (hrng : ∀ m, r.rng ≠ .flags m) (h8 : key ≠ objKey 0x2100 8) (h9 : key ≠ objKey 0x2100 9) (k : Nat) (data : List Byte) :
    s.writeValue k key data = (s.acceptWrite key (storedRaw r.ty (ofBytes data)), false) := by
  simp only [State.writeValue, hr, hblob, Bool.false_eq_true, if_false]
  split
  · simp_all
  · exact absurd ‹_› (hrng _)
  · simp_all
  · simp_all
  · rw [if_neg h8, if_neg h9]

theorem State.writeValue_of_basicKey {key : Nat} (h : basicKey key = true) (k : Nat) (data : List Byte) (s : State) :
    s.writeValue k key data = (s.acceptWrite key (ofBytes data), false) := by
  unfold basicKey at h
  cases hr : findRow key with
  | none => rw [hr] at h; cases h
  | some r =>
    rw [hr] at h
    simp only [Bool.and_eq_true, Bool.not_eq_true', beq_iff_eq, bne_iff_ne] at h
    obtain ⟨⟨⟨⟨⟨hblob, hacc⟩, hty⟩, hrng⟩, h8⟩, h9⟩ := h
    have hflags : ∀ m, r.rng ≠ .flags m := fun m hm => by rw [hm] at hrng; cases hrng
    rw [State.writeValue_of_rw hr hblob hacc hflags h8 h9, storedRaw_of_ne hty]

theorem State.hostWrite_basic {s : State} {k key : Nat} {data : List Byte} (h : Accepted k key data s) (hk : basicKey key = true)
    (hc : key ≠ objKey 0x2100 1) : s.hostWrite k key data = (s.fresh.acceptWrite key (ofBytes data)).acked k key :=
  State.hostWrite_acked h hc (State.writeValue_of_basicKey hk ..)

end Sys2Proof.Machine
end

section
/-! PROOFS. The statement about basic writes. -/

set_option Elab.async false

open Sys2Proof Sys2Proof.Machine

/-- Settles O39: the rows are basic values, and their write is acceptWrite. -/
theorem basicWriteRows : Obligations.BasicWriteRows := by
  unfold Obligations.BasicWriteRows
  refine ⟨fun m k data s hm h => ?_, fun m k data s hm h => ?_, fun out key k data s hout h => ?_, fun k data s h => ?_, fun key raw s => ?_⟩
  · have hkey : ∀ m < 2, basicKey (objKey 0x6300 (m + 1)) = true := by decide
    exact congrArg _ (State.hostWrite_basic h (hkey m hm) (by unfold objKey; omega))
  · have hkey : ∀ m < 2, basicKey (objKey (ctlIdx m 0x3000) 1) = true := by decide
    exact congrArg _ (State.hostWrite_basic h (hkey m hm) (by unfold objKey ctlIdx; omega))
  · simp only [List.mem_cons, Prod.mk.injEq, List.not_mem_nil, or_false] at hout
    obtain ⟨rfl, rfl⟩ | ⟨rfl, rfl⟩ | ⟨rfl, rfl⟩ | ⟨rfl, rfl⟩ := hout <;> exact congrArg _ (State.hostWrite_basic h (by decide) (by decide))
  · exact congrArg _ (State.hostWrite_basic h (by decide) (by decide))
  · obtain ⟨hparts, hown⟩ := State.waitingParts_spec key raw (s.acceptFields key raw) s
    exact ⟨_, State.acceptWrite_commit key raw s, hparts, hown, State.acceptWrite_acceptedStore key raw s, State.acceptWrite_changes key raw s⟩

end

section
/-! PROOFS. State requests, and the commands on the settings sets (R37, R38, R413). -/

set_option Elab.async false

namespace Sys2Proof.Machine

namespace State

variable {s : State}

/-- What an item of a host is, for each value of a state request. -/
theorem exec_stateRequest {code k : Nat} {c : Instr} {data : List Byte}
    (hc : (code, c) ∈ [(1, Instr.stateRequestReady k data), (2, .stateRequestRun k data), (3, .stateRequestService k data), (4, .stateRequestStandby k data)])
    (hd : ofBytes data = code) (s : State) : exec c s = .next (s.hostWrite k (objKey 0x2000 2) data) := by
  simp only [List.mem_cons, Prod.mk.injEq, List.not_mem_nil, or_false] at hc
  obtain ⟨rfl, rfl⟩ | ⟨rfl, rfl⟩ | ⟨rfl, rfl⟩ | ⟨rfl, rfl⟩ := hc <;> exact congrArg _ (hostAction_of (decide_eq_true hd))

theorem requestState_eq (k code : Nat) (s : State) : s.requestState k code =
    if (code, s.dev.state) ∈ [(1, 4), (2, 5), (3, 6)] then s
    else { s with dev := { s.dev with request := some { code := code, time := s.now, session := k } } } := by
  simp only [requestState, List.mem_cons, List.not_mem_nil, or_false]

theorem noteRefusal_stateRequest {level : Nat} {data : List Byte} (h : s.requestReason (ofBytes data) level ≠ 0) :
    s.noteRefusal (objKey 0x2000 2) level data = { s with dev := { s.dev with refusal := s.requestReason (ofBytes data) level } } :=
  if_pos ⟨rfl, h⟩

/-- An accepted Commit write starts its checks, and its answer waits for them. -/
theorem hostWrite_commit {k : Nat} {data : List Byte} (h : Accepted k (objKey 0x2100 1) data s) :
    s.hostWrite k (objKey 0x2100 1) data = s.fresh.startCommit k (ofBytes data) := by
  obtain ⟨x, i, hx, -, -⟩ := session_of_atFront h.front
  simp only [hostWrite, hx, h.front, h.checks x hx, Bool.not_true, Bool.false_eq_true, if_false, if_true]

theorem startCommit_of_none (h : s.commit.checking = none) (k raw : Nat) :
    s.startCommit k raw = { s with commit := { s.commit with
      checking := some { mask := raw % 0x4000, tokenOk := raw / 65536 == s.commit.token, target := s.commit.target, session := some k } } } := by
  simp only [startCommit, h, Option.isSome_none, Bool.false_eq_true, if_false]

/-- Discard staged, in the four facts that R37 states. -/
theorem discardSets_spec (mask : Nat) (s : State) :
    (s.discardSets mask).staged = Store.merge (stagedKey mask) s.active s.staged
      ∧ (s.discardSets mask).commit = { s.commit with token := if s.commit.token = 65535 then 1 else s.commit.token + 1 }
      ∧ (bit mask 12 = true → (s.discardSets mask).flash.importUser = []) := by
  unfold discardSets
  dsimp only
  split
  · exact ⟨rfl, rfl, fun _ => rfl⟩
  · next h => exact ⟨rfl, rfl, fun hb => absurd hb h⟩

/-! ### The end of the checks -/

theorem commitEnd_snd (a : Checking) (s : State) : (s.commitEnd a).2 = (s.commitOutcome a).1 := rfl

theorem commitEnd_fst (a : Checking) (s : State) : (s.commitEnd a).1 = { s with commit := { s.commit with
    checking := none, target := 0, lastCode := (s.commitOutcome a).1, rejGroup := (s.commitOutcome a).2.1, rejObject := (s.commitOutcome a).2.2
    token := if s.commit.token = 65535 then 1 else s.commit.token + 1
    pending := if (s.commitOutcome a).1 = 0 then s.commit.pending ++ [{ mask := a.mask, target := a.target, accepted := s.now }] else s.commit.pending
    rejected := if (s.commitOutcome a).1 = 0 then s.commit.rejected else inc32 s.commit.rejected } } := by
  unfold commitEnd
  dsimp only
  split <;> rfl

theorem commitEnd_net (a : Checking) (s : State) : (s.commitEnd a).1.net = s.net := by rw [commitEnd_fst]

theorem commitEnd_bench (a : Checking) (s : State) : (s.commitEnd a).1.bench = s.bench := by rw [commitEnd_fst]

/-- A host's Commit is answered once its checks end. -/
theorem commitDecided_of_host {a : Checking} {k : Nat} {i : YItem} (ha : s.commit.checking = some a) (hk : a.session = some k)
    (hi : s.frontItem k = some i) (hop : i.opcode = 2) (hkey : i.idx * 256 + i.sub = objKey 0x2100 1) :
    s.commitDecided = (s.commitEnd a).1.fresh.answer k (reply 2 (objKey 0x2100 1) k
      (if (s.commitOutcome a).1 = 0 then none else some (commitAbort (s.commitOutcome a).1)) false []) := by
  have hi' : (s.commitEnd a).1.frontItem k = some i := by
    rw [← hi]
    unfold frontItem session
    rw [commitEnd_net]
  simp only [commitDecided, ha, hk, hi', hop, hkey, beq_self_eq_true, Bool.and_true, if_true, commitEnd_snd]
  rfl

/-- A commit of the Bench port leaves its code there. -/
theorem commitDecided_of_bench {a : Checking} (ha : s.commit.checking = some a) (hk : a.session = none) :
    s.commitDecided = { (s.commitEnd a).1 with bench := { s.bench with ctcCode := (s.commitOutcome a).1 } } := by
  simp only [commitDecided, ha, hk, commitEnd_snd, commitEnd_bench]

end State

end Sys2Proof.Machine
end

section
/-! PROOFS. The statements about state requests and about the commands on the settings sets. -/

set_option Elab.async false

open Sys2Proof Sys2Proof.Machine

/-- Settles O40: the four rows are one WRITE of State request, whose action is requestState. -/
theorem stateRequests : Obligations.StateRequests := by
  unfold Obligations.StateRequests
  refine ⟨fun code k c data s hc hd h => ?_, fun code k c data x a s hc hd hf hx ha hr => ?_, fun k data s h => ?_⟩
  · have hu : s.fresh.act k (objKey 0x2000 2) (ofBytes data) = (s.fresh.requestState k code, false) := by rw [hd]; rfl
    rw [State.exec_stateRequest hc hd, State.hostWrite_action h (by decide) (by decide) hu, State.requestState_eq]
    rfl
  · subst hd
    rw [State.exec_stateRequest hc rfl, State.hostWrite_of_abort hx hf ha, State.noteRefusal_stateRequest hr]
    rfl
  · exact congrArg _ (State.hostWrite_action h (by decide) (by decide) rfl)

/-- Settles O41: each row is a WRITE whose action the equations of its object give, and the end of the checks is commitEnd. -/
theorem settingsRows : Obligations.SettingsRows := by
  unfold Obligations.SettingsRows
  refine ⟨⟨fun k data s h hnone => ?_, fun k data s h => ?_, fun k data s h => ?_, fun k data s h => ?_⟩,
    fun a s _ => ⟨State.commitEnd_snd a s, State.commitEnd_fst a s⟩,
    fun a k i s ha hk hi hop hkey => congrArg _ (State.commitDecided_of_host ha hk hi hop hkey),
    fun a s ha hk => congrArg _ (State.commitDecided_of_bench ha hk)⟩
  · exact congrArg _ ((State.hostWrite_commit h).trans (State.startCommit_of_none (s := s.fresh) hnone ..))
  · obtain ⟨hstaged, hcommit, himport⟩ := State.discardSets_spec (ofBytes data) s.fresh
    exact ⟨_, congrArg _ (State.hostWrite_action h (by decide) (by decide) rfl), hstaged, hcommit, himport,
      (State.discardSets_changes ..).after ((State.fresh_changes s).mono (by decide)) (by decide)⟩
  · exact congrArg _ (State.hostWrite_action h (by decide) (by decide) rfl)
  · exact congrArg _ (State.hostWrite_action h (by decide) (by decide) rfl)

/-- Settles O42: an outcome of 0 passes every check, and a commit that applies merges the staged values of its groups into both copies. -/
theorem committedSets : Obligations.CommittedSets := by
  unfold Obligations.CommittedSets
  refine ⟨fun a s h => State.checks_pass_of_commitOutcome_code h, fun p s hs ha ha2 => ?_⟩
  exact ⟨Store.raw_merge hs, Store.raw_merge hs, Store.blob_merge hs, rfl, (State.applyCommit_changes p s).mono (by decide)⟩

end

section
/-! PROOFS. The rows of a host on sensing paths, lanes, trips and gate-driver links (R61, R115, R149, R163). -/

set_option Elab.async false

namespace Sys2Proof.Machine

/-! ### Restore paths -/

/-- A named path as it stands once restored: a failed one starts to count. -/
def restoredPath (p : SdPath) : SdPath := if p.failed then { p with failed := false, restoring := some 0, diff := 0 } else p

theorem restoredPath_idem (p : SdPath) : restoredPath (restoredPath p) = restoredPath p := by
  cases hp : p.failed <;> simp [restoredPath, hp]

namespace SenseState

theorem path_setPath (s : SenseState) (i j : Nat) {f : SdPath → SdPath} (hf : f {} = {}) :
    (s.setPath i f).path j = if j = i then f (s.path j) else s.path j := by
  unfold path setPath
  split
  case isTrue h => subst h; exact nth_upd_self hf
  case isFalse h => exact nth_upd_of_ne h

/-- Restoring once or several times is the same. -/
theorem path_restored (l : List Nat) (s : SenseState) (j : Nat) :
    (l.foldl (fun (x : SenseState) sd => x.setPath sd restoredPath) s).path j = if j ∈ l then restoredPath (s.path j) else s.path j := by
  induction l generalizing s with
  | nil => rfl
  | cons i l ih =>
    rw [List.foldl_cons, ih, path_setPath _ _ _ rfl]
    by_cases hi : j = i
    · subst hi
      simp [restoredPath_idem]
    · simp [hi]

theorem pairs_restored (l : List Nat) (s : SenseState) : (l.foldl (fun (x : SenseState) sd => x.setPath sd restoredPath) s).pairs = s.pairs := by
  induction l generalizing s with
  | nil => rfl
  | cons i l ih => exact ih _

end SenseState

theorem mem_bitsSet {n x i : Nat} : i ∈ bitsSet n x ↔ i < n ∧ bit x i = true := by simp [bitsSet, bit]

namespace State

variable {s : State}

theorem restorePaths_sense (mask : Nat) (s : State) :
    (s.restorePaths mask).sense = (bitsSet 28 mask).foldl (fun (x : SenseState) sd => x.setPath sd restoredPath) s.sense := rfl

theorem restorePaths_path (mask sd : Nat) (s : State) :
    (s.restorePaths mask).sense.path sd = if sd < 28 ∧ bit mask sd = true ∧ (s.sense.path sd).failed = true
      then { s.sense.path sd with failed := false, restoring := some 0, diff := 0 } else s.sense.path sd := by
  rw [restorePaths_sense, SenseState.path_restored]
  simp only [mem_bitsSet, restoredPath]
  by_cases h : sd < 28 ∧ bit mask sd = true
  · simp [h]
  · rw [if_neg h, if_neg fun hn => h ⟨hn.1, hn.2.1⟩]

theorem applyPart_restorePaths {w : PendWrite} (hw : w.key = objKey 0x6020 7) (s : State) : s.applyPart w = s.restorePaths w.raw := by
  have ha : actsAtBoundary (objKey 0x6020 7) = true := rfl
  rw [applyPart, hw, ha, if_pos rfl, actAtBoundary, if_pos rfl]

end State

/-! ### Lane tests -/

/-- Two lane states that differ in the roles of the available full lanes at most. -/
structure LaneState.SameButRoles (l u : LaneState) : Prop where
  lane : ∀ x < 2, u.lane x = { l.lane x with st := (u.lane x).st }
  under : ∀ x < 2, 2 ≤ (l.lane x).st → (u.lane x).st = (l.lane x).st
  chk : u.chk = l.chk

namespace LaneState

theorem SameButRoles.refl (l : LaneState) : SameButRoles l l := ⟨fun _ _ => rfl, fun _ _ _ => rfl, rfl⟩

theorem SameButRoles.trans {l u v : LaneState} (h : SameButRoles l u) (k : SameButRoles u v) : SameButRoles l v :=
  ⟨fun x hx => by rw [k.lane x hx, h.lane x hx], fun x hx hl => (k.under x hx (by rwa [h.under x hx hl])).trans (h.under x hx hl), k.chk.trans h.chk⟩

/-- An available lane takes a role. -/
theorem setLane_sameButRoles (l : LaneState) {x : Nat} {f : FullLane → FullLane} (hf : ∀ y, f y = { y with st := (f y).st })
    (hunder : 2 ≤ (l.lane x).st → (f (l.lane x)).st = (l.lane x).st) : SameButRoles l (l.setLane x f) := by
  by_cases hx0 : x = 0
  · subst hx0
    refine ⟨fun y hy => ?_, fun y hy => ?_, rfl⟩ <;> obtain rfl | rfl : y = 0 ∨ y = 1 := by omega
    · exact hf _
    · rfl
    · exact hunder
    · exact fun _ => rfl
  · have hlane : l.lane x = l.b := if_neg hx0
    rw [hlane] at hunder
    have hset : l.setLane x f = { l with b := f l.b } := if_neg hx0
    rw [hset]
    refine ⟨fun y hy => ?_, fun y hy => ?_, rfl⟩ <;> obtain rfl | rfl : y = 0 ∨ y = 1 := by omega
    · rfl
    · exact hf _
    · exact fun _ => rfl
    · exact hunder

theorem avail_iff (l : LaneState) (x : Nat) : l.avail x = true ↔ (l.lane x).st ≤ 1 := by simp [avail]

theorem makeActive_sameButRoles (l : LaneState) {x : Nat} (hx : x < 2) (h : l.avail x = true) : SameButRoles l (l.makeActive x) := by
  rw [avail_iff] at h
  unfold makeActive
  extract_lets u
  have hu : SameButRoles l u := setLane_sameButRoles l (fun y => by split <;> rfl) (fun h2 => by rw [if_neg (by omega)])
  have hux : (u.lane x).st = (l.lane x).st := by
    obtain rfl | rfl : x = 0 ∨ x = 1 := by omega
    · rfl
    · rfl
  obtain ⟨hlane, hunder, hchk⟩ := hu.trans (setLane_sameButRoles u (x := x) (f := fun y => { y with st := 0 }) (fun y => rfl) (fun h2 => by omega))
  exact ⟨hlane, hunder, hchk⟩

theorem chooseActive_sameButRoles (l : LaneState) : SameButRoles l l.chooseActive := by
  unfold chooseActive
  split
  case isTrue h =>
    have hst := (l.avail_iff _).1 h.2
    exact setLane_sameButRoles l (fun y => rfl) (fun h2 => by omega)
  case isFalse =>
    split
    case isTrue h => exact makeActive_sameButRoles l (by decide) h
    case isFalse =>
      split
      case isTrue h => exact makeActive_sameButRoles l (by decide) h
      case isFalse => exact .refl l

/-- A full lane whose self-test a host requests (R115). -/
def hostTested (now : Nat) (f : FullLane) : FullLane :=
  { f with st := 2, testing := some now, testPassed := false, syncDone := false, probation := 0, hostTest := true, diverged := false, report := none, computed := none }

/-- The lanes once the tests of a mask have begun, before an active lane is chosen. -/
def beginTests (now mask : Nat) (l : LaneState) : LaneState :=
  let l := if bit mask 0 then l.setLane 0 (hostTested now) else l
  let l := if bit mask 1 then l.setLane 1 (hostTested now) else l
  if bit mask 2 then { l with chk := { l.chk with st := 2, testing := some now, testPassed := false } } else l

theorem lane_beginTests (now mask : Nat) (l : LaneState) {x : Nat} (hx : x < 2) :
    (beginTests now mask l).lane x = if bit mask x then hostTested now (l.lane x) else l.lane x := by
  obtain rfl | rfl : x = 0 ∨ x = 1 := by omega
  all_goals
    unfold beginTests
    dsimp only
    cases bit mask 0 <;> cases bit mask 1 <;> cases bit mask 2 <;> rfl

theorem chk_beginTests {mask : Nat} (h : bit mask 2 = true) (now : Nat) (l : LaneState) :
    (beginTests now mask l).chk.st = 2 ∧ (beginTests now mask l).chk.testing = some now := by
  unfold beginTests
  simp only [h, if_true, and_self]

end LaneState

namespace State

variable {s : State}

/-- The lanes under a host's test, and the role that a test leaves. -/
theorem laneTest_lanes (mask : Nat) (s : State) :
    (s.lanes.beginTests s.now mask).SameButRoles (s.laneTest mask).lanes ∧ (s.laneTest mask).lanes.testResult = s.frame.fn % 256 * 2 ^ 24 + mask * 16 := by
  refine ⟨?_, rfl⟩
  have h : (s.lanes.beginTests s.now mask).SameButRoles
      (if mask % 4 = 1 ∨ mask % 4 = 2 then (s.lanes.beginTests s.now mask).chooseActive else s.lanes.beginTests s.now mask) := by
    split
    · exact LaneState.chooseActive_sameButRoles _
    · exact .refl _
  obtain ⟨hlane, hunder, hchk⟩ := h
  exact ⟨hlane, hunder, hchk⟩

/-- R115 in the three facts about each lane: a named one is under test, another keeps all but its role. -/
theorem laneTest_spec (mask : Nat) (s : State) :
    (∀ x, x < 2 → bit mask x = true →
      ((s.laneTest mask).lanes.lane x).st = 2 ∧ ((s.laneTest mask).lanes.lane x).testing = some s.now ∧ ((s.laneTest mask).lanes.lane x).hostTest = true)
    ∧ (∀ x, x < 2 → bit mask x = false → (s.laneTest mask).lanes.lane x = { s.lanes.lane x with st := ((s.laneTest mask).lanes.lane x).st })
    ∧ (bit mask 2 = true → (s.laneTest mask).lanes.chk.st = 2 ∧ (s.laneTest mask).lanes.chk.testing = some s.now) := by
  obtain ⟨⟨hlane, hunder, hchk⟩, -⟩ := laneTest_lanes mask s
  refine ⟨fun x hx hb => ?_, fun x hx hb => ?_, fun hb => ?_⟩
  · have hbegin : (s.lanes.beginTests s.now mask).lane x = LaneState.hostTested s.now (s.lanes.lane x) := by
      rw [LaneState.lane_beginTests s.now mask s.lanes hx, if_pos hb]
    have hst := hunder x hx (by rw [hbegin]; exact Nat.le_refl 2)
    have hl := hlane x hx
    rw [hbegin] at hst hl
    refine ⟨hst, ?_, ?_⟩
    · rw [hl]; rfl
    · rw [hl]; rfl
  · have hl := hlane x hx
    rwa [LaneState.lane_beginTests s.now mask s.lanes hx, if_neg (by rw [hb]; exact Bool.false_ne_true)] at hl
  · rw [hchk]
    exact LaneState.chk_beginTests hb ..

/-! ### Trips and links -/

/-- New trip logic keeps its groups and links; the windings of a tripped machine may fail. -/
theorem tripTo_trip_same (t : TripState) (s : State) : TripState.SameTrips t (s.tripTo t).trip := by
  unfold State.tripTo
  extract_lets new first t1 t0 d sig tap ident tripped
  have h1 : TripState.SameTrips t t1 := .ite (TripState.windFail_same ..) (.refl t)
  have h0 : TripState.SameTrips t1 t0 := .ite (TripState.windFail_same ..) (.refl t1)
  rw [(tapLog_changes ..).same .trip (by decide)]
  exact h1.trans h0

theorem tripSource_gdl (now k src : Nat) (inhibit on : Bool) (t : TripState) : (t.source now k src inhibit on).gdl = t.gdl := by
  unfold TripState.source
  dsimp only
  (repeat' split) <;> rfl

theorem linkRerun_gdl (link : Nat) (s : State) : (s.linkRerun link).trip.gdl = upd s.trip.gdl link (fun _ =>
    ({ nth s.trip.gdl link {} with rerun := true } : GdlLink).startWaiting s.cfg link) :=
  (tripTo_trip_same ..).gdl.trans (tripSource_gdl ..)

/-- A request on a gate-driver link names an entry, or a rerun of the setup. -/
theorem act_link (k raw : Nat) (s : State) : s.act k (objKey 0x5070 5) raw =
    (if bit raw 14 then (s.linkRerun (bits raw 15 15), false) else (s.linkRequest (bits raw 15 15) (bits raw 5 0), false)) := rfl

/-- Trip clear: its answer tells whether a clear was refused. -/
theorem hostWrite_tripClear {k : Nat} {data : List Byte} (h : Accepted k (objKey 0x5040 7) data s) :
    s.hostWrite k (objKey 0x5040 7) data = ({ s.fresh with trip := (s.trip.clear s.now (ofBytes data)).1 }.answer k
      (reply 2 (objKey 0x5040 7) k (if (s.trip.clear s.now (ofBytes data)).2 then some .state else none) false [])) := by
  rw [hostWrite_of_accepted h (by decide), writeValue_of_actionKey (by decide)]
  rfl

end State

end Sys2Proof.Machine
end

section
/-! PROOFS. The statement about a host's rows on paths, lanes, trips, links and the safe-off test. -/

set_option Elab.async false

open Sys2Proof Sys2Proof.Machine

/-- Settles O43: each row is a WRITE whose action the equations above give. -/
theorem senseAndTripRows : Obligations.SenseAndTripRows := by
  unfold Obligations.SenseAndTripRows
  refine ⟨⟨fun k data s h => congrArg _ (State.hostWrite_action h (by decide) (by decide) rfl), fun key raw s => ?_, fun w s hw => ?_,
    fun k data s h => congrArg _ (State.hostWrite_action h (by decide) (by decide) rfl), fun k data s h => ?_,
    fun k data s h => congrArg _ (State.hostWrite_action h (by decide) (by decide) rfl)⟩,
    fun k data s h => congrArg _ (State.hostWrite_tripClear h), fun k data s h hbit => ?_, fun k data s h hbit => ?_,
    fun k data s h => congrArg _ (State.hostWrite_action h (by decide) (by decide) rfl)⟩
  · obtain ⟨hparts, hown⟩ := State.waitingParts_spec key raw [] s
    exact ⟨_, rfl, hparts, hown⟩
  · rw [State.applyPart_restorePaths hw]
    exact ⟨State.restorePaths_changes .., SenseState.pairs_restored .., fun sd => State.restorePaths_path ..⟩
  · obtain ⟨htest, hkeep, hchk⟩ := State.laneTest_spec (ofBytes data) s.fresh
    exact ⟨_, congrArg _ (State.hostWrite_action h (by decide) (by decide) rfl),
      (State.laneTest_changes ..).after ((State.fresh_changes s).mono (by decide)) (by decide), rfl, (State.laneTest_lanes ..).2, htest, hkeep, hchk⟩
  · have hp : (!bit (ofBytes data) 14) = true := by rw [hbit]; rfl
    have hu := State.act_link k (ofBytes data) s.fresh
    rw [hbit] at hu
    exact congrArg _ ((State.hostAction_of hp).trans (State.hostWrite_action h (by decide) (by decide) hu))
  · have hu := State.act_link k (ofBytes data) s.fresh
    rw [hbit] at hu
    exact ⟨_, congrArg _ ((State.hostAction_of hbit).trans (State.hostWrite_action h (by decide) (by decide) hu)), (State.linkRerun_changes ..).same .net (by decide),
      State.linkRerun_gdl .., (State.linkRerun_changes ..).after ((State.fresh_changes s).mono (by decide)) (by decide)⟩

end

section
/-! PROOFS. The rows of a host on chimes, tap tests, test signals and the capture, on firmware updates, key slots and twins. -/

set_option Elab.async false

namespace Sys2Proof.Machine

/-! ### The flash operation queue (R388) -/

namespace FlashState

/-- Two flash states that differ in the queue at most: the operation that runs, those that wait, the check of an entry whose program has begun, and
the records dropped. -/
def SameButQueue (f g : FlashState) : Prop :=
  g = { f with current := g.current, jobs := g.jobs, entries := g.entries, logDropped := g.logDropped }

namespace SameButQueue

variable {f g h : FlashState}

theorem refl (f : FlashState) : SameButQueue f f := rfl

theorem trans (a : SameButQueue f g) (b : SameButQueue g h) : SameButQueue f h := by
  unfold SameButQueue at *
  rw [b, a]

theorem of_queue (f : FlashState) (c : Option FlashJob) (l : List FlashJob) : SameButQueue f { f with current := c, jobs := l } := rfl

theorem update_eq (a : SameButQueue f g) : g.update = f.update := by rw [a]
theorem bankA_eq (a : SameButQueue f g) : g.bankA = f.bankA := by rw [a]
theorem bankB_eq (a : SameButQueue f g) : g.bankB = f.bankB := by rw [a]

theorem bank_eq (a : SameButQueue f g) (b : Bool) : g.bank b = f.bank b := by rw [a]; rfl

end SameButQueue

theorem begun_sameButQueue (j : FlashJob) (f : FlashState) : SameButQueue f (begun j f) := by
  unfold begun
  split
  · split <;> rfl
  · rfl

theorem startNext_sameButQueue (stopped : Bool) (f : FlashState) : SameButQueue f (startNext stopped f) := by
  unfold startNext
  split
  · rfl
  · dsimp only
    split
    · rfl
    · exact (SameButQueue.of_queue ..).trans (begun_sameButQueue ..)

theorem push_sameButQueue (stopped : Bool) (k : FlashKind) (f : FlashState) : SameButQueue f (push stopped k f) :=
  (SameButQueue.of_queue ..).trans (startNext_sameButQueue ..)

theorem logRecord_sameButQueue (stopped : Bool) (r : List Byte) (f : FlashState) : SameButQueue f (logRecord stopped r f) := by
  unfold logRecord
  split
  · rfl
  · exact push_sameButQueue ..

end FlashState

namespace State

variable {s : State}

theorem logEvent_sameButQueue (kind : Nat) (payload : List Byte) (s : State) : FlashState.SameButQueue s.flash (s.logEvent kind payload).flash :=
  FlashState.logRecord_sameButQueue ..

theorem updateLog_sameButQueue (s : State) : FlashState.SameButQueue s.flash s.updateLog.flash := logEvent_sameButQueue ..

/-! ### Firmware updates (R398) -/

/-- The other actions than Erase and Abort start in one way. -/
theorem updateAction_starts {code : Nat} (h1 : code ≠ 1) (h5 : code ≠ 5) (s : State) : s.updateAction code =
    { s with flash := { s.flash with update := { s.flash.update with action := code, result := 0, running := some code } } } := by
  unfold updateAction
  dsimp only
  split
  · exact absurd rfl h1
  · exact absurd rfl h5
  · rfl

theorem updateAction_abort_update (s : State) : (s.updateAction 5).flash.update = { s.flash.update with
    action := 5, result := 5, running := none, erased := s.flash.update.erased && s.flash.update.running != some 1 } :=
  (updateLog_sameButQueue _).update_eq

/-- The end of an action changes of the running bank at most its record, and no action runs then. -/
theorem actionDone_spec (a : Nat) (ok : Bool) (f : FlashState) : (actionDone a ok f).update.running = none
    ∧ (actionDone a ok f).bank f.runningB = { f.bank f.runningB with record := ((actionDone a ok f).bank f.runningB).record } := by
  unfold actionDone FlashState.bank FlashState.setBank
  cases f.runningB <;> dsimp only <;> split
  case h_2 | h_2 => exact ⟨rfl, rfl⟩
  all_goals split <;> exact ⟨rfl, rfl⟩

theorem updateDone_of_running {a : Nat} (h : s.flash.update.running = some a) (ok : Bool) :
    s.updateDone ok = ({ s with flash := actionDone a ok s.flash } : State).updateLog := by
  simp only [updateDone, h]

/-! ### Key slots (R353) -/

theorem session_closeSession (j k : Nat) (s : State) : (s.closeSession j).session k = if k = j then none else s.session k := by
  unfold session closeSession nth
  by_cases h : k = j
  · subst h
    by_cases hk : k < s.net.sessions.length <;> simp [hk]
  · simp [h, List.getElem?_set_ne (Ne.symm h)]

/-- Whether a key's new content closes a session: one of the slot other than the writer's. -/
def slotCloses (k slot j : Nat) (y : Session) : Bool := j != k && y.slot == slot && y.authenticated

/-- Session j is closed where the slot's new content closes it. -/
def closeOfSlot (k slot : Nat) (s : State) (j : Nat) : State :=
  match s.session j with
  | some y => if slotCloses k slot j y then s.closeSession j else s
  | none => s

theorem closeOfSlot_slots (k slot j : Nat) (s : State) : (closeOfSlot k slot s j).net.slots = s.net.slots := by
  unfold closeOfSlot
  split
  · split <;> rfl
  · rfl

/-- Closing session j touches no other, and leaves it none that the slot's new content closes. -/
theorem closeOfSlot_session (k slot j i : Nat) (s : State) : (closeOfSlot k slot s j).session i = s.session i
    ∨ (i = j ∧ (closeOfSlot k slot s j).session i = none ∧ ∃ y, s.session j = some y ∧ slotCloses k slot j y = true) := by
  unfold closeOfSlot
  split
  next y hy =>
    split
    next hc =>
      by_cases hi : i = j
      · exact .inr ⟨hi, (session_closeSession ..).trans (if_pos hi), y, hy, hc⟩
      · exact .inl ((session_closeSession ..).trans (if_neg hi))
    next => exact .inl rfl
  next => exact .inl rfl

theorem closeOfSlot_closed {k slot j : Nat} {y : Session} (h : (closeOfSlot k slot s j).session j = some y) : slotCloses k slot j y = false := by
  cases hs : s.session j with
  | none =>
    have hu : closeOfSlot k slot s j = s := by simp only [closeOfSlot, hs]
    rw [hu, hs] at h
    cases h
  | some z =>
    cases hc : slotCloses k slot j z with
    | true =>
      have hu : closeOfSlot k slot s j = s.closeSession j := by simp only [closeOfSlot, hs, hc, if_true]
      rw [hu, session_closeSession, if_pos rfl] at h
      cases h
    | false =>
      have hu : closeOfSlot k slot s j = s := by simp only [closeOfSlot, hs, hc, Bool.false_eq_true, if_false]
      rw [hu, hs] at h
      cases h
      exact hc

theorem foldl_closeOfSlot_slots (k slot : Nat) (l : List Nat) (s : State) : (l.foldl (closeOfSlot k slot) s).net.slots = s.net.slots := by
  induction l generalizing s with
  | nil => rfl
  | cons j l ih => exact (ih _).trans (closeOfSlot_slots ..)

theorem foldl_closeOfSlot_writer (k slot : Nat) (l : List Nat) (s : State) : (l.foldl (closeOfSlot k slot) s).session k = s.session k := by
  induction l generalizing s with
  | nil => rfl
  | cons j l ih =>
    refine (ih _).trans ((closeOfSlot_session k slot j k s).resolve_right ?_)
    rintro ⟨rfl, -, y, -, hc⟩
    simp [slotCloses] at hc

/-- A session that is open after the fold was open before it. -/
theorem foldl_closeOfSlot_kept {k slot i : Nat} {l : List Nat} {y : Session} (h : (l.foldl (closeOfSlot k slot) s).session i = some y) :
    s.session i = some y := by
  induction l generalizing s with
  | nil => exact h
  | cons j l ih =>
    have hj := ih h
    rcases closeOfSlot_session k slot j i s with hs | ⟨-, hs, -⟩
    · rw [← hs, hj]
    · rw [hs] at hj; cases hj

theorem foldl_closeOfSlot_closed {k slot i : Nat} {l : List Nat} {y : Session} (hi : i ∈ l)
    (h : (l.foldl (closeOfSlot k slot) s).session i = some y) : slotCloses k slot i y = false := by
  induction l generalizing s with
  | nil => cases hi
  | cons j l ih =>
    rcases List.mem_cons.1 hi with rfl | hi
    · exact closeOfSlot_closed (foldl_closeOfSlot_kept h)
    · exact ih hi h

/-- A key slot's new content, before the other sessions of the slot close. -/
def keySlotSet (x : Session) (slot : Nat) (v : List Byte) (s : State) : State :=
  { s with
    net := { s.net with slots := upd s.net.slots slot (fun (y : KeySlot) =>
      { level := ofBytes (v.take 1), writes := satInc 255 y.writes, key := unwrapKey x.key slot (v.map (·.toNat)) }) }
    flash := s.flash.push s.stopped (.keySlot slot) }

theorem keySlotStore_of_session {k : Nat} {x : Session} (hx : s.session k = some x) (slot : Nat) (v : List Byte) :
    s.keySlotStore k slot v = (List.range 16).foldl (closeOfSlot k slot) (s.keySlotSet x slot v) := by
  simp only [keySlotStore, hx]
  rfl

/-- R353 in the facts about the slots and the sessions. -/
theorem keySlotStore_spec {k : Nat} {x : Session} (hx : s.session k = some x) (slot : Nat) (v : List Byte) :
    (s.keySlotStore k slot v).net.slots = upd s.net.slots slot (fun y =>
        { level := ofBytes (v.take 1), writes := satInc 255 y.writes, key := unwrapKey x.key slot (v.map (·.toNat)) })
      ∧ (∀ j y, (s.keySlotStore k slot v).session j = some y → j ≠ k → j < 16 → y.authenticated = true → y.slot ≠ slot)
      ∧ (s.keySlotStore k slot v).session k = s.session k := by
  rw [keySlotStore_of_session hx]
  refine ⟨foldl_closeOfSlot_slots .., fun j y hy hj hlt hauth hslot => ?_, foldl_closeOfSlot_writer ..⟩
  have hc := foldl_closeOfSlot_closed (List.mem_range.2 hlt) hy
  simp [slotCloses, hj, hauth, hslot] at hc

theorem writeValue_keySlot {key : Nat} (h : key / 256 = 0x1410) (hblob : ∀ r, findRow key = some r → r.ty.isBlob = true) (hrow : (findRow key).isSome = true)
    (k : Nat) (data : List Byte) (s : State) : s.writeValue k key data = ((s.dropTransfer k key).keySlotStore k (key % 256 - 1) data, false) := by
  unfold State.writeValue
  cases hr : findRow key with
  | none => rw [hr] at hrow; cases hrow
  | some r => simp only [hblob r hr, if_true, if_neg (ne_imageKey_of_keySlot h), storeBlob_of_keySlot h]

theorem keySlot_row_isSome : ∀ slot < 8, (findRow (objKey 0x1410 (slot + 1))).isSome = true := by decide

/-- An accepted WRITE of a key slot. -/
theorem hostKeySlot_of_write {slot k : Nat} {data : List Byte} {i : YItem} (hslot : slot < 8) (h : Accepted k (objKey 0x1410 (slot + 1)) data s)
    (hi : s.frontItem k = some i) (hop : i.opcode = 2) : s.hostKeySlot k slot data =
      ((s.fresh.dropTransfer k (objKey 0x1410 (slot + 1))).keySlotStore k slot data).acked k (objKey 0x1410 (slot + 1)) := by
  have hkey : objKey 0x1410 (slot + 1) / 256 = 0x1410 := by unfold objKey; omega
  have hsub : objKey 0x1410 (slot + 1) % 256 - 1 = slot := by unfold objKey; omega
  have hblob : ∀ r, findRow (objKey 0x1410 (slot + 1)) = some r → r.ty.isBlob = true := fun r hr => by
    have hall := keySlot_row_isBlob slot hslot
    rw [hr] at hall
    exact hall
  have hw := writeValue_keySlot hkey hblob (keySlot_row_isSome slot hslot) k data s.fresh
  rw [hsub] at hw
  have hne : ¬ i.opcode = 4 := by omega
  simp only [hostKeySlot, hi, if_neg hne]
  exact hostWrite_acked h (by unfold objKey; omega) hw

/-! ### Twin swap (R386) -/

/-- The swap of one machine: the active twin hands off, the standby twin asks. -/
def swapTwin (s : State) (m : Nat) : State :=
  if (nth s.chain.m m {}).twin = 1 then s.handOffTo m
  else { s with chain := { s.chain with m := upd s.chain.m m (fun x => { x with asked := true }) } }

theorem swapTwins_eq_foldl (mask : Nat) (s : State) : s.swapTwins mask = (bitsSet 2 mask).foldl swapTwin s := rfl

theorem swapTwin_length (s : State) (m : Nat) : (swapTwin s m).chain.m.length = s.chain.m.length := by
  unfold swapTwin
  split <;> simp [upd]

theorem swapTwin_net (s : State) (m : Nat) : (swapTwin s m).net = s.net := by
  unfold swapTwin
  split <;> rfl

theorem swapTwin_of_ne {m j : Nat} (h : j ≠ m) (s : State) : nth (swapTwin s m).chain.m j {} = nth s.chain.m j {} := by
  unfold swapTwin
  split
  · exact nth_upd_of_ne h
  · exact nth_upd_of_ne h

theorem swapTwin_asks {m : Nat} (htwin : (nth s.chain.m m {}).twin = 2) (hm : m < s.chain.m.length) :
    (nth (swapTwin s m).chain.m m {}).asked = true := by
  unfold swapTwin
  rw [if_neg (by omega)]
  exact congrArg _ (nth_upd_of_lt hm)

theorem swapTwin_handsOff {m : Nat} (htwin : (nth s.chain.m m {}).twin = 1) (hm : m < s.chain.m.length) :
    (nth (swapTwin s m).chain.m m {}).twin = 2 := by
  unfold swapTwin
  rw [if_pos htwin]
  exact congrArg _ (nth_upd_of_lt hm)

/-- A fold over other machines leaves a machine as it is. -/
theorem foldl_swapTwin_of_not_mem {j : Nat} {l : List Nat} (h : j ∉ l) (s : State) : nth (l.foldl swapTwin s).chain.m j {} = nth s.chain.m j {} := by
  induction l generalizing s with
  | nil => rfl
  | cons m l ih =>
    rw [List.foldl_cons, ih (fun hl => h (List.mem_cons_of_mem _ hl))]
    exact swapTwin_of_ne (fun hj => h (by simp [hj])) s

theorem foldl_swapTwin_net (l : List Nat) (s : State) : (l.foldl swapTwin s).net = s.net := by
  induction l generalizing s with
  | nil => rfl
  | cons m l ih => exact (ih _).trans (swapTwin_net ..)

theorem foldl_swapTwin_mem {P : ChainMachine → Prop} {j : Nat} {l : List Nat} (hl : l.Nodup) (hj : j ∈ l)
    (h : ∀ u : State, nth u.chain.m j {} = nth s.chain.m j {} → u.chain.m.length = s.chain.m.length → P (nth (swapTwin u j).chain.m j {})) :
    P (nth (l.foldl swapTwin s).chain.m j {}) := by
  induction l generalizing s with
  | nil => cases hj
  | cons m l ih =>
    obtain ⟨hm, hnodup⟩ := List.nodup_cons.1 hl
    rw [List.foldl_cons]
    by_cases hjm : j = m
    · subst hjm
      rw [foldl_swapTwin_of_not_mem hm]
      exact h s rfl rfl
    · refine ih hnodup ((List.mem_cons.1 hj).resolve_left hjm) fun u hu hlen => h u ?_ ?_
      · exact hu.trans (swapTwin_of_ne hjm s)
      · exact hlen.trans (swapTwin_length s m)

theorem bitsSet_nodup (n x : Nat) : (bitsSet n x).Nodup := List.nodup_range.filter _

/-- A named machine with its twin is swapped; the others stay. -/
theorem swapTwins_spec (mask : Nat) (s : State) :
    (∀ m, m < 2 → bit mask m = true → (nth s.chain.m m {}).twin = 2 → m < s.chain.m.length → (nth (s.swapTwins mask).chain.m m {}).asked = true)
      ∧ (∀ m, m < 2 → bit mask m = true → (nth s.chain.m m {}).twin = 1 → m < s.chain.m.length → (nth (s.swapTwins mask).chain.m m {}).twin = 2)
      ∧ (∀ m, bit mask m = false → nth (s.swapTwins mask).chain.m m {} = nth s.chain.m m {}) := by
  rw [swapTwins_eq_foldl]
  refine ⟨fun m hm hb ht hl => ?_, fun m hm hb ht hl => ?_, fun m hb => ?_⟩
  · exact foldl_swapTwin_mem (P := fun x => x.asked = true) (bitsSet_nodup ..) (mem_bitsSet.2 ⟨hm, hb⟩)
      fun u hu hlen => swapTwin_asks (by rw [hu, ht]) (by rwa [hlen])
  · exact foldl_swapTwin_mem (P := fun x => x.twin = 2) (bitsSet_nodup ..) (mem_bitsSet.2 ⟨hm, hb⟩)
      fun u hu hlen => swapTwin_handsOff (by rw [hu, ht]) (by rwa [hlen])
  · exact foldl_swapTwin_of_not_mem (fun hl => by rw [(mem_bitsSet.1 hl).2] at hb; cases hb) s

end State

end Sys2Proof.Machine
end

section
/-! PROOFS. The statements about a host's rows on sounds and tests, firmware updates, key slots and twins. -/

set_option Elab.async false

open Sys2Proof Sys2Proof.Machine

/-- Settles O44: each row is a WRITE whose action the model's equations give. -/
theorem hearthAndTestRows : Obligations.HearthAndTestRows := by
  unfold Obligations.HearthAndTestRows
  refine ⟨⟨fun g k data s hg h => ?_, fun k data s h => congrArg _ (State.hostWrite_action h (by decide) (by decide) rfl),
    fun k data s h => congrArg _ (State.hostWrite_action h (by decide) (by decide) rfl), fun k c data s hc h => ?_⟩,
    fun k data s h => congrArg _ (State.hostWrite_action h (by decide) (by decide) rfl),
    fun k data s h => congrArg _ (State.hostWrite_action h (by decide) (by decide) rfl), fun code k c data s hc hd h => ?_⟩
  · have hkey : ∀ g < 2, actionKey (objKey (0x7020 + g) 1) = true := by decide
    have hact : s.fresh.act k (objKey (0x7020 + g) 1) (ofBytes data) = (s.fresh.chimeWrite g (ofBytes data), false) := by
      obtain rfl | rfl : g = 0 ∨ g = 1 := by omega
      · rfl
      · rfl
    have hw := State.hostWrite_action h (hkey g hg) (by unfold objKey; omega) hact
    exact ⟨fun hb => congrArg _ ((State.hostAction_of (by rw [hb]; rfl)).trans hw), fun hb => congrArg _ ((State.hostAction_of hb).trans hw)⟩
  · have hw := State.hostWrite_action h (by decide) (by decide) (u := s.fresh.tapRequest (ofBytes data)) rfl
    obtain ⟨rfl, ha, hb⟩ | ⟨rfl, ha, hb⟩ | ⟨rfl, ha, hb⟩ | ⟨rfl, ha, hb⟩ | ⟨rfl, hb⟩ := hc
    case inr.inr.inr.inr => exact congrArg _ ((State.hostAction_of hb).trans hw)
    all_goals exact congrArg _ ((State.hostAction_of (by rw [ha, hb]; rfl)).trans hw)
  · have hw := State.hostWrite_action h (by decide) (by decide) (u := s.fresh.captureWrite code) (by rw [hd]; rfl)
    simp only [List.mem_cons, Prod.mk.injEq, List.not_mem_nil, or_false] at hc
    obtain ⟨rfl, rfl⟩ | ⟨rfl, rfl⟩ | ⟨rfl, rfl⟩ := hc <;> exact congrArg _ ((State.hostAction_of (decide_eq_true hd)).trans hw)

/-- Settles O45: the actions start by updateAction and end by actionDone, and their record goes to the flash's queue alone. -/
theorem firmwareUpdates : Obligations.FirmwareUpdates := by
  unfold Obligations.FirmwareUpdates
  refine ⟨fun k data s hd h => ?_, fun code k c data s hc hd h => ?_, fun k data s hd h => ?_, fun a ok s hw hstaging hrun => ?_⟩
  · exact congrArg _ ((State.hostAction_of (decide_eq_true hd)).trans (State.hostWrite_action h (by decide) (by decide) (by rw [hd]; rfl)))
  · have hu : s.fresh.act k (objKey 0xB500 1) (ofBytes data) = (s.fresh.updateAction code, false) := by rw [hd]; rfl
    have ha := State.hostWrite_action h (by decide) (by decide) hu
    simp only [List.mem_cons, Prod.mk.injEq, List.not_mem_nil, or_false] at hc
    obtain ⟨rfl, rfl⟩ | ⟨rfl, rfl⟩ | ⟨rfl, rfl⟩ := hc <;> exact congrArg _ ((State.hostAction_of (decide_eq_true hd)).trans ha)
  · have hu : s.fresh.act k (objKey 0xB500 1) (ofBytes data) = (s.fresh.updateAction 5, false) := by rw [hd]; rfl
    have hc := State.updateAction_changes 5 s.fresh
    exact ⟨_, congrArg _ ((State.hostAction_of (decide_eq_true hd)).trans (State.hostWrite_action h (by decide) (by decide) hu)),
      State.updateAction_abort_update _, hc.same .net (by decide), hc.after ((State.fresh_changes s).mono (by decide)) (by decide)⟩
  · obtain ⟨hnone, hbank⟩ := State.actionDone_spec a ok s.flash
    have hq := State.updateLog_sameButQueue { s with flash := State.actionDone a ok s.flash }
    have hdone : exec (.updateActionDone ok) s = .next (s.updateDone ok) := congrArg _ (if_pos (by simp [hw, hstaging]))
    rw [State.updateDone_of_running hrun] at hdone
    refine ⟨_, hdone, hq.update_eq, (congrArg _ hq.update_eq).trans hnone, hq.bankA_eq, hq.bankB_eq, ?_, ?_⟩
    · rw [hq.bank_eq]
      exact hbank
    · rw [← State.updateDone_of_running hrun]
      exact (State.updateDone_changes ..).mono (by decide)

/-- Settles O46: keySlotStore closes session by session, and swapTwins goes machine by machine. -/
theorem keysAndTwins : Obligations.KeysAndTwins := by
  unfold Obligations.KeysAndTwins
  refine ⟨fun slot k data x i s hslot h hx hi hop => ?_, fun k data s h => ?_⟩
  · obtain ⟨hslots, hclosed, hwriter⟩ :=
      State.keySlotStore_spec (s := s.fresh.dropTransfer k (objKey 0x1410 (slot + 1))) (k := k) (x := x) hx slot data
    exact ⟨_, congrArg _ (State.hostKeySlot_of_write hslot h hi hop), hslots, hclosed, hwriter,
      (State.keySlotStore_changes ..).after (((State.dropTransfer_changes ..).after ((State.fresh_changes s).mono (by decide)) (by decide))) (by decide)⟩
  · obtain ⟨hasks, hhands, hkeep⟩ := State.swapTwins_spec (ofBytes data) s.fresh
    exact ⟨_, congrArg _ (State.hostWrite_action h (by decide) (by decide) rfl), State.foldl_swapTwin_net .., hasks, hhands, hkeep⟩

end

section
/-! PROOFS. An item's answer: it joins the response of its request, which goes out with the last one (R346, R354). -/

set_option Elab.async false

namespace Sys2Proof.Machine

/-! ### The answers of a command -/

/-- Two states with the same answers. -/
def SameAnswers (s t : State) : Prop := t.net.answers = s.net.answers

namespace SameAnswers

variable {ps : List Part} {s t u : State}

theorem refl (s : State) : SameAnswers s s := rfl

theorem trans (h : SameAnswers s t) (k : SameAnswers t u) : SameAnswers s u := Eq.trans k h

theorem of_changes (c : Changes ps s t) (h : .net ∉ ps := by decide) : SameAnswers s t := congrArg _ (c.same .net h)

theorem foldl {α : Type} {f : State → α → State} (h : ∀ s x, SameAnswers s (f s x)) (l : List α) (s : State) : SameAnswers s (l.foldl f s) := by
  induction l generalizing s with
  | nil => exact refl s
  | cons x l ih => exact (h s x).trans (ih _)

end SameAnswers

namespace State

variable {s : State}

theorem noteAbort_answers (k code key : Nat) (s : State) : SameAnswers s (s.noteAbort k code key) := rfl

theorem setSession_answers (k : Nat) (f : Session → Session) (s : State) : SameAnswers s (s.setSession k f) := rfl

theorem respond_answers (k : Nat) (r : Request) (s : State) : SameAnswers s (s.respond k r) := by
  unfold State.respond
  split
  · exact .refl s
  · refine .trans ?_ (setSession_answers ..)
    refine SameAnswers.foldl ?_ _ _
    exact fun _ _ => rfl

theorem netBoundary_answers (r : Request) (s : State) : SameAnswers s (s.netBoundary r) := .of_changes (netBoundary_changes ..)

theorem settleFront_answers (k : Nat) (x : Session) (r : Request) (rest : List Request) (s : State) : SameAnswers s (s.settleFront k x r rest).1 := by
  unfold State.settleFront
  extract_lets more bad u r1 r2 v own
  have hu : SameAnswers s u := SameAnswers.foldl (f := fun (s : State) (a : Answer) => s.noteAbort k a.abort a.key) (fun _ _ => rfl) bad s
  have hv : SameAnswers s v := ((hu.trans (setSession_answers ..)).trans (respond_answers ..)).trans (netBoundary_answers ..)
  split
  · exact hu.trans (setSession_answers ..)
  · split
    · exact hv
    · exact hv

theorem settleRequests_answers (k n : Nat) (s : State) : SameAnswers s (s.settleRequests k n) := by
  induction n generalizing s with
  | zero => exact .refl s
  | succ n ih =>
    unfold State.settleRequests
    split
    · exact .refl s
    · split
      · exact .refl s
      · next x hx r rest hq =>
        dsimp only
        split
        · exact (settleFront_answers ..).trans (ih _)
        · exact settleFront_answers ..

/-- The queue once its front item is answered. -/
def answeredQueue (a : Answer) (x : Session) : Session :=
  match x.queue with
  | r :: rest => { x with queue := { r with items := r.items.drop 1, resp := r.resp ++ [a] } :: rest }
  | [] => x

/-- The abort that an answer leaves in the table. -/
def abortNoted (k : Nat) (a : Answer) (s : State) : State := if a.abort = 0 then s else s.noteAbort k a.abort a.key

theorem answer_eq (k : Nat) (a : Answer) (s : State) : s.answer k a =
    ((abortNoted k a { s with net := { s.net with answers := [a] } }).setSession k (answeredQueue a)).settleAll k := rfl

theorem abortNoted_net (k : Nat) (a : Answer) (s : State) : (abortNoted k a s).net = s.net := by
  unfold abortNoted
  split <;> rfl

theorem abortNoted_aborts (k : Nat) (a : Answer) (s : State) : (abortNoted k a s).table.aborts = if a.abort = 0 then s.table.aborts else inc32 s.table.aborts := by
  unfold abortNoted
  split <;> rfl

/-- A command that answers an item has this one answer. -/
theorem answer_answers (k : Nat) (a : Answer) (s : State) : (s.answer k a).net.answers = [a] := by
  have h : SameAnswers { s with net := { s.net with answers := [a] } } (abortNoted k a { s with net := { s.net with answers := [a] } }) :=
    congrArg _ (abortNoted_net ..)
  exact (h.trans (setSession_answers k (answeredQueue a) _)).trans (settleRequests_answers ..)

theorem session_setSession (k : Nat) (f : Session → Session) (s : State) : (s.setSession k f).session k = (s.session k).map f :=
  nth_upd_self rfl

/-- The front request with an item that waits for its command. -/
theorem settleFront_waits {k : Nat} {x : Session} {r : Request} {rest : List Request} {j : YItem} {l : List YItem} (hr : r.items = j :: l)
    (hj : executable r.image j = true) (s : State) :
    s.settleFront k x r rest = (s.setSession k (fun x => { x with queue := r :: rest }), false) := by
  obtain ⟨seq, iface, source, image, items, resp, tail⟩ := r
  cases hr
  simp [settleFront, hj]

theorem settleAll_waits {k : Nat} {x : Session} {r : Request} {rest : List Request} {j : YItem} {l : List YItem} (hx : s.session k = some x)
    (hq : x.queue = r :: rest) (hr : r.items = j :: l) (hj : executable r.image j = true) :
    s.settleAll k = s.setSession k (fun x => { x with queue := r :: rest }) := by
  simp only [settleAll, settleRequests, hx, hq, settleFront_waits hr hj, Bool.false_eq_true, if_false]

/-- An answer before the last of its request: the response gains it, and no frame goes out. -/
theorem answer_waits {k : Nat} {a : Answer} {x : Session} {r : Request} {rest : List Request} {i j : YItem} {l : List YItem}
    (hx : s.session k = some x) (hq : x.queue = r :: rest) (hr : r.items = i :: j :: l) (hj : executable r.image j = true) :
    (s.answer k a).session k = some { x with queue := { r with items := j :: l, resp := r.resp ++ [a] } :: rest }
      ∧ (s.answer k a).net.sent = s.net.sent ∧ (s.answer k a).table.aborts = (if a.abort = 0 then s.table.aborts else inc32 s.table.aborts) := by
  rw [answer_eq]
  generalize hu : abortNoted k a { s with net := { s.net with answers := [a] } } = u
  have hnet : u.net = { s.net with answers := [a] } := by rw [← hu, abortNoted_net]
  have hsent : u.net.sent = s.net.sent := by rw [hnet]
  have habort : u.table.aborts = if a.abort = 0 then s.table.aborts else inc32 s.table.aborts := by rw [← hu, abortNoted_aborts]
  have hux : u.session k = some x := by unfold session at hx ⊢; rw [hnet]; exact hx
  have hv : (u.setSession k (answeredQueue a)).session k
      = some { x with queue := { r with items := j :: l, resp := r.resp ++ [a] } :: rest } := by
    rw [session_setSession, hux]
    simp only [Option.map_some, answeredQueue, hq, hr, List.drop_succ_cons, List.drop_zero]
  rw [settleAll_waits hv rfl rfl hj]
  refine ⟨?_, ?_, habort⟩
  · rw [session_setSession, hv]
    rfl
  · exact hsent

/-! ### The response -/

/-- Frames handed over one after the other. -/
theorem foldl_send {α : Type} {n : Nat} {f : State → α → TxFrame} (hf : ∀ s x, (f s x).iface = n) (l : List α) (s : State) :
    (l.foldl (fun (s : State) e => s.send (f s e)) s).net.sessions = s.net.sessions
      ∧ ∃ out, (l.foldl (fun (s : State) e => s.send (f s e)) s).net.sent = s.net.sent ++ out ∧ out.length = l.length ∧ ∀ g ∈ out, g.iface = n := by
  induction l generalizing s with
  | nil => exact ⟨rfl, [], (List.append_nil _).symm, rfl, fun _ h => nomatch h⟩
  | cons e l ih =>
    obtain ⟨hs, out, hsent, hlen, hout⟩ := ih (s.send (f s e))
    refine ⟨hs, f s e :: out, ?_, by rw [List.length_cons, List.length_cons, hlen], List.forall_mem_cons.2 ⟨hf s e, hout⟩⟩
    rw [List.foldl_cons, hsent]
    exact List.append_assoc ..

/-- A response takes its frames, and their numbers. -/
theorem respond_spec {k : Nat} {x : Session} (hx : s.session k = some x) (r : Request) :
    (s.respond k r).session k
        = some { x with ownSeq := x.ownSeq + (packItems (frameRoom r.iface x.authenticated) (r.resp.map Answer.bytes)).length }
      ∧ ∃ out, (s.respond k r).net.sent = s.net.sent ++ out
        ∧ out.length = (packItems (frameRoom r.iface x.authenticated) (r.resp.map Answer.bytes)).length ∧ ∀ f ∈ out, f.iface = r.iface := by
  simp only [respond, hx]
  generalize hp : packItems (frameRoom r.iface x.authenticated) (r.resp.map Answer.bytes) = parts
  have h := foldl_send (n := r.iface) (f := fun (s : State) (e : Nat × Nat × List Byte) => s.yoapOut r.iface (s.responsePrio r.iface) r.source
    (wireFrame r.iface { session := k, seq := x.ownSeq + e.1 + 1, ack := r.seq, more := decide (e.1 + 1 < parts.length) } e.2.1 e.2.2 x.macKey))
    (fun _ _ => rfl) (parts.mapIdx (fun i p => (i, p))) s
  obtain ⟨hs, out, hsent, hlen, hout⟩ := h
  refine ⟨?_, out, hsent, hlen.trans (List.length_mapIdx ..), hout⟩
  rw [session_setSession]
  have hk : session k s = some x := hx
  unfold session at hk ⊢
  rw [hs, hk]
  rfl

theorem netBoundary_net (r : Request) (s : State) : (s.netBoundary r).net = s.net := (netBoundary_changes r s).same .net (by decide)

/-- The front request whose items are all answered, where no answer of it closes the session. -/
theorem settleFront_last {k : Nat} {x : Session} {r : Request} (hr : r.items = []) (ht : r.tail = [])
    (hclose : ∀ b ∈ r.resp, b.opcode ≠ 0x11 ∧ b.key / 256 ≠ 0x1410) (s : State) :
    s.settleFront k x r [] = (((s.setSession k (fun x => { x with queue := [] })).respond k r).netBoundary r, true) := by
  obtain ⟨seq, iface, source, image, items, resp, tail⟩ := r
  cases hr
  cases ht
  have hany : ∀ own : Answer → Bool, (∀ b : Answer, b.key / 256 ≠ 0x1410 → own b = false) →
      resp.any (fun (a : Answer) => a.abort == 0 && (a.opcode == 0x11 || own a)) = false := by
    intro own hown
    rw [List.any_eq_false]
    intro b hb
    obtain ⟨hop, hkey⟩ := hclose b hb
    simp [hop, hown b hkey]
  simp only [settleFront, List.dropWhile_nil, List.takeWhile_nil, List.map_nil, List.foldl_nil, List.append_nil, List.isEmpty_nil, Bool.not_true,
    Bool.false_eq_true, if_false]
  rw [if_neg]
  rw [hany _ (fun b hb => by simp [hb])]
  exact Bool.false_ne_true

theorem settleRequests_empty {k : Nat} {x : Session} (hx : s.session k = some x) (hq : x.queue = []) (n : Nat) : s.settleRequests k n = s := by
  cases n with
  | zero => rfl
  | succ n => simp only [settleRequests, hx, hq]

/-- The last answer of the last request sends the response. -/
theorem answer_sends {k : Nat} {a : Answer} {x : Session} {r : Request} {i : YItem} (hx : s.session k = some x) (hq : x.queue = [r])
    (hr : r.items = [i]) (ht : r.tail = []) (hclose : ∀ b ∈ r.resp ++ [a], b.opcode ≠ 0x11 ∧ b.key / 256 ≠ 0x1410) :
    (s.answer k a).session k = some { x with queue := [], ownSeq := x.ownSeq
        + (packItems (frameRoom r.iface x.authenticated) ((r.resp ++ [a]).map Answer.bytes)).length }
      ∧ ∃ out, (s.answer k a).net.sent = s.net.sent ++ out
        ∧ out.length = (packItems (frameRoom r.iface x.authenticated) ((r.resp ++ [a]).map Answer.bytes)).length ∧ ∀ f ∈ out, f.iface = r.iface := by
  rw [answer_eq]
  generalize hu : abortNoted k a { s with net := { s.net with answers := [a] } } = u
  have hnet : u.net = { s.net with answers := [a] } := by rw [← hu, abortNoted_net]
  have hux : u.session k = some x := by unfold session at hx ⊢; rw [hnet]; exact hx
  have hv : (u.setSession k (answeredQueue a)).session k = some { x with queue := [{ r with items := [], resp := r.resp ++ [a] }] } := by
    rw [session_setSession, hux]
    simp only [Option.map_some, answeredQueue, hq, hr, List.drop_succ_cons, List.drop_zero]
  generalize hvv : u.setSession k (answeredQueue a) = v at hv
  have hsent : v.net.sent = s.net.sent := by
    have husent : u.net.sent = s.net.sent := by rw [hnet]
    rw [← hvv]
    exact husent
  have hw : (v.setSession k (fun x => { x with queue := [] })).session k = some { x with queue := [] } := by rw [session_setSession, hv]; rfl
  obtain ⟨hsess, out, hout, hlen, hif⟩ := respond_spec hw { r with items := [], resp := r.resp ++ [a] }
  have hend : ∀ y : State, y.net = ((v.setSession k (fun x => { x with queue := [] })).respond k { r with items := [], resp := r.resp ++ [a] }).net →
      y.session k = some { x with queue := [], ownSeq := x.ownSeq
        + (packItems (frameRoom r.iface x.authenticated) ((r.resp ++ [a]).map Answer.bytes)).length } := by
    intro y hy
    unfold session at hsess ⊢
    rw [hy]
    exact hsess
  have hb := netBoundary_net { r with items := [], resp := r.resp ++ [a] }
    ((v.setSession k (fun x => { x with queue := [] })).respond k { r with items := [], resp := r.resp ++ [a] })
  have hall : v.settleAll k = ((v.setSession k (fun x => { x with queue := [] })).respond k { r with items := [], resp := r.resp ++ [a] }).netBoundary
      { r with items := [], resp := r.resp ++ [a] } := by
    simp only [settleAll, hv, List.length_cons, List.length_nil, settleRequests, settleFront_last (r := { r with items := [], resp := r.resp ++ [a] }) rfl ht hclose,
      if_true, hend _ hb]
  rw [hall]
  exact ⟨hend _ hb, out, by rw [hb, hout]; exact congrArg (· ++ out) hsent, hlen, hif⟩

/-! ### READ -/

theorem readAbort_eq_none_iff (key : Nat) (s : State) : s.readAbort key = none ↔
    4 ≤ s.dev.state ∧ objectAbort key = none ∧ (∀ r, findRow key = some r → r.acc ≠ .wo) ∧ (s.dev.state = 7 → bedrockReads key = true) := by
  unfold readAbort notReady
  by_cases hst : s.dev.state < 4
  · exact iff_of_false (by simp [hst]) fun h => Nat.not_le.2 hst h.1
  · have h4 : 4 ≤ s.dev.state := Nat.not_lt.1 hst
    cases ho : objectAbort key with
    | some a => simp [hst]
    | none =>
      cases hr : findRow key with
      | none => cases hb : bedrockReads key <;> simp [hst, h4, firstAbort]
      | some r => cases hb : bedrockReads key <;> by_cases hacc : r.acc = .wo <;> simp [hst, h4, firstAbort, hacc]

/-- A READ item at the front of its queue. -/
theorem hostRead_of_front {k key : Nat} {x : Session} {i : YItem} (hx : s.session k = some x) (hi : x.front = some i) (hop : i.opcode = 1)
    (hkey : i.idx * 256 + i.sub = key) : s.hostRead k key = s.fresh.answer k (reply 1 key k (s.fresh.readAbort key) false
      (if (s.fresh.readAbort key).isNone then s.fresh.readData k key (x.viewActive == 1) else [])) := by
  have hf : s.frontItem k = some i := by simp only [frontItem, hx, hi]
  simp [hostRead, hx, hf, hop, hkey]

/-! ### Segments -/

theorem hostReadSeg_of_front {k key offset maxLen : Nat} {x : Session} {i : YItem} (hx : s.session k = some x) (hi : x.front = some i)
    (hseg : isReadSeg key offset maxLen i = true) :
    s.hostReadSeg k key offset maxLen = s.fresh.segmentRead k key offset maxLen (x.viewActive == 1) (s.fresh.readSegRefusal key i) := by
  have hf : s.frontItem k = some i := by simp only [frontItem, hx, hi]
  simp only [hostReadSeg, hx, hf, hseg, Bool.not_true, Bool.false_eq_true, if_false]

/-- A segment of a BLOB that is kept as it is served. -/
theorem readSegment_of_blob {key offset : Nat} {view : Bool} (h2 : key ≠ objKey 0xE002 1) (h3 : key ≠ objKey 0xB200 1) (h4 : key ≠ objKey 0xB400 1)
    (hoff : offset ≤ (s.blobValue view key).length) (k maxLen : Nat) :
    (s.readSegment k key offset maxLen view).1 = none
      ∧ (s.readSegment k key offset maxLen view).2.2.1 = ((s.blobValue view key).drop offset).take (min maxLen (s.room k - 4))
      ∧ (s.readSegment k key offset maxLen view).2.1
        = decide ((s.blobValue view key).length ≤ offset + (((s.blobValue view key).drop offset).take (min maxLen (s.room k - 4))).length) := by
  have hserved : s.servedBlob k key offset view = (s.blobValue view key, s) := by simp only [servedBlob, h3, h4, or_self, if_false]
  simp only [readSegment, if_neg h2, hserved, if_neg (Nat.not_lt.2 hoff), and_self]

theorem hostWriteSeg_of_front {k key offset : Nat} {last : Bool} {data : List Byte} {x : Session} {i : YItem} (hx : s.session k = some x)
    (hi : x.front = some i) (hseg : isWriteSeg key offset last data i = true) :
    s.hostWriteSeg k key offset last data = s.fresh.segmentWrite k key offset last data (s.fresh.segRefusal k key offset last data x i) := by
  have hf : s.frontItem k = some i := by simp only [frontItem, hx, hi]
  simp only [hostWriteSeg, hx, hf, hseg, Bool.not_true, Bool.false_eq_true, if_false]

/-- An accepted segment of another BLOB than the update image: before are the bytes that its transfer has brought. -/
theorem segment_of_ne {k key offset : Nat} {before : List Byte} (hkey : key ≠ imageKey)
    (hb : (if offset = 0 then [] else match s.transfer k key with | some t => t.bytes | none => []) = before) (last : Bool) (data : List Byte) :
    s.segment k key offset last data = (if last then (s.dropTransfer k key).storeBlob k key (before ++ data)
      else { s with table := { s.table with transfers := s.table.transfers.filter (fun t => !(t.key == key && t.session == k))
              ++ [{ key := key, session := k, bytes := before ++ data, time := s.now }] } }) := by
  subst hb
  simp only [segment, if_neg hkey]
  rfl

end State

end Sys2Proof.Machine
end

section
/-! PROOFS. The statements about answers, READ items and segments. -/

set_option Elab.async false

open Sys2Proof Sys2Proof.Machine

/-- Settles O34: the queue of the session is settled from its front after each answer. -/
theorem itemAnswered : Obligations.ItemAnswered := by
  unfold Obligations.ItemAnswered
  exact ⟨fun k a s => ⟨State.answer_answers k a s, State.answer_changes k a s⟩, fun k a x r rest i j l s hx hq hr hj => State.answer_waits hx hq hr hj,
    fun k a x r i s hx hq hr ht hclose => State.answer_sends hx hq hr ht hclose⟩

/-- Settles O35: a READ item is answered at once. -/
theorem readAnswers : Obligations.ReadAnswers := by
  unfold Obligations.ReadAnswers
  refine ⟨fun k idx sub x i s hx hi hop hkey => ⟨_, congrArg Host.Outcome.next (State.hostRead_of_front hx hi hop hkey), State.answer_answers .., ?_⟩,
    fun key s => State.readAbort_eq_none_iff key s, fun key s h => ?_⟩
  · exact (State.answer_changes ..).after ((State.fresh_changes s).mono (by decide)) (by decide)
  · have hn : s.notReady = true := decide_eq_true h
    simp only [State.readAbort, hn, if_true]

/-- Settles O36: both directions go through the segment's refusal, then through readSegment or segment. -/
theorem blobSegments : Obligations.BlobSegments := by
  unfold Obligations.BlobSegments
  refine ⟨⟨fun k idx sub offset maxLen x i s hx hi hseg hr => ?_, fun k idx sub offset maxLen x i a s hx hi hseg hr => ?_,
    fun k key offset maxLen view s h2 h3 h4 hoff => ?_⟩, fun k idx sub last data x i s hx hi hseg hr hkey => ?_,
    fun k idx sub offset last data x i tr s hx hi hseg hr hkey hoff ht => ?_, fun k idx sub offset last data x i a s hx hi hseg hr => ?_,
    fun idx sub s => ⟨_, rfl, rfl, State.transferOut_changes ..⟩⟩
  · have h := State.hostReadSeg_of_front hx hi hseg
    rw [hr] at h
    exact ⟨_, _, congrArg Host.Outcome.next h, rfl, State.answer_answers .., (State.answer_changes ..).after
      ((State.readSegment_changes ..).after ((State.fresh_changes s).mono (by decide)) (by decide)) (by decide)⟩
  · have h := State.hostReadSeg_of_front hx hi hseg
    rw [hr] at h
    exact ⟨_, congrArg Host.Outcome.next h, State.answer_answers .., (State.answer_changes ..).after ((State.fresh_changes s).mono (by decide)) (by decide)⟩
  · obtain ⟨hnone, hdata, hlast⟩ := State.readSegment_of_blob h2 h3 h4 hoff k maxLen
    refine ⟨hnone, hdata, ?_⟩
    rw [hlast, hdata]
    exact decide_eq_true_iff
  · have h := State.hostWriteSeg_of_front hx hi hseg
    rw [hr] at h
    have hw : s.fresh.segmentWrite k (objKey idx sub) 0 last data none
        = (s.fresh.segment k (objKey idx sub) 0 last data).answer k (State.reply 4 (objKey idx sub) k none false []) := rfl
    rw [hw, State.segment_of_ne (before := []) hkey rfl] at h
    exact congrArg Host.Outcome.next h
  · have h := State.hostWriteSeg_of_front hx hi hseg
    rw [hr] at h
    have hw : s.fresh.segmentWrite k (objKey idx sub) offset last data none
        = (s.fresh.segment k (objKey idx sub) offset last data).answer k (State.reply 4 (objKey idx sub) k none false []) := rfl
    have ht' : s.fresh.transfer k (objKey idx sub) = some tr := ht
    rw [hw, State.segment_of_ne (before := tr.bytes) hkey (by rw [if_neg hoff, ht'])] at h
    exact congrArg Host.Outcome.next h
  · have h := State.hostWriteSeg_of_front hx hi hseg
    rw [hr] at h
    exact congrArg Host.Outcome.next h

end

section
/-! PROOFS. What an accepted WRITE does for each kind of row, and the order of its checks (Table 16-5). -/

set_option Elab.async false

namespace Sys2Proof.Machine

/-! ### Rows -/

/-- Commit is a write-only value: no other kind of row is its. -/
theorem ne_commitKey {key : Nat} {r : ObjRow} (hr : findRow key = some r) (h : r.acc ≠ .wo ∨ r.ty.isBlob = true) : key ≠ objKey 0x2100 1 := by
  rintro rfl
  have hrow : (findRow (objKey 0x2100 1)).all (fun r => r.acc == .wo && !r.ty.isBlob) = true := by decide
  rw [hr] at hrow
  simp only [Option.all_some, Bool.and_eq_true, beq_iff_eq, Bool.not_eq_true'] at hrow
  rcases h with h | h
  · exact h hrow.1
  · rw [hrow.2] at h; cases h

namespace State

variable {s : State}

theorem writeValue_of_rws {key : Nat} {r : ObjRow} (hr : findRow key = some r) (hblob : r.ty.isBlob = false) (hacc : r.acc = .rws)
    (hrng : ∀ m, r.rng ≠ .flags m) (k : Nat) (data : List Byte) :
    s.writeValue k key data = ((s.stage key (storedRaw r.ty (ofBytes data))).starterStaged key, false) := by
  simp only [writeValue, hr, hblob, Bool.false_eq_true, if_false]
  split
  next h => rw [hacc] at h; cases h
  next h _ => exact absurd h (hrng _)
  next => rfl
  next h _ => rw [hacc] at h; cases h
  next h _ _ => exact absurd hacc h

theorem writeValue_of_rwp {key : Nat} {r : ObjRow} (hr : findRow key = some r) (hblob : r.ty.isBlob = false) (hacc : r.acc = .rwp)
    (hrng : ∀ m, r.rng ≠ .flags m) (k : Nat) (data : List Byte) :
    s.writeValue k key data = ((s.putActive key (storedRaw r.ty (ofBytes data))).moveToken, false) := by
  simp only [writeValue, hr, hblob, Bool.false_eq_true, if_false]
  split
  next h => rw [hacc] at h; cases h
  next h _ => exact absurd h (hrng _)
  next h _ => rw [hacc] at h; cases h
  next => rfl
  next h _ => exact absurd hacc h

theorem writeValue_of_flags {key m : Nat} {r : ObjRow} (hr : findRow key = some r) (hblob : r.ty.isBlob = false) (hacc : r.acc ≠ .wo)
    (hrng : r.rng = .flags m) (k : Nat) (data : List Byte) :
    s.writeValue k key data = (s.acceptAction key (storedRaw r.ty (ofBytes data) &&& flagsClear key), false) := by
  simp only [writeValue, hr, hblob, hrng, Bool.false_eq_true, if_false]

/-- A BLOB that only stages its content. -/
theorem writeValue_of_blob {key : Nat} {r : ObjRow} (hr : findRow key = some r) (hblob : r.ty.isBlob = true)
    (hkey : key / 256 ∉ [0x1410, 0xB401, 0xB501]) (k : Nat) (data : List Byte) :
    s.writeValue k key data = ((s.dropTransfer k key).stageBlob key data, false) := by
  simp only [List.mem_cons, List.not_mem_nil, or_false, not_or] at hkey
  obtain ⟨h1, h2, h3⟩ := hkey
  have himage : key ≠ imageKey := by
    rintro rfl
    exact h3 (by decide)
  simp only [writeValue, hr, hblob, if_true, if_neg himage, storeBlob]

/-! ### The checks of a write -/

/-- The first condition that holds gives the abort. -/
theorem firstAbort_cons (b : Bool) (a : Abort) (l : List (Bool × Abort)) : firstAbort ((b, a) :: l) = if b then some a else firstAbort l := by
  cases b <;> rfl

theorem firstAbort_nil : firstAbort [] = none := rfl

theorem one_le_writeLevel (idx : Nat) (service : Bool) : 1 ≤ writeLevel idx service := by
  unfold writeLevel
  (repeat' split) <;> decide

theorem writeLevel_eq (idx : Nat) (service : Bool) : writeLevel idx service = if idx % 0x1000 < 0x400 then 1 else if idx = 0x1410 then 3
    else if 0xB400 ≤ idx ∧ idx ≤ 0xBFFF then (if service then 2 else 3) else 2 := rfl

/-- R328 for a session that may write an object. -/
theorem levels_of_levelOk {level key : Nat} (h : s.levelOk level key = true) :
    1 ≤ level ∧ (0x400 ≤ key / 256 % 0x1000 → 2 ≤ level) ∧ (key / 256 = 0x1410 → 3 ≤ level)
      ∧ (0xB400 ≤ key / 256 → key / 256 ≤ 0xBFFF → 3 ≤ level ∨ (2 ≤ level ∧ s.dev.state = 6)) := by
  have hle : writeLevel (key / 256) (s.dev.state == 6) ≤ level := of_decide_eq_true h
  rw [writeLevel_eq] at hle
  refine ⟨Nat.le_trans (one_le_writeLevel ..) hle, fun hidx => ?_, fun hidx => ?_, fun hlo hhi => ?_⟩
  · rw [if_neg (by omega)] at hle
    split at hle
    · omega
    · split at hle
      · split at hle <;> omega
      · exact hle
  · rw [if_neg (by omega), if_pos hidx] at hle
    exact hle
  · rw [if_neg (by omega), if_neg (by omega), if_pos ⟨hlo, hhi⟩] at hle
    split at hle
    · next hs => exact .inr ⟨hle, beq_iff_eq.1 hs⟩
    · exact .inl hle

theorem objectAbort_of_row {key : Nat} {r : ObjRow} (hsub : maxSub (key / 256) ≠ 0) (hr : findRow key = some r) : objectAbort key = none := by
  simp [objectAbort, hsub, hr]

/-- Table 16-5 from its check 8 on, as a chain of conditions. -/
theorem writeAbort_of_row {key : Nat} {r : ObjRow} (h4 : 4 ≤ s.dev.state) (hsub : maxSub (key / 256) ≠ 0) (hr : findRow key = some r)
    (k level : Nat) (data : List Byte) : s.writeAbort k level key data =
      if r.acc = .ro then some .access
      else if s.levelOk level key = false ∨ (key = objKey 0x2000 2 ∧ s.requestReason (ofBytes data) level = 8) then some .level
      else if typeBad r data = true then some .type
      else if s.busyFor k key (ofBytes data) level = true then some .busy
      else if complementBad r (ofBytes data) = true then some .complement
      else if s.rangeBad key r data = true then some .range
      else if s.stateOk key r (storedRaw r.ty (ofBytes data)) level = false then some .state
      else if s.pends key r (ofBytes data) = true then some .groupPending else none := by
  have hn : s.notReady = false := decide_eq_false (Nat.not_lt.2 h4)
  simp only [writeAbort, hn, objectAbort_of_row hsub hr, hr, firstAbort_cons, firstAbort_nil, Bool.false_eq_true, if_false, beq_iff_eq, Bool.or_eq_true,
    Bool.not_eq_true', Bool.and_eq_true]

/-- A condition of a chain that did not give the outcome fails, and the outcome is the rest's. -/
theorem ite_passed {c : Prop} [Decidable c] {a : Abort} {x y : Option Abort} (h : (if c then some a else x) = y) (hy : some a ≠ y) : ¬ c ∧ x = y := by
  by_cases hc : c
  · rw [if_pos hc] at h
    exact absurd h hy
  · rw [if_neg hc] at h
    exact ⟨hc, h⟩

/-- What each abort tells of the checks before it. -/
theorem checks_of_writeAbort {k level key : Nat} {data : List Byte} {r : ObjRow} {a : Option Abort} (h4 : 4 ≤ s.dev.state)
    (hsub : maxSub (key / 256) ≠ 0) (hr : findRow key = some r) (h : s.writeAbort k level key data = a) :
    (some .access ≠ a → r.acc ≠ .ro ∧ (some .level ≠ a → s.levelOk level key = true ∧ (some .type ≠ a → typeBad r data = false
      ∧ (some .busy ≠ a → s.busyFor k key (ofBytes data) level = false ∧ (some .complement ≠ a → complementBad r (ofBytes data) = false
      ∧ (some .range ≠ a → s.rangeBad key r data = false
      ∧ (some .state ≠ a → s.stateOk key r (storedRaw r.ty (ofBytes data)) level = true))))))) := by
  rw [writeAbort_of_row h4 hsub hr] at h
  intro ha
  obtain ⟨hacc, h⟩ := ite_passed h ha
  refine ⟨hacc, fun ha => ?_⟩
  obtain ⟨hlevel, h⟩ := ite_passed h ha
  refine ⟨Bool.not_eq_false _ |>.mp fun hl => hlevel (.inl hl), fun ha => ?_⟩
  obtain ⟨htype, h⟩ := ite_passed h ha
  refine ⟨Bool.not_eq_true _ |>.mp htype, fun ha => ?_⟩
  obtain ⟨hbusy, h⟩ := ite_passed h ha
  refine ⟨Bool.not_eq_true _ |>.mp hbusy, fun ha => ?_⟩
  obtain ⟨hcomplement, h⟩ := ite_passed h ha
  refine ⟨Bool.not_eq_true _ |>.mp hcomplement, fun ha => ?_⟩
  obtain ⟨hrange, h⟩ := ite_passed h ha
  refine ⟨Bool.not_eq_true _ |>.mp hrange, fun ha => ?_⟩
  obtain ⟨hstate, h⟩ := ite_passed h ha
  exact Bool.not_eq_false _ |>.mp hstate

/-- A type abort comes from the type check, a complement abort from the complement check. -/
theorem typeBad_of_writeAbort {k level key : Nat} {data : List Byte} {r : ObjRow} (h4 : 4 ≤ s.dev.state) (hsub : maxSub (key / 256) ≠ 0)
    (hr : findRow key = some r) (h : s.writeAbort k level key data = some .type) : typeBad r data = true := by
  rw [writeAbort_of_row h4 hsub hr] at h
  refine Decidable.byContradiction fun ht => ?_
  rw [if_neg ht] at h
  (repeat' split at h) <;> cases h

theorem complementBad_of_writeAbort {k level key : Nat} {data : List Byte} {r : ObjRow} (h4 : 4 ≤ s.dev.state) (hsub : maxSub (key / 256) ≠ 0)
    (hr : findRow key = some r) (h : s.writeAbort k level key data = some .complement) : complementBad r (ofBytes data) = true := by
  rw [writeAbort_of_row h4 hsub hr] at h
  refine Decidable.byContradiction fun ht => ?_
  rw [if_neg ht] at h
  (repeat' split at h) <;> cases h

/-- An accepted write names a row, and passes the level check. -/
theorem levelOk_of_accepted {k level key : Nat} {data : List Byte} (h : s.writeAbort k level key data = none) : s.levelOk level key = true := by
  by_cases h4 : 4 ≤ s.dev.state
  case neg =>
    have hn : s.notReady = true := decide_eq_true (Nat.lt_of_not_ge h4)
    simp only [writeAbort, hn, if_true] at h
    cases h
  case pos =>
    have hn : s.notReady = false := decide_eq_false (Nat.not_lt.2 h4)
    by_cases hsub : maxSub (key / 256) = 0
    case pos =>
      have ho : objectAbort key = some .noObject := if_pos hsub
      simp only [writeAbort, hn, ho, Bool.false_eq_true, if_false] at h
      cases h
    case neg =>
      cases hr : findRow key with
      | some r =>
        obtain ⟨-, hl⟩ := checks_of_writeAbort h4 hsub hr h (by decide)
        exact (hl (by decide)).1
      | none =>
        cases ho : objectAbort key <;> simp only [writeAbort, hn, ho, hr, Bool.false_eq_true, if_false] at h <;> cases h

end State

end Sys2Proof.Machine
end

section
/-! PROOFS. The statements about WRITE items and the order of their checks. -/

set_option Elab.async false

open Sys2Proof Sys2Proof.Machine

/-- Settles O37: one equation of writeValue for each kind of row. -/
theorem writeItems : Obligations.WriteItems := by
  unfold Obligations.WriteItems
  refine ⟨fun k idx sub data r s h hr hblob hacc hrng => ?_, fun k idx sub data r s h hr hblob hacc hrng => ?_,
    fun k idx sub data r s h hr hblob hacc hrng h8 h9 => ?_, fun k idx sub data m r s h hr hblob hacc hrng => ?_,
    fun k idx sub data r s h hr hblob hkey => ?_, fun k idx sub data x a s hx hf ha => ?_⟩
  · have hc := ne_commitKey hr (.inl (by rw [hacc]; decide))
    exact congrArg Host.Outcome.next (State.hostWrite_acked h hc (State.writeValue_of_rws hr hblob hacc hrng ..))
  · have hc := ne_commitKey hr (.inl (by rw [hacc]; decide))
    exact congrArg Host.Outcome.next (State.hostWrite_acked h hc (State.writeValue_of_rwp hr hblob hacc hrng ..))
  · have hc := ne_commitKey hr (.inl (by rw [hacc]; decide))
    exact congrArg Host.Outcome.next (State.hostWrite_acked h hc (State.writeValue_of_rw hr hblob hacc hrng h8 h9 ..))
  · exact congrArg Host.Outcome.next (State.hostWrite_acked h (ne_commitKey hr (.inl hacc)) (State.writeValue_of_flags hr hblob hacc hrng ..))
  · exact congrArg Host.Outcome.next (State.hostWrite_acked h (ne_commitKey hr (.inr hblob)) (State.writeValue_of_blob hr hblob hkey ..))
  · refine ⟨_, congrArg Host.Outcome.next (State.hostWrite_of_abort hx hf ha), State.answer_answers .., ?_⟩
    exact (State.answer_changes ..).after ((State.noteRefusal_changes ..).after ((State.fresh_changes s).mono (by decide)) (by decide)) (by decide)

/-- Settles O38: the checks are a chain, so an abort of one tells that each before it passed. -/
theorem writeChecksInOrder : Obligations.WriteChecksInOrder := by
  unfold Obligations.WriteChecksInOrder
  refine fun k level key data s => ⟨fun hst => ?_, fun h4 hsub => ?_, fun r h4 hsub hr => ?_, fun hnone => ?_⟩
  · have hn : s.notReady = true := decide_eq_true hst
    simp only [State.writeAbort, hn, if_true]
  · have hn : s.notReady = false := decide_eq_false (Nat.not_lt.2 h4)
    have ho : State.objectAbort key = some .noObject := if_pos hsub
    simp only [State.writeAbort, hn, ho, Bool.false_eq_true, if_false]
  · have hchain := fun a (h : s.writeAbort k level key data = some a) => State.checks_of_writeAbort h4 hsub hr h
    have heq := State.writeAbort_of_row h4 hsub hr k level data
    refine ⟨fun h => heq.trans (if_pos h), fun h hl => heq.trans (by rw [if_neg h, if_pos (.inl hl)]), fun h => ?_, fun h => ?_, fun h => ?_, fun h => ?_,
      fun h => ?_, fun h => ?_⟩
    · obtain ⟨hacc, hl⟩ := hchain _ h (by decide)
      exact ⟨State.typeBad_of_writeAbort h4 hsub hr h, (hl (by decide)).1, hacc⟩
    · obtain ⟨-, hl⟩ := hchain _ h (by decide)
      obtain ⟨hlevel, ht⟩ := hl (by decide)
      exact ⟨(ht (by decide)).1, hlevel⟩
    · obtain ⟨-, hl⟩ := hchain _ h (by decide)
      obtain ⟨-, ht⟩ := hl (by decide)
      obtain ⟨-, hb⟩ := ht (by decide)
      have hbad := State.complementBad_of_writeAbort h4 hsub hr h
      simp only [State.complementBad, Bool.and_eq_true, Bool.not_eq_true'] at hbad
      exact ⟨hbad.2, (hb (by decide)).1⟩
    · obtain ⟨-, hl⟩ := hchain _ h (by decide)
      obtain ⟨-, ht⟩ := hl (by decide)
      obtain ⟨htype, hb⟩ := ht (by decide)
      obtain ⟨-, hc⟩ := hb (by decide)
      exact ⟨(hc (by decide)).1, htype⟩
    · obtain ⟨-, hl⟩ := hchain _ h (by decide)
      obtain ⟨-, ht⟩ := hl (by decide)
      obtain ⟨-, hb⟩ := ht (by decide)
      obtain ⟨-, hc⟩ := hb (by decide)
      obtain ⟨hcomplement, hrange⟩ := hc (by decide)
      exact ⟨(hrange (by decide)).1, hcomplement⟩
    · obtain ⟨-, hl⟩ := hchain _ h (by decide)
      obtain ⟨-, ht⟩ := hl (by decide)
      obtain ⟨-, hb⟩ := ht (by decide)
      obtain ⟨-, hc⟩ := hb (by decide)
      obtain ⟨-, hrange⟩ := hc (by decide)
      obtain ⟨hgood, hstate⟩ := hrange (by decide)
      exact ⟨hstate (by decide), hgood⟩
  · exact State.levels_of_levelOk (State.levelOk_of_accepted hnone)

end

section
/-! PROOFS. YOAP frames and sessions (R346 to R354). -/

set_option Elab.async false

namespace Sys2Proof.Machine

/-! ### The replay window (R351) -/

namespace Session

variable {x : Session} {seq b iface source now : Nat}

theorem accepts_iff : x.accepts seq = true ↔ seq ≠ 0 ∧ ((x.h < seq ∧ seq ≤ x.h + 2 ^ 31)
    ∨ ((seq ≤ x.h ∧ x.h ≤ seq + 63) ∧ x.recent.any (fun e => e.1 == seq) = false)) := by
  simp only [accepts, Bool.and_eq_true, Bool.or_eq_true, bne_iff_ne, decide_eq_true_eq, Bool.not_eq_true']

theorem mem_take_recent {e : Nat × Nat × Nat} : e ∈ (x.take seq iface source now).recent ↔
    (e = (seq, now, iface) ∨ e ∈ x.recent) ∧ max x.h seq ≤ e.1 + 63 := by
  simp [take]

theorem take_h : (x.take seq iface source now).h = max x.h seq := rfl

/-- A number taken is not accepted again, and a number refused below the highest stays refused. -/
theorem accepts_take (hs : x.accepts seq = true) : 0 < seq ∧ seq ≤ x.h + 2 ^ 31 ∧ x.h ≤ seq + 63 ∧ (x.take seq iface source now).accepts seq = false
    ∧ (b ≤ x.h → x.accepts b = false → (x.take seq iface source now).accepts b = false) := by
  obtain ⟨hne, hwin⟩ := accepts_iff.1 hs
  have hhi : seq ≤ x.h + 2 ^ 31 := by omega
  have hlo : x.h ≤ seq + 63 := by omega
  refine ⟨Nat.pos_of_ne_zero hne, hhi, hlo, ?_, fun hb hrefused => ?_⟩
  · rw [Bool.eq_false_iff]
    intro h
    obtain ⟨-, h⟩ := accepts_iff.1 h
    rw [take_h] at h
    have hin : (x.take seq iface source now).recent.any (fun e => e.1 == seq) = true :=
      List.any_eq_true.2 ⟨(seq, now, iface), mem_take_recent.2 ⟨.inl rfl, by dsimp only; omega⟩, beq_self_eq_true seq⟩
    rcases h with h | h
    · omega
    · rw [hin] at h
      cases h.2
  · rw [Bool.eq_false_iff] at hrefused ⊢
    intro h
    obtain ⟨hb0, h⟩ := accepts_iff.1 h
    rw [take_h] at h
    obtain ⟨hwin', hnot⟩ : (b ≤ max x.h seq ∧ max x.h seq ≤ b + 63) ∧ (x.take seq iface source now).recent.any (fun e => e.1 == b) = false := by
      rcases h with h | h
      · omega
      · exact h
    refine hrefused (accepts_iff.2 ⟨hb0, .inr ⟨⟨hb, by omega⟩, ?_⟩⟩)
    rw [List.any_eq_false] at hnot ⊢
    intro e he heq
    exact hnot e (mem_take_recent.2 ⟨.inr he, by rw [beq_iff_eq.1 heq]; omega⟩) heq

end Session

/-! ### What settling a session's requests keeps -/

/-- A session that is open in both states has the same highest SEQ and the same time of its last frame. -/
structure SameWindow (k : Nat) (s t : State) : Prop where
  kept : ∀ y, t.session k = some y → ∃ x, s.session k = some x ∧ y.h = x.h ∧ y.last = x.last

namespace SameWindow

variable {k : Nat} {s t u : State}

theorem refl (s : State) : SameWindow k s s := ⟨fun y hy => ⟨y, hy, rfl, rfl⟩⟩

theorem trans (h : SameWindow k s t) (g : SameWindow k t u) : SameWindow k s u := ⟨fun y hy => by
  obtain ⟨x, hx, hh, hl⟩ := g.kept y hy
  obtain ⟨z, hz, hh', hl'⟩ := h.kept x hx
  exact ⟨z, hz, hh.trans hh', hl.trans hl'⟩⟩

theorem of_sessions (h : t.net.sessions = s.net.sessions) : SameWindow k s t :=
  ⟨fun y hy => ⟨y, by unfold State.session at hy ⊢; rwa [← h], rfl, rfl⟩⟩

theorem of_none (h : t.session k = none) : SameWindow k s t := ⟨fun y hy => by rw [h] at hy; cases hy⟩

end SameWindow

namespace State

variable {s : State}

theorem setSession_sameWindow {k : Nat} {f : Session → Session} (hf : ∀ x, (f x).h = x.h ∧ (f x).last = x.last) (s : State) :
    SameWindow k s (s.setSession k f) := ⟨fun y hy => by
  rw [session_setSession] at hy
  obtain ⟨x, hx, rfl⟩ := Option.map_eq_some_iff.1 hy
  exact ⟨x, hx, hf x⟩⟩

theorem foldl_noteAbort_net (k : Nat) (l : List Answer) (s : State) : (l.foldl (fun (s : State) a => s.noteAbort k a.abort a.key) s).net = s.net := by
  induction l generalizing s with
  | nil => rfl
  | cons a l ih => exact ih _

theorem respond_sameWindow (k : Nat) (r : Request) (s : State) : SameWindow k s (s.respond k r) := by
  cases hx : s.session k with
  | none =>
    have hr : s.respond k r = s := by simp only [respond, hx]
    rw [hr]
    exact .refl s
  | some x =>
    obtain ⟨hs, -⟩ := respond_spec hx r
    refine ⟨fun y hy => ?_⟩
    rw [hs] at hy
    cases hy
    exact ⟨x, hx, rfl, rfl⟩

theorem settleFront_sameWindow (k : Nat) (x : Session) (r : Request) (rest : List Request) (s : State) :
    SameWindow k s (s.settleFront k x r rest).1 := by
  unfold settleFront
  extract_lets more bad u r1 r2 v own
  have hu : SameWindow k s u := .of_sessions (congrArg NetState.sessions (foldl_noteAbort_net k bad s))
  have hv : SameWindow k s v := ((hu.trans (setSession_sameWindow (f := fun x => { x with queue := rest }) (fun _ => ⟨rfl, rfl⟩) u)).trans
    (respond_sameWindow ..)).trans (.of_sessions (congrArg NetState.sessions (netBoundary_net ..)))
  split
  · exact hu.trans (setSession_sameWindow (f := fun x => { x with queue := r1 :: rest }) (fun _ => ⟨rfl, rfl⟩) u)
  · split
    · exact .of_none ((session_closeSession ..).trans (if_pos rfl))
    · exact hv

theorem settleRequests_sameWindow (k n : Nat) (s : State) : SameWindow k s (s.settleRequests k n) := by
  induction n generalizing s with
  | zero => exact .refl s
  | succ n ih =>
    unfold settleRequests
    split
    · exact .refl s
    · split
      · exact .refl s
      · dsimp only
        split
        · exact (settleFront_sameWindow ..).trans (ih _)
        · exact settleFront_sameWindow ..

/-! ### Frames -/

theorem yoapFrame_of_ignored {p : Packet} {bytes : List Byte} (h : s.yoapOn p.iface = true) (hd : s.fresh.datagram p bytes = .ignored) :
    s.yoapFrame p bytes = s.fresh := by
  simp only [yoapFrame, h, hd, Bool.not_true, Bool.false_eq_true, if_false]

theorem yoapFrame_of_unsupported {p : Packet} {bytes : List Byte} (h : s.yoapOn p.iface = true) (hd : s.fresh.datagram p bytes = .unsupported) :
    s.yoapFrame p bytes = s.fresh.counted.notSupported := by
  simp only [yoapFrame, h, hd, Bool.not_true, Bool.false_eq_true, if_false]

theorem yoapFrame_of_served {p : Packet} {bytes : List Byte} (h : s.yoapOn p.iface = true) (hd : s.fresh.datagram p bytes = .served) :
    s.yoapFrame p bytes = s.fresh.counted.takeYoap p bytes := by
  simp only [yoapFrame, h, hd, Bool.not_true, Bool.false_eq_true, if_false]

/-- One of an open session goes to its checks where its queue has room. -/
theorem yoapFrame_of_session {p : Packet} {bytes : List Byte} {f : RxFrame} {x : Session} (h : s.yoapOn p.iface = true)
    (hd : s.datagram p bytes = .served) (hlen : p.iface < 3 → bytes.length ≤ 1472) (hparse : parseFrame p.iface bytes = some f)
    (hx : s.frameSession f = some x) (hq : p.backlog < (rxQueue p (s.arrivalPcp p.vlan p.pcp) f.image (!x.authenticated)).2) :
    s.yoapFrame p bytes = s.fresh.counted.checkFrame f.session x f p := by
  have hx' : s.fresh.counted.frameSession f = some x := hx
  have hq' : ¬ (rxQueue p (s.fresh.counted.arrivalPcp p.vlan p.pcp) f.image (!x.authenticated)).2 ≤ p.backlog := Nat.not_le.2 hq
  have hover : ¬ (decide (p.iface < 3) && decide (1472 < bytes.length)) = true := by
    simp only [Bool.and_eq_true, decide_eq_true_eq, not_and]
    exact fun h3 => Nat.not_lt.2 (hlen h3)
  rw [yoapFrame_of_served h hd, takeYoap, if_neg hover, hparse]
  simp only [parsedFrame, hx', if_neg hq']

theorem session_of_frameSession {f : RxFrame} {x : Session} (h : s.frameSession f = some x) : s.session f.session = some x := by
  unfold frameSession at h
  split at h
  · exact h
  · cases h

/-! The four outcomes of R352. -/

theorem checkFrame_of_mac {k : Nat} {x : Session} {f : RxFrame} (h : x.macOk f = false) (p : Packet) : s.checkFrame k x f p =
    frameAbort k f.seq p.iface p.source .authentication { s with net := { s.net with authFails := inc32 s.net.authFails } } := by
  simp only [checkFrame, h, Bool.not_false, if_true]

/-- The SEQ of a frame, extended where the interface carries 16 bits of it. -/
abbrev fullSeq (x : Session) (f : RxFrame) : Nat := if f.can then extendSeq x.h f.seq else f.seq

theorem checkFrame_of_duplicate {k : Nat} {x : Session} {f : RxFrame} {p : Packet} (h : x.macOk f = true)
    (hdup : x.duplicate (fullSeq x f) p.iface s.now = true) (himage : f.image = false) :
    s.checkFrame k x f p = { s with net := { s.net with duplicates := inc32 s.net.duplicates } } := by
  simp only [checkFrame, h, hdup, duplicateFrame, himage, Bool.not_true, Bool.false_eq_true, if_false, if_true]

theorem checkFrame_of_replay {k : Nat} {x : Session} {f : RxFrame} {p : Packet} (h : x.macOk f = true)
    (hdup : x.duplicate (fullSeq x f) p.iface s.now = false) (hacc : x.accepts (fullSeq x f) = false) : s.checkFrame k x f p =
    frameAbort k f.seq p.iface p.source .replay { s with net := { s.net with replays := inc32 s.net.replays } } := by
  simp only [checkFrame, h, hdup, hacc, Bool.not_true, Bool.not_false, Bool.false_eq_true, if_false, if_true]

theorem checkFrame_of_accepted {k : Nat} {x : Session} {f : RxFrame} {p : Packet} (h : x.macOk f = true)
    (hdup : x.duplicate (fullSeq x f) p.iface s.now = false) (hacc : x.accepts (fullSeq x f) = true) :
    s.checkFrame k x f p = s.enqueue k f (fullSeq x f) p := by
  simp only [checkFrame, h, hdup, hacc, Bool.not_true, Bool.false_eq_true, if_false]

/-- An abort of a frame goes to its sender; it touches no session and no counter of the checks. -/
theorem frameAbort_net (session seq iface source : Nat) (a : Abort) (s : State) :
    (s.frameAbort session seq iface source a).net.sessions = s.net.sessions ∧ (s.frameAbort session seq iface source a).net.authFails = s.net.authFails
      ∧ (s.frameAbort session seq iface source a).net.replays = s.net.replays := by
  unfold frameAbort
  dsimp only
  split <;> exact ⟨rfl, rfl, rfl⟩

theorem enqueue_changes_answerParts (k : Nat) (f : RxFrame) (seq : Nat) (p : Packet) (s : State) : Changes answerParts s (s.enqueue k f seq p) := by
  unfold enqueue
  extract_lets busy excess tail u r
  have hu : Changes answerParts s u := Changes.foldl (.refl ..) fun a v hv => (noteAbort_changes ..).after hv (by decide)
  exact (settleAll_changes ..).after ((setSession_changes ..).after hu (by decide)) (by decide)

theorem enqueue_window (k : Nat) (f : RxFrame) (seq : Nat) (p : Packet) {x y : Session} (hx : s.session k = some x)
    (hy : (s.enqueue k f seq p).session k = some y) : y.h = max x.h seq ∧ y.last = s.now := by
  unfold enqueue at hy
  extract_lets busy excess tail u r at hy
  have hnet : u.net = s.net := foldl_noteAbort_net k tail s
  have htable : Changes [.table] s u := Changes.foldl (.refl ..) fun a v hv => (noteAbort_changes ..).after hv (by decide)
  have hnow : u.now = s.now := htable.same .clock (by decide)
  have hux : u.session k = some x := by unfold session at hx ⊢; rwa [hnet]
  obtain ⟨z, hz, hh, hl⟩ := (settleRequests_sameWindow _ _ _).kept y hy
  rw [session_setSession, hux] at hz
  cases hz
  exact ⟨hh, hl.trans hnow⟩

/-- The items of a session that are not answered yet. -/
def itemsInFlight : Option Session → Nat
  | some x => (x.queue.map (fun r => r.items.length)).foldl (· + ·) 0
  | none => 0

/-- The items of all sessions that are not answered yet (R354). -/
def inFlight (s : State) : Nat := (s.net.sessions.map itemsInFlight).foldl (· + ·) 0

theorem foldl_itemsInFlight {l : List (Option Session)} (h : ∀ z, z ∈ l → ∀ y, z = some y → y.queue = []) : (l.map itemsInFlight).foldl (· + ·) 0 = 0 := by
  induction l with
  | nil => rfl
  | cons z l ih =>
    have hz : itemsInFlight z = 0 := by
      cases z with
      | none => rfl
      | some y => simp only [itemsInFlight, h _ (List.mem_cons_self ..) y rfl, List.map_nil, List.foldl_nil]
    rw [List.map_cons, List.foldl_cons, hz]
    exact ih fun w hw => h w (List.mem_cons_of_mem _ hw)

/-- The answers of the items beyond the 128th in flight. -/
def excessAnswers (k : Nat) (f : RxFrame) (s : State) : List Answer :=
  if f.image then [] else (f.items.drop (128 - s.inFlight)).map (fun i => reply i.opcode (i.idx * 256 + i.sub) k (some .resources) false [])

/-- The request that a frame brings. -/
def frameRequest (f : RxFrame) (seq : Nat) (p : Packet) (items : List YItem) (tail : List Answer) : Request :=
  { seq := seq, iface := p.iface, source := p.source, image := f.image, items := items, tail := tail }

/-- A session takes a frame with its request. -/
def takeRequest (seq : Nat) (p : Packet) (now : Nat) (r : Request) (x : Session) : Session :=
  { x.take seq p.iface p.source now with queue := x.queue ++ [r] }

theorem enqueue_eq (k : Nat) (f : RxFrame) (seq : Nat) (p : Packet) (s : State) : s.enqueue k f seq p =
    let u := (s.excessAnswers k f).foldl (fun (s : State) a => s.noteAbort k a.abort a.key) s
    (u.setSession k (takeRequest seq p u.now (frameRequest f seq p (f.items.take (128 - s.inFlight)) (s.excessAnswers k f)))).settleAll k := rfl

theorem enqueue_of_fits {k : Nat} {f : RxFrame} (h : s.inFlight = 0) (hlen : f.items.length ≤ 128) (seq : Nat) (p : Packet) :
    s.enqueue k f seq p = (s.setSession k (takeRequest seq p s.now (frameRequest f seq p f.items []))).settleAll k := by
  have htail : s.excessAnswers k f = [] := by
    unfold excessAnswers
    rw [h, Nat.sub_zero, List.drop_eq_nil_of_le hlen]
    exact ite_self _
  have htake : f.items.take (128 - s.inFlight) = f.items := by rw [h]; exact List.take_of_length_le hlen
  rw [enqueue_eq, htail, htake]
  rfl

/-- A frame of a session with nothing in flight: its items wait as one request. -/
theorem enqueue_first {k : Nat} {f : RxFrame} {x : Session} {i : YItem} {l : List YItem} (hx : s.session k = some x) (hqueue : x.queue = [])
    (hlen : f.items.length ≤ 128) (hidle : ∀ z, z ∈ s.net.sessions → ∀ y, z = some y → y.queue = []) (hitems : f.items = i :: l)
    (hexec : executable f.image i = true) (seq : Nat) (p : Packet) : (s.enqueue k f seq p).session k
      = some { x.take seq p.iface p.source s.now with queue := [frameRequest f seq p f.items []] } := by
  have hv : (s.setSession k (takeRequest seq p s.now (frameRequest f seq p f.items []))).session k
      = some { x.take seq p.iface p.source s.now with queue := [frameRequest f seq p f.items []] } := by
    rw [session_setSession, hx, Option.map_some, takeRequest, hqueue, List.nil_append]
  rw [enqueue_of_fits (foldl_itemsInFlight hidle) hlen, settleAll_waits hv rfl hitems hexec, session_setSession, hv]
  rfl

end State

end Sys2Proof.Machine
end

section
/-! PROOFS. The statement about YOAP frames. -/

set_option Elab.async false

open Sys2Proof Sys2Proof.Machine

/-- Settles O47: a frame goes through its layers to the checks of its session, one after the other. -/
theorem yoapFrames : Obligations.YoapFrames := by
  unfold Obligations.YoapFrames
  refine ⟨fun p bytes s hon => ⟨fun hd => ?_, fun hd => ?_⟩, fun p bytes s hon hd hi hlen => ?_, fun p bytes s hon hd hlen hparse => ?_,
    fun p bytes f x s hon hd hlen hparse hx hq => ?_, fun seq b iface source now x hs => Session.accepts_take hs⟩
  · exact congrArg Host.Outcome.next (State.yoapFrame_of_ignored hon hd)
  · exact congrArg Host.Outcome.next (State.yoapFrame_of_unsupported hon hd)
  · refine congrArg Host.Outcome.next ((State.yoapFrame_of_served hon hd).trans ?_)
    rw [State.takeYoap, if_pos (by simp [hi, hlen])]
    rfl
  · refine congrArg Host.Outcome.next ((State.yoapFrame_of_served hon hd).trans ?_)
    have hover : ¬ (decide (p.iface < 3) && decide (1472 < bytes.length)) = true := by
      simp only [Bool.and_eq_true, decide_eq_true_eq, not_and]
      exact fun h3 => Nat.not_lt.2 (hlen h3)
    rw [State.takeYoap, if_neg hover, hparse]
    rfl
  · have hframe : exec (.yoapFrame p bytes) s = .next (s.fresh.counted.checkFrame f.session x f p) :=
      congrArg Host.Outcome.next (State.yoapFrame_of_session hon hd hlen hparse hx hq)
    have hcounted : Changes [.net] s s.fresh.counted := (State.counted_changes _).after (State.fresh_changes s) (by decide)
    have hx' : s.fresh.counted.session f.session = some x := State.session_of_frameSession hx
    refine ⟨fun hmac => ?_, fun hmac hdup himage => ?_, fun hmac hdup hacc => ?_, fun hmac hdup hacc => ?_⟩
    · rw [State.checkFrame_of_mac hmac] at hframe
      obtain ⟨hsessions, hfails, -⟩ := State.frameAbort_net f.session f.seq p.iface p.source .authentication
        { s.fresh.counted with net := { s.fresh.counted.net with authFails := inc32 s.fresh.counted.net.authFails } }
      refine ⟨_, hframe, hfails, hsessions, (State.frameAbort_changes ..).after ((hcounted.mono (by decide)).trans ?_) (by decide)⟩
      exact (Changes.refl _ _).update
    · rw [State.checkFrame_of_duplicate (s := s.fresh.counted) hmac hdup himage] at hframe
      exact hframe
    · rw [State.checkFrame_of_replay (s := s.fresh.counted) hmac hdup hacc] at hframe
      obtain ⟨hsessions, -, hreplays⟩ := State.frameAbort_net f.session f.seq p.iface p.source .replay
        { s.fresh.counted with net := { s.fresh.counted.net with replays := inc32 s.fresh.counted.net.replays } }
      refine ⟨_, hframe, hreplays, hsessions, (State.frameAbort_changes ..).after ((hcounted.mono (by decide)).trans ?_) (by decide)⟩
      exact (Changes.refl _ _).update
    · rw [State.checkFrame_of_accepted (s := s.fresh.counted) hmac hdup hacc] at hframe
      have hwindow := fun y => State.enqueue_window (s := s.fresh.counted) f.session f (State.fullSeq x f) p (y := y) hx'
      refine ⟨_, hframe, hwindow, fun hqueue hlen128 hidle hexec hne => ?_,
        (State.enqueue_changes_answerParts ..).after (hcounted.mono (by decide)) (by decide)⟩
      obtain ⟨i, l, hitems⟩ := List.exists_cons_of_ne_nil hne
      have hi := hexec i (by rw [hitems]; rfl)
      exact ⟨_, _, State.enqueue_first hx' hqueue hlen128 hidle hitems hi _ p, rfl, rfl, rfl, rfl, rfl, rfl, rfl, rfl⟩

end

section
/-! PROOFS. Sessions (R349, R350) and cyclic images (R357 to R359). -/

set_option Elab.async false

namespace Sys2Proof.Machine

namespace State

variable {s : State}

/-! ### OPEN -/

/-- The level that a slot gives a session. -/
def slotLevel (slot : Nat) (s : State) : Nat := if slot = 0xFF then 0 else (nth s.net.slots slot {}).level

/-- The session that an OPEN makes. -/
def openedSession (k : Nat) (o : Opening) (s : State) : Session :=
  { level := s.slotLevel o.slot
    slot := o.slot
    key := if s.slotLevel o.slot = 0 then [] else
      sessionKey (nth s.net.slots o.slot {}).key o.slot k (ofBytes o.data) (Config.nonce s.net.draws % 2 ^ 64)
    iface := o.iface, last := s.now, ownSeq := 1, source := (o.iface, o.source), opened := s.net.opens }

/-- A state with an OPEN item taken from those that wait, and no answer yet. -/
def openTaken (o : Opening) (s : State) : State := fresh { s with net := { s.net with opening := s.net.opening.erase o } }

/-- What an accepted OPEN leaves before its response goes out: the session, and the answer. -/
def openAnswered (k : Nat) (o : Opening) (s : State) : State :=
  let u := (s.openTaken o).closeSession k
  { u with net := { u.net with
      sessions := u.net.sessions.set k (some (u.openedSession k o)), opens := s.net.opens + 1
      draws := if s.slotLevel o.slot = 0 then s.net.draws else s.net.draws + 1
      answers := [reply 0x10 (o.slot * 256) k none false (if s.slotLevel o.slot = 0 then [] else toBytes 8 (Config.nonce s.net.draws % 2 ^ 64))] } }

/-- An accepted OPEN sends one frame. -/
theorem openDone_of_free {o : Opening} {k : Nat} (ha : s.openAbort o = none) (hk : s.freeSession = some k) :
    ∃ f, s.openDone o = (s.openAnswered k o).send f := by
  unfold openDone
  extract_lets src u
  have ha' : u.openAbort o = none := ha
  have hk' : u.freeSession = some k := hk
  split
  next j _ hj =>
    obtain rfl : k = j := Option.some.inj (hk'.symm.trans hj)
    exact ⟨_, rfl⟩
  next h => rw [ha'] at h; cases h
  next h => rw [hk'] at h; cases h

/-- A refused OPEN before its response goes out. -/
def openRefused (a : Abort) (o : Opening) (s : State) : State :=
  noteAbort 0xFF a.code 0 { s.openTaken o with net := { (s.openTaken o).net with answers := [reply 0x10 (o.slot * 256) 0xFF (some a) false []] } }

theorem openDone_of_abort {o : Opening} {a : Abort} (ha : s.openAbort o = some a) : ∃ f, s.openDone o = (s.openRefused a o).send f := by
  unfold openDone
  extract_lets src u
  have ha' : u.openAbort o = some a := ha
  split
  next h _ => rw [ha'] at h; cases h
  next b h =>
    obtain rfl : a = b := Option.some.inj (ha'.symm.trans h)
    exact ⟨_, rfl⟩
  next h _ => rw [ha'] at h; cases h

theorem session_of_ne {k j : Nat} {o : Opening} (h : j ≠ k) : (s.openAnswered k o).session j = s.session j := by
  have hclose : ((s.openTaken o).closeSession k).session j = s.session j := (session_closeSession ..).trans (if_neg h)
  rw [← hclose]
  unfold session openAnswered nth
  simp [List.getElem?_set_ne (Ne.symm h)]

theorem session_openAnswered {k : Nat} {o : Opening} (h : k < s.net.sessions.length) : (s.openAnswered k o).session k = some (s.openedSession k o) := by
  have hnow : ((s.openTaken o).closeSession k).now = s.now := (closeSession_changes k (s.openTaken o)).same .clock (by decide)
  have hopened : ((s.openTaken o).closeSession k).openedSession k o = s.openedSession k o := by
    unfold openedSession
    rw [hnow]
    rfl
  have hlen : ((s.openTaken o).closeSession k).net.sessions.length = s.net.sessions.length := List.length_set ..
  unfold session openAnswered nth
  simp [hlen, h, hopened]

theorem openAnswered_net (k : Nat) (o : Opening) (s : State) : (s.openAnswered k o).net.opens = s.net.opens + 1
    ∧ (s.openAnswered k o).net.opening = s.net.opening.erase o ∧ (s.openAnswered k o).net.sent = [] := ⟨rfl, rfl, rfl⟩

/-- A frame sent is the only change. -/
theorem send_net (f : TxFrame) (s : State) : (s.send f).net.sessions = s.net.sessions ∧ (s.send f).net.opens = s.net.opens
    ∧ (s.send f).net.opening = s.net.opening ∧ (s.send f).net.sent = s.net.sent ++ [f] ∧ (s.send f).net.answers = s.net.answers := ⟨rfl, rfl, rfl, rfl, rfl⟩

theorem session_send (f : TxFrame) (k : Nat) (s : State) : (s.send f).session k = s.session k := rfl

theorem openAnswered_changes (k : Nat) (o : Opening) (s : State) : Changes [.dev, .table, .net] s (s.openAnswered k o) := by
  have hclose : Changes [.dev, .table, .net] s ((s.openTaken o).closeSession k) :=
    (closeSession_changes ..).after ((show Changes [.net] s (s.openTaken o) from (Changes.refl _ s).update).mono (by decide)) (by decide)
  unfold openAnswered
  exact hclose.update

theorem openRefused_changes (a : Abort) (o : Opening) (s : State) : Changes [.table, .net] s (s.openRefused a o) := by
  unfold openRefused
  exact (noteAbort_changes ..).after ((Changes.refl _ s).update) (by decide)

/-! ### CLOSE, NOP and the idle timeout -/

theorem plainItem_of_front {op k : Nat} {i : YItem} (hi : s.frontItem k = some i) (hop : i.opcode = op) :
    s.plainItem op k = s.fresh.answer k (reply op (i.idx * 256 + i.sub) k none false []) := by
  simp only [plainItem, hi, if_pos hop]

/-- The front request whose items are all answered, with an answer that closes the session. -/
theorem settleFront_closes {k : Nat} {x : Session} {r : Request} {rest : List Request} (hr : r.items = [])
    (hclose : ∃ b ∈ r.resp, b.abort = 0 ∧ b.opcode = 0x11) (s : State) :
    (s.settleFront k x r rest).2 = false ∧ (s.settleFront k x r rest).1.session k = none := by
  obtain ⟨seq, iface, source, image, items, resp, tail⟩ := r
  cases hr
  obtain ⟨b, hb, hb0, hb11⟩ := hclose
  have hany : ∀ own : Answer → Bool, (resp ++ tail).any (fun (a : Answer) => a.abort == 0 && (a.opcode == 0x11 || own a)) = true := fun own =>
    List.any_eq_true.2 ⟨b, List.mem_append_left _ hb, by simp [hb0, hb11]⟩
  simp only [settleFront, List.dropWhile_nil, List.takeWhile_nil, List.map_nil, List.foldl_nil, List.append_nil, List.isEmpty_nil, Bool.not_true,
    Bool.false_eq_true, if_false, hany, if_true]
  exact ⟨trivial, (session_closeSession ..).trans (if_pos rfl)⟩

/-- An answered CLOSE closes its session. -/
theorem session_answer_close {k : Nat} {a : Answer} {x : Session} {r : Request} {i : YItem} (hx : s.session k = some x) (hq : x.queue = [r])
    (hr : r.items = [i]) (ha : a.abort = 0) (hop : a.opcode = 0x11) : (s.answer k a).session k = none := by
  rw [answer_eq]
  generalize hu : abortNoted k a { s with net := { s.net with answers := [a] } } = u
  have hnet : u.net = { s.net with answers := [a] } := by rw [← hu, abortNoted_net]
  have hux : u.session k = some x := by unfold session at hx ⊢; rw [hnet]; exact hx
  have hv : (u.setSession k (answeredQueue a)).session k = some { x with queue := [{ r with items := [], resp := r.resp ++ [a] }] } := by
    rw [session_setSession, hux]
    simp only [Option.map_some, answeredQueue, hq, hr, List.drop_succ_cons, List.drop_zero]
  obtain ⟨hstop, hnone⟩ := settleFront_closes (k := k) (x := { x with queue := [{ r with items := [], resp := r.resp ++ [a] }] })
    (r := { r with items := [], resp := r.resp ++ [a] }) (rest := []) rfl
    ⟨a, List.mem_append_right _ (List.mem_singleton.2 rfl), ha, hop⟩ (u.setSession k (answeredQueue a))
  simp only [settleAll, hv, List.length_cons, List.length_nil, settleRequests, hstop, Bool.false_eq_true, if_false]
  exact hnone

theorem idleOut_of_idle {k : Nat} {x : Session} (hx : s.session k = some x) (h : x.last + 200000 * s.cfg.u 0x1050 2 ≤ s.now) :
    s.idleOut k = s.closeSession k := by
  simp only [idleOut, hx, if_pos h]

/-! ### Images -/

/-- An image item at the front of its queue, as its frame brought it. -/
theorem imageItem_of_front {k n seq : Nat} {p : Packet} {data : List Byte} {x : Session} {r : Request} {i : YItem} (hx : s.session k = some x)
    (hr : x.frontRequest = some r) (hi : x.front = some i) (himage : r.image = true) (hop : i.opcode = 0x20) (hn : i.idx = n) (hdata : i.data = data)
    (hseq : r.seq = seq) (hif : r.iface = p.iface) : s.imageItem k n seq p data = (s.fresh.imageCome k n seq p.iface data).unanswered k := by
  have hf : s.frontItem k = some i := by simp only [frontItem, hx, hi]
  simp [imageItem, hx, hf, hr, himage, hop, hn, hdata, hseq, hif]

/-- The image is one that the session may bring, in a state that takes images. -/
theorem image_admitted {n : Nat} {x : Session} (h31 : bit (s.imageCfg n) 31 = true) (h30 : bit (s.imageCfg n) 30 = false) (hauth : x.authenticated = true)
    (hslot : x.slot = bits (s.imageCfg n) 19 17) (h4 : 4 ≤ s.dev.state) (h7 : s.dev.state ≠ 7) :
    (!(bit (s.imageCfg n) 31 && !bit (s.imageCfg n) 30 && x.authenticated && x.slot == bits (s.imageCfg n) 19 17) || s.notReady || s.dev.state == 7)
      = false := by
  have hn : s.notReady = false := decide_eq_false (Nat.not_lt.2 h4)
  simp [h31, h30, hauth, hslot, hn, h7]

theorem imageCome_of_good {k n seq port : Nat} {data : List Byte} {x : Session} {l : List (Nat × List Byte)} (hx : s.session k = some x)
    (hadm : (!(bit (s.imageCfg n) 31 && !bit (s.imageCfg n) 30 && x.authenticated && x.slot == bits (s.imageCfg n) 19 17) || s.notReady
      || s.dev.state == 7) = false)
    (hnew : x.imgSeq ≤ seq) (hl : imageValues (s.imageMap n) data = some l) (hgood : ∀ e ∈ l, s.imageValueBad x.level e = false) :
    s.imageCome k n seq port data = ((((s.applyImage k n x.level l).setSession k (fun y => { y with imgSeq := seq })).setImage n
      (fun y => { y with active := true, timeout := false })).deliver n port) := by
  have hbad : l.any (fun e => s.imageValueBad x.level e) = false := List.any_eq_false.2 fun e he => by rw [hgood e he]; exact Bool.false_ne_true
  simp only [imageCome, hx, hadm, if_neg (Nat.not_lt.2 hnew), hl, hbad, Bool.false_eq_true, if_false]

theorem imageCome_of_stale {k n seq port : Nat} {data : List Byte} {x : Session} (hx : s.session k = some x)
    (hadm : (!(bit (s.imageCfg n) 31 && !bit (s.imageCfg n) 30 && x.authenticated && x.slot == bits (s.imageCfg n) 19 17) || s.notReady
      || s.dev.state == 7) = false)
    (hold : seq < x.imgSeq) : s.imageCome k n seq port data = s.setImage n (fun y => { y with rejects := inc32 y.rejects }) := by
  simp only [imageCome, hx, hadm, if_pos hold, Bool.false_eq_true, if_false]

/-- An image none of whose ports has delivered in time. -/
theorem imageLate_of_all {n : Nat} (hn : n ∈ s.recvImages) (hw : s.working = true)
    (hlate : ∀ q ∈ s.imagePorts n, max (nth (nth s.net.images n {}).times q 0) (nth s.net.images n {}).since + s.imageLimit n ≤ s.now)
    (ht : (nth s.net.images n {}).timeout = false) :
    s.imageLate n = (s.setImage n (fun y => { y with timeout := true, active := false })).timeoutReaction n := by
  have hst : ¬ (s.dev.state = 7) ∧ s.notReady = false := by
    simp only [working, Bool.or_eq_true, beq_iff_eq] at hw
    exact ⟨by omega, decide_eq_false (by omega)⟩
  have hall : (s.imagePorts n).all (fun q => decide (max (nth (nth s.net.images n {}).times q 0) (nth s.net.images n {}).since + s.imageLimit n ≤ s.now)) = true :=
    List.all_eq_true.2 fun q hq => decide_eq_true (hlate q hq)
  have hmem : s.recvImages.contains n = true := List.contains_iff_mem.2 hn
  simp only [imageLate, hmem, hst.1, hst.2, hall, ht, Bool.not_true, Bool.or_self, decide_false, Bool.false_eq_true, if_false, if_true]

/-! ### The control modes at an image timeout -/

theorem deriveFields_modeKey {m : Nat} (hm : m < 2) (c : Store) : deriveFields c (modeKey m) = [] := by
  obtain rfl | rfl : m = 0 ∨ m = 1 := by omega
  · rfl
  · rfl

theorem overWrite_mode {m : Nat} (hm : m < 2) {w : PendWrite} (hk : w.key = modeKey m) (ho : w.own = true) (c : Store) :
    overWrite c w = c.put (modeKey m) w.raw := by
  have ha : actsAtBoundary (modeKey m) = false := by
    obtain rfl | rfl : m = 0 ∨ m = 1 := by omega
    · rfl
    · rfl
  simp only [overWrite, hk, ho, ha, Bool.not_false, Bool.and_true, if_true, withDerived, deriveFields_modeKey hm, List.foldl_nil]

/-- The one part of a write of a control mode. -/
def modePart (m raw : Nat) (s : State) : PendWrite :=
  { key := modeKey m, raw := raw, accepted := s.now, groups := 2 ^ objGroup (modeKey m), own := true, late := s.commit.pendingMask &&& 2 ^ objGroup (modeKey m) }

theorem acceptWrite_mode_writes {m : Nat} (hm : m < 2) (raw : Nat) (s : State) :
    (s.acceptWrite (modeKey m) raw).commit.writes = s.commit.writes ++ [modePart m raw s] := by
  have hfields : s.acceptFields (modeKey m) raw = [] := deriveFields_modeKey hm _
  rw [acceptWrite_commit, hfields]
  obtain rfl | rfl : m = 0 ∨ m = 1 := by omega
  · rfl
  · rfl

/-- Both modes written to 0, one after the other. -/
theorem acceptWrite_modes (s : State) : (((s.acceptWrite (modeKey 0) 0).acceptWrite (modeKey 1) 0).acceptedStore.raw (modeKey 0) = 0)
    ∧ (((s.acceptWrite (modeKey 0) 0).acceptWrite (modeKey 1) 0).acceptedStore.raw (modeKey 1) = 0) := by
  have hwrites : ((s.acceptWrite (modeKey 0) 0).acceptWrite (modeKey 1) 0).commit.writes
      = s.commit.writes ++ [modePart 0 0 s, modePart 1 0 (s.acceptWrite (modeKey 0) 0)] := by
    rw [acceptWrite_mode_writes (by decide), acceptWrite_mode_writes (by decide), List.append_assoc]
    rfl
  obtain ⟨l, hl⟩ := lastWrites_append s.commit.writes [modePart 0 0 s, modePart 1 0 (s.acceptWrite (modeKey 0) 0)]
  have hlast : lastWrites [modePart 0 0 s, modePart 1 0 (s.acceptWrite (modeKey 0) 0)] = [modePart 0 0 s, modePart 1 0 (s.acceptWrite (modeKey 0) 0)] := rfl
  have hstore : ((s.acceptWrite (modeKey 0) 0).acceptWrite (modeKey 1) 0).acceptedStore = ((l.foldl overWrite s.cfg).put (modeKey 0) 0).put (modeKey 1) 0 := by
    rw [acceptedStore, hwrites, overWrites_eq_foldl, hl, hlast, List.foldl_append, acceptWrite_cfg, acceptWrite_cfg, List.foldl_cons, List.foldl_cons,
      List.foldl_nil, overWrite_mode (m := 0) (w := modePart 0 0 s) (by decide) rfl rfl,
      overWrite_mode (m := 1) (w := modePart 1 0 (s.acceptWrite (modeKey 0) 0)) (by decide) rfl rfl]
    rfl
  rw [hstore]
  refine ⟨?_, Store.raw_put ..⟩
  rw [Store.raw_put_ne _ _ (by decide)]
  exact Store.raw_put ..

/-- R359: what an image timeout writes. -/
theorem timeoutReaction_stop {n : Nat} (hw : s.working = true) (h : s.cfg.u 0x106B (n + 1) = 2) :
    s.timeoutReaction n = (s.acceptWrite (modeKey 0) 0).acceptWrite (modeKey 1) 0 := by
  simp only [timeoutReaction, hw, h, Bool.not_true, Bool.false_eq_true, if_false]

theorem timeoutReaction_none {n : Nat} (h : s.cfg.u 0x106B (n + 1) ∉ [1, 2]) : s.timeoutReaction n = s := by
  simp only [List.mem_cons, List.not_mem_nil, or_false, not_or] at h
  unfold timeoutReaction
  extract_lets zero
  split
  · rfl
  · split
    next h1 => exact absurd h1 h.1
    next h2 => exact absurd h2 h.2
    next => rfl

end State

end Sys2Proof.Machine
end

section
/-! PROOFS. The statements about session items and cyclic images. -/

set_option Elab.async false

open Sys2Proof Sys2Proof.Machine

/-- Settles O48: OPEN by its two outcomes, CLOSE and NOP by their answer. -/
theorem sessionItems : Obligations.SessionItems := by
  unfold Obligations.SessionItems
  refine ⟨fun p slot nonce k o s hm ha hk hlen => ?_, fun p slot nonce o a s hm ha => ?_, fun k i s hi => ⟨fun hop => ?_, fun hop => ?_⟩,
    fun k x r i s _ hx hq hr hop => ?_, fun k x s hx hidle => ?_⟩
  · obtain ⟨f, hf⟩ := State.openDone_of_free ha hk
    have hexec : exec (.openSession p slot nonce) s = .next (s.openDone o) := by
      show Host.Outcome.next (match s.openMatch p slot nonce with | some o => s.openDone o | none => s) = _
      rw [hm]
    rw [hf] at hexec
    obtain ⟨hopens, hopening, hsent⟩ := State.openAnswered_net k o s
    obtain ⟨-, hopens', hopening', hsent', -⟩ := State.send_net f (s.openAnswered k o)
    refine ⟨_, hexec, ?_, hopens'.trans hopens, hopening'.trans hopening, ?_, fun j hj => ?_, ?_⟩
    · rw [State.session_send, State.session_openAnswered hlen]
      rfl
    · rw [hsent', hsent]
      rfl
    · rw [State.session_send, State.session_of_ne hj]
    · exact (State.send_changes ..).after (State.openAnswered_changes ..) (by decide)
  · obtain ⟨f, hf⟩ := State.openDone_of_abort ha
    have hexec : exec (.openSession p slot nonce) s = .next (s.openDone o) := by
      show Host.Outcome.next (match s.openMatch p slot nonce with | some o => s.openDone o | none => s) = _
      rw [hm]
    rw [hf] at hexec
    exact ⟨_, hexec, rfl, rfl, rfl, rfl, (State.send_changes ..).after (State.openRefused_changes ..) (by decide)⟩
  · exact congrArg Host.Outcome.next (State.plainItem_of_front hi hop)
  · exact congrArg Host.Outcome.next (State.plainItem_of_front hi hop)
  · have hi : s.frontItem k = some i := by simp only [State.frontItem, hx, Session.front, hq, hr, List.head?_cons]
    have hx' : s.fresh.session k = some x := hx
    exact ⟨_, congrArg Host.Outcome.next (State.plainItem_of_front hi hop), State.session_answer_close hx' hq hr rfl rfl,
      (State.answer_changes ..).after ((State.fresh_changes s).mono (by decide)) (by decide)⟩
  · exact ⟨congrArg Host.Outcome.next (State.idleOut_of_idle hx hidle), (State.session_closeSession ..).trans (if_pos rfl), State.closeSession_changes ..⟩

/-- Settles O49: an image by its checks, a timeout by its reaction. -/
theorem cyclicImages : Obligations.CyclicImages := by
  unfold Obligations.CyclicImages
  refine ⟨fun k n seq p data x r i l s hx hr hi himage hop hn hdata hseq hif h31 h30 hauth hslot h4 h7 hnew hl hgood => ?_,
    fun k n seq p data x r i s hx hr hi himage hop hn hdata hseq hif h31 h30 hauth hslot h4 h7 hold => ?_,
    fun n s hn hw hlate ht => ?_⟩
  · have hadm := State.image_admitted (s := s.fresh) h31 h30 hauth hslot h4 h7
    have hcome := State.imageCome_of_good (s := s.fresh) (port := p.iface) hx hadm hnew hl hgood
    have hitem := State.imageItem_of_front hx hr hi himage hop hn hdata hseq hif
    rw [hcome] at hitem
    exact congrArg Host.Outcome.next hitem
  · have hadm := State.image_admitted (s := s.fresh) h31 h30 hauth hslot h4 h7
    have hcome := State.imageCome_of_stale (s := s.fresh) (port := p.iface) (data := data) hx hadm hold
    have hitem := State.imageItem_of_front hx hr hi himage hop hn hdata hseq hif
    rw [hcome] at hitem
    exact congrArg Host.Outcome.next hitem
  · have hexec : exec (.imageTimeout n) s = .next ((s.setImage n (fun y => { y with timeout := true, active := false })).timeoutReaction n) :=
      congrArg Host.Outcome.next (State.imageLate_of_all hn hw hlate ht)
    have hc := State.timeoutReaction_changes n (s.setImage n (fun y => { y with timeout := true, active := false }))
    refine ⟨_, hexec, hc.same .net (by decide), fun h2 => ?_, fun h12 => ?_, hc.after ((State.setImage_changes ..).mono (by decide)) (by decide)⟩
    · rw [State.timeoutReaction_stop (s := s.setImage n (fun y => { y with timeout := true, active := false })) hw h2]
      exact State.acceptWrite_modes _
    · rw [State.timeoutReaction_none (s := s.setImage n (fun y => { y with timeout := true, active := false })) h12]
      rfl

end

section
/-! PROOFS. The switch, gPTP and the CAN controllers (R343 to R345, R359 to R361). -/

set_option Elab.async false

namespace Sys2Proof.Machine

/-! ### Fault reports keep the networks -/

/-- Two states whose networks differ in the open sessions at most. -/
def SameNet (s t : State) : Prop := t.net = { s.net with sessions := t.net.sessions }

namespace SameNet

variable {ps : List Part} {s t u : State}

theorem refl (s : State) : SameNet s s := rfl

theorem of_net (h : t.net = s.net) : SameNet s t := by
  unfold SameNet
  rw [h]

theorem of_changes (c : Changes ps s t) (h : .net ∉ ps := by decide) : SameNet s t := of_net (c.same .net h)

theorem trans (h : SameNet s t) (k : SameNet t u) : SameNet s u := by
  unfold SameNet at *
  rw [k, h]

theorem ite {c : Prop} [Decidable c] (h : SameNet s t) (k : SameNet s u) : SameNet s (if c then t else u) := by
  split
  · exact h
  · exact k

theorem links_eq (h : SameNet s t) : t.net.links = s.net.links := by rw [h]

end SameNet

namespace State

variable {s : State}

theorem closeSession_sameNet (k : Nat) (s : State) : SameNet s (s.closeSession k) := rfl

theorem closeSessions_sameNet (p : Session → Bool) (s : State) : SameNet s (s.closeSessions p) := by
  unfold closeSessions
  generalize List.range 16 = l
  induction l generalizing s with
  | nil => exact .refl s
  | cons k l ih =>
    refine SameNet.trans ?_ (ih _)
    dsimp only
    split
    · split
      · exact closeSession_sameNet ..
      · exact .refl s
    · exact .refl s

theorem enterBedrock_sameNet (cause group : Nat) (byVote : Bool) (s : State) : SameNet s (s.enterBedrock cause group byVote) := by
  unfold enterBedrock
  refine .ite (.of_changes (logEvent_changes ..)) (.ite (.refl s) ?_)
  extract_lets hard stopped tr eased handed gone recorded closed logged
  have hstopped : SameNet s stopped := .of_changes (bedrockStops_changes ..)
  have heased : SameNet stopped eased := .of_net rfl
  have hhanded : SameNet eased handed := SameNet.trans (.of_changes (twinHandOff_changes 0 eased)) (.of_changes (twinHandOff_changes ..))
  have hgone : SameNet handed gone := .of_changes (goState_changes ..)
  have hrecorded : SameNet gone recorded := .of_net rfl
  have hclosed : SameNet recorded closed := SameNet.trans (.of_changes (retainBedrock_changes ..)) (closeSessions_sameNet ..)
  have hlogged : SameNet s logged :=
    (((((hstopped.trans heased).trans hhanded).trans hgone).trans hrecorded).trans hclosed).trans (.of_changes (logEvent_changes ..))
  exact .ite (hlogged.trans (.of_changes (hardStates_changes ..))) hlogged

theorem singleFault_sameNet (code group detail : Nat) (s : State) : SameNet s (s.singleFault code group detail) := by
  unfold singleFault
  extract_lets second u v
  have hv : SameNet s v := by
    unfold v
    split
    · exact .of_net rfl
    · exact SameNet.trans (t := u) (.of_net rfl) (.of_changes (logEvent_changes ..))
  split
  · exact hv.trans (enterBedrock_sameNet ..)
  · exact hv

theorem raise_sameNet (g : Signal) (s : State) : SameNet s (s.raise g) := by
  unfold raise
  split
  · exact singleFault_sameNet ..
  · exact enterBedrock_sameNet ..
  · exact enterBedrock_sameNet ..
  · exact .of_net rfl

/-! ### ARP and ICMP -/

theorem takePlain_of_room {p : Packet} (h : p.backlog < (icmpQueue p.iface).2) : s.takePlain p = (s.fresh.counted, true) := by
  unfold takePlain
  dsimp only
  rw [if_neg (Nat.not_le.2 h), decide_eq_true h]

theorem arp_of_served {p : Packet} {ip : Nat} (hon : s.plainOn p.iface = true) (hl : s.linkLayer p = .served) (hq : p.backlog < (icmpQueue p.iface).2)
    (hip : ip = s.ownIp p.iface) (sender : List Byte) : s.arp p ip sender = s.fresh.counted.send
      (s.ownFrame p.iface (s.responsePrio p.iface) p.source (s.arpReply p.iface sender)) := by
  simp only [arp, hon, hl, takePlain_of_room hq, hip, beq_self_eq_true, Bool.and_true, Bool.not_true, Bool.false_eq_true, if_false, if_true]

theorem echo_of_served {p : Packet} {payload : List Byte} (hon : s.plainOn p.iface = true) (hl : s.linkLayer p = .served) (hn : s.networkLayer p = .served)
    (hq : p.backlog < (icmpQueue p.iface).2) (hlen : payload.length ≤ 1472) : s.echo p payload = s.fresh.counted.send
      (s.ownFrame p.iface (s.responsePrio p.iface) p.source payload) := by
  simp only [echo, hon, hl, hn, takePlain_of_room hq, if_neg (Nat.not_lt.2 hlen), Bool.not_true, Bool.false_eq_true, if_false]

/-! ### The switch (R343 to R345) -/

/-- The frame that leaves by a port. -/
def egressFrame (f : EthFrame) (pcp p : Nat) : TxFrame := { iface := p, prio := pcp, bytes := toBytes 6 f.dest ++ toBytes 6 f.source, vlan := f.vlan }

/-- A frame at an egress port: sent, or dropped at a full queue. -/
def egress (f : EthFrame) (pcp : Nat) (s : State) (p : Nat) : State :=
  if 8 ≤ f.backlog then { s with net := s.net.dropAt (16 + 8 * p + pcp) } else s.send (egressFrame f pcp p)

/-- The frame at the internal port. -/
def ingress (f : EthFrame) (pcp : Nat) (s : State) : State :=
  if f.port < 2 && s.dev.state != 7 && s.internalTakes f.dest f.vlan then s.send (egressFrame f pcp 7) else s

theorem forward_of_served {f : EthFrame} (hs : s.netServes = true) (hp : f.port < 2) (hen : bit (s.cfg.u 0x1010 6) f.port = true)
    (hl : bit s.net.links f.port = true) (hlo : 64 ≤ f.length) (hhi : f.length ≤ 1522) (ht : f.twoTags = false) : s.forward f =
    ingress f (s.arrivalPcp f.vlan f.pcp)
      (((s.fresh.learn f.source f.port).egressPorts f).foldl (egress f (s.arrivalPcp f.vlan f.pcp)) (s.fresh.learn f.source f.port)) := by
  have hpcp : (s.fresh.learn f.source f.port).arrivalPcp f.vlan f.pcp = s.arrivalPcp f.vlan f.pcp := by
    unfold learn
    split <;> rfl
  have h2 : ¬ f.port = 2 := by omega
  have h : s.forward f = if !s.netServes || (decide (f.port < 2) && !(bit (s.cfg.u 0x1010 6) f.port && bit s.net.links f.port))
      || (f.port == 2 && s.dev.state == 7) then s
    else if 1522 < f.length then { s.fresh with net := { s.fresh.net with oversize := inc32 s.fresh.net.oversize } }
    else if f.length < 64 || f.twoTags then { s.fresh with net := { s.fresh.net with unsupported := inc32 s.fresh.net.unsupported } }
    else let u := if f.port < 2 then s.fresh.learn f.source f.port else s.fresh
      ingress f (u.arrivalPcp f.vlan f.pcp) ((u.egressPorts f).foldl (egress f (u.arrivalPcp f.vlan f.pcp)) u) := rfl
  rw [h, if_neg (by simp [hs, hen, hl, h2]), if_neg (Nat.not_lt.2 hhi), if_neg (by simp [hlo, ht]), if_pos hp]
  dsimp only
  rw [hpcp]

/-- The egress ports take the frame in order, or drop it; nothing but the frames sent and the drop counters changes. -/
theorem foldl_egress (f : EthFrame) (pcp : Nat) (l : List Nat) (s : State) :
    ∃ d, l.foldl (egress f pcp) s = { s with net := { s.net with
      drops := d, sent := s.net.sent ++ (if f.backlog < 8 then l.map (egressFrame f pcp) else []) } } := by
  induction l generalizing s with
  | nil => exact ⟨s.net.drops, by simp⟩
  | cons p l ih =>
    obtain ⟨d, hd⟩ := ih (egress f pcp s p)
    refine ⟨d, ?_⟩
    rw [List.foldl_cons, hd]
    by_cases h : f.backlog < 8
    · simp [egress, h, Nat.not_le.2 h, send]
    · simp [egress, h, Nat.not_lt.1 h, NetState.dropAt]

/-- The external ports that a frame may leave by. -/
theorem egressPorts_spec {f : EthFrame} {p : Nat} (h : p ∈ s.egressPorts f) : p < 2 ∧ p ≠ f.port ∧ bit s.net.links p = true := by
  have hothers : p ∈ [0, 1].filter (fun p => p != f.port && bit (s.cfg.u 0x1010 6) p && bit s.net.links p) := by
    unfold egressPorts at h
    extract_lets others at h
    split at h
    · cases h
    · split at h
      · exact h
      · split at h
        · exact (List.mem_filter.1 h).1
        · exact h
  obtain ⟨hp, hq⟩ := List.mem_filter.1 hothers
  simp only [Bool.and_eq_true, bne_iff_ne] at hq
  refine ⟨?_, hq.1.1, hq.2⟩
  simp only [List.mem_cons, List.not_mem_nil, or_false] at hp
  omega

theorem learn_eq (mac port : Nat) (s : State) : ∃ l, s.learn mac port = { s with net := { s.net with learned := l } }
    ∧ (groupAddress mac = false → ∃ e ∈ l, e.mac = mac ∧ e.port = port ∧ e.time = s.now) := by
  unfold learn
  split
  case isTrue h => exact ⟨s.net.learned, rfl, fun hg => by rw [h] at hg; cases hg⟩
  case isFalse h =>
    dsimp only
    exact ⟨_, rfl, fun _ => ⟨_, List.mem_append_right _ (List.mem_singleton.2 rfl), rfl, rfl, rfl⟩⟩

/-- What a frame at an external port leaves: the frames sent, in the order of its ports, and the address learned. -/
theorem forward_spec {f : EthFrame} (hs : s.netServes = true) (hp : f.port < 2) (hen : bit (s.cfg.u 0x1010 6) f.port = true)
    (hl : bit s.net.links f.port = true) (hlo : 64 ≤ f.length) (hhi : f.length ≤ 1522) (ht : f.twoTags = false) :
    (s.forward f).net.sent = (if f.backlog < 8 then ((s.fresh.learn f.source f.port).egressPorts f).map (egressFrame f (s.arrivalPcp f.vlan f.pcp)) else [])
        ++ (if s.dev.state ≠ 7 ∧ s.internalTakes f.dest f.vlan = true then [egressFrame f (s.arrivalPcp f.vlan f.pcp) 7] else [])
      ∧ (s.forward f).net.learned = (s.fresh.learn f.source f.port).net.learned ∧ (s.forward f).net.sessions = s.net.sessions := by
  rw [forward_of_served hs hp hen hl hlo hhi ht]
  generalize s.arrivalPcp f.vlan f.pcp = pcp
  obtain ⟨l, hlearn, -⟩ := learn_eq f.source f.port s.fresh
  rw [hlearn]
  generalize ({ s.fresh with net := { s.fresh.net with learned := l } } : State).egressPorts f = ports
  obtain ⟨d, hd⟩ := foldl_egress f pcp ports { s.fresh with net := { s.fresh.net with learned := l } }
  rw [hd]
  by_cases htakes : s.dev.state ≠ 7 ∧ s.internalTakes f.dest f.vlan = true
  · rw [if_pos htakes, ingress, if_pos]
    · exact ⟨by simp [send], rfl, rfl⟩
    · simp only [hp, decide_true, Bool.true_and, Bool.and_eq_true, bne_iff_ne]
      exact htakes
  · rw [if_neg htakes, ingress, if_neg]
    · exact ⟨by simp, rfl, rfl⟩
    · simp only [hp, decide_true, Bool.true_and, Bool.and_eq_true, bne_iff_ne]
      exact htakes

/-! ### Links and gPTP -/

theorem linkDown_links {port : Nat} (h : bit s.net.links port = true) : (s.linkDown port).net.links = setBit s.net.links port false := by
  unfold linkDown
  rw [if_neg (by simp [h])]
  dsimp only
  split
  · exact (raise_sameNet ..).links_eq
  · rfl

theorem networkRestored_net (s : State) : s.networkRestored.net = s.net ∧ Changes [.fault] s s.networkRestored := by
  unfold networkRestored
  dsimp only
  split
  · exact ⟨rfl, (Changes.refl _ s).update⟩
  · exact ⟨rfl, .refl ..⟩

theorem gptpOn_iff {port : Nat} : s.gptpOn port = true ↔
    s.full = true ∧ s.shoulder = false ∧ port < 2 ∧ s.cfg.u 0x1040 1 = port ∧ s.ifaceOn port = true := by
  simp only [gptpOn, Bool.and_eq_true, Bool.not_eq_true', decide_eq_true_eq, beq_iff_eq, and_assoc]

/-- A gPTP frame that finds room is taken; one that finds none is dropped. -/
theorem gptpFrame_of_room {port backlog : Nat} (take : State → State) (hf : s.full = true) (hp : port < 2) (hi : s.ifaceOn port = true) (hb : backlog < 8) :
    s.gptpFrame port backlog take = take s.counted := by
  have h3 : ¬ 3 ≤ port := by omega
  have h2 : ¬ port = 2 := by omega
  simp [gptpFrame, hf, hi, h3, h2, Nat.not_le.2 hb]

theorem gptpFrame_of_full {port backlog : Nat} (take : State → State) (hf : s.full = true) (hp : port < 2) (hi : s.ifaceOn port = true) (hb : 8 ≤ backlog) :
    s.gptpFrame port backlog take = { s with net := { s.net with received := inc32 s.net.received, drops := upd s.net.drops 2 inc32 } } := by
  have h3 : ¬ 3 ≤ port := by omega
  have h2 : ¬ port = 2 := by omega
  simp [gptpFrame, hf, hi, h3, h2, hb, counted, NetState.dropAt]

/-- The offset that a Sync measures (R30). -/
def syncOffset (origin correction : Nat) (s : State) : Nat :=
  ((origin + correction + s.net.gptp.linkDelay) % 2 ^ 64 + 2 ^ 64 - 5 * s.now % 2 ^ 64) % 2 ^ 64

/-- The Syncs in a row that stayed near the offset held (R361). -/
def syncGood (offset : Nat) (s : State) : Nat :=
  if s.net.gptp.lastSync.isNone then 0 else if decide ((offsetError offset s.frame.gptpOffset).natAbs ≤ 1000) then min 8 (s.net.gptp.good + 1) else 0

/-- What a Sync makes of the state of gPTP. -/
def syncGptp (offset interval : Nat) (s : State) : NetState :=
  { s.net with gptp := { s.net.gptp with
      present := s.syncGood offset == 8, good := s.syncGood offset, lastSync := some s.now, interval := interval
      losses := if s.net.gptp.present && !(s.syncGood offset == 8) then inc32 s.net.gptp.losses else s.net.gptp.losses } }

theorem sync_eq {port : Nat} (hon : s.gptpOn port = true) (origin correction interval : Nat) (rate : Int) :
    ∃ trim, State.sync port (s.cfg.u 0x1040 2) origin correction interval rate s
      = s.withGptp (s.syncOffset origin correction) trim (s.syncGptp (s.syncOffset origin correction) interval) := by
  unfold State.sync
  rw [if_neg (by simp [hon])]
  exact ⟨_, rfl⟩

theorem syncOffset_eq (origin correction : Nat) (s : State) : s.syncOffset origin correction =
    (origin + correction + s.net.gptp.linkDelay + (2 ^ 64 - 5 * s.now % 2 ^ 64)) % 2 ^ 64 := by
  unfold syncOffset
  omega

theorem syncLost_of_late {t : Nat} (ht : s.net.gptp.lastSync = some t) (hle : t + 3 * s.net.gptp.interval ≤ s.now) (hsh : s.shoulder = false) :
    s.syncLost = { s with net := { s.net with gptp := { s.net.gptp with
      present := false, good := 0, lastSync := none, losses := if s.net.gptp.present then inc32 s.net.gptp.losses else s.net.gptp.losses } } } := by
  simp only [syncLost, ht, hle, hsh, decide_true, Bool.not_false, Bool.and_true, if_true]

theorem good_of_syncGood {offset : Nat} (h : (s.syncGood offset == 8) = true) : 7 ≤ s.net.gptp.good := by
  have h8 := beq_iff_eq.1 h
  unfold syncGood at h8
  split at h8
  · cases h8
  · split at h8
    · omega
    · cases h8

end State

end Sys2Proof.Machine
end

section
/-! PROOFS. The statement about the networks. -/

set_option Elab.async false

open Sys2Proof Sys2Proof.Machine

/-- Settles O50: one equation for each command, the forwarded frame by its egress ports. -/
theorem networkEvents : Obligations.NetworkEvents := by
  unfold Obligations.NetworkEvents
  refine ⟨⟨fun p ip sender s hon hl hq hip => ?_, fun p payload s hon hl hn hq hlen => ?_, fun f s hs hp hen hl hlo hhi ht => ?_, fun mac s => rfl⟩,
    fun port s h => ?_, fun port s hs => ?_, fun port backlog origin correction interval rate s hon hb => ?_, fun port backlog c s hf hp hi hb hc => ?_,
    fun t0 s ht hle hsh => ?_, fun port backlog body s hf hp hi hb => ?_, fun port backlog t1 t2 t3 t4 s hon hb => ?_,
    fun n s => ⟨fun hi => ?_, rfl⟩⟩
  · rw [hip]
    exact congrArg Host.Outcome.next (State.arp_of_served hon hl hq rfl sender)
  · exact congrArg Host.Outcome.next (State.echo_of_served hon hl hn hq hlen)
  · obtain ⟨hsent, hlearned, hsessions⟩ := State.forward_spec hs hp hen hl hlo hhi ht
    have hframes : ∀ e ∈ (s.forward f).net.sent, ∃ p, e = State.egressFrame f (s.arrivalPcp f.vlan f.pcp) p
        ∧ (p = 7 ∨ p ∈ (s.fresh.learn f.source f.port).egressPorts f) := by
      intro e he
      rw [hsent] at he
      rcases List.mem_append.1 he with he | he
      · split at he
        · obtain ⟨p, hp, rfl⟩ := List.mem_map.1 he
          exact ⟨p, rfl, .inr hp⟩
        · cases he
      · split at he
        · exact ⟨7, List.mem_singleton.1 he, .inl rfl⟩
        · cases he
    obtain ⟨l, hlearn, hmem⟩ := State.learn_eq f.source f.port s.fresh
    have hlinks : (s.fresh.learn f.source f.port).net.links = s.net.links := by rw [hlearn]; rfl
    refine ⟨_, rfl, fun e he => ?_, ?_, fun e he => ?_, fun hg => ?_, hsessions, State.forward_changes ..⟩
    · obtain ⟨p, rfl, rfl | hp⟩ := hframes e he
      · exact .inl rfl
      · have h := State.egressPorts_spec hp
        rw [hlinks] at h
        exact .inr h
    · refine (congrArg (List.map TxFrame.iface) hsent).trans ?_
      rw [List.map_append]
      congr 1
      · split
        · rw [List.map_map]
          exact List.map_id _
        · rfl
      · split <;> rfl
    · obtain ⟨p, rfl, -⟩ := hframes e he
      exact ⟨rfl, rfl⟩
    · obtain ⟨e, he, hmac, hport, htime⟩ := hmem hg
      refine ⟨e, ?_, hmac, hport, htime⟩
      show e ∈ (s.forward f).net.learned
      rw [hlearned, hlearn]
      exact he
  · exact ⟨_, rfl, State.linkDown_links h, State.linkDown_reports ..⟩
  · obtain ⟨hnet, hc⟩ := State.networkRestored_net { s with net := { s.net with links := setBit s.net.links port true } }
    have hup : s.linkUpSgmii port = ({ s with net := { s.net with links := setBit s.net.links port true } } : State).networkRestored :=
      if_neg (by simp [hs])
    exact ⟨_, congrArg Host.Outcome.next hup, hnet, hc.after ((Changes.refl _ s).update) (by decide)⟩
  · obtain ⟨hf, -, hp, -, hi⟩ := State.gptpOn_iff.1 hon
    obtain ⟨trim, hsync⟩ := State.sync_eq (s := s.counted) (port := port) hon origin correction interval rate
    have hexec : exec (.gptpSync port backlog (s.cfg.u 0x1040 2) origin correction interval rate) s
        = .next (State.sync port (s.cfg.u 0x1040 2) origin correction interval rate s.counted) :=
      congrArg Host.Outcome.next (State.gptpFrame_of_room _ hf hp hi hb)
    have hchanges : Changes [.frame, .net] s (State.sync port (s.cfg.u 0x1040 2) origin correction interval rate s.counted) :=
      (State.sync_changes ..).after ((State.counted_changes s).mono (by decide)) (by decide)
    have hsync' : State.sync port (s.cfg.u 0x1040 2) origin correction interval rate s.counted = _ := hsync
    rw [hsync'] at hexec hchanges
    exact ⟨_, hexec, State.syncOffset_eq .., rfl, rfl, rfl, fun h => State.good_of_syncGood h, State.withGptp_fn .., hchanges⟩
  · rcases hc with ⟨domain, origin, correction, interval, rate, rfl⟩ | ⟨body, rfl⟩ | ⟨t1, t2, t3, t4, rfl⟩ <;>
      exact congrArg Host.Outcome.next (State.gptpFrame_of_full _ hf hp hi hb)
  · exact congrArg Host.Outcome.next (State.syncLost_of_late ht hle hsh)
  · refine congrArg Host.Outcome.next ((State.gptpFrame_of_room (State.pdelayAsked port body) hf hp hi hb).trans ?_)
    rw [State.pdelayAsked, State.ownFrame, if_pos hp]
    rfl
  · obtain ⟨hf, -, hp, -, hi⟩ := State.gptpOn_iff.1 hon
    refine congrArg Host.Outcome.next ((State.gptpFrame_of_room _ hf hp hi hb).trans ?_)
    have hon' : s.counted.gptpOn port = true := hon
    rw [State.pdelayCome, if_neg (by simp [hon'])]
    rfl
  · exact congrArg Host.Outcome.next (if_pos hi)

end

section
/-! PROOFS. The Bench port's transactions (chapter 18, R364 to R366). -/

set_option Elab.async false

namespace Sys2Proof.Machine

/-- One step of a CRC-8 whose register is shifted by one bit keeps it a byte. -/
theorem benchCrc_lt (payload : Nat) : benchCrc payload < 256 := by
  unfold benchCrc
  have hstep : ∀ (l : List Nat) (r : Nat), r < 256 → l.foldl (fun r k =>
      let top := bit r 7 != bit payload (55 - k)
      let r := (r * 2) % 256
      if top then r ^^^ 0x2F else r) r < 256 := by
    intro l
    induction l with
    | nil => exact fun r h => h
    | cons k l ih =>
      intro r _
      rw [List.foldl_cons]
      apply ih
      have hr : r * 2 % 256 < 2 ^ 8 := Nat.mod_lt _ (by decide)
      dsimp only
      split
      · exact Nat.xor_lt_two_pow hr (by decide)
      · exact hr
  exact hstep _ _ (by decide)

theorem benchFrame_div (payload : Nat) : benchFrame payload / 256 = payload := by
  have h := benchCrc_lt payload
  unfold benchFrame
  omega

theorem benchFrame_mod (payload : Nat) : benchFrame payload % 256 = benchCrc payload := by
  have h := benchCrc_lt payload
  unfold benchFrame
  omega

/-- The request that a transaction brings, with its result where its CRC is wrong. -/
def broughtReq (word : Nat) : BenchReq :=
  { cmd := bits word 63 48, data := bits word 47 16, result := if benchCrc (word / 256) = word % 256 then none else some (2, 0) }

namespace BenchState

/-- A transaction's request taken, once the result that it shifts out has left the queue. -/
def taken (word : Nat) (b : BenchState) : BenchState :=
  let good := benchCrc (word / 256) == word % 256
  let b := if good then b else { b with crcErr := bump b.crcErr }
  if 4 ≤ b.queue.length then { b with lost := true } else
  { b with queue := b.queue ++ [{ cmd := bits word 63 48, data := bits word 47 16, result := if good then none else some (2, 0) }] }

theorem transaction_of_none (word : Nat) (b : BenchState) (h : ∀ r l, b.queue = r :: l → r.result = none) :
    b.transaction 64 word = BenchState.taken word { b with miso := benchFrame 0 } := by
  rcases b with ⟨q⟩
  cases q with
  | nil => rfl
  | cons r l =>
    rcases r with ⟨cmd, data, res⟩
    obtain rfl : res = none := h _ l rfl
    rfl

theorem transaction_of_some {b : BenchState} {r : BenchReq} {l : List BenchReq} {code data : Nat} (word : Nat) (hq : b.queue = r :: l)
    (hr : r.result = some (code, data)) :
    b.transaction 64 word = BenchState.taken word { b with queue := l, lost := false, miso := resultFrame b.lost r.cmd code data } := by
  rcases b with ⟨q⟩
  rcases r with ⟨cmd, x, res⟩
  cases hq
  cases hr
  rfl

theorem full_of_none (b : BenchState) (h : ∀ r l, b.queue = r :: l → r.result = none) : b.full = decide (4 ≤ b.queue.length) := by
  rcases b with ⟨q⟩
  cases q with
  | nil => rfl
  | cons r l =>
    rcases r with ⟨cmd, data, res⟩
    obtain rfl : res = none := h _ l rfl
    rfl

theorem full_of_some {b : BenchState} {r : BenchReq} {l : List BenchReq} {x : Nat × Nat} (hq : b.queue = r :: l) (hr : r.result = some x) :
    b.full = decide (4 ≤ l.length) := by
  rcases b with ⟨q⟩
  rcases r with ⟨cmd, y, res⟩
  cases hq
  cases hr
  rfl

@[simp] theorem taken_miso (word : Nat) (b : BenchState) : (taken word b).miso = b.miso := by
  unfold taken
  dsimp only
  split <;> split <;> rfl

theorem taken_lost (word : Nat) (b : BenchState) : (taken word b).lost = (b.lost || decide (4 ≤ b.queue.length)) := by
  unfold taken
  by_cases hl : 4 ≤ b.queue.length <;> by_cases hc : benchCrc (word / 256) = word % 256 <;> simp [hl, hc]

theorem taken_crcErr (word : Nat) (b : BenchState) :
    (taken word b).crcErr = (if benchCrc (word / 256) = word % 256 then b.crcErr else min 255 (b.crcErr + 1)) := by
  unfold taken
  by_cases hl : 4 ≤ b.queue.length <;> by_cases hc : benchCrc (word / 256) = word % 256 <;> simp [hl, hc, bump]

theorem taken_queue (word : Nat) (b : BenchState) :
    (taken word b).queue = (if 4 ≤ b.queue.length then b.queue else b.queue ++ [broughtReq word]) := by
  unfold taken
  by_cases hl : 4 ≤ b.queue.length <;> by_cases hc : benchCrc (word / 256) = word % 256 <;> simp [hl, hc, broughtReq]

end BenchState

theorem State.exec_benchTransaction {s : State} (hon : s.benchOn = true) (clocks word : Nat) :
    exec (.benchTransaction clocks word) s = .next (s.benchTransfer clocks word) := by
  change Host.Outcome.next (if s.benchOn then _ else _) = _
  rw [if_pos hon]

/-- A transaction of the wrong length is counted, and nothing else happens. -/
theorem State.benchTransfer_of_length {clocks : Nat} (hc : clocks ≠ 64) (word : Nat) (s : State) :
    s.benchTransfer clocks word = { s with bench := { s.bench with frameErr := min 255 (s.bench.frameErr + 1) } } := by
  simp [State.benchTransfer, BenchState.transaction, hc, BenchState.bump]

/-- A transaction that finds the queue not full counts no drop. -/
theorem State.benchTransfer_of_room {s : State} (hf : s.bench.full = false) (clocks word : Nat) :
    s.benchTransfer clocks word = { s with bench := s.bench.transaction clocks word } := by
  simp [State.benchTransfer, hf]

end Sys2Proof.Machine
end

section
/-! PROOFS. The statement about Bench transactions. -/

set_option Elab.async false

open Sys2Proof Sys2Proof.Machine

/-- Settles O51: the CRC's register stays a byte, so a frame's last byte is its CRC; a transaction takes its request after the oldest result, if it
has one, left the queue. -/
theorem benchTransactions : Obligations.BenchTransactions := by
  unfold Obligations.BenchTransactions
  refine ⟨fun payload => ⟨benchCrc_lt payload, ?_⟩, fun clocks word s hon => ⟨fun hc => ?_, ?_, ?_⟩⟩
  · rw [benchFrame_div, benchFrame_mod]
  · rw [State.exec_benchTransaction hon, State.benchTransfer_of_length hc]
  · rintro rfl hnone
    refine ⟨_, State.exec_benchTransaction hon 64 word, ?_, ?_, ?_, ?_, ?_, ?_⟩
    · exact (congrArg BenchState.miso (BenchState.transaction_of_none word s.bench hnone)).trans (BenchState.taken_miso _ _)
    · exact (congrArg BenchState.queue (BenchState.transaction_of_none word s.bench hnone)).trans (BenchState.taken_queue _ _)
    · exact (congrArg BenchState.crcErr (BenchState.transaction_of_none word s.bench hnone)).trans (BenchState.taken_crcErr _ _)
    · exact (congrArg BenchState.lost (BenchState.transaction_of_none word s.bench hnone)).trans (BenchState.taken_lost _ _)
    · simp [State.benchTransfer, BenchState.full_of_none _ hnone]
    · exact (Changes.refl _ s).update
  · rintro r l code data rfl hq hr hlen
    have hl : ¬ 4 ≤ l.length := by
      have := congrArg List.length hq
      simp only [List.length_cons] at this
      omega
    have hfull : s.bench.full = false := (BenchState.full_of_some hq hr).trans (by simp [hl])
    have ht := BenchState.transaction_of_some word hq hr
    refine ⟨{ s with bench := s.bench.transaction 64 word }, ?_, ?_, ?_, ?_, (Changes.refl _ s).update⟩
    · rw [State.exec_benchTransaction hon, State.benchTransfer_of_room hfull]
    · exact (congrArg BenchState.miso ht).trans (BenchState.taken_miso _ _)
    · exact (congrArg BenchState.lost ht).trans ((BenchState.taken_lost _ _).trans (by simp [hl]))
    · exact (congrArg BenchState.queue ht).trans ((BenchState.taken_queue _ _).trans (if_neg hl))
end

section
/-! PROOFS. The Bench port's requests, registers and recovery actions (chapter 18, R366 to R373). -/

set_option Elab.async false

namespace Sys2Proof.Machine

/-- A command whose data the oldest request's write has executes that write. -/
theorem State.benchWriteIf_of {a data : Nat} {s : State} {p : Nat → Bool} (h : BenchWrites a data s) (hp : p data = true) :
    s.benchWriteIf a p = s.benchWriteAt a data := by
  obtain ⟨hon, r, hf, hw, ha, hd⟩ := h
  simp [State.benchWriteIf, hf, hon, hw, ha, hd, hp]

/-- A command that names the data itself. -/
theorem State.benchWriteIf_data {a data : Nat} {s : State} (h : BenchWrites a data s) :
    s.benchWriteIf a (fun d => d == data) = s.benchWriteAt a data :=
  State.benchWriteIf_of h (beq_self_eq_true data)

theorem State.exec_benchWrite {a data : Nat} {s : State} (h : BenchWrites a data s) : exec (.benchWrite a data) s = .next (s.benchWriteAt a data) :=
  congrArg Host.Outcome.next (State.benchWriteIf_data h)

theorem State.benchWriteAt_of_none {a : Nat} (data : Nat) (s : State) (ha : a ≠ 0x013) (hh : State.benchHas a = false) :
    s.benchWriteAt a data = s.benchDone 3 0 := by
  simp [State.benchWriteAt, hh, ha]

theorem State.benchWriteAt_of_refused {a : Nat} (data : Nat) {s : State} (ha : a ≠ 0x013) (hh : State.benchHas a = true)
    (hw : s.benchWrites a = false) : s.benchWriteAt a data = s.benchDone 4 0 := by
  simp [State.benchWriteAt, hh, ha, hw]

/-- A write of an accepted address has its effect, and the result its code and the register's value. -/
theorem State.benchWriteAt_of_accepted {a data code : Nat} {s t : State} (ha : a ≠ 0x013) (hh : State.benchHas a = true)
    (hw : s.benchWrites a = true) (he : s.benchEffect a data = (code, t)) :
    s.benchWriteAt a data = t.benchDone code (if code = 1 && t.benchReads a then t.benchValue a else 0) := by
  simp [State.benchWriteAt, hh, ha, hw, he]

/-- Table 18-4: in BOOT every register with a write takes one. -/
theorem State.benchWrites_of_boot {a : Nat} {s : State} (hs : s.dev.state = 2) (ha : 9 < a) (h1 : a ≠ 0x012) (h2 : a ≠ 0x805) :
    s.benchWrites a = true := by
  simp [State.benchWrites, hs, h1, h2, Nat.not_le.mpr ha]

/-- Table 18-4: in BOOT a register is read unless it is one of those that are written only. -/
theorem State.benchReads_of_boot {s : State} (hs : s.dev.state = 2) (a : Nat) :
    s.benchReads a = !([0x011, 0x013, 0x014, 0x804] : List Nat).contains a := by
  simp [State.benchReads, hs]

theorem State.benchReads_of_writeOnly (s : State) {a : Nat} (ha : ([0x011, 0x013, 0x014, 0x804] : List Nat).contains a = true) :
    s.benchReads a = false := by
  simp only [State.benchReads, ha, Bool.not_true, Bool.and_false]

/-- The write of a register that cannot be read gives no data. -/
theorem State.benchWriteAt_of_writeOnly {a data code : Nat} {s t : State} (ha : a ≠ 0x013) (hh : State.benchHas a = true)
    (hr : ([0x011, 0x013, 0x014, 0x804] : List Nat).contains a = true) (hw : s.benchWrites a = true) (he : s.benchEffect a data = (code, t)) :
    s.benchWriteAt a data = t.benchDone code 0 := by
  rw [State.benchWriteAt_of_accepted ha hh hw he, State.benchReads_of_writeOnly t hr]
  simp

/-- The write of a register that can be read gives its new value. -/
theorem State.benchWriteAt_of_readable {a data : Nat} {s t : State} (ha : a ≠ 0x013) (hh : State.benchHas a = true)
    (hw : s.benchWrites a = true) (he : s.benchEffect a data = (1, t)) (hr : t.benchReads a = true) :
    s.benchWriteAt a data = t.benchDone 1 (t.benchValue a) := by
  rw [State.benchWriteAt_of_accepted ha hh hw he, hr]
  rfl

/-- The transfer buffer's registers. -/
theorem benchHas_buffer {a : Nat} (h1 : 0x100 ≤ a) (h2 : a ≤ 0x1FF) : State.benchHas a = true := by
  simp [State.benchHas, h1, h2]

theorem not_writeOnly_buffer {a : Nat} (h1 : 0x100 ≤ a) : ([0x011, 0x013, 0x014, 0x804] : List Nat).contains a = true → a = 0x804 := by
  intro h
  simp only [List.contains_eq_mem, List.mem_cons, List.not_mem_nil, or_false, decide_eq_true_eq] at h
  omega

theorem State.benchWriteAt_buffer {a : Nat} (data : Nat) {s : State} (h1 : 0x100 ≤ a) (h2 : a ≤ 0x1FF) (hs : s.dev.state = 2)
    (hr : s.bench.recovery = none) :
    s.benchWriteAt a data = State.benchDone 1 (nth (s.bench.buffer.set (a - 0x100) data) (a - 0x100) 0) { s with bench := { s.bench with
      buffer := s.bench.buffer.set (a - 0x100) data } } := by
  have he : s.benchEffect a data = (1, { s with bench := { s.bench with buffer := s.bench.buffer.set (a - 0x100) data } }) := by
    simp [State.benchEffect, h1, h2, hr]
  have hro : ([0x011, 0x013, 0x014, 0x804] : List Nat).contains a = false :=
    Bool.eq_false_iff.mpr (fun h => absurd (not_writeOnly_buffer h1 h) (by omega))
  refine (State.benchWriteAt_of_readable (by omega) (benchHas_buffer h1 h2) (State.benchWrites_of_boot hs (by omega) (by omega) (by omega)) he
    ((State.benchReads_of_boot hs a).trans (congrArg not hro))).trans (congrArg (fun v => State.benchDone 1 v _) ?_)
  simp [State.benchValue, h1, h2]

/-- The compatibility view's registers CTC0 to CTC3. -/
theorem State.benchEffect_ctc {k : Nat} (data : Nat) {s : State} (hk : k < 4) (hp : bit s.commit.pendingMask 1 = false) :
    s.benchEffect (0x800 + k) data = (1, s.stage (objKey 0x5440 (k + 1)) (data &&& 0x8001FFFF)) := by
  have h1 : ¬ (0x100 ≤ 0x800 + k ∧ 0x800 + k ≤ 0x1FF) := by omega
  have h2 : 0x800 ≤ 0x800 + k ∧ 0x800 + k ≤ 0x803 := by omega
  simp [State.benchEffect, h1, h2, State.ctcWrite, hp]

theorem benchHas_ctc {k : Nat} (hk : k < 4) : State.benchHas (0x800 + k) = true := by
  have h : 0x800 + k ≤ 0x805 := by omega
  simp [State.benchHas, h]

theorem State.exec_benchRead {a : Nat} {r : BenchReq} {s : State} (hon : s.benchOn = true) (hf : s.bench.front = some r)
    (hw : bit r.cmd 15 = false) (ha : bits r.cmd 11 0 = a) : exec (.benchRead a) s = .next (s.benchReadAt a) := by
  refine congrArg Host.Outcome.next ?_
  simp [State.benchRead, hf, hon, hw, ha]

theorem State.benchReadAt_eq (a : Nat) (s : State) : s.benchReadAt a = (if State.benchHas a = false then s.benchAnswer 3 0
      else if s.benchReads a = true then s.benchAnswer 1 (s.benchValue a) else s.benchAnswer 4 0) := by
  unfold State.benchReadAt
  cases State.benchHas a <;> rfl

/-! ### Unlocking (R372) -/

theorem State.unlock_of_locked {s : State} {t0 : Nat} (hl : s.bench.lockUntil = some t0) (hn : s.now < t0) (hi : Bool) (data : Nat) :
    s.unlock hi data = (4, s) := by
  unfold State.unlock
  simp only [hl, hn, decide_true, if_true]

theorem State.unlock_hi {s : State} (hl : s.bench.lockUntil = none) (data : Nat) :
    s.unlock true data = (1, { s with bench := { s.bench with unlockHi := some data } }) := by
  unfold State.unlock
  simp only [hl, Bool.false_eq_true, if_false, if_true]

theorem State.unlock_lo_of_code {s : State} {data : Nat} (hl : s.bench.lockUntil = none)
    (hc : s.bench.unlockHi.map (fun h => h * 2 ^ 32 + data) = some (Config.recoveryCode % 2 ^ 64)) :
    s.unlock false data = (1, { s with bench := { s.bench with unlocked := true } }) := by
  unfold State.unlock
  simp only [hl, hc, Bool.false_eq_true, if_false, if_true]

theorem State.unlock_lo_of_wrong {s : State} {data : Nat} (hl : s.bench.lockUntil = none)
    (hc : s.bench.unlockHi.map (fun h => h * 2 ^ 32 + data) ≠ some (Config.recoveryCode % 2 ^ 64)) :
    s.unlock false data = (5, { s with bench := { s.bench with lockUntil := some (s.now + 200000000) } }) := by
  unfold State.unlock
  simp only [hl, hc, Bool.false_eq_true, if_false]

/-- A write of UNLOCK_LO in BOOT. -/
theorem State.exec_unlockLo {data code : Nat} {s t : State} (h : BenchWrites 0x014 data s) (hs : s.dev.state = 2)
    (he : s.unlock false data = (code, t)) : exec (.unlockLo data) s = .next (t.benchDone code 0) := by
  change Host.Outcome.next (s.benchWriteIf 0x014 (fun d => d == data)) = _
  rw [State.benchWriteIf_data h]
  refine congrArg Host.Outcome.next ?_
  exact State.benchWriteAt_of_writeOnly (by decide) (by decide) (by decide) (State.benchWrites_of_boot hs (by decide) (by decide) (by decide)) he

/-- A write of UNLOCK_HI in BOOT begins a pair, and so ends none. -/
theorem State.exec_unlockHi {data : Nat} {s : State} (h : BenchWrites 0x013 data s) (hs : s.dev.state = 2) (hl : s.bench.lockUntil = none) :
    exec (.unlockHi data) s = .next (State.benchAnswer 1 0 { s with bench := { s.bench with unlockHi := some data } }) := by
  change Host.Outcome.next (s.benchWriteIf 0x013 (fun d => d == data)) = _
  rw [State.benchWriteIf_data h]
  refine congrArg Host.Outcome.next ?_
  have hw : s.benchWrites 0x013 = true := State.benchWrites_of_boot hs (by decide) (by decide) (by decide)
  have he : s.benchEffect 0x013 data = (1, { s with bench := { s.bench with unlockHi := some data } }) := State.unlock_hi hl data
  unfold State.benchWriteAt
  simp [State.benchHas, hw, he, State.benchReads_of_writeOnly]

end Sys2Proof.Machine
end

section
/-! PROOFS. The statement about the Bench registers. -/

set_option Elab.async false

open Sys2Proof Sys2Proof.Machine

/-- Settles O52: a read and a write answer by what the address has and what it takes; the unlock code is compared at the second write. -/
theorem benchRegisters : Obligations.BenchRegisters := by
  unfold Obligations.BenchRegisters
  refine ⟨⟨?_, fun a data s h ha => ⟨fun hh => ?_, fun hh hw => ?_, fun h1 h2 hs hr => ?_⟩, ?_, ?_⟩, ?_, ?_, ?_, ?_⟩
  · rintro a r s hon hf hw ha
    rw [State.exec_benchRead hon hf hw ha, State.benchReadAt_eq]
  · rw [State.exec_benchWrite h, State.benchWriteAt_of_none data s ha hh]
  · rw [State.exec_benchWrite h, State.benchWriteAt_of_refused data ha hh hw]
  · rw [State.exec_benchWrite h, State.benchWriteAt_buffer data h1 h2 hs hr]
  · rintro data s h hs
    exact ⟨_, (State.exec_benchWrite h).trans (congrArg Host.Outcome.next (State.benchWriteAt_of_accepted (by decide) (by decide)
      (State.benchWrites_of_boot hs (by decide) (by decide) (by decide)) rfl)), rfl, rfl, (Changes.refl _ s).update⟩
  · rintro k data s hk h hw hp
    exact ⟨_, (State.exec_benchWrite h).trans (congrArg Host.Outcome.next (State.benchWriteAt_of_accepted (by omega) (benchHas_ctc hk)
      hw (State.benchEffect_ctc data hk hp))), rfl, rfl, (Changes.refl _ s).update⟩
  · exact fun data s h hs hl => State.exec_unlockHi h hs hl
  · rintro data s h hs hl
    by_cases hc : s.bench.unlockHi.map (fun h => h * 2 ^ 32 + data) = some (Config.recoveryCode % 2 ^ 64)
    · exact ⟨_, State.exec_unlockLo h hs (State.unlock_lo_of_code hl hc), rfl, (Changes.refl _ s).update, fun _ => ⟨rfl, hl, rfl⟩,
        fun h => absurd hc h⟩
    · exact ⟨_, State.exec_unlockLo h hs (State.unlock_lo_of_wrong hl hc), rfl, (Changes.refl _ s).update, fun h => absurd h hc,
        fun _ => ⟨rfl, rfl, rfl⟩⟩
  · exact fun data t0 s h hs hl hn => State.exec_unlockLo h hs (State.unlock_of_locked hl hn false data)
  · rintro t0 s hl ht
    refine congrArg Host.Outcome.next ?_
    unfold State.lockoutEnd
    simp only [hl, ht, if_true]
end

section
/-! PROOFS. BOOT control, the compatibility view and the recovery actions (R369 to R373). -/

set_option Elab.async false

namespace Sys2Proof.Machine

/-! ### BOOT control -/

namespace State

variable {s : State}

theorem bootGo_of_verifying (hv : s.bench.verifying = true) : s.bootGo = (6, s) := by
  simp only [State.bootGo, hv, if_true]

theorem bootGo_of_admitted {b : Bool} (hs : s.dev.state = 2) (hv : s.bench.verifying = false) (hr : s.bench.recovery = none)
    (hb : s.dev.bankStarted = false) (ha : s.flash.admitted s.bootSel = some b) :
    s.bootGo = (1, State.startBank b { s with bench := { s.bench with hold := false } }) := by
  simp only [State.bootGo, hs, hv, hr, hb, ha, Option.isSome_none, Bool.false_eq_true, if_false, ne_eq, not_true_eq_false, or_self]

theorem bootEnds_of_hold (hh : s.bench.hold = true) : s.bootEnds = s := by
  simp [State.bootEnds, hh]

theorem bootCtl_of_hold {data : Nat} (h0 : bit data 0 = true) (h1 : bit data 1 = false) (hb : s.dev.bankStarted = false) :
    s.bootCtl data = (1, { s with bench := { s.bench with hold := true } }) := by
  simp [State.bootCtl, h0, h1, hb, bootEnds_of_hold]

theorem bootCtl_of_go {data : Nat} (h1 : bit data 1 = true) : s.bootCtl data = s.bootGo := by
  simp only [State.bootCtl, h1, if_true]

/-- A write of BOOT_CTL in BOOT. -/
theorem benchWriteIf_bootCtl {data code : Nat} {t : State} {p : Nat → Bool} (h : BenchWrites 0x010 data s) (hp : p data = true)
    (hs : s.dev.state = 2) (he : s.bootCtl data = (code, t)) :
    s.benchWriteIf 0x010 p = t.benchDone code (if code = 1 && t.benchReads 0x010 then t.benchValue 0x010 else 0) := by
  rw [State.benchWriteIf_of h hp]
  exact State.benchWriteAt_of_accepted (by decide) (by decide) (State.benchWrites_of_boot hs (by decide) (by decide) (by decide)) he

theorem startBank_queue (b : Bool) (s : State) : (s.startBank b).bench = s.bench := rfl

theorem startBank_runningB (b : Bool) (s : State) : (s.startBank b).flash.runningB = b := rfl

theorem ctcCommitWrite_one (hs : s.dev.state ≠ 2) (hc : s.commit.checking = none) :
    s.ctcCommitWrite 1 = (1, { s with commit := { s.commit with
      checking := some { mask := 2, tokenOk := true, target := s.commit.target, session := none } } }) := by
  simp [State.ctcCommitWrite, hs, hc]

theorem startWrite_outside (hs : s.dev.state ≠ 2) (data : Nat) : s.startWrite data = (1, s) := by
  simp [State.startWrite, hs]

/-- Outside BOOT a Bench write is taken in READY and RUN alone, with BENCH_EN. -/
theorem benchWrites_outside {a : Nat} (hw : s.benchWrites a = true) (hs : s.dev.state ≠ 2) :
    s.benchEn = true ∧ (s.dev.state = 4 ∨ s.dev.state = 6) := by
  simp only [State.benchWrites, Bool.and_eq_true, Bool.or_eq_true, beq_iff_eq, hs, false_or] at hw
  obtain ⟨-, ⟨hen, hst⟩, -⟩ := hw
  exact ⟨hen, hst⟩

end State

end Sys2Proof.Machine
end

section
/-! PROOFS. The statement about BOOT control. -/

set_option Elab.async false

open Sys2Proof Sys2Proof.Machine

/-- Settles O53: HOLD and GO by the cases of BOOT_CTL, the compatibility view by the states in which it takes writes. -/
theorem bootControl : Obligations.BootControl := by
  unfold Obligations.BootControl
  refine ⟨?_, ?_, ?_, ?_, ?_⟩
  · rintro data s h hs h0 h1 hb
    refine congrArg Host.Outcome.next ((State.benchWriteIf_bootCtl h (by simp [h0, h1]) hs (State.bootCtl_of_hold h0 h1 hb)).trans ?_)
    exact congrArg (fun v => State.benchDone 1 v _) (by rw [State.benchReads_of_boot (by exact hs)]; rfl)
  · rintro data b s h hs h1 hv hr hb ha
    refine ⟨_, congrArg Host.Outcome.next (State.benchWriteIf_bootCtl h h1 hs
      ((State.bootCtl_of_go h1).trans (State.bootGo_of_admitted hs hv hr hb ha))), rfl, rfl, rfl, ?_, ?_⟩
    · exact congrArg (fun v => BenchState.fill 1 v s.bench.queue) (by rw [State.benchReads_of_boot (by exact hs)]; rfl)
    · exact ((State.startBank_changes b _).after (Changes.refl _ s).update (by decide)).update
  · rintro data s h hs h1 hv
    exact congrArg Host.Outcome.next (State.benchWriteIf_bootCtl h h1 hs ((State.bootCtl_of_go h1).trans (State.bootGo_of_verifying hv)))
  · rintro s h hw hs hc
    change Host.Outcome.next (s.benchWriteIf 0x804 (fun d => d == 1)) = _
    rw [State.benchWriteIf_data h]
    exact congrArg Host.Outcome.next (State.benchWriteAt_of_writeOnly (by decide) (by decide) (by decide) hw (State.ctcCommitWrite_one hs hc))
  · rintro data s h hw hs
    obtain ⟨hen, hst⟩ := State.benchWrites_outside hw hs
    have hr : s.benchReads 0x808 = true := by simp [State.benchReads, hen]
    have h4 : s.benchValue 0x808 = 1 := by
      have : 4 ≤ s.dev.state := by omega
      simp [State.benchValue, this, b2n]
    have he : s.benchEffect 0x808 data = (1, s) := State.startWrite_outside hs data
    refine ⟨_, (congrArg Host.Outcome.next (State.benchWriteIf_data h)).trans (congrArg Host.Outcome.next
      (State.benchWriteAt_of_readable (by decide) (by decide) hw he hr)), ?_, (Changes.refl _ s).update⟩
    exact congrArg (fun v => BenchState.fill 1 v s.bench.queue) h4
end

section
/-! PROOFS. The recovery actions of the Bench port (R370, R371, R392). -/

set_option Elab.async false

namespace Sys2Proof.Machine

/-! ### An imported Starter set's store -/

theorem starterKeys_nodup : starterKeys.Nodup := by decide +kernel

theorem starterKeys_length : starterKeys.length = 130 := by decide +kernel

theorem nth_starterKeys_inj {i j : Nat} (hi : i < 130) (hj : j < 130) (h : nth starterKeys i 0 = nth starterKeys j 0) : i = j := by
  have hi' : i < starterKeys.length := starterKeys_length ▸ hi
  have hj' : j < starterKeys.length := starterKeys_length ▸ hj
  rw [nth_of_lt hi', nth_of_lt hj'] at h
  have hne := List.pairwise_iff_getElem.1 starterKeys_nodup
  rcases Nat.lt_trichotomy i j with hlt | heq | hgt
  · exact absurd h (hne i j hi' hj' hlt)
  · exact heq
  · exact absurd h.symm (hne j i hj' hi' hgt)

namespace Store

/-- Writes at different keys: each key holds what was written at it. -/
theorem raw_foldl_put_index {key : Nat → Nat} {v : Nat → Nat} {i : Nat} {l : List Nat} (hi : i ∈ l)
    (hinj : ∀ j ∈ l, key j = key i → j = i) (c : Store) :
    (l.foldl (fun (c : Store) j => c.put (key j) (v j)) c).raw (key i) = v i := by
  obtain ⟨m, rfl⟩ : ∃ m : List Nat, l = m.reverse := ⟨l.reverse, (List.reverse_reverse l).symm⟩
  rw [List.foldl_reverse]
  induction m with
  | nil => cases hi
  | cons j m ih =>
    rw [List.foldr_cons]
    by_cases hji : j = i
    · rw [hji, raw_put]
    · have hne : key i ≠ key j := fun h => hji (hinj j (List.mem_reverse.2 List.mem_cons_self) h.symm)
      rw [raw_put_ne _ _ hne]
      refine ih ?_ (fun k hk => hinj k (List.mem_reverse.2 (List.mem_cons_of_mem j (List.mem_reverse.1 hk))))
      exact List.mem_reverse.2 ((List.mem_cons.1 (List.mem_reverse.1 hi)).resolve_left (Ne.symm hji))

end Store

theorem State.importStore_raw (l : List (Nat × Bool × Nat)) (c : Store) {i : Nat} (hi : i < 130) :
    (State.importStore l c).raw (nth starterKeys i 0) = (nth l i (0, true, 0)).1 :=
  Store.raw_foldl_put_index (key := fun i => nth starterKeys i 0) (v := fun i => (nth l i (0, true, 0)).1) (List.mem_range.2 hi)
    (fun _ hj h => nth_starterKeys_inj (List.mem_range.1 hj) hi h) c

/-! ### A bank that changes -/

namespace FlashState

@[simp] theorem setBank_bank_self (f : FlashState) (b : Bool) (g : FlashBank → FlashBank) : (f.setBank b g).bank b = g (f.bank b) := by
  cases b <;> rfl

@[simp] theorem setBank_bank_not (f : FlashState) (b : Bool) (g : FlashBank → FlashBank) : (f.setBank b g).bank (!b) = f.bank (!b) := by
  cases b <;> rfl

theorem bank_eq_of {f g : FlashState} (ha : g.bankA = f.bankA) (hb : g.bankB = f.bankB) (b : Bool) : g.bank b = f.bank b := by
  cases b
  · exact ha
  · exact hb

/-- A replaced bank changes the two banks alone. -/
theorem setBank_eq (f : FlashState) (b : Bool) (g : FlashBank → FlashBank) :
    f.setBank b g = { f with bankA := (f.setBank b g).bankA, bankB := (f.setBank b g).bankB } := by
  cases b <;> rfl

theorem spent_keeps (x : FlashBank) (r : Option BankRecord) :
    (if x.spent then { x with record := r } else x).image = x.image ∧ (if x.spent then { x with record := r } else x).passes = x.passes := by
  split <;> exact ⟨rfl, rfl⟩

/-- A bank's start changes the records alone. -/
theorem startBank_bank (f : FlashState) (b c : Bool) :
    ((f.startBank b).bank c).image = (f.bank c).image ∧ ((f.startBank b).bank c).passes = (f.bank c).passes := by
  match b, c with
  | false, false => exact ⟨rfl, rfl⟩
  | false, true => exact spent_keeps f.bankB _
  | true, false => exact spent_keeps f.bankA _
  | true, true => exact ⟨rfl, rfl⟩

end FlashState

/-! ### The start of a recovery action -/

namespace State

variable {s : State} {a bank chunk data : Nat}

/-- The running action noted, which each start begins with. -/
def recoveryNoted (a bank chunk : Nat) (s : State) : State :=
  { s with bench := { s.bench with recovery := some (a, bank, chunk), recCode := a, recResult := 0 } }

theorem recoveryStart_erase (bank chunk : Nat) (s : State) : s.recoveryStart 1 bank chunk
    = { s.recoveryNoted 1 bank chunk with flash := s.flash.setBank (bank == 1) (fun b => { b with passes := false }) } := rfl

theorem recoveryStart_import {l : List (Nat × Bool × Nat)} (hl : s.importedSet = some l) (bank chunk : Nat) :
    s.recoveryStart 5 bank chunk = (s.recoveryNoted 5 bank chunk).importWrite l := by
  have h : (s.recoveryNoted 5 bank chunk).importedSet = some l := hl
  unfold recoveryStart
  refine (if_neg (by decide)).trans ((if_pos rfl).trans ?_)
  change (match (s.recoveryNoted 5 bank chunk).importedSet with | some l => _ | none => _) = _
  rw [h]
  rfl

theorem importWrite_active (l : List (Nat × Bool × Nat)) (s : State) : (s.importWrite l).active = State.importStore l s.active := by
  simp only [importWrite, onActive_active]

theorem recoveryStart_import_active {l : List (Nat × Bool × Nat)} (hl : s.importedSet = some l) (bank chunk : Nat) :
    (s.recoveryStart 5 bank chunk).active = State.importStore l s.active := by
  rw [recoveryStart_import hl, importWrite_active]
  exact congrArg (State.importStore l) rfl

theorem recoveryStart_erase_changes (bank chunk : Nat) (s : State) : Changes [.bench, .banks] s (s.recoveryStart 1 bank chunk) := by
  rw [recoveryStart_erase]
  have h : Changes [.bench, .banks] s (s.recoveryNoted 1 bank chunk) := (Changes.refl _ s).update
  exact h.update (h28 := .inr (s.flash.setBank_eq (bank == 1) _))

theorem recoveryStart_noImport (hl : s.importedSet = none) (bank chunk : Nat) :
    s.recoveryStart 5 bank chunk = s.recoveryNoted 5 bank chunk := by
  have h : (s.recoveryNoted 5 bank chunk).importedSet = none := hl
  unfold recoveryStart
  refine (if_neg (by decide)).trans ((if_pos rfl).trans ?_)
  change (match (s.recoveryNoted 5 bank chunk).importedSet with | some l => _ | none => _) = _
  rw [h]
  rfl

theorem recoveryStart_other (h1 : a ≠ 1) (h5 : a ≠ 5) (bank chunk : Nat) (s : State) : s.recoveryStart a bank chunk = s.recoveryNoted a bank chunk := by
  unfold recoveryStart
  exact (if_neg h1).trans (if_neg h5)

/-- Every start of an action leaves the Bench port as the action noted does. -/
theorem recoveryStart_bench (a bank chunk : Nat) (s : State) : (s.recoveryStart a bank chunk).bench = (s.recoveryNoted a bank chunk).bench := by
  by_cases h1 : a = 1
  · subst h1
    rfl
  · by_cases h5 : a = 5
    · subst h5
      cases hl : s.importedSet with
      | none => rw [recoveryStart_noImport hl]
      | some l =>
        rw [recoveryStart_import hl]
        rfl
    · rw [recoveryStart_other h1 h5]

/-- A write of RECOVERY_CMD in BOOT has no data in its result. -/
theorem benchWriteIf_recovery {code : Nat} {t : State} {p : Nat → Bool} (h : BenchWrites 0x011 data s) (hp : p data = true)
    (hs : s.dev.state = 2) (he : s.recoveryCmd data = (code, t)) : s.benchWriteIf 0x011 p = t.benchDone code 0 := by
  rw [State.benchWriteIf_of h hp]
  exact State.benchWriteAt_of_writeOnly (by decide) (by decide) (by decide) (State.benchWrites_of_boot hs (by decide) (by decide) (by decide)) he

theorem recoveryCmd_eq (ha : bits data 31 24 = a) (hb : bits data 11 11 = bank) (hc : bits data 10 0 = chunk) :
    s.recoveryCmd data = (s.recoveryCode a bank chunk, if s.recoveryCode a bank chunk = 1 then s.recoveryStart a bank chunk else s) := by
  subst ha hb hc
  rfl

/-- The commands of the seven recovery actions, each with its action's code. -/
def recoveryItems (bank chunk : Nat) : List (Nat × Instr) :=
  [(1, .eraseBank bank), (2, .programChunk bank chunk), (3, .verifyBank bank), (4, .starterImportChunk chunk), (5, .starterImportCommit),
    (6, .keySlotReset), (7, .persistedSetErase)]

/-- Each of the seven commands executes the write whose operands it names. -/
theorem exec_recovery {c : Instr} {code : Nat} {t : State} (hm : (a, c) ∈ recoveryItems bank chunk) (h : BenchWrites 0x011 data s)
    (hs : s.dev.state = 2) (ha : bits data 31 24 = a) (hb : bits data 11 11 = bank) (hc : bits data 10 0 = chunk)
    (he : s.recoveryCmd data = (code, t)) : exec c s = .next (t.benchDone code 0) := by
  simp only [recoveryItems, List.mem_cons, List.not_mem_nil, or_false, Prod.mk.injEq] at hm
  obtain ⟨rfl, rfl⟩ | ⟨rfl, rfl⟩ | ⟨rfl, rfl⟩ | ⟨rfl, rfl⟩ | ⟨rfl, rfl⟩ | ⟨rfl, rfl⟩ | ⟨rfl, rfl⟩ := hm <;>
    exact congrArg Host.Outcome.next (benchWriteIf_recovery h (by simp [ha, hb, hc]) hs he)

/-! ### The end of a recovery action -/

theorem bootEnds_cases (s : State) : s.bootEnds = s ∨ ∃ b, s.bootEnds = s.startBank b := by
  unfold bootEnds
  split
  · exact .inl rfl
  · split
    · exact .inr ⟨_, rfl⟩
    · exact .inl rfl

/-- What the end of BOOT keeps: the Bench port, the network, the persisted set, and each bank's bytes and verdict. -/
theorem bootEnds_keeps (s : State) : s.bootEnds.bench = s.bench ∧ s.bootEnds.net = s.net ∧ s.bootEnds.persist = s.persist
    ∧ ∀ b, (s.bootEnds.flash.bank b).image = (s.flash.bank b).image ∧ (s.bootEnds.flash.bank b).passes = (s.flash.bank b).passes := by
  rcases bootEnds_cases s with h | ⟨c, h⟩ <;> rw [h]
  · exact ⟨rfl, rfl, rfl, fun b => ⟨rfl, rfl⟩⟩
  · exact ⟨rfl, rfl, rfl, fun b => FlashState.startBank_bank s.flash c b⟩

/-- The device at an action's end, before BOOT looks for a bank to start. -/
def recoveryEnded (a bank chunk : Nat) (ok : Bool) (s : State) : State :=
  { (s.recoveryEffect a bank chunk ok).2 with
    bench := { (s.recoveryEffect a bank chunk ok).2.bench with
      recovery := none, recResult := if (s.recoveryEffect a bank chunk ok).1 then 1 else 2 } }

theorem recoveryDone_of (hr : s.bench.recovery = some (a, bank, chunk)) (h5 : a = 5 → s.flash.storing = false) (ok : Bool) :
    s.recoveryDone ok = (s.recoveryEnded a bank chunk ok).bootEnds := by
  have hc : (decide (a = 5) && s.flash.storing) = false := by
    by_cases h : a = 5
    · simp [h5 h]
    · simp [h]
  unfold recoveryDone
  rw [hr]
  simp only [hc]
  rfl

theorem recoveryEffect_erase (bank chunk : Nat) (s : State) :
    s.recoveryEffect 1 bank chunk true = (true, { s with flash := s.flash.setBank (bank == 1) (fun _ => {}) }) := rfl

theorem recoveryEffect_program (bank chunk : Nat) (ok : Bool) (s : State) : s.recoveryEffect 2 bank chunk ok
    = (if ok && flashErased (s.flash.bank (bank == 1)).image (chunk * 1024) 1024 then
        (true, { s with flash := s.flash.setBank (bank == 1) (fun x => { x with image := flashProgram x.image (chunk * 1024) s.bufferBytes }) })
      else (false, s)) := rfl

theorem recoveryEffect_keySlots (bank chunk : Nat) (s : State) : (s.recoveryEffect 6 bank chunk true).2.net.slots
    = s.net.slots.mapIdx (fun i (x : KeySlot) =>
        if i = 0 then { x with level := 3, key := (toBytes 16 Config.deliveryKey).map (·.toNat) } else { x with level := 0 }) := rfl

theorem recoveryEffect_persist (bank chunk : Nat) (s : State) :
    (s.recoveryEffect 7 bank chunk true).2.persist = s.persist.erase 0x3FFF := rfl

/-- The level of a key slot after slot 0 was reset and the others disabled; a slot that is not there has level 0. -/
theorem nth_resetSlots_level (l : List KeySlot) (x : KeySlot → KeySlot) (hx : ∀ y, (x y).level = 3) (k : Nat) :
    (nth (l.mapIdx (fun i y => if i = 0 then x y else { y with level := 0 })) k {}).level = (if k = 0 ∧ 0 < l.length then 3 else 0) := by
  unfold nth
  rw [List.getD_eq_getElem?_getD, List.getElem?_mapIdx]
  by_cases hk : k < l.length
  · rw [List.getElem?_eq_getElem hk]
    by_cases h0 : k = 0
    · simp [h0, hx, h0 ▸ hk]
    · simp [h0]
  · rw [List.getElem?_eq_none (Nat.le_of_not_lt hk)]
    have : ¬ (k = 0 ∧ 0 < l.length) := fun ⟨h0, hl⟩ => hk (h0 ▸ hl)
    simp [this]

theorem erase_copies (p : PersistState) {g : Nat} (hg : g < 14) : nth (p.erase 0x3FFF).copies g (none, none) = (none, none) := by
  have hbit : ∀ g < 14, bit 0x3FFF g = true := by decide
  refine (nth_mapIdx (f := fun g x => if bit 0x3FFF g then (none, none) else x) (by simp)).trans ?_
  simp [hbit g hg]

end State

end Sys2Proof.Machine
end

section
/-! PROOFS. The statement about the recovery actions. -/

set_option Elab.async false

open Sys2Proof Sys2Proof.Machine

/-- Settles O54: the seven commands are writes of RECOVERY_CMD, so their code and start are those of the action; its end is its effect, and BOOT's
end after it keeps all that the effect left but the banks' records. -/
theorem recoveryActions : Obligations.RecoveryActions := by
  unfold Obligations.RecoveryActions
  refine ⟨?_, ?_, ?_⟩
  · rintro a bank chunk data c s hm h hs ha hb hc hcode
    have he : s.recoveryCmd data = (1, s.recoveryStart a bank chunk) := by
      rw [State.recoveryCmd_eq ha hb hc, hcode]
      rfl
    have hbench := State.recoveryStart_bench a bank chunk s
    refine ⟨_, State.exec_recovery hm h hs ha hb hc he, ?_, ?_, ?_, ?_, fun h1 => ?_, ?_, fun h5 => ?_, ?_, ?_⟩
    · exact congrArg BenchState.recovery hbench
    · exact congrArg BenchState.recCode hbench
    · exact congrArg BenchState.recResult hbench
    · have hq : (s.recoveryStart a bank chunk).bench.queue = s.bench.queue := by rw [hbench]; rfl
      exact congrArg (BenchState.fill 1 0) hq
    · have himg : (s.recoveryStart a bank chunk).flash.bankA = s.flash.bankA ∧ (s.recoveryStart a bank chunk).flash.bankB = s.flash.bankB := by
        by_cases h5 : a = 5
        · subst h5
          cases hl : s.importedSet with
          | none =>
            rw [State.recoveryStart_noImport hl]
            exact ⟨rfl, rfl⟩
          | some l =>
            rw [State.recoveryStart_import hl]
            exact ⟨FlashState.importFlash_bankA l s.flash, FlashState.importFlash_bankB l s.flash⟩
        · rw [State.recoveryStart_other h1 h5]
          exact ⟨rfl, rfl⟩
      exact himg
    · rintro rfl
      exact ⟨FlashState.setBank_bank_self s.flash (bank == 1) _, FlashState.setBank_bank_not s.flash (bank == 1) _⟩
    · by_cases h1 : a = 1
      · subst h1
        exact (State.recoveryStart_erase_changes bank chunk s).update
      · rw [State.recoveryStart_other h1 h5]
        exact (Changes.refl _ s).update
    · rintro rfl hl
      rw [State.recoveryStart_noImport hl]
      exact (Changes.refl _ s).update
    · rintro rfl l hl i hi
      have hact := State.recoveryStart_import_active hl bank chunk
      exact (congrArg (fun c : Store => c.raw (nth starterKeys i 0)) hact).trans (State.importStore_raw l s.active hi)
  · rintro a bank chunk data c s hm h hs ha hb hc hcode
    have he : s.recoveryCmd data = (s.recoveryCode a bank chunk, s) := by
      rw [State.recoveryCmd_eq ha hb hc, if_neg hcode]
    exact State.exec_recovery hm h hs ha hb hc he
  · rintro a bank chunk ok s hon hr h5
    have hexec : exec (.recoveryActionDone ok) s = .next (s.recoveryDone ok) := congrArg Host.Outcome.next (if_pos hon)
    have hch := State.recoveryDone_changes ok s
    rw [State.recoveryDone_of hr h5] at hexec hch
    obtain ⟨hbench, hnet, hpersist, hbank⟩ := State.bootEnds_keeps (s.recoveryEnded a bank chunk ok)
    refine ⟨_, hexec, ?_, ?_, ?_, ?_, ?_, ?_, ?_, ?_, ?_, hch⟩
    · rw [hbench]
      rfl
    · rw [hbench]
      exact (Classical.em ((s.recoveryEffect a bank chunk ok).1 = true)).imp (fun h => if_pos h) (fun h => if_neg h)
    · rintro rfl rfl
      rw [(hbank _).1]
      exact congrArg FlashBank.image (FlashState.setBank_bank_self s.flash (bank == 1) _)
    · rintro rfl
      rw [hbench]
      unfold State.recoveryEnded
      rw [State.recoveryEffect_program]
      by_cases hp : (ok && flashErased (s.flash.bank (bank == 1)).image (chunk * 1024) 1024) = true
      · rw [if_pos hp]
        exact iff_of_true rfl (by simpa using hp)
      · rw [if_neg hp]
        exact iff_of_false (by simp) (by simpa using hp)
    · rintro rfl
      rw [hbench, (hbank _).1]
      unfold State.recoveryEnded
      rw [State.recoveryEffect_program]
      by_cases hp : (ok && flashErased (s.flash.bank (bank == 1)).image (chunk * 1024) 1024) = true
      · simp [hp]
      · simp [hp]
    · rintro rfl
      rw [(hbank _).2]
      refine (Bool.eq_iff_iff.1 (congrArg FlashBank.passes (FlashState.setBank_bank_self s.flash (bank == 1) _))).trans ?_
      exact beq_iff_eq
    · rintro rfl
      rw [hbench]
      rfl
    · rintro rfl rfl
      rw [hnet]
      have hslots : (s.recoveryEnded 6 bank chunk true).net.slots = _ := State.recoveryEffect_keySlots bank chunk s
      rw [hslots]
      refine ⟨?_, fun k hk => ?_⟩
      · rw [State.nth_resetSlots_level _ _ (fun _ => rfl)]
        simp
      · rw [State.nth_resetSlots_level _ _ (fun _ => rfl)]
        simp [Nat.ne_of_gt hk]
    · rintro rfl rfl g hg
      rw [hpersist]
      exact State.erase_copies s.persist hg
end

section
/-! PROOFS. The end of BOOT's verification, and of BOOT (R300, R337, R369, R394, R396, R412, R420). -/

set_option Elab.async false

namespace Sys2Proof.Machine

/-! ### What trips and tap tests leave of the device's record -/

/-- Two device records that differ in the marks of a failed step and of a fade that is over at most. -/
def DevState.SameButMarks (d e : DevState) : Prop := e = { d with stepBad := e.stepBad, fadeOver := e.fadeOver }

namespace DevState.SameButMarks

variable {d e f : DevState}

theorem refl (d : DevState) : SameButMarks d d := rfl

theorem trans (a : SameButMarks d e) (b : SameButMarks e f) : SameButMarks d f := by
  unfold SameButMarks at *
  rw [b, a]

/-- Any other field is the same. -/
theorem field {α : Type} (a : SameButMarks d e) (g : DevState → α)
    (hg : ∀ d b c, g { d with stepBad := b, fadeOver := c } = g d := by intros; rfl) : g e = g d := by
  rw [a, hg]

end DevState.SameButMarks

namespace State

variable {s : State}

theorem tapLog_dev (before s : State) : s.dev.SameButMarks (tapLog before s).dev := by
  unfold tapLog
  extract_lets
  split <;> rfl

theorem tripTo_dev (t : TripState) (s : State) : s.dev.SameButMarks (s.tripTo t).dev := by
  unfold tripTo
  extract_lets
  refine DevState.SameButMarks.trans ?_ (tapLog_dev ..)
  rfl

theorem fltApply_dev (s : State) : s.dev.SameButMarks s.fltApply.dev := tripTo_dev ..

theorem positionApply_dev (m : Nat) (s : State) : (s.positionApply m).dev = s.dev := by
  unfold positionApply
  dsimp only
  split <;> rfl

theorem startRounds_dev (s : State) : s.dev.SameButMarks s.startRounds.dev := by
  unfold startRounds
  extract_lets _ u
  have h : ((u.positionApply 0).positionApply 1).dev = s.dev := (positionApply_dev ..).trans (positionApply_dev ..)
  exact h ▸ fltApply_dev _

/-- The device's record as a transition leaves it, a failed step's mark aside. -/
def wentDev (dst cause : Nat) (own : Bool) (s : State) : DevState :=
  { s.dev with
    state := dst, transition := s.dev.state * 2 ^ 28 + dst * 2 ^ 24 + cause * 2 ^ 16, request := none, exitFade := none, fadeOver := false, step := 0
    refusal := if s.dev.request.isSome && !own then 9 else s.dev.refusal
    serviceSession := if dst = 6 then s.dev.serviceSession else none }

theorem goState_dev (dst cause : Nat) (own : Bool) (s : State) : (s.wentDev dst cause own).SameButMarks (s.goState dst cause own).dev :=
  tapLog_dev ..

/-! ### The verification (R337, R369, R394, R396) -/

/-- The faults of the Starter set's check (R394) stand in no group of R293. -/
theorem raise_starter_flash (d : Nat) (s : State) : s.flash.SameButQueue (s.raise (.fault 0x12 0 d)).flash := by
  have hsecond : s.fault.isSecond 0x12 0 = false := rfl
  change FlashState.SameButQueue _ (s.singleFault 0x12 0 d).flash
  unfold singleFault
  extract_lets second fa t u
  rw [if_neg (by simp [second, hsecond])]
  exact (FlashState.SameButQueue.refl _).trans (logEvent_sameButQueue ..)

/-- What a flash's marks and boot count are. -/
def SameBoot (f g : FlashState) : Prop := g.marked = f.marked ∧ g.bootCount = f.bootCount

theorem SameBoot.refl (f : FlashState) : SameBoot f f := ⟨rfl, rfl⟩

theorem SameBoot.trans {f g h : FlashState} (a : SameBoot f g) (b : SameBoot g h) : SameBoot f h := ⟨b.1.trans a.1, b.2.trans a.2⟩

theorem SameBoot.of_queue {f g : FlashState} (a : f.SameButQueue g) : SameBoot f g := ⟨by rw [a], by rw [a]⟩

theorem checkEntry_sameBoot (e : Nat) (f : FlashState) : SameBoot f (f.checkEntry e).1 := by
  unfold FlashState.checkEntry
  dsimp only
  split
  · exact .refl f
  · split
    · dsimp only
      refine SameBoot.trans ?_ (.of_queue (FlashState.push_sameButQueue ..))
      exact ⟨rfl, rfl⟩
    · exact ⟨rfl, rfl⟩

/-- One entry of the Starter set checked, and its fault reported where it was restored. -/
def checkOne (s : State) (i : Nat) : State :=
  let r := s.flash.checkEntry (i + 1)
  let s : State := { s with flash := r.1 }
  if r.2 then s.raise (.fault 0x12 0 (i + 1)) else s

theorem checkOne_sameBoot (s : State) (i : Nat) : SameBoot s.flash (s.checkOne i).flash := by
  have h := checkEntry_sameBoot (i + 1) s.flash
  unfold checkOne
  dsimp only
  split
  · exact h.trans (.of_queue (raise_starter_flash ..))
  · exact h

/-- Every entry checked. -/
def checkAll (s : State) : State := (List.range 130).foldl checkOne s

theorem checkAll_sameBoot (s : State) : SameBoot s.flash s.checkAll.flash :=
  List.foldlRecOn (motive := fun t : State => SameBoot s.flash t.flash) _ _ (.refl _) fun t ht i _ => ht.trans (checkOne_sameBoot t i)

/-- The result of the check noted. -/
def starterNoted (s : State) : State := { s with flash := { s.flash with starterOk := !s.flash.entries.any (·.lost) } }

theorem foldl_congr_fun {α β : Type} {f g : β → α → β} (h : ∀ b a, f b a = g b a) (l : List α) (b : β) : l.foldl f b = l.foldl g b := by
  rw [show f = g from funext fun b => funext (h b)]

theorem checkStarter_eq (s : State) : s.checkStarter = s.checkAll.starterNoted := by
  unfold checkStarter
  extract_lets checked
  have h : checked = s.checkAll := foldl_congr_fun (fun _ _ => rfl) _ _
  clear_value checked
  exact congrArg starterNoted h

theorem sameBoot_starterOk (f : FlashState) (ok : Bool) : SameBoot f { f with starterOk := ok } := ⟨rfl, rfl⟩

theorem checkStarter_sameBoot (s : State) : SameBoot s.flash s.checkStarter.flash := by
  rw [checkStarter_eq]
  exact (checkAll_sameBoot s).trans (sameBoot_starterOk ..)

/-- In BOOT the check of the Starter set changes the flash and the fault records alone. -/
theorem checkStarter_boot (h : s.dev.state = 2) : Changes [.fault, .flash] s s.checkStarter := by
  have r := checkStarter_reports s
  exact r.calm (r.mode.resolve_right fun ⟨_, hge⟩ => by omega)

theorem eraseMarked_epoch (sec : Nat) (f : FlashState) : (f.eraseMarked sec).epoch = f.epoch := by
  unfold FlashState.eraseMarked
  dsimp only
  split
  · rfl
  · split
    · rfl
    · split <;> rfl

theorem verifiedFlash_passes (eccA eccB : Bool) (f : FlashState) :
    (verifiedFlash eccA eccB f).bankA.passes = (bankCheck f.epoch eccA (verifiedFlash eccA eccB f).bankA.image == 1)
    ∧ (verifiedFlash eccA eccB f).bankB.passes = (bankCheck f.epoch eccB (verifiedFlash eccA eccB f).bankB.image == 1)
    ∧ (f.marked = [] → (verifiedFlash eccA eccB f).bankA.image = f.bankA.image ∧ (verifiedFlash eccA eccB f).bankB.image = f.bankB.image) := by
  have hepoch : (f.marked.foldl (fun (f : FlashState) sec => f.eraseMarked sec) f).epoch = f.epoch :=
    List.foldlRecOn (motive := fun g : FlashState => g.epoch = f.epoch) _ _ rfl fun g hg sec _ => (eraseMarked_epoch sec g).trans hg
  have hcount : (f.marked.foldl (fun (f : FlashState) sec => f.eraseMarked sec) f) = f ∨ f.marked ≠ [] := by
    by_cases hm : f.marked = []
    · exact .inl (by rw [hm]; rfl)
    · exact .inr hm
  unfold verifiedFlash
  dsimp only
  refine ⟨by rw [hepoch], by rw [hepoch], fun hm => ?_⟩
  rw [hcount.resolve_right (fun hne => hne hm)]
  exact ⟨rfl, rfl⟩

theorem eraseMarked_bootCount (sec : Nat) (f : FlashState) : (f.eraseMarked sec).bootCount = f.bootCount := by
  unfold FlashState.eraseMarked
  dsimp only
  split
  · rfl
  · split
    · rfl
    · split <;> rfl

theorem verifiedFlash_boot (eccA eccB : Bool) (f : FlashState) :
    (verifiedFlash eccA eccB f).marked = [] ∧ (verifiedFlash eccA eccB f).bootCount = inc32 f.bootCount :=
  ⟨rfl, congrArg inc32 (List.foldlRecOn (motive := fun g : FlashState => g.bootCount = f.bootCount) _ _ rfl
    fun g hg sec _ => (eraseMarked_bootCount sec g).trans hg)⟩

/-- The set loaded and the verification's end noted. -/
def loadNoted (s : State) : State :=
  let s := s.loadPersisted
  { s with
    bench := { s.bench with verifying := false, key0Ok := true, persistOk := s.persistPasses }
    dev := { s.dev with shutdown := s.dev.retained } }

theorem loadNoted_bench (s : State) : s.loadNoted.bench.hold = s.bench.hold ∧ s.loadNoted.bench.verifying = false ∧ s.loadNoted.bench.key0Ok = true :=
  ⟨rfl, rfl, rfl⟩

theorem loadNoted_dev (s : State) : s.loadNoted.dev.straps = s.dev.straps ∧ s.loadNoted.dev.bankStarted = s.dev.bankStarted := ⟨rfl, rfl⟩

theorem loadNoted_stores (s : State) : s.loadNoted.active2 = s.loadNoted.active ∧ s.loadNoted.staged = s.loadNoted.active
    ∧ s.loadNoted.persist.loaded = s.loadedGroups ∧ s.loadNoted.flash = s.flash := ⟨rfl, rfl, rfl, rfl⟩

/-- The device once both banks are judged, the set is loaded and the verification's end noted. -/
def verified (eccA eccB : Bool) (s : State) : State := (checkStarter { s with flash := verifiedFlash eccA eccB s.flash }).loadNoted

theorem verified_noted (eccA eccB : Bool) (s : State) :
    (s.verified eccA eccB).bench.verifying = false ∧ (s.verified eccA eccB).bench.key0Ok = true
    ∧ (s.verified eccA eccB).active2 = (s.verified eccA eccB).active ∧ (s.verified eccA eccB).staged = (s.verified eccA eccB).active := by
  unfold verified
  exact ⟨(loadNoted_bench _).2.1, (loadNoted_bench _).2.2, (loadNoted_stores _).1, (loadNoted_stores _).2.1⟩

theorem verificationDone_of (hs : s.dev.state = 2) (hv : s.bench.verifying = true) (eccA eccB : Bool) :
    s.verificationDone eccA eccB = (s.verified eccA eccB).bootThermal.startAdmitted := by
  unfold verificationDone
  rw [if_neg (by simp [hs, hv])]
  rfl

theorem verified_keeps (hs : s.dev.state = 2) (eccA eccB : Bool) :
    (s.verified eccA eccB).bench.hold = s.bench.hold ∧ (s.verified eccA eccB).bootSel = s.bootSel
    ∧ (s.verified eccA eccB).dev.bankStarted = s.dev.bankStarted ∧ (s.verified eccA eccB).persist.loaded = s.loadedGroups := by
  have hch := checkStarter_boot (s := { s with flash := verifiedFlash eccA eccB s.flash }) hs
  have hbench := congrArg BenchState.hold (hch.same .bench (by decide))
  have hstraps := hch.devField_eq (f := DevState.straps)
  have hstarted := hch.devField_eq (f := DevState.bankStarted)
  have hpersist := hch.same .persist (by decide)
  refine ⟨(loadNoted_bench _).1.trans hbench, congrArg (fun w => bits w 4 3) ((loadNoted_dev _).1.trans hstraps),
    (loadNoted_dev _).2.trans hstarted, (loadNoted_stores _).2.2.1.trans ?_⟩
  unfold loadedGroups
  rw [hpersist]

theorem verified_flash (hs : s.dev.state = 2) (eccA eccB : Bool) :
    (s.verified eccA eccB).flash.bankA = (verifiedFlash eccA eccB s.flash).bankA
    ∧ (s.verified eccA eccB).flash.bankB = (verifiedFlash eccA eccB s.flash).bankB
    ∧ SameBoot (verifiedFlash eccA eccB s.flash) (s.verified eccA eccB).flash := by
  have hch := checkStarter_boot (s := { s with flash := verifiedFlash eccA eccB s.flash }) hs
  have hbanks := hch.same .banks (by decide)
  have hflash : (s.verified eccA eccB).flash = (checkStarter { s with flash := verifiedFlash eccA eccB s.flash }).flash := (loadNoted_stores _).2.2.2
  rw [hflash]
  exact ⟨hbanks.1, hbanks.2, checkStarter_sameBoot { s with flash := verifiedFlash eccA eccB s.flash }⟩

theorem bootThermal_flash (s : State) : s.flash.SameButQueue s.bootThermal.flash := by
  unfold bootThermal
  dsimp only
  split
  · exact .refl _
  · exact FlashState.push_sameButQueue ..

theorem bootThermal_rest (s : State) : s.bootThermal = { s with flash := s.bootThermal.flash } := by
  unfold bootThermal
  dsimp only
  split <;> rfl

theorem bootThermal_hold (s : State) : s.bootThermal.bench.hold = s.bench.hold ∧ s.bootThermal.bootSel = s.bootSel
    ∧ s.bootThermal.dev.bankStarted = s.dev.bankStarted := by
  rw [bootThermal_rest]
  exact ⟨rfl, rfl, rfl⟩

theorem startAdmitted_of_hold (h : s.bench.hold = true ∨ s.bootSel = 3) : s.startAdmitted = s := by
  unfold startAdmitted
  rw [if_pos (by simpa using h)]

theorem startAdmitted_of_some {b : Bool} (hh : s.bench.hold = false) (hb : s.bootSel ≠ 3) (ha : s.flash.admitted s.bootSel = some b) :
    s.startAdmitted = s.startBank b := by
  unfold startAdmitted
  rw [if_neg (by simp [hh, hb]), ha]

theorem startAdmitted_of_none (ha : s.flash.admitted s.bootSel = none) : s.startAdmitted = s := by
  unfold startAdmitted
  rw [ha]
  exact ite_self s

theorem startAdmitted_cases (s : State) : s.startAdmitted = s ∨ ∃ b, s.startAdmitted = s.startBank b := by
  unfold startAdmitted
  split
  · exact .inl rfl
  · split
    · exact .inr ⟨_, rfl⟩
    · exact .inl rfl

theorem startBank_sameBoot (f : FlashState) (b : Bool) : SameBoot f (f.startBank b) := by
  cases b <;> exact ⟨rfl, rfl⟩

/-- What the start of a bank leaves as it was: all but each bank's activation record, the running bank and the mark of the start. -/
theorem startAdmitted_keeps (s : State) : s.startAdmitted.bench = s.bench ∧ s.startAdmitted.active = s.active
    ∧ s.startAdmitted.active2 = s.active2 ∧ s.startAdmitted.staged = s.staged ∧ s.startAdmitted.persist = s.persist
    ∧ SameBoot s.flash s.startAdmitted.flash
    ∧ ∀ b, (s.startAdmitted.flash.bank b).image = (s.flash.bank b).image ∧ (s.startAdmitted.flash.bank b).passes = (s.flash.bank b).passes := by
  rcases startAdmitted_cases s with h | ⟨c, h⟩ <;> rw [h]
  · exact ⟨rfl, rfl, rfl, rfl, rfl, .refl _, fun b => ⟨rfl, rfl⟩⟩
  · exact ⟨rfl, rfl, rfl, rfl, rfl, startBank_sameBoot .., fun b => FlashState.startBank_bank s.flash c b⟩

/-! ### The end of BOOT (R300, R412, R420) -/

theorem bootBedrock_dev (word : Nat) (s : State) :
    (s.bootBedrock word).dev.bankStarted = s.dev.bankStarted ∧ (s.bootBedrock word).dev.timebase = true := by
  unfold bootBedrock
  extract_lets entered caused
  have hentered : entered.dev.bankStarted = s.dev.bankStarted := (goState_dev 7 0xA false (s.bedrockStops false)).field DevState.bankStarted
  have hret : (caused.retainBedrock word).dev.bankStarted = caused.dev.bankStarted := by
    unfold retainBedrock
    split <;> rfl
  have hrounds := (startRounds_dev ((caused.retainBedrock word).logEvent 3 (toBytes 2 word ++ [1]))).field DevState.bankStarted
  exact ⟨hrounds.trans (hret.trans hentered), rfl⟩

theorem enterProofing_of_ref (href : s.dev.refOk = true) : s.enterProofing.dev.state = 3 ∧ s.enterProofing.dev.step = 1
    ∧ s.enterProofing.dev.bankStarted = s.dev.bankStarted ∧ s.enterProofing.hk.running = true ∧ s.enterProofing.dev.retained = s.dev.retained := by
  unfold enterProofing
  extract_lets rounds dev stepped
  have hdev : ((s.goState 3 4 false).dev).SameButMarks rounds.dev := startRounds_dev _
  have hgo := goState_dev 3 4 false s
  have hall : (s.wentDev 3 4 false).SameButMarks rounds.dev := hgo.trans hdev
  have href' : stepped.dev.refOk = true := (hall.field DevState.refOk).trans href
  rw [if_pos href']
  have hstate : rounds.dev.state = 3 := hall.field DevState.state
  have hstarted : rounds.dev.bankStarted = s.dev.bankStarted := hall.field DevState.bankStarted
  have hretained : rounds.dev.retained = s.dev.retained := hall.field DevState.retained
  refine ⟨hstate, rfl, hstarted, ?_, hretained⟩
  have hrun (u : State) : u.startRounds.hk.running = true := by
    unfold startRounds
    extract_lets v
    exact congrArg HkState.running ((fltApply_changes _).same .hk (by decide) |>.trans ((positionApply_changes ..).same .hk (by decide) |>.trans
      ((positionApply_changes ..).same .hk (by decide))))
  exact hrun _

/-- BOOT left with its record written, before BEDROCK or PROOFING. -/
def bootLeft (s : State) : State :=
  let s := s.logEvent 0xA (toBytes 8 s.dev.retained ++ toBytes 4 s.bootStatus ++ toBytes 4 (s.flash.bankVersion s.flash.runningB)
    ++ [BitVec.ofNat 8 s.dev.bootFrom])
  { s with dev := { s.dev with bankStarted := false, retained := if bits s.dev.retained 63 60 = 1 then s.dev.retained else 0 } }

theorem leaveBoot_eq (hs : s.dev.state = 2) (hb : s.dev.bankStarted = true) : s.leaveBoot =
    (if bits s.dev.retained 63 60 = 1 ∧ bit s.dev.retained 59 = true then s.bootLeft.bootBedrock (bits s.dev.retained 55 40)
     else if bits s.dev.retained 63 60 = 3 then s.bootLeft.bootBedrock s.bootLeft.flash.newestCause
     else s.bootLeft.enterProofing) := by
  unfold leaveBoot
  rw [if_neg (by simp [hs, hb])]
  rfl

end State

end Sys2Proof.Machine
end

section
/-! PROOFS. The statement about BOOT's end. -/

set_option Elab.async false

open Sys2Proof Sys2Proof.Machine

/-- Settles O55: in BOOT the Starter set's check reports faults and no more, so what the verified flash and the loaded set are stands to the end; the
device leaves BOOT for BEDROCK or PROOFING as the retained register says. -/
theorem bootSequence : Obligations.BootSequence := by
  unfold Obligations.BootSequence
  refine ⟨?_, ?_, ?_⟩
  · rintro eccA eccB s hp hr hs hv
    have hexec : exec (.bankVerificationDone eccA eccB) s = .next (s.verificationDone eccA eccB) :=
      congrArg Host.Outcome.next (if_pos (by rw [hp, hr]; rfl))
    have hrep := State.verificationDone_reports eccA eccB s
    have hstate : (s.verificationDone eccA eccB).dev.state = s.dev.state := hrep.mode.resolve_right fun ⟨_, hge⟩ => by omega
    have hch := hrep.calm hstate
    have hshut := State.verificationDone_shutdown (eccA := eccA) (eccB := eccB) hs hv
    have heq := State.verificationDone_of hs hv eccA eccB
    obtain ⟨hhold, hsel, hstarted, hloaded⟩ := State.verified_keeps hs eccA eccB
    obtain ⟨hbankA, hbankB, hboot⟩ := State.verified_flash hs eccA eccB
    obtain ⟨hpassA, hpassB, himages⟩ := State.verifiedFlash_passes eccA eccB s.flash
    have hq := State.bootThermal_flash (s.verified eccA eccB)
    have hrest := State.bootThermal_rest (s.verified eccA eccB)
    obtain ⟨thold, tsel, tstarted⟩ := State.bootThermal_hold (s.verified eccA eccB)
    obtain ⟨kbench, kact, kact2, kstaged, kpersist, kboot, kbank⟩ := State.startAdmitted_keeps (s.verified eccA eccB).bootThermal
    have hA : (s.verificationDone eccA eccB).flash.bankA.image = (State.verifiedFlash eccA eccB s.flash).bankA.image
        ∧ (s.verificationDone eccA eccB).flash.bankA.passes = (State.verifiedFlash eccA eccB s.flash).bankA.passes := by
      rw [heq, ← hbankA, ← hq.bankA_eq]
      exact kbank false
    have hB : (s.verificationDone eccA eccB).flash.bankB.image = (State.verifiedFlash eccA eccB s.flash).bankB.image
        ∧ (s.verificationDone eccA eccB).flash.bankB.passes = (State.verifiedFlash eccA eccB s.flash).bankB.passes := by
      rw [heq, ← hbankB, ← hq.bankB_eq]
      exact kbank true
    have hall : State.SameBoot (State.verifiedFlash eccA eccB s.flash) (s.verificationDone eccA eccB).flash := by
      rw [heq]
      exact hboot.trans ((State.SameBoot.of_queue hq).trans kboot)
    have hbench : (s.verificationDone eccA eccB).bench = (s.verified eccA eccB).bench := by rw [heq, kbench, hrest]
    refine ⟨_, hexec, hstate.trans hs, ?_, ?_, ?_, ?_, fun hm => ?_, ?_, ?_, ?_, ?_, ?_, hshut, fun hb hh => ?_, fun hh hb b ha => ?_, ?_⟩
    · rw [hbench]
      exact (State.verified_noted eccA eccB s).1
    · rw [hbench]
      exact (State.verified_noted eccA eccB s).2.1
    · rw [hA.1, hA.2, hpassA]
    · rw [hB.1, hB.2, hpassB]
    · exact ⟨hA.1.trans (himages hm).1, hB.1.trans (himages hm).2⟩
    · exact hall.1.trans (State.verifiedFlash_boot ..).1
    · exact hall.2.trans (State.verifiedFlash_boot ..).2
    · rw [heq, kact, kact2, hrest]
      exact (State.verified_noted eccA eccB s).2.2.1
    · rw [heq, kact, kstaged, hrest]
      exact (State.verified_noted eccA eccB s).2.2.2
    · rw [heq, kpersist, hrest]
      exact hloaded
    · rw [heq, State.startAdmitted_of_hold (hh.imp (fun h => (thold.trans hhold).trans h) (fun h => (tsel.trans hsel).trans h))]
      exact (tstarted.trans hstarted).trans hb
    · rw [heq] at ha ⊢
      have hh' : (s.verified eccA eccB).bootThermal.bench.hold = false := (thold.trans hhold).trans hh
      have hb' : (s.verified eccA eccB).bootThermal.bootSel = s.bootSel := tsel.trans hsel
      cases hadm : (s.verified eccA eccB).bootThermal.flash.admitted s.bootSel with
      | some c =>
        rw [State.startAdmitted_of_some hh' (by rw [hb']; exact hb) (by rw [hb']; exact hadm)]
        rfl
      | none =>
        rw [State.startAdmitted_of_none (by rw [hb']; exact hadm), hadm] at ha
        exact absurd ha (by simp)
    · exact hch.mono (by decide)
  · rintro s hp hr hs hb href hk3 hk1
    have hexec : exec .bankStarted s = .next s.leaveBoot := congrArg Host.Outcome.next (if_pos (by rw [hp, hr]; rfl))
    have hnot : ¬ (bits s.dev.retained 63 60 = 1 ∧ bit s.dev.retained 59 = true) := fun ⟨h1, h59⟩ => by simp [hk1 h1] at h59
    rw [State.leaveBoot_eq hs hb, if_neg hnot, if_neg hk3] at hexec
    obtain ⟨h1, h2, h3, h4, h5⟩ := State.enterProofing_of_ref (s := s.bootLeft) href
    exact ⟨_, hexec, h1, h2, h3, h4, h5⟩
  · rintro s hp hr hs hb hkind
    have hexec : exec .bankStarted s = .next s.leaveBoot := congrArg Host.Outcome.next (if_pos (by rw [hp, hr]; rfl))
    rw [State.leaveBoot_eq hs hb] at hexec
    by_cases hk : bits s.dev.retained 63 60 = 1 ∧ bit s.dev.retained 59 = true
    · rw [if_pos hk] at hexec
      have hb := State.bootBedrock_state_cause (s := s.bootLeft) (bits s.dev.retained 55 40)
      have hd := State.bootBedrock_dev (bits s.dev.retained 55 40) s.bootLeft
      exact ⟨_, hexec, hb.1, hd.1, hd.2, fun _ => hb.2⟩
    · have hk3 := hkind.resolve_left hk
      rw [if_neg hk, if_pos hk3] at hexec
      have hb := State.bootBedrock_state_cause (s := s.bootLeft) s.bootLeft.flash.newestCause
      have hd := State.bootBedrock_dev s.bootLeft.flash.newestCause s.bootLeft
      exact ⟨_, hexec, hb.1, hd.1, hd.2, fun h1 => absurd (h1.symm.trans hk3) (by decide)⟩
end

section
/-! PROOFS. The steps of PROOFING (R416, R417). -/

set_option Elab.async false

namespace Sys2Proof.Machine

/-- A bit that was set or cleared reads back. -/
theorem bit_setBit_self (x n : Nat) (b : Bool) : bit (setBit x n b) n = b := by
  unfold bit setBit
  by_cases h : x.testBit n = b
  · simp [h]
  · cases b with
    | true =>
      have hx : x.testBit n = false := by simpa using h
      rw [if_neg (by simp [hx]), if_pos rfl, Nat.add_comm, Nat.testBit_two_pow_add_eq, hx]
      rfl
    | false =>
      have hx : x.testBit n = true := by simpa using h
      have hge : 2 ^ n ≤ x := Nat.ge_two_pow_of_testBit hx
      have hsum := Nat.testBit_two_pow_add_eq (x - 2 ^ n) n
      rw [Nat.add_sub_cancel' hge, hx] at hsum
      rw [if_neg (by simp [hx]), if_neg (by decide)]
      simpa using hsum.symm

namespace State

variable {s : State}

/-- A step of PROOFING that is over ends. -/
theorem exec_stepDone (hu : s.up = true) (r : ProofResult) : exec (.proofingStepDone r) s = .next (s.stepDone r) :=
  congrArg Host.Outcome.next (if_pos hu)

theorem nextStep_of (hs : s.dev.state = 3) (n : Nat) : s.nextStep n = startStep n { s with dev := { s.dev with step := n } } := if_pos hs

/-- Reports that leave the device state leave the device's record. -/
theorem raiseAll_dev_of_same {l : List Signal} (h : (s.raiseAll l).dev.state = s.dev.state) : (s.raiseAll l).dev = s.dev := by
  have hc := (raiseAll_reports l s).calm h
  have hd : (s.raiseAll l).dev = _ := hc.same .dev (by decide)
  rw [hd, h, hc.same .clock (by decide)]

theorem raise_dev_of_same {g : Signal} (h : (s.raise g).dev.state = s.dev.state) : (s.raise g).dev = s.dev :=
  raiseAll_dev_of_same (l := [g]) h

/-! ### Step 2 (R376, R377) -/

theorem calibrate_of_fail {hop fn cnt mask : Nat} {failed : Bool} (hr : s.chain.role = 2) (hf : failed = true ∨ hopOk hop = false) :
    s.calibrate hop fn cnt mask failed = { s with chain := { s.chain with role := 0, calFail := true } } := by
  unfold calibrate
  dsimp only
  rw [if_pos hr, if_pos (by rcases hf with h | h <;> simp [h])]

theorem calibrate_of_good {hop : Nat} (hr : s.chain.role = 2) (hu : s.chain.up.up = true) (hh : hopOk hop = true) (fn cnt mask : Nat) :
    (s.calibrate hop fn cnt mask false).chain.calibrated = true ∧ (s.calibrate hop fn cnt mask false).chain.hop = hop
    ∧ (s.calibrate hop fn cnt mask false).frame.fn = fn % 2 ^ 32 := by
  unfold calibrate
  dsimp only
  rw [if_pos hr, if_neg (by simp [hh, hu])]
  exact ⟨rfl, rfl, rfl⟩

theorem stepDone_two (hs : s.dev.state = 3) (hn : s.dev.step = 2) (ho : s.frame.started = true) (r : ProofResult) : s.stepDone r =
    ((s.calibrate (hopOf r.trips) r.summitFn r.summitCounter r.devices (r.fail || r.trips.length != 64)).markStep 2
      (s.calibrate (hopOf r.trips) r.summitFn r.summitCounter r.devices (r.fail || r.trips.length != 64)).chain.calFail).nextStep 3 := by
  simp only [stepDone, stepOver, hs, hn, ho, ne_eq, not_true_eq_false, decide_false, Bool.not_true, Bool.or_self, Bool.false_eq_true, if_false]

/-- The mark of a step and the start of the next one leave the frame and the chain, where the next one starts nothing. -/
theorem nextStep_three (hs : s.dev.state = 3) : s.nextStep 3 = { s with dev := { s.dev with step := 3 } } := nextStep_of hs 3

/-! ### Step 3 (R115) -/

theorem proofLanes_of_none {failed : Nat} (h0 : bit failed 0 = false) (h1 : bit failed 1 = false) (h2 : bit failed 2 = false) :
    s.proofLanes failed = { s with lanes := LaneState.makeActive { s.lanes with
      a := LaneState.restart s.cfg s.lanes.a, b := LaneState.restart s.cfg s.lanes.b, chk := { s.lanes.chk with st := 1 } } 0 } := by
  simp only [proofLanes, h0, h1, h2, List.filter_cons, List.filter_nil, Bool.false_eq_true, if_false, Bool.not_false, if_true, List.map_nil, raiseAll,
    List.foldl_nil]

theorem bits_of_mod_eight {n : Nat} (h : n % 8 = 0) : bit n 0 = false ∧ bit n 1 = false ∧ bit n 2 = false := by
  have hbit : ∀ k < 3, bit n k = false := by
    intro k hk
    have hmod := Nat.testBit_mod_two_pow n 3 k
    rw [show n % 2 ^ 3 = 0 from h, Nat.zero_testBit] at hmod
    simpa [bit, hk] using hmod.symm
  exact ⟨hbit 0 (by decide), hbit 1 (by decide), hbit 2 (by decide)⟩

/-! ### Step 4 (R417) -/

/-- The zero check of a path leaves the DONE bits, unless what it found has ended PROOFING. -/
theorem zeroPath_stepDone (sd : Nat) (avg : Rat) (s : State) (h : (s.zeroPath sd avg).dev.state = 3) :
    s.dev.state = 3 ∧ (s.zeroPath sd avg).dev.stepDone = s.dev.stepDone := by
  by_cases h3 : s.dev.state = 3
  · refine ⟨h3, ?_⟩
    revert h
    unfold zeroPath
    extract_lets
    split
    · exact fun _ => rfl
    · split
      · exact fun _ => rfl
      · split
        · exact fun _ => rfl
        · split
          · intro h
            exact (congrArg DevState.stepDone (raiseAll_dev_of_same (h.trans h3.symm)) :)
          · intro h
            exact (congrArg DevState.stepDone (raise_dev_of_same (h.trans h3.symm)) :)
  · have hid : s.zeroPath sd avg = s := by
      unfold zeroPath
      rw [if_pos (by simp [h3])]
    exact absurd (hid ▸ h) h3

theorem zeroCheck_stepDone (avgs : List Rat) (s : State) (h : (s.zeroCheck avgs).dev.state = 3) :
    (s.zeroCheck avgs).dev.stepDone = s.dev.stepDone := by
  have hinv : (s.zeroCheck avgs).dev.state = 3 → (s.zeroCheck avgs).dev.stepDone = s.dev.stepDone :=
    List.foldlRecOn (motive := fun t : State => t.dev.state = 3 → t.dev.stepDone = s.dev.stepDone) _ _ (fun _ => rfl)
      fun t ht e _ h => (zeroPath_stepDone e.1 e.2 t h).2.trans (ht (zeroPath_stepDone e.1 e.2 t h).1)
  exact hinv h

theorem stepDone_four (hs : s.dev.state = 3) (hn : s.dev.step = 4) (r : ProofResult) :
    s.stepDone r = ((s.markStep 4 false).zeroCheck r.zeros).nextStep 5 := by
  simp only [stepDone, stepOver, hs, hn, ne_eq, not_true_eq_false, decide_false, Bool.not_true, Bool.or_self, Bool.false_eq_true, if_false]

/-! ### Step 5 -/

theorem gdlSource_dev (link : Nat) (s : State) : s.dev.SameButMarks (s.gdlSource link).dev := tripTo_dev ..

theorem stepDone_five (hs : s.dev.state = 3) (hn : s.dev.step = 5) (ho : s.crust.soff.test = none) (r : ProofResult) :
    s.stepDone r = s.readbackDone := by
  simp only [stepDone, stepOver, hs, hn, ho, Option.isNone_none, ne_eq, not_true_eq_false, decide_false, Bool.not_true, Bool.or_self,
    Bool.false_eq_true, if_false]

theorem readbackDone_of_pass (hs : s.dev.state = 3) (hf : s.crust.soff.testFail = false) :
    s.readbackDone = (((State.linkSetup { s.markStep 5 false with dev := { (s.markStep 5 false).dev with step := 6 } }).gdlSource 0).gdlSource 1) := by
  unfold readbackDone
  dsimp only
  rw [hf]
  exact (if_neg (by simp [markStep, hf])).trans (nextStep_of (s := s.markStep 5 false) hs 6)

theorem readbackDone_of_fail (hf : s.crust.soff.testFail = true) : s.readbackDone
    = { s.markStep 5 true with dev := { (s.markStep 5 true).dev with step := 0, stepDone := 255 } } := by
  unfold readbackDone
  dsimp only
  rw [hf]
  exact if_pos hf

/-! ### Steps 6 to 8 -/

theorem stepDone_six (hs : s.dev.state = 3) (hn : s.dev.step = 6) (ho : s.stepOver = true) (r : ProofResult) :
    s.stepDone r = (s.markStep 6 (s.trip.gdl.any (·.setupFail))).nextStep 7 := by
  simp only [stepDone, hs, hn, ho, ne_eq, not_true_eq_false, decide_false, Bool.not_true, Bool.or_self, Bool.false_eq_true, if_false]

theorem stepDone_seven (hs : s.dev.state = 3) (hn : s.dev.step = 7) (ho : s.stepOver = true) (r : ProofResult) :
    s.stepDone r = (s.markStep 7 s.dev.stepBad).nextStep 8 := by
  simp only [stepDone, hs, hn, ho, ne_eq, not_true_eq_false, decide_false, Bool.not_true, Bool.or_self, Bool.false_eq_true, if_false]

theorem stepDone_eight (hs : s.dev.state = 3) (hn : s.dev.step = 8) (ho : s.stepOver = true) (r : ProofResult) :
    s.stepDone r = (s.markStep 8 s.dev.stepBad).nextStep 0 := by
  simp only [stepDone, hs, hn, ho, ne_eq, not_true_eq_false, decide_false, Bool.not_true, Bool.or_self, Bool.false_eq_true, if_false]

end State

end Sys2Proof.Machine
end

section
/-! PROOFS. The statement about PROOFING. -/

set_option Elab.async false

open Sys2Proof Sys2Proof.Machine

/-- Settles O56: each step by what its end does and what the next one starts. -/
theorem proofingSteps : Obligations.ProofingSteps := by
  unfold Obligations.ProofingSteps
  refine ⟨?_, ?_, ?_, ?_, ?_, ?_⟩
  · rintro r s hu hs hn ho
    have h : s.stepDone r = (s.markStep 1 s.hk.trimLimit).nextStep 2 := by
      simp only [State.stepDone, State.stepOver, hs, hn, ho, ne_eq, not_true_eq_false, decide_false, decide_true, Bool.not_true, Bool.or_self,
        Bool.false_eq_true, if_false]
    have hnext := State.nextStep_of (s := s.markStep 1 s.hk.trimLimit) hs 2
    exact ⟨_, (State.exec_stepDone hu r).trans (congrArg Host.Outcome.next (h.trans hnext)), rfl, rfl, rfl, rfl, (Changes.refl _ s).update⟩
  · rintro r s hu hs hn ho
    have h := State.stepDone_two hs hn ho r
    have hcal := State.calibrate_changes (hopOf r.trips) r.summitFn r.summitCounter r.devices (r.fail || r.trips.length != 64) s
    have hdev : (s.calibrate (hopOf r.trips) r.summitFn r.summitCounter r.devices (r.fail || r.trips.length != 64)).dev.state = s.dev.state :=
      hcal.same .mode (by decide)
    have hdone := hcal.devField_eq (f := DevState.stepDone)
    have hnext := State.nextStep_three (s := (s.calibrate (hopOf r.trips) r.summitFn r.summitCounter r.devices
      (r.fail || r.trips.length != 64)).markStep 2 (s.calibrate (hopOf r.trips) r.summitFn r.summitCounter r.devices
      (r.fail || r.trips.length != 64)).chain.calFail) (hdev.trans hs)
    refine ⟨_, (State.exec_stepDone hu r).trans (congrArg Host.Outcome.next (h.trans hnext)), rfl, ?_, ?_, ?_, ?_⟩
    · exact congrArg (fun d => setBit d 1 true) hdone
    · rintro hrole hup hfail hlen hhop
      have hbad : (r.fail || r.trips.length != 64) = false := by simp [hfail, hlen]
      rw [hbad]
      exact State.calibrate_of_good hrole hup hhop r.summitFn r.summitCounter r.devices
    · rintro hrole hbad
      have hf : (r.fail || r.trips.length != 64) = true ∨ hopOk (hopOf r.trips) = false := hbad.symm.imp (fun hl => by simp [hl]) id
      rw [State.calibrate_of_fail hrole hf]
      exact ⟨rfl, rfl, rfl⟩
    · exact (hcal.mono (by decide)).update
  · rintro r s hu hs hn hr
    obtain ⟨h0, h1, h2⟩ := State.bits_of_mod_eight hr
    have h : s.stepDone r = ((s.markStep 3 (r.lanes % 8 != 0)).proofLanes r.lanes).nextStep 4 := by
      simp only [State.stepDone, State.stepOver, hs, hn, ne_eq, not_true_eq_false, decide_false, Bool.not_true, Bool.or_self, Bool.false_eq_true, if_false]
    rw [State.proofLanes_of_none h0 h1 h2] at h
    have hnext := h.trans (State.nextStep_of (by exact hs) 4)
    exact ⟨_, (State.exec_stepDone hu r).trans (congrArg Host.Outcome.next hnext), rfl, rfl, rfl, rfl, Nat.le_refl 1, rfl, (Changes.refl _ s).update⟩
  · rintro r s hu hs hn
    have h := State.stepDone_four hs hn r
    have hmark : Reports [.dev, .sense, .loads, .crust] s (s.markStep 4 false) := .of (State.markStep_changes ..)
    have hrep := hmark.trans ((State.zeroCheck_reports r.zeros (s.markStep 4 false)).mono (by decide))
    refine ⟨_, (State.exec_stepDone hu r).trans (congrArg Host.Outcome.next h), ?_, ?_⟩
    · by_cases h3 : ((s.markStep 4 false).zeroCheck r.zeros).dev.state = 3
      · rw [State.nextStep_of h3]
        have hd : ((s.markStep 4 false).zeroCheck r.zeros).dev.stepDone = setBit s.dev.stepDone 3 true := State.zeroCheck_stepDone _ _ h3
        refine fun _ => ⟨rfl, ?_⟩
        exact (congrArg (fun d => bit d 3) hd).trans (bit_setBit_self ..)
      · unfold State.nextStep
        rw [if_neg h3]
        exact fun h => absurd h h3
    · unfold State.nextStep
      refine Reports.ite ?_ hrep
      exact hrep.trans (.of (Changes.refl [.dev, .crust] _).update)
  · rintro r s hu hs hn ho
    have h := State.stepDone_five hs hn ho r
    cases hf : s.crust.soff.testFail with
    | false =>
      rw [State.readbackDone_of_pass hs hf] at h
      have hdev := (State.gdlSource_dev 0 (State.linkSetup { s.markStep 5 false with dev := { (s.markStep 5 false).dev with step := 6 } })).trans
        (State.gdlSource_dev 1 _)
      refine ⟨_, (State.exec_stepDone hu r).trans (congrArg Host.Outcome.next h), fun _ => ⟨hdev.field DevState.step, hdev.field DevState.stepDone⟩,
        fun h => absurd h (by simp), ?_⟩
      exact (State.gdlSource_changes ..).after ((State.gdlSource_changes ..).after ((State.linkSetup_changes _).after (Changes.refl _ s).update
        (by decide)) (by decide)) (by decide)
    | true =>
      rw [State.readbackDone_of_fail hf] at h
      refine ⟨_, (State.exec_stepDone hu r).trans (congrArg Host.Outcome.next h), fun h => absurd h (by simp), fun _ => ⟨rfl, rfl, ?_, ?_⟩, ?_⟩
      · exact bit_setBit_self ..
      · exact (Changes.refl _ s).update
      · exact (Changes.refl _ s).update
  · rintro r n s hu hs hn h6 h8 ho
    have hcases : n = 6 ∨ n = 7 ∨ n = 8 := by omega
    rcases hcases with rfl | rfl | rfl
    · have hnext := State.nextStep_of (s := s.markStep 6 (s.trip.gdl.any (·.setupFail))) hs 7
      exact ⟨_, (State.exec_stepDone hu r).trans (congrArg Host.Outcome.next ((State.stepDone_six hs hn ho r).trans hnext)), rfl, rfl,
        fun _ => rfl, (Changes.refl _ s).update⟩
    · have hnext := State.nextStep_of (s := s.markStep 7 s.dev.stepBad) hs 8
      exact ⟨_, (State.exec_stepDone hu r).trans (congrArg Host.Outcome.next ((State.stepDone_seven hs hn ho r).trans hnext)), rfl, rfl,
        fun h => absurd h (by decide), (Changes.refl _ s).update⟩
    · have hnext := State.nextStep_of (s := s.markStep 8 s.dev.stepBad) hs 0
      exact ⟨_, (State.exec_stepDone hu r).trans (congrArg Host.Outcome.next ((State.stepDone_eight hs hn ho r).trans hnext)), rfl, rfl,
        fun h => absurd h (by decide), (Changes.refl _ s).update⟩
end

section
/-! PROOFS. Clocks, the always-on domain, the wake and the resets (R403 to R410, R418, R419). -/

set_option Elab.async false

namespace Sys2Proof.Machine

/-- Two device records that differ in what a change of state writes at most. -/
def DevState.SameButMode (d e : DevState) : Prop :=
  e = { d with state := e.state, transition := e.transition, request := e.request, exitFade := e.exitFade, fadeOver := e.fadeOver, step := e.step,
               refusal := e.refusal, serviceSession := e.serviceSession, stepBad := e.stepBad, retained := e.retained }

namespace DevState.SameButMode

variable {d e f : DevState}

theorem refl (d : DevState) : SameButMode d d := rfl

theorem trans (a : SameButMode d e) (b : SameButMode e f) : SameButMode d f := by
  unfold SameButMode at *
  rw [b, a]

/-- Any other field is the same. -/
theorem field {α : Type} (a : SameButMode d e) (g : DevState → α)
    (hg : ∀ (d : DevState) a b c x y z u v w r, g { d with
      state := a, transition := b, request := c, exitFade := x, fadeOver := y, step := z
      refusal := u, serviceSession := v, stepBad := w, retained := r } = g d := by intros; rfl) : g e = g d := by
  rw [a, hg]

theorem of_marks (a : SameButMarks d e) : SameButMode d e := by
  unfold SameButMode
  rw [a]

end DevState.SameButMode

namespace State

variable {s : State}

theorem goState_sameButMode (dst cause : Nat) (own : Bool) (s : State) : s.dev.SameButMode (s.goState dst cause own).dev :=
  .trans (e := s.wentDev dst cause own) rfl (.of_marks (goState_dev ..))

theorem retainBedrock_sameButMode (word : Nat) (s : State) : s.dev.SameButMode (s.retainBedrock word).dev := by
  unfold retainBedrock
  split <;> rfl

theorem closeSession_sameButMode (k : Nat) (s : State) : s.dev.SameButMode (s.closeSession k).dev := by
  unfold closeSession
  dsimp only
  split <;> rfl

theorem closeSessions_sameButMode (p : Session → Bool) (s : State) : s.dev.SameButMode (s.closeSessions p).dev := by
  unfold closeSessions
  refine List.foldlRecOn (motive := fun t : State => s.dev.SameButMode t.dev) _ _ (.refl _) fun t ht k _ => ?_
  split
  · split
    · exact ht.trans (closeSession_sameButMode ..)
    · exact ht
  · exact ht

theorem twinHandOff_dev (m : Nat) (s : State) : (s.twinHandOff m).dev = s.dev := by
  unfold twinHandOff
  split <;> rfl

theorem logEvent_dev (kind : Nat) (payload : List Byte) (s : State) : (s.logEvent kind payload).dev = s.dev := rfl

theorem hardStates_dev (s : State) : s.hardStates.dev = s.dev := rfl

theorem withFault_dev (s : State) (f : FaultState) : ({ s with fault := f } : State).dev = s.dev := rfl

theorem withTrip_dev (s : State) (f : TripState) : ({ s with trip := f } : State).dev = s.dev := rfl

theorem bedrockStops_dev (byVote : Bool) (s : State) : (s.bedrockStops byVote).dev = s.dev := rfl

/-- BEDROCK entry writes the device's record as a change of state does, and no more. -/
theorem enterBedrock_sameButMode (cause group : Nat) (byVote : Bool) (s : State) : s.dev.SameButMode (s.enterBedrock cause group byVote).dev := by
  unfold enterBedrock
  extract_lets word hard stopped tr eased handed gone recorded closed logged
  split
  · exact .refl _
  · split
    · exact .refl _
    · have hease : eased.dev = s.dev := (withTrip_dev stopped _).trans (bedrockStops_dev byVote s)
      have hhand : handed.dev = s.dev := ((twinHandOff_dev 1 _).trans (twinHandOff_dev 0 eased)).trans hease
      have hgo : handed.dev.SameButMode gone.dev := goState_sameButMode ..
      have hrec : recorded.dev = gone.dev := withFault_dev gone _
      have hclose : recorded.dev.SameButMode closed.dev := (retainBedrock_sameButMode word recorded).trans (closeSessions_sameButMode ..)
      have hlogged : logged.dev = closed.dev := logEvent_dev ..
      rw [hrec] at hclose
      rw [hhand] at hgo
      have hall := hgo.trans hclose
      rw [← hlogged] at hall
      split
      · rw [hardStates_dev]
        exact hall
      · exact hall

theorem singleFault_sameButMode (code group detail : Nat) (s : State) : s.dev.SameButMode (s.singleFault code group detail).dev := by
  unfold singleFault
  extract_lets second recorded logged
  have hlog : logged.dev = s.dev := by
    dsimp only [logged]
    split
    · exact withFault_dev ..
    · exact (logEvent_dev ..).trans (withFault_dev ..)
  split
  · exact hlog ▸ enterBedrock_sameButMode ..
  · exact hlog ▸ .refl _

theorem raise_sameButMode (g : Signal) (s : State) : s.dev.SameButMode (s.raise g).dev := by
  cases g with
  | fault code group detail => exact singleFault_sameButMode ..
  | second group => exact enterBedrock_sameButMode ..
  | bedrock cause => exact enterBedrock_sameButMode ..
  | restored b => exact .refl _

/-- A device that is up stays up over a report. -/
theorem raise_up (g : Signal) (hu : s.up = true) : (s.raise g).up = true := by
  have hnpor := (raise_sameButMode g s).field DevState.npor
  have hnrst := (raise_sameButMode g s).field DevState.nrst
  simp only [up, Bool.and_eq_true, decide_eq_true_eq] at hu ⊢
  obtain ⟨⟨h1, h2⟩, h3⟩ := hu
  refine ⟨⟨hnpor.trans h1, hnrst.trans h2⟩, ?_⟩
  rcases (raise_reports g s).mode with h | ⟨h, -⟩ <;> omega

/-! ### The reference clock (R403, R404) -/

/-- The device on the backup oscillator. -/
def onBackup (deviation : Int) (s : State) : State := { s with dev := { s.dev with
  refOk := false, refLost := true, backup := true, slewing := true, toRef := false, ethHold := true
  refLosses := inc32 s.dev.refLosses, backupDev := deviation } }

theorem refLoss_of_down (d : Int) (hu : s.up = false) : s.refLoss d = s.onBackup d := by
  unfold refLoss
  exact if_pos (by change (!(s.onBackup d).up) = true; rw [show (s.onBackup d).up = false from hu]; rfl)

theorem refLoss_of_up (d : Int) (hu : s.up = true) : s.refLoss d =
    (if 30000 < d.natAbs ∧ ((s.onBackup d).raise (.fault 0x0C 19 0)).dev.state ≠ 7 then ((s.onBackup d).raise (.fault 0x0C 19 0)).enterBedrock 1 19 false
     else (s.onBackup d).raise (.fault 0x0C 19 0)) := by
  unfold refLoss
  exact if_neg (by change ¬ (!(s.onBackup d).up) = true; rw [show (s.onBackup d).up = true from hu]; decide)

theorem refLoss_sameButMode (d : Int) (s : State) : (s.onBackup d).dev.SameButMode (s.refLoss d).dev := by
  cases hu : s.up with
  | false =>
    rw [refLoss_of_down d hu]
    exact .refl _
  | true =>
    rw [refLoss_of_up d hu]
    split
    · exact (raise_sameButMode ..).trans (enterBedrock_sameButMode ..)
    · exact raise_sameButMode ..

/-- A deviation above 3 percent is a BEDROCK cause (R293). -/
theorem refLoss_bedrock {d : Int} (hu : s.up = true) (hd : 30000 < d.natAbs) : (s.refLoss d).dev.state = 7 := by
  rw [refLoss_of_up d hu]
  by_cases h7 : ((s.onBackup d).raise (.fault 0x0C 19 0)).dev.state = 7
  · rw [if_neg (fun h => h.2 h7)]
    exact h7
  · rw [if_pos ⟨hd, h7⟩]
    exact enterBedrock_state _ _ _ _ h7 (raise_up (s := s.onBackup d) _ hu)

theorem slewDone_toRef (h1 : s.dev.slewing = true) (h2 : s.dev.toRef = true) : s.slewDone = raise (.restored 18) { s with
    dev := { s.dev with slewing := false, toRef := false, refLost := false, backup := false, backupDev := 0 } } := by
  unfold slewDone
  rw [if_neg (by simp [h1]), if_pos h2]

/-! ### The wake (R419) -/

/-- The retained register of a wake holds its kind and what woke the device. -/
theorem wakeWord_fields (p t : Bool) : bits (2 ^ 62 + (b2n p + 2 * b2n t) * 2 ^ 40) 63 60 = 4
    ∧ bit (2 ^ 62 + (b2n p + 2 * b2n t) * 2 ^ 40) 40 = p ∧ bit (2 ^ 62 + (b2n p + 2 * b2n t) * 2 ^ 40) 41 = t := by
  cases p <;> cases t <;> decide

theorem wake_of {pin t1s : Bool} (hs : s.dev.state = 1) (hp : s.dev.pwrReq = false)
    (hw : (pin = true ∧ bit s.dev.wakeEnable 0 = true) ∨ (t1s = true ∧ s.cfg.b 0x1030 3 = true)) : s.wake pin t1s = { s with dev := { s.dev with
      pwrReq := true, wakeAt := some s.dev.counter
      retained := 2 ^ 62 + (b2n (pin && bit s.dev.wakeEnable 0) + 2 * b2n (t1s && s.cfg.b 0x1030 3)) * 2 ^ 40 } } := by
  have hcond : ((pin && bit s.dev.wakeEnable 0) || (t1s && s.cfg.b 0x1030 3)) = true := by simpa using hw
  unfold wake
  dsimp only
  rw [if_neg (by simp [hs, hp, hcond])]

theorem wake_of_none {pin t1s : Bool} (hp : (pin && bit s.dev.wakeEnable 0) = false) (ht : (t1s && s.cfg.b 0x1030 3) = false) : s.wake pin t1s = s := by
  unfold wake
  dsimp only
  rw [hp, ht]
  exact if_pos (by simp)

/-! ### The resets (R406 to R410) -/

theorem markSector_images (sec : Nat) (f : FlashState) :
    (f.markSector sec).bankA.image = f.bankA.image ∧ (f.markSector sec).bankB.image = f.bankB.image := by
  unfold FlashState.markSector
  split <;> exact ⟨rfl, rfl⟩

/-- With no operation in progress a cut-off programs nothing. -/
theorem cutOff_images {f : FlashState} (hc : f.current = none) (bench : Option Bool) :
    (f.cutOff bench).bankA.image = f.bankA.image ∧ (f.cutOff bench).bankB.image = f.bankB.image := by
  have herase : (if f.update.running == some 1 then f.markSector (if f.runningB then 0 else 512) else f).bankA.image = f.bankA.image
      ∧ (if f.update.running == some 1 then f.markSector (if f.runningB then 0 else 512) else f).bankB.image = f.bankB.image := by
    split
    · exact markSector_images ..
    · exact ⟨rfl, rfl⟩
  unfold FlashState.cutOff
  rw [hc]
  cases bench with
  | none => exact herase
  | some b => exact ⟨(markSector_images ..).1.trans herase.1, (markSector_images ..).2.trans herase.2⟩

theorem nrstRise_of (h : s.dev.nrst = false) (aon : Nat) : s.nrstRise aon =
    (let t : State := { s with dev := { s.dev with
      nrst := true, lastHold := min (aon * 1000 / 32768) (2 ^ 32 - 1), histogram := upd s.dev.histogram (holdBin aon) (fun n => min 65535 (n + 1)) } }
     if s.dev.state ≤ 1 then t else t.toBoot s.dev.resetFrom 2) := by
  unfold nrstRise
  exact if_neg (by simp [h])

end State

end Sys2Proof.Machine
end

section
/-! PROOFS. The statements about clocks, the wake and the resets. -/

set_option Elab.async false

open Sys2Proof Sys2Proof.Machine

/-- Settles O57: the loss of the reference writes the clock's record, which its fault and BEDROCK entry leave; the rest is a case of each command. -/
theorem clocksAndWake : Obligations.ClocksAndWake := by
  unfold Obligations.ClocksAndWake
  refine ⟨⟨?_, ?_, ?_, ?_⟩, ?_, ?_, ?_, ?_, ?_⟩
  · rintro d s hp href
    have hexec : exec (.refLost d) s = .next (s.refLoss d) := congrArg Host.Outcome.next (if_pos (by simp [hp, href]))
    have hk := State.refLoss_sameButMode d s
    refine ⟨_, hexec, hk.field DevState.refOk, hk.field DevState.refLost, hk.field DevState.backup, hk.field DevState.slewing, hk.field DevState.ethHold,
      hk.field DevState.refLosses, hk.field DevState.backupDev, fun hu hd => State.refLoss_bedrock hu hd, fun hu => ?_,
      (State.refLoss_reports d s).parts.mono (by decide)⟩
    rw [State.refLoss_of_down d hu]
    exact (Changes.refl _ s).update
  · rintro s hp href
    refine (congrArg Host.Outcome.next (if_pos hp)).trans (congrArg Host.Outcome.next ?_)
    unfold State.refBack
    exact if_neg (by simp [href])
  · rintro s hp hsl hto
    refine ⟨_, (congrArg Host.Outcome.next (if_pos hp)).trans (congrArg Host.Outcome.next (State.slewDone_toRef hsl hto)), rfl, rfl,
      (Changes.refl _ s).update⟩
  · rintro s hp hsl hto
    refine (congrArg Host.Outcome.next (if_pos hp)).trans (congrArg Host.Outcome.next ?_)
    unfold State.slewDone
    rw [if_neg (by simp [hsl]), if_neg (by simp [hto])]
  · rintro s hv
    have h : s.vaonLost = { s.afterReset with dev := {
        state := 0, counting := false, npor := s.dev.npor, nrst := s.dev.nrst, vaon := false
        strapsHeld := false, pwrReq := false, refOk := false, counter := s.dev.counter } } := by
      unfold State.vaonLost
      exact if_neg (by simp [hv])
    exact ⟨_, congrArg Host.Outcome.next h, rfl, rfl, rfl, rfl, rfl, rfl, rfl⟩
  · rintro s hv
    refine congrArg Host.Outcome.next ?_
    unfold State.vaonApplied
    exact if_neg (by simp [hv])
  · rintro pin t1s s hs hp hw
    obtain ⟨h4, h40, h41⟩ := State.wakeWord_fields (pin && bit s.dev.wakeEnable 0) (t1s && s.cfg.b 0x1030 3)
    exact ⟨_, congrArg Host.Outcome.next (State.wake_of hs hp hw), rfl, rfl, h4, h40, h41, (Changes.refl _ s).update⟩
  · exact fun pin t1s s hp ht => congrArg Host.Outcome.next (State.wake_of_none hp ht)
  · rintro t0 s hs hw
    refine congrArg Host.Outcome.next ?_
    unfold State.failedWake
    exact if_pos (by simp [hs, hw])

/-- Settles O58: each reset is the device as a reset leaves it, with the domains that it spares put back. -/
theorem resets : Obligations.Resets := by
  unfold Obligations.Resets
  refine ⟨?_, ?_, ?_, ?_, ?_⟩
  · rintro straps ref s hv hn hs hc
    have h : s.nporRise straps ref = (State.toBoot 0 1 (State.strapped { s.afterReset with
        trip := {}
        dev := { s.afterReset.dev with
          counter := 0, npor := true, straps := if s.dev.strapsHeld then s.dev.straps else straps % 64, strapsHeld := true
          retained := State.retainedAtRise s.dev.retained, wakeAt := none, pwrReq := true, refOk := ref, refLost := false, backup := !ref
          slewing := false, toRef := false, ethHold := !ref, backupDev := 0 } })) := by
      unfold State.nporRise
      dsimp only
      rw [if_neg (by simp [hv, hn]), if_neg (by simp [hs]), beq_eq_false_iff_ne.2 hs]
      rfl
    have himages := State.cutOff_images hc (match s.bench.recovery with | some (1, b, _) => some (b == 1) | _ => none)
    exact ⟨_, congrArg Host.Outcome.next h, rfl, rfl, rfl, rfl, rfl, rfl, rfl, rfl, rfl, rfl, rfl, rfl, himages.1, himages.2, rfl, rfl⟩
  · rintro s hs
    have h : s.nporFall = { s.afterReset with dev := { s.afterReset.dev with npor := false, state := 0, counting := false, transition := 0 } } := by
      unfold State.nporFall
      exact if_neg (by omega)
    exact ⟨_, congrArg Host.Outcome.next h, rfl, rfl, rfl, rfl, rfl, rfl, rfl, rfl⟩
  · rintro s hs
    refine congrArg Host.Outcome.next ?_
    unfold State.nporFall
    exact if_pos hs
  · rintro s hn hs
    have h : s.nrstLow = { s.afterReset.strapped with
        dev := { s.afterReset.dev with nrst := false, resetFrom := s.dev.state }
        bench := { s.afterReset.bench with lockUntil := s.bench.lockUntil }
        chain := { s.afterReset.strapped.chain with
          up := s.chain.up, dn := s.chain.dn, succeeded := s.chain.succeeded
          role := if s.chain.succeeded then 3 else s.afterReset.strapped.chain.role } } := by
      unfold State.nrstLow
      dsimp only
      rw [if_neg (by simp [hn]), if_neg (by omega)]
    exact ⟨_, congrArg Host.Outcome.next h, rfl, rfl, rfl, rfl, rfl, rfl, rfl, rfl, rfl, rfl, rfl, rfl, rfl, rfl, rfl⟩
  · rintro aon s hn
    refine ⟨_, congrArg Host.Outcome.next (State.nrstRise_of hn aon), ?_⟩
    by_cases hs : s.dev.state ≤ 1
    · rw [if_pos hs]
      exact ⟨rfl, rfl, rfl, fun h => absurd hs (by omega), fun _ => rfl, (Changes.refl _ s).update⟩
    · rw [if_neg hs]
      exact ⟨rfl, rfl, rfl, fun _ => ⟨rfl, rfl⟩, fun h => absurd h hs, (Changes.refl _ s).update⟩
end

section
/-! PROOFS. The Ridge links and twins (R374 to R386). -/

set_option Elab.async false

namespace Sys2Proof.Machine

namespace State

variable {s : State}

/-! ### Marks (R378, R379, R381) -/

theorem troughMark_of (hf : s.full = true) (hs : s.shoulder = true) (hu : s.chain.up.up = true) (period : Nat) (gptp : Option Nat) (summit : Bool) :
    s.troughMark period gptp summit = { s with
      chain := { s.chain with markSeen := true, markPeriod := period, holdover := false, upSummit := summit }
      frame := match gptp with | some g => { s.frame with gptpOffset := (g + 5 * s.chain.offset) % 2 ^ 64 } | none => s.frame
      net := { s.net with gptp := { s.net.gptp with present := gptp.isSome } } } := by
  unfold troughMark
  refine (if_neg (by simp [hf, hs, hu])).trans ?_
  rfl

/-- The device in holdover, and Summit where the neighbour that sent the marks is lost with them. -/
def heldOver (s : State) : State :=
  let s : State := { s with chain := { s.chain with timebaseLoss := true, holdover := true } }
  if !s.chain.up.up || s.chain.upSummit then s.succeed else s

theorem lossOfMark_of (hf : s.full = true) (hs : s.shoulder = true) (hst : s.frame.started = true) (hm : s.chain.markSeen = false)
    (hh : s.chain.holdover = false) (ht : s.frame.troughTime + 20 ≤ s.now) : s.lossOfMark = s.heldOver.raise (.fault 0x0E 21 0) := by
  unfold lossOfMark
  rw [if_neg (by simp [hf, hs, hst, hm, hh, ht])]
  rfl

/-- A fault of a group that R293 does not count is recorded and logged, and no more. -/
theorem singleFault_of_first {code group : Nat} (hs : s.fault.isSecond code group = false) (hc : code ≠ 0x10) (detail : Nat) :
    s.singleFault code group detail = State.logEvent 2 (toBytes 4 (s.fault.record code group detail s.frame.fn s.now).last
      ++ toBytes 4 (s.fault.record code group detail s.frame.fn s.now).standing)
      { s with fault := s.fault.record code group detail s.frame.fn s.now } := by
  unfold singleFault
  dsimp only
  rw [hs, if_neg hc]
  rfl

theorem timebaseFault_not_second (f : FaultState) : f.isSecond 0x0E 21 = false := rfl

theorem heldOver_chain (s : State) : s.heldOver.chain.timebaseLoss = true ∧ s.heldOver.chain.holdover = true
    ∧ s.heldOver.chain.role = (if s.chain.up.up = false ∨ s.chain.upSummit = true then 3 else s.chain.role) := by
  unfold heldOver
  cases hu : s.chain.up.up <;> cases hm : s.chain.upSummit <;> simp [hu, hm, succeed]

theorem shoulder_role (h : s.shoulder = true) : s.chain.role = 2 := by
  simp only [shoulder, Bool.and_eq_true, beq_iff_eq] at h
  exact h.1

/-- The record of a fault of group 21 stands. -/
theorem record_timebase_standing (f : FaultState) (detail fn now : Nat) : bit (f.record 0x0E 21 detail fn now).standing 20 = true :=
  bit_setBit_self ..

/-! ### Links (R374, R375, R380, R382) -/

theorem ridgeApply_chain (s : State) : s.ridgeApply.chain = s.chain := (ridgeApply_changes s).same .chain (by decide)

/-- One link's loss counted. -/
def linkGone (upper : Bool) (s : State) : State :=
  let x : ChainState := { s.chain with losses := inc32 s.chain.losses }
  { s with chain := if upper then { x with up := {} } else { x with dn := {} } }

/-- The lost link's effects: what it carried ends, and a Shoulder in holdover succeeds. -/
def afterLoss (upper : Bool) (s : State) : State :=
  let s := (s.linkGone upper).ridgeApply.twinLinks
  if upper && s.chain.role == 2 && s.chain.holdover then s.succeed else s

theorem linkLoss_of {upper : Bool} (hu : s.up = true) (hl : (if upper then s.chain.up else s.chain.dn).up = true) :
    s.linkLoss upper = (s.afterLoss upper).logEvent 9 (toBytes 2 ((s.afterLoss upper).reading 0xD00003)) := by
  unfold linkLoss
  dsimp only
  rw [if_neg (by simp [hu, hl])]
  rfl

/-- The chain after a link's loss: the link gone, the machines' twins judged anew, and the succession of a Shoulder in holdover. -/
theorem afterLoss_chain_eq (upper : Bool) (s : State) : ∃ l, (s.afterLoss upper).chain =
    if upper = true ∧ s.chain.role = 2 ∧ s.chain.holdover = true
    then { (s.linkGone upper).chain with m := l, role := 3, succeeded := true, firstMark := true }
    else { (s.linkGone upper).chain with m := l } := by
  obtain ⟨l, hc⟩ : ∃ l, (s.linkGone upper).ridgeApply.twinLinks.chain = { (s.linkGone upper).chain with m := l } := by
    have hr := ridgeApply_chain (s.linkGone upper)
    generalize (s.linkGone upper).ridgeApply = t at hr
    rw [← hr]
    exact ⟨_, rfl⟩
  refine ⟨l, ?_⟩
  unfold afterLoss
  generalize (s.linkGone upper).ridgeApply.twinLinks = t at hc
  have hrole : t.chain.role = s.chain.role ∧ t.chain.holdover = s.chain.holdover := by
    rw [hc]
    cases upper <;> exact ⟨rfl, rfl⟩
  by_cases hr : upper = true ∧ s.chain.role = 2 ∧ s.chain.holdover = true
  · have hcond : (upper && t.chain.role == 2 && t.chain.holdover) = true := by simpa [hrole.1, hrole.2, and_assoc] using hr
    rw [if_pos hr]
    dsimp only
    rw [if_pos hcond, succeed]
    dsimp only
    rw [hc]
  · have hcond : (upper && t.chain.role == 2 && t.chain.holdover) = false := by
      rw [Bool.eq_false_iff]
      intro h
      exact hr (by simpa [hrole.1, hrole.2, and_assoc] using h)
    rw [if_neg hr]
    dsimp only
    rw [if_neg (by simp [hcond]), hc]

theorem afterLoss_chain (upper : Bool) (s : State) :
    (if upper then (s.afterLoss upper).chain.up else (s.afterLoss upper).chain.dn) = {}
    ∧ (if upper then (s.afterLoss upper).chain.dn = s.chain.dn else (s.afterLoss upper).chain.up = s.chain.up)
    ∧ (s.afterLoss upper).chain.losses = inc32 s.chain.losses
    ∧ ((s.afterLoss upper).chain.succeeded = true → s.chain.succeeded = true ∨ (upper = true ∧ s.chain.role = 2 ∧ s.chain.holdover = true)) := by
  obtain ⟨l, hc⟩ := afterLoss_chain_eq upper s
  rw [hc]
  by_cases hr : upper = true ∧ s.chain.role = 2 ∧ s.chain.holdover = true
  · simp only [if_pos hr]
    cases upper <;> exact ⟨rfl, rfl, rfl, fun _ => .inr hr⟩
  · simp only [if_neg hr]
    cases upper <;> exact ⟨rfl, rfl, rfl, fun h => .inl h⟩

/-- A strap error: RIDGE_UP of a device strapped as Summit carries symbols. -/
def strapFault (s : State) : State :=
  { s with chain := { s.chain with strapErr := true, role := 0, calibrated := false, devices := 0, dn := {} } }

theorem linkUp_of_strap (hu : s.up = true) (he : s.chain.strapErr = false) (hb : bit s.dev.straps 0 = true) : s.linkUp true = s.strapFault.ridgeApply := by
  unfold linkUp
  dsimp only
  rw [if_neg (by simp [hu, he]), if_pos (by simp [hb])]
  rfl

/-- The link noted as up, and a Summit's role where RIDGE_DN comes up. -/
def linkNoted (upper : Bool) (s : State) : State :=
  let x := s.chain
  let s : State := { s with chain := if upper then { x with up := { x.up with up := true } } else { x with dn := { x.dn with up := true } } }
  if !upper && s.working && s.chain.role = 0 && bit s.dev.straps 0 then
    { s with chain := { s.chain with role := 1, calibrated := true, devices := 1 } } else s

theorem linkUp_of {upper : Bool} (hu : s.up = true) (he : s.chain.strapErr = false) (hb : upper = true → bit s.dev.straps 0 = false) :
    s.linkUp upper = (s.linkNoted upper).twinLinks := by
  unfold linkUp
  dsimp only
  have hno : (upper && bit s.dev.straps 0) = false := by
    cases upper with
    | false => rfl
    | true => simp [hb rfl]
  rw [if_neg (by simp [hu, he]), if_neg (by simp [hno])]
  rfl

theorem linkNoted_up (upper : Bool) (s : State) : (if upper then (s.linkNoted upper).chain.up else (s.linkNoted upper).chain.dn).up = true := by
  unfold linkNoted
  cases upper with
  | true => simp
  | false =>
    simp only [Bool.false_eq_true, if_false]
    split <;> rfl

theorem linkNoted_role (hw : s.working = true) (hr : s.chain.role = 0) (hb : bit s.dev.straps 0 = true) : (s.linkNoted false).chain.role = 1 := by
  have hw' : ∀ c, ({ s with chain := c } : State).working = true := fun _ => hw
  unfold linkNoted
  simp [hw', hr, hb]

theorem linkNoted_changes (upper : Bool) (s : State) : Changes [.chain] s (s.linkNoted upper) := by
  unfold linkNoted
  exact .ite (Changes.refl _ s).update.update (Changes.refl _ s).update

/-! ### Hops and trips (R377, R380) -/

theorem clampI_natAbs (x : Int) : (clampI (-1) 1 x).natAbs ≤ 1 := by
  unfold clampI
  split
  · decide
  · split
    · decide
    · omega

theorem hopMeasured_of (hf : s.full = true) (h3 : s.dev.state ≠ 3) (hs : s.shoulder = true) (hu : s.chain.up.up = true) (hop : Nat) :
    s.hopMeasured hop = { s with chain := { s.chain with
      hop := hop, placement := s.chain.placement + clampI (-1) 1 (hopSteps hop - s.chain.placement) } } := by
  unfold hopMeasured
  rw [if_neg (by simp [hf, h3, hs, hu])]

theorem ridgeTrip_of {upper : Bool} (hu : s.up = true) (hl : (if upper then s.chain.up else s.chain.dn).up = true) (hr : s.chain.role ≠ 0) (on : Bool) :
    s.ridgeTrip upper on = ridgeApply { s with chain := if upper
      then { s.chain with up := { (if upper then s.chain.up else s.chain.dn) with rx := on } }
      else { s.chain with dn := { (if upper then s.chain.up else s.chain.dn) with rx := on } } } := by
  unfold ridgeTrip
  dsimp only
  rw [if_neg (by simp [hu, hl, hr])]

/-! ### Twins (R384 to R386) -/

/-- What a partner's record of a machine brings. -/
def recordHeld (m : Nat) (r : SplitRecord) (s : State) : State :=
  { s with chain := { s.chain with m := upd s.chain.m m (fun x => { x with
    id := r.id, iq := r.iq, torque := r.torque, fresh := true, partner := true, agree := r.agree }) } }

theorem splitRecord_of {m : Nat} (hf : s.full = true) (hu : s.chainUse m ≠ 0) (hp : s.partnerLink m = true) (r : SplitRecord) :
    s.splitRecord m r = (if s.chainUse m = 2 then (s.recordHeld m r).twinRecord m r.paths r.hits else s.recordHeld m r) := by
  unfold splitRecord
  rw [if_neg (by simp [hf, hu, hp])]
  rfl

theorem recordHeld_m {m : Nat} (hm : m < s.chain.m.length) (r : SplitRecord) : nth (s.recordHeld m r).chain.m m {} = { nth s.chain.m m {} with
    id := r.id, iq := r.iq, torque := r.torque, fresh := true, partner := true, agree := r.agree } := nth_upd_of_lt hm

theorem handOffCome_of_standby {m : Nat} (hf : s.full = true) (hp : s.partnerLink m = true) (ht : (nth s.chain.m m {}).twin = 2) :
    s.handOffCome m = { s with chain := { s.chain with m := upd s.chain.m m (fun x => { x with handoff := true, asked := false }) } } := by
  unfold handOffCome
  dsimp only
  rw [if_neg (by simp [hf, hp]), if_pos ht]

theorem handOffCome_of_active {m : Nat} (hf : s.full = true) (hp : s.partnerLink m = true) (ht : (nth s.chain.m m {}).twin = 1)
    (ha : (nth s.chain.m m {}).agree = true) : s.handOffCome m = s.handOffTo m := by
  unfold handOffCome
  dsimp only
  rw [if_neg (by simp [hf, hp]), if_neg (by simp [ht]), if_pos (by simp [ht, ha])]

end State

end Sys2Proof.Machine
end

section
/-! PROOFS. The statement about the Ridge chain. -/

set_option Elab.async false

open Sys2Proof Sys2Proof.Machine

/-- Settles O59: the links' commands write the chain's record, which the trips and the log that follow leave; a twin's record that reports a fault
leaves it too, unless BEDROCK is entered. -/
theorem chainEvents : Obligations.ChainEvents := by
  unfold Obligations.ChainEvents
  refine ⟨⟨?_, ?_, ?_, ?_, ?_, ?_, ?_⟩, ?_, ?_, ?_⟩
  · rintro fn period gptp summit s hf hs hu
    refine ⟨_, congrArg Host.Outcome.next (State.troughMark_of hf hs hu period gptp summit), rfl, ?_, ?_, rfl, (Changes.refl _ s).update⟩
    · cases gptp <;> rfl
    · rintro g rfl
      rfl
  · rintro s hf hs hst hm hh ht
    have h := State.lossOfMark_of hf hs hst hm hh ht
    have hrep := State.lossOfMark_reports s
    rw [h] at hrep
    have hraise : s.heldOver.raise (.fault 0x0E 21 0) = _ :=
      State.singleFault_of_first (State.timebaseFault_not_second s.heldOver.fault) (by decide) 0
    have hchain : (s.heldOver.raise (.fault 0x0E 21 0)).chain = s.heldOver.chain := by
      rw [hraise]
      rfl
    obtain ⟨h1, h2, h3⟩ := State.heldOver_chain s
    refine ⟨_, congrArg Host.Outcome.next h, ?_, ?_, ?_, fun _ => ?_, hrep⟩
    · rw [hchain, h1]
    · rw [hchain, h2]
    · rw [hchain, h3, State.shoulder_role hs]
      split
      · next h => exact iff_of_true rfl h
      · next h => exact iff_of_false (by decide) h
    · rw [hraise]
      exact State.record_timebase_standing ..
  · rintro upper s hu hl
    have hch := State.linkLoss_changes upper s
    rw [State.linkLoss_of hu hl] at hch
    obtain ⟨h1, h2, h3, h4⟩ := State.afterLoss_chain upper s
    exact ⟨_, congrArg Host.Outcome.next (State.linkLoss_of hu hl), h1, h2, h3, h4, hch⟩
  · rintro s hu he hb
    have hch := State.linkUp_changes true s
    have hc := State.ridgeApply_chain s.strapFault
    rw [State.linkUp_of_strap hu he hb] at hch
    refine ⟨_, congrArg Host.Outcome.next (State.linkUp_of_strap hu he hb), ?_, ?_, ?_, hch⟩ <;> rw [hc] <;> rfl
  · rintro upper s hu he hb
    refine ⟨_, congrArg Host.Outcome.next (State.linkUp_of hu he hb), State.linkNoted_up upper s, ?_,
      (State.twinLinks_changes _).after (State.linkNoted_changes upper s) (by decide)⟩
    rintro rfl hw hr hb'
    exact State.linkNoted_role hw hr hb'
  · rintro trips s hf h3 hs hu
    refine ⟨_, congrArg Host.Outcome.next (State.hopMeasured_of hf h3 hs hu (hopOf trips)), rfl, ?_, (Changes.refl _ s).update⟩
    have h := State.clampI_natAbs (hopSteps (hopOf trips) - s.chain.placement)
    have hcancel (a b : Int) : a + b - a = b := by omega
    rw [hcancel]
    exact h
  · rintro upper on s hu hl hr
    have hch := State.ridgeTrip_changes upper on s
    rw [State.ridgeTrip_of hu hl hr] at hch
    refine ⟨_, congrArg Host.Outcome.next (State.ridgeTrip_of hu hl hr on), ?_, hch⟩
    rw [State.ridgeApply_chain]
    cases upper <;> rfl
  · rintro m r s hf hu hp hm
    have h := State.splitRecord_of hf hu hp r
    refine ⟨_, congrArg Host.Outcome.next h, ?_, fun h2 => ?_⟩
    · by_cases h2 : s.chainUse m = 2
      · rw [if_pos h2]
        have hrep := State.twinRecord_reports m r.paths r.hits (s.recordHeld m r)
        rcases hrep.mode with hmode | ⟨h7, -⟩
        · have hc := (hrep.calm hmode).same .chain (by decide)
          refine .inl ?_
          rw [hc]
          exact State.recordHeld_m hm r
        · exact .inr h7
      · rw [if_neg h2]
        exact .inl (State.recordHeld_m hm r)
    · rw [if_neg h2]
      exact (Changes.refl _ s).update
  · exact fun m s hf hp ht => congrArg Host.Outcome.next (State.handOffCome_of_standby hf hp ht)
  · exact fun m s hf hp ht ha => congrArg Host.Outcome.next (State.handOffCome_of_active hf hp ht ha)
end

section
/-! PROOFS. Flash operations (R388, R393, R399) and saves (R336, R337). -/

set_option Elab.async false

namespace Sys2Proof.Machine

/-- A bit of a number built from a list of bits. -/
theorem bit_ofBits (l : List Bool) (i : Nat) : bit (ofBits l) i = l.getD i false := by
  unfold bit
  induction l generalizing i with
  | nil => simp [ofBits]
  | cons b l ih =>
    have hdiv : (b2n b + 2 * ofBits l) / 2 = ofBits l := by
      cases b with
      | false => simp only [b2n, Bool.false_eq_true, if_false]; omega
      | true => simp only [b2n, if_true]; omega
    cases i with
    | zero => cases b <;> simp [ofBits, b2n, Nat.testBit_zero, Nat.add_mod]
    | succ i => rw [ofBits, Nat.testBit_succ, hdiv, ih, List.getD_cons_succ]

theorem nth_mapIdx_of_lt {α : Type} {l : List α} {i : Nat} {d : α} {f : Nat → α → α} (hi : i < l.length) :
    nth (l.mapIdx f) i d = f i (nth l i d) := by
  rw [nth_of_lt (by simpa using hi), nth_of_lt hi, List.getElem_mapIdx]

namespace FlashState

variable {f : FlashState}

/-! ### What the next operation's start leaves -/

theorem begun_entries {j : FlashJob} (h : classOf j.kind ≠ 3 ∨ j.left ≠ 8) (f : FlashState) : (begun j f).entries = f.entries := by
  unfold begun
  split
  · next e _ _ _ _ hk =>
    rw [if_neg]
    exact h.resolve_left (by simp [hk, classOf])
  · rfl

/-- The operation that is first by class: the list's head, or one of a lower class. -/
def firstByClass (j0 : FlashJob) (l : List FlashJob) : FlashJob := l.foldl (fun a j => if classOf j.kind < classOf a.kind then j else a) j0

theorem firstByClass_cases (j0 : FlashJob) (l : List FlashJob) :
    firstByClass j0 l = j0 ∨ classOf (firstByClass j0 l).kind < classOf j0.kind := by
  refine List.foldlRecOn (motive := fun a : FlashJob => a = j0 ∨ classOf a.kind < classOf j0.kind) _ _ (.inl rfl) fun a ha j _ => ?_
  split
  · next h =>
    rcases ha with rfl | ha
    · exact .inr h
    · exact .inr (by omega)
  · exact ha

theorem firstByClass_le (j0 : FlashJob) (l : List FlashJob) : classOf (firstByClass j0 l).kind ≤ classOf j0.kind :=
  (firstByClass_cases j0 l).elim (fun h => Nat.le_of_eq (congrArg (fun j => classOf j.kind) h)) Nat.le_of_lt

/-- With a sequence of the Starter set at the queue's head, no other one starts. -/
theorem startNext_entries {j0 : FlashJob} {l : List FlashJob} (hq : f.jobs = j0 :: l) (h3 : classOf j0.kind = 3) (h8 : j0.left ≠ 8) (stopped : Bool) :
    (startNext stopped f).entries = f.entries := by
  unfold startNext
  split
  · rfl
  · dsimp only
    split
    · rfl
    · next j1 l1 hr =>
      refine (begun_entries (j := firstByClass j1 l1) ?_ _).trans rfl
      cases stopped with
      | true =>
        rw [if_pos rfl] at hr
        have hm : j1 ∈ f.jobs.filter (fun j => classOf j.kind == 1) := hr ▸ List.mem_cons_self ..
        have h1 : classOf j1.kind = 1 := by simpa using (List.mem_filter.1 hm).2
        have := firstByClass_le j1 l1
        exact .inl (by omega)
      | false =>
        rw [if_neg (by decide)] at hr
        have hj : j1 :: l1 = j0 :: l := hr.symm.trans hq
        obtain ⟨rfl, rfl⟩ := List.cons.inj hj
        rcases firstByClass_cases j1 l1 with h | h
        · exact .inr (by rw [h]; exact h8)
        · exact .inl (by omega)

/-! ### The end of an operation -/

theorem operationDone_event {r : List Byte} {stopped : Bool} (hc : f.current = some ⟨.event r, 1⟩) :
    f.operationDone stopped true = startNext stopped (store r { f with current := none }) := by
  unfold operationDone
  rw [hc]
  rfl

theorem store_ring (r : List Byte) (f : FlashState) : (f.store r).ring = f.ring ++ [r] ∧ (f.store r).logWritten = inc32 f.logWritten := by
  unfold store
  dsimp only
  split <;> exact ⟨rfl, rfl⟩

/-- The fourth word of an entry's program completes it. -/
def entryStored (e pair count : Nat) (user restore : Bool) (f : FlashState) : FlashState :=
  { f with
    current := none, jobs := ⟨.starter e pair user count restore, 4⟩ :: f.jobs
    entries := upd f.entries (e - 1) (fun x => { x with pair := pair, user := user, count := count, ok := true, lost := false }) }

theorem operationDone_starter {e pair count : Nat} {user restore stopped : Bool} (hc : f.current = some ⟨.starter e pair user count restore, 5⟩) :
    f.operationDone stopped true = startNext stopped (f.entryStored e pair count user restore) := by
  unfold operationDone
  rw [hc]
  rfl

theorem operationDone_starter_entries {e pair count : Nat} {user restore stopped : Bool}
    (hc : f.current = some ⟨.starter e pair user count restore, 5⟩) : (f.operationDone stopped true).entries
      = upd f.entries (e - 1) (fun x => { x with pair := pair, user := user, count := count, ok := true, lost := false }) := by
  rw [operationDone_starter hc]
  exact startNext_entries (j0 := ⟨.starter e pair user count restore, 4⟩) rfl rfl (by decide : (4 : Nat) ≠ 8) stopped

/-- The update's word programmed into the idle bank. -/
def wordStored (f : FlashState) : FlashState :=
  f.setBank (!f.runningB) (fun b => { b with image := flashProgram b.image f.update.programmed (f.update.staging.take 8) })

theorem operationDone_update_bank {left : Nat} {stopped : Bool} (hc : f.current = some ⟨.update, left⟩) (b : Bool) :
    (f.operationDone stopped true).bank b = f.wordStored.bank b := by
  unfold operationDone
  rw [hc]
  dsimp only
  rw [if_neg (by decide), (startNext_sameButQueue ..).bank_eq]
  split
  · cases hr : f.runningB <;> simp only [completed, wordStored, hr] <;> rfl
  · cases hr : f.runningB <;> simp only [completed, wordStored, hr] <;> rfl

theorem operationDone_update_failed {left : Nat} {stopped : Bool} (hc : f.current = some ⟨.update, left⟩) :
    (f.operationDone stopped false).update.result = 6 ∧ (f.operationDone stopped false).bankA = f.bankA := by
  unfold operationDone
  rw [hc]
  dsimp only
  rw [if_pos (by decide)]
  exact ⟨congrArg UpdateState.result (startNext_sameButQueue ..).update_eq, startNext_bankA ..⟩

end FlashState

namespace State

variable {s : State}

theorem exec_flashDone (hp : s.dev.npor = true) (ok : Bool) : exec (.flashOperationDone ok) s = .next (s.flashDone ok) :=
  congrArg Host.Outcome.next (if_pos hp)

theorem flashDone_of {j : FlashJob} {ok : Bool} (hc : s.flash.current = some j) (h3 : FlashState.classOf j.kind ≠ 3) (hs : s.dev.state ≠ 1) :
    s.flashDone ok = { s with flash := (s.flash.operationDone s.stopped ok).wantUpdate s.stopped } := by
  unfold flashDone
  rw [hc]
  rcases j with ⟨k, left⟩
  cases k <;> first | exact absurd rfl h3 | exact if_neg (by simp [hs])

/-- In STANDBY the supply is let go once the flash has no work left (R320). -/
def letGo (s : State) : State :=
  if s.dev.state = 1 && s.flash.current.isNone && s.flash.jobs.isEmpty then { s with dev := { s.dev with pwrReq := false, counting := false } } else s

/-- What an operation's end is, before the supply is let go, leaves the device's record. -/
theorem flashDone_letGo {j : FlashJob} (hc : s.flash.current = some j) (ok : Bool) : ∃ u : State, s.flashDone ok = u.letGo ∧ u.dev = s.dev := by
  unfold flashDone
  rw [hc]
  refine ⟨_, rfl, ?_⟩
  split
  · split <;> rfl
  · rfl

theorem letGo_off (hs : s.dev.state = 1) (hc : s.letGo.flash.current = none) (hj : s.letGo.flash.jobs = []) :
    s.letGo.dev.pwrReq = false ∧ s.letGo.dev.counting = false := by
  have hflash : s.letGo.flash = s.flash := by
    unfold letGo
    split <;> rfl
  rw [hflash] at hc hj
  have h : s.letGo = { s with dev := { s.dev with pwrReq := false, counting := false } } := if_pos (by simp [hs, hc, hj])
  rw [h]
  exact ⟨rfl, rfl⟩

theorem flashDone_standby (hs : s.dev.state = 1) (ok : Bool) (hc : s.flash.current.isSome = true) :
    (s.flashDone ok).flash.current = none → (s.flashDone ok).flash.jobs = [] → (s.flashDone ok).dev.pwrReq = false ∧ (s.flashDone ok).dev.counting = false := by
  obtain ⟨j, hj⟩ := Option.isSome_iff_exists.1 hc
  obtain ⟨u, hu, hdev⟩ := flashDone_letGo hj ok
  rw [hu]
  exact letGo_off (hdev ▸ hs)

/-! ### Saves (R336, R337) -/

theorem exec_saveDone (hf : s.full = true) (h8 : s.dev.state ≠ 8) (groups : Nat) (ok : Bool) :
    exec (.saveDone groups ok) s = .next { s with persist := s.persist.saved groups ok } :=
  congrArg Host.Outcome.next (if_pos (by simp [hf, stopped, h8]))

end State

namespace PersistState

variable {p : PersistState} {mask groups : Nat} {c : Store}

theorem saved_of_failed (hr : p.running = some (mask, c)) (groups : Nat) : p.saved groups false = { p with running := none, result := 2 } := by
  unfold saved
  rw [hr]
  rfl

/-- The groups of a mask that a part of the save leaves. -/
def groupsLeft (mask groups : Nat) : Nat := ofBits ((List.range 14).map (fun g => bit mask g && !bit groups g))

theorem bit_groupsLeft {g : Nat} (hg : g < 14) : bit (groupsLeft mask groups) g = (bit mask g && !bit groups g) := by
  unfold groupsLeft
  rw [bit_ofBits, getD_of_lt (by simpa using hg)]
  simp

theorem groupsLeft_eq_zero (h : ∀ g, g < 14 → bit mask g = true → bit groups g = true) : groupsLeft mask groups = 0 := by
  refine Nat.eq_of_testBit_eq fun i => ?_
  rw [Nat.zero_testBit]
  by_cases hi : i < 14
  · refine (bit_groupsLeft hi).trans ?_
    cases hm : bit mask i with
    | false => rfl
    | true => rw [h i hi hm]; rfl
  · refine (bit_ofBits _ i).trans ?_
    simp [Nat.le_of_not_lt hi]

/-- The copies after the groups of a part of the save. -/
def overwritten (mask groups : Nat) (c : Store) (p : PersistState) : PersistState :=
  { p with copies := p.copies.mapIdx (fun g x => if bit mask g && bit groups g then overwrite g c x else x) }

theorem saved_of_good (hr : p.running = some (mask, c)) (groups : Nat) : p.saved groups true =
    (if groupsLeft mask groups = 0
     then { p.overwritten mask groups c with running := none, result := 1, done := true, completed := inc32 p.completed }
     else { p.overwritten mask groups c with running := some (groupsLeft mask groups, c) }) := by
  simp only [saved, hr, groupsLeft, overwritten, Bool.not_true, Bool.false_eq_true, if_false]

theorem overwritten_copies {g : Nat} (hg : g < p.copies.length) : nth (p.overwritten mask groups c).copies g (none, none)
    = (if bit mask g = true ∧ bit groups g = true then overwrite g c (nth p.copies g (none, none)) else nth p.copies g (none, none)) := by
  refine (nth_mapIdx_of_lt hg).trans ?_
  simp only [Bool.and_eq_true]

theorem saved_copies (hr : p.running = some (mask, c)) (groups : Nat) : (p.saved groups true).copies = (p.overwritten mask groups c).copies := by
  rw [saved_of_good hr]
  split <;> rfl

end PersistState

/-! ### The two copies of a group -/

/-- A copy that passes its CRC. -/
def goodCopy (x : Option SavedCopy) : Option SavedCopy := match x with | some c => if c.ok then some c else none | none => none

theorem newerCopy_eq (p : Option SavedCopy × Option SavedCopy) : newerCopy p = (match goodCopy p.1, goodCopy p.2 with
    | none, b => b
    | a, none => a
    | some a, some b => if a.seq < b.seq then some b else some a) := rfl

theorem goodCopy_some {x : Option SavedCopy} {c : SavedCopy} (h : goodCopy x = some c) : x = some c := by
  cases x with
  | none => exact absurd h (by simp [goodCopy])
  | some d =>
    simp only [goodCopy] at h
    split at h
    · exact h
    · exact absurd h (by simp)

theorem goodCopy_saved (g n : Nat) (c : Store) : goodCopy (some (savedCopy g n c)) = some (savedCopy g n c) := rfl

/-- The sequence number of a group's next copy. -/
def nextSeq (p : Option SavedCopy × Option SavedCopy) : Nat := match newerCopy p with | some x => x.seq + 1 | none => 1

theorem nextSeq_of_some {p : Option SavedCopy × Option SavedCopy} {x : SavedCopy} (h : newerCopy p = some x) : nextSeq p = x.seq + 1 := by
  unfold nextSeq
  rw [h]

theorem overwrite_of_first {g : Nat} {c : Store} {p : Option SavedCopy × Option SavedCopy} {x : SavedCopy} (h : newerCopy p = some x)
    (h1 : p.1 = some x) : overwrite g c p = (some x, some (savedCopy g (x.seq + 1) c)) := by
  unfold overwrite
  dsimp only
  rw [h, h1]
  simp

theorem overwrite_of_second {g : Nat} {c : Store} {p : Option SavedCopy × Option SavedCopy} {x : SavedCopy} (h : newerCopy p = some x)
    (h1 : p.1 ≠ some x) : overwrite g c p = (some (savedCopy g (x.seq + 1) c), p.2) := by
  unfold overwrite
  dsimp only
  rw [h, if_neg]
  simpa using fun e => h1 e.symm

theorem overwrite_of_none {g : Nat} {c : Store} {p : Option SavedCopy × Option SavedCopy} (h : newerCopy p = none) :
    overwrite g c p = (some (savedCopy g 1 c), p.2) := by
  unfold overwrite
  dsimp only
  rw [h]
  rfl

/-- A group's newer copy is one of its two. -/
theorem newerCopy_cases {p : Option SavedCopy × Option SavedCopy} {x : SavedCopy} (h : newerCopy p = some x) :
    goodCopy p.1 = some x ∨ goodCopy p.2 = some x := by
  rw [newerCopy_eq] at h
  split at h
  · exact .inr h
  · exact .inl h
  · next ha hb =>
    split at h
    · exact .inr (hb.trans h)
    · exact .inl (ha.trans h)

theorem goodCopy_second_none {p : Option SavedCopy × Option SavedCopy} (h : newerCopy p = none) : goodCopy p.2 = none := by
  rw [newerCopy_eq] at h
  split at h
  · exact h
  · next hb _ => assumption
  · split at h <;> exact absurd h (by simp)

theorem newerCopy_pair_first {a b : SavedCopy} (h : ¬ a.seq < b.seq) {p : Option SavedCopy × Option SavedCopy} (h1 : goodCopy p.1 = some a)
    (h2 : goodCopy p.2 = some b) : newerCopy p = some a := by
  rw [newerCopy_eq, h1, h2]
  exact if_neg h

theorem newerCopy_pair_second {a b : SavedCopy} (h : a.seq < b.seq) {p : Option SavedCopy × Option SavedCopy} (h1 : goodCopy p.1 = some a)
    (h2 : goodCopy p.2 = some b) : newerCopy p = some b := by
  rw [newerCopy_eq, h1, h2]
  exact if_pos h

theorem newerCopy_first_only {a : SavedCopy} {p : Option SavedCopy × Option SavedCopy} (h1 : goodCopy p.1 = some a) (h2 : goodCopy p.2 = none) :
    newerCopy p = some a := by
  rw [newerCopy_eq, h1, h2]

/-- A save's copy is a group's newer one from then on, and the copy that was newer is kept. -/
theorem newerCopy_overwrite (g : Nat) (c : Store) (p : Option SavedCopy × Option SavedCopy) :
    newerCopy (overwrite g c p) = some (savedCopy g (nextSeq p) c)
    ∧ ∀ x, newerCopy p = some x → (overwrite g c p).1 = some x ∨ (overwrite g c p).2 = some x := by
  cases h : newerCopy p with
  | none =>
    have h2 : goodCopy p.2 = none := goodCopy_second_none h
    rw [overwrite_of_none h]
    have hseq : nextSeq p = 1 := by unfold nextSeq; rw [h]
    rw [hseq]
    exact ⟨newerCopy_first_only (goodCopy_saved ..) h2, fun x hx => absurd hx (by simp)⟩
  | some x =>
    rw [nextSeq_of_some h]
    by_cases h1 : p.1 = some x
    · rw [overwrite_of_first h h1]
      have hgood : goodCopy (some x) = some x := by
        rcases newerCopy_cases h with hg | hg
        · rwa [h1] at hg
        · rwa [goodCopy_some hg] at hg
      exact ⟨newerCopy_pair_second (Nat.lt_succ_self _) hgood (goodCopy_saved ..), fun y hy => .inl hy⟩
    · rw [overwrite_of_second h h1]
      have h2 : goodCopy p.2 = some x := (newerCopy_cases h).resolve_left fun hg => h1 (goodCopy_some hg)
      exact ⟨newerCopy_pair_first (Nat.not_lt.2 (Nat.le_succ _)) (goodCopy_saved ..) h2, fun y hy => .inr ((goodCopy_some h2).trans hy)⟩

end Sys2Proof.Machine
end

section
/-! PROOFS. The statement about flash operations and saves. -/

set_option Elab.async false

open Sys2Proof Sys2Proof.Machine

/-- Settles O60: an operation's end by its kind, whose effect the next one's start leaves; a save's part overwrites the older copies of its groups. -/
theorem flashAndSaves : Obligations.FlashAndSaves := by
  unfold Obligations.FlashAndSaves
  refine ⟨⟨?_, ?_, ?_, ?_, ?_⟩, ?_, ?_, ?_⟩
  · exact fun ok j s hp hc h3 hs => (State.exec_flashDone hp ok).trans (congrArg Host.Outcome.next (State.flashDone_of hc h3 hs))
  · exact fun ok s hp hc hs => ⟨_, State.exec_flashDone hp ok, State.flashDone_standby hs ok hc, State.flashDone_changes ok s⟩
  · rintro r stopped f hc
    rw [FlashState.operationDone_event hc]
    have hq := FlashState.startNext_sameButQueue stopped (FlashState.store r { f with current := none })
    rw [hq]
    exact FlashState.store_ring r { f with current := none }
  · rintro e pair count user restore stopped f hc he hle
    rw [FlashState.operationDone_starter_entries hc]
    refine ⟨?_, fun k hk => nth_upd_of_ne hk⟩
    dsimp only
    rw [nth_upd_of_lt (by omega)]
    exact ⟨rfl, rfl, rfl, rfl, rfl⟩
  · rintro stopped left f hc
    obtain ⟨h1, h2⟩ := FlashState.operationDone_update_failed (stopped := stopped) hc
    rw [FlashState.operationDone_update_bank hc, FlashState.operationDone_update_bank hc]
    refine ⟨congrArg FlashBank.image (FlashState.setBank_bank_self ..), ?_, h1, h2⟩
    have h := FlashState.setBank_bank_not f (!f.runningB)
      (fun b => { b with image := flashProgram b.image f.update.programmed (f.update.staging.take 8) })
    rwa [Bool.not_not] at h
  · rintro groups mask c s hf h8 hr
    rw [State.exec_saveDone hf h8, PersistState.saved_of_failed hr]
  · rintro groups mask c s hf h8 hr
    refine ⟨_, State.exec_saveDone hf h8 groups true, fun g hg => ?_, fun hall => ?_, ?_, (Changes.refl _ s).update⟩
    · dsimp only
      rw [PersistState.saved_copies hr]
      exact PersistState.overwritten_copies hg
    · dsimp only
      rw [PersistState.saved_of_good hr, if_pos (PersistState.groupsLeft_eq_zero hall)]
      exact ⟨rfl, rfl, rfl, rfl⟩
    · rintro ⟨g, hg, hm, hn⟩
      have hne : PersistState.groupsLeft mask groups ≠ 0 := by
        intro h
        have hb := PersistState.bit_groupsLeft (mask := mask) (groups := groups) hg
        rw [h, hm, hn] at hb
        exact absurd hb (by simp [bit])
      dsimp only
      rw [PersistState.saved_of_good hr, if_neg hne]
      exact ⟨_, rfl, fun g hg => PersistState.bit_groupsLeft hg⟩
  · rintro g c p
    obtain ⟨h1, h2⟩ := newerCopy_overwrite g c p
    exact ⟨h1, h2⟩
end

section
/-! PROOFS. The frame's instants (R24 to R31, R83, R88, R129, R414). -/

set_option Elab.async false

namespace Sys2Proof.Machine

namespace State

variable {s : State}

/-! ### The M0 Trough -/

/-- A step that leaves the frame leaves it in either branch. -/
theorem ite_frame {c : Prop} [Decidable c] {t u v : State} (ht : t.frame = v.frame) (hu : u.frame = v.frame) :
    (if c then t else u).frame = v.frame := by
  split
  · exact ht
  · exact hu

/-- The frame after a Trough is the one that it began. -/
theorem m0Trough_frame (edges : Nat) (hu : s.up = true) (ht : s.dev.timebase = true) :
    (s.m0Trough edges).frame = (s.beginFrame (!s.frame.started || s.m1Next)).frame := by
  unfold m0Trough
  rw [if_neg (by simp [hu, ht])]
  extract_lets held old marked m1 begun repaired applied set body requested
  have hrepaired : repaired.frame = begun.frame := ite_frame ((repairStore_changes _).same .frame (by decide)) rfl
  have hset : set.frame = begun.frame :=
    (((troughSettings_changes ..).same .frame (by decide)).trans ((troughBoundary_changes ..).same .frame (by decide))).trans hrepaired
  have hbody : body.frame = begun.frame :=
    (((troughBody_changes ..).same .frame (by decide)).trans ((modulate_changes ..).same .frame (by decide))).trans hset
  have hrequested : requested.frame = begun.frame := ((requestTrough_changes ..).same .frame (by decide)).trans hbody
  exact ite_frame (((sendImages_changes _).same .frame (by decide)).trans hrequested) hrequested

/-! ### The Crest -/

/-- The compares that a Crest loads, at the second update instant of a machine's period. -/
def crestLoaded (m : Nat) (s : State) : State := { s with mod := { s.mod with m := upd s.mod.m m (modCrest s.cfg m) } }

theorem voteInstant_mod (m : Nat) (loaded had : Bool) (s : State) : (s.voteInstant m loaded had).mod = s.mod :=
  (voteInstant_changes ..).same .mod (by decide)

theorem voteInstant_lanes (m : Nat) (loaded had : Bool) (s : State) : (s.voteInstant m loaded had).lanes = s.lanes :=
  (voteInstant_changes ..).same .lanes (by decide)

theorem dropHeld_mod (loaded : Bool) (s : State) : (s.dropHeld loaded).mod = (if loaded = false ∧ s.lanes.underTest = false
    then { s.mod with m := upd s.mod.m 1 (fun x => { x with noDuty := true }) } else s.mod) := by
  unfold dropHeld
  by_cases h : loaded = false ∧ s.lanes.underTest = false
  · rw [if_neg (by simp [h.1, h.2]), if_pos h]
    exact voteInstant_mod ..
  · have hor : (loaded || s.lanes.underTest) = true := by
      cases loaded with
      | true => rfl
      | false => simpa using h
    rw [if_pos hor, if_neg h]

/-- What a Crest does after its compares are loaded and the vote source judged. -/
def crestRest (m : Nat) (double : Bool) (s : State) : State :=
  let s := if double then s.setCtl m (fun x => { x with instant := s.now }) else s
  let s := if s.centred m true then s.centre m else s
  if m ≠ 0 || !double then s else
  let s : State := { s with lanes := { s.lanes with m1Update := s.m1Instant (2 * s.frame.m1Count + 1) } }
  (s.voteDue false).captureInstant

theorem crestRest_mod (m : Nat) (double : Bool) (s : State) : (s.crestRest m double).mod = s.mod := by
  unfold crestRest
  extract_lets timed centred lanes updated
  have htimed : timed.mod = s.mod := by
    dsimp only [timed]
    split <;> rfl
  have hcentred : centred.mod = s.mod := by
    dsimp only [centred]
    split
    · exact ((centre_changes ..).same .mod (by decide)).trans htimed
    · exact htimed
  split
  · exact hcentred
  · exact ((captureInstant_changes ..).same .mod (by decide)).trans (((voteDue_changes ..).same .mod (by decide)).trans hcentred)

theorem crest_single {m : Nat} (hu : s.up = true) (hs : s.frame.started = true) (hd : (nth s.mod.m m {}).double = false) :
    s.crest m = s.crestRest m false := by
  unfold crest
  rw [if_neg (by simp [hu, hs]), hd]
  rfl

/-- The vote source of the machine, and where M0's vote loaded nothing the held duties of M1. -/
def crestVote (m : Nat) (s : State) : State :=
  let t := s.crestLoaded m
  let u := t.voteInstant m (!(nth t.mod.m m {}).noDuty) (!(nth s.mod.m m {}).noDuty)
  if m == 0 then u.dropHeld (!(nth t.mod.m m {}).noDuty) else u

theorem crest_double {m : Nat} (hu : s.up = true) (hs : s.frame.started = true) (hd : (nth s.mod.m m {}).double = true) :
    s.crest m = (s.crestVote m).crestRest m true := by
  unfold crest
  rw [if_neg (by simp [hu, hs]), hd]
  rfl

theorem crestVote_mod (m : Nat) (s : State) : (s.crestVote m).mod = { s.mod with m :=
      (if m = 0 ∧ (nth (upd s.mod.m m (modCrest s.cfg m)) 0 {}).noDuty = true ∧ s.lanes.underTest = false
       then upd (upd s.mod.m m (modCrest s.cfg m)) 1 (fun x => { x with noDuty := true }) else upd s.mod.m m (modCrest s.cfg m)) } := by
  unfold crestVote
  extract_lets t u
  have ht : t.mod = { s.mod with m := upd s.mod.m m (modCrest s.cfg m) } := rfl
  have humod : u.mod = t.mod := voteInstant_mod ..
  have hulanes : u.lanes = s.lanes := voteInstant_lanes ..
  by_cases hm : m = 0
  · subst hm
    rw [if_pos (by decide), dropHeld_mod, humod, hulanes, ht]
    by_cases hno : (nth (upd s.mod.m 0 (modCrest s.cfg 0)) 0 {}).noDuty = true ∧ s.lanes.underTest = false
    · rw [if_pos (by simpa using hno), if_pos ⟨rfl, hno⟩]
    · rw [if_neg (by simpa using hno), if_neg (fun h => hno h.2)]
  · rw [if_neg (by simpa using hm), if_neg (fun h => hm h.1), humod, ht]

/-! ### The ends of the fades -/

theorem modeFadeEnd_of {m t0 : Nat} (hf : (nth s.ctl m {}).fadeFrom = some t0) (hs : s.dev.state = 5) (ht : t0 + 2000000 ≤ s.now) :
    s.modeFadeEnd m = (s.testModeChange m).setCtl m MachCtl.off := by
  unfold modeFadeEnd
  rw [hf]
  exact if_pos ⟨hs, ht⟩

theorem runFadeEnd_of {t0 : Nat} (hf : s.dev.exitFade = some t0) (hs : s.dev.state = 5) (ht : t0 + 2000000 ≤ s.now) :
    s.runFadeEnd = { s with dev := { s.dev with fadeOver := true } } := by
  unfold runFadeEnd
  rw [hf]
  exact if_pos ⟨hs, ht⟩

end State

end Sys2Proof.Machine
end

section
/-! PROOFS. The statement about the frame's instants. -/

set_option Elab.async false

open Sys2Proof Sys2Proof.Machine

/-- Settles O16: only a Trough's start writes the frame; of a Crest's parts only the load of the compares and the drop of held duties write the
modulation engine. -/
theorem frameInstants : Obligations.FrameInstants := by
  unfold Obligations.FrameInstants
  refine ⟨⟨?_, ?_⟩, ?_, ?_⟩
  · rintro edges s hu ht
    exact ⟨_, rfl, State.m0Trough_frame edges hu ht, (State.m0Trough_changes edges s).mono (by decide)⟩
  · rintro m s hu hs
    have hch := State.crest_changes m s
    refine ⟨_, rfl, fun hd => ?_, fun hd => ?_, (hch.same .active (by decide)).1, (hch.same .active (by decide)).2.1, hch.same .frame (by decide),
      hch.mono (by decide)⟩
    · rw [State.crest_single hu hs hd]
      exact State.crestRest_mod ..
    · have hmod : (s.crest m).mod = _ := (congrArg State.mod (State.crest_double hu hs hd)).trans
        ((State.crestRest_mod ..).trans (State.crestVote_mod m s))
      dsimp only
      rw [hmod]
      exact ⟨rfl, rfl⟩
  · rintro m t0 s hf hs ht
    have hch := State.modeFadeEnd_changes m s
    have h := State.modeFadeEnd_of hf hs ht
    refine ⟨_, rfl, ?_, hch⟩
    rw [h]
    have hctl : (s.testModeChange m).ctl = s.ctl := (State.testModeChange_changes m s).same .ctl (by decide)
    exact congrArg (fun l => upd l m MachCtl.off) hctl
  · exact fun t0 s hf hs ht => congrArg Host.Outcome.next (State.runFadeEnd_of hf hs ht)
end

section
/-! PROOFS. The Sifter's windows and the position front ends (chapter 3). -/

set_option Elab.async false

namespace Sys2Proof.Machine

/-! ### What the checks of the pairs leave of a path's reading (R57 to R63) -/

/-- Two records of a path with one reading: its value, its time and its stream checks. -/
structure SdPath.SameReading (x y : SdPath) : Prop where
  r : y.r = x.r
  valid : y.valid = x.valid
  time : y.time = x.time
  clip : y.clip = x.clip
  stuck : y.stuck = x.stuck

theorem SdPath.SameReading.refl (x : SdPath) : x.SameReading x := ⟨rfl, rfl, rfl, rfl, rfl⟩

theorem SdPath.SameReading.trans {x y z : SdPath} (h : x.SameReading y) (k : y.SameReading z) : x.SameReading z :=
  ⟨k.r.trans h.r, k.valid.trans h.valid, k.time.trans h.time, k.clip.trans h.clip, k.stuck.trans h.stuck⟩

/-- An element of a list after one of its elements changed: the changed one, or as it was. -/
theorem nth_upd_cases {α : Type} (l : List α) (i j : Nat) (d : α) (f : α → α) :
    nth (upd l i f) j d = f (nth l j d) ∨ nth (upd l i f) j d = nth l j d := by
  by_cases hij : j = i
  · subst hij
    by_cases hl : j < l.length
    · exact .inl (nth_upd_of_lt hl)
    · refine .inr ?_
      unfold upd
      rw [nth_of_le (by simpa using hl), nth_of_le (by simpa using hl)]
  · exact .inr (nth_upd_of_ne hij)

/-- Two states of the Sifter whose paths have the same readings. -/
structure SenseState.SameReadings (s t : SenseState) : Prop where
  path : ∀ sd, (s.path sd).SameReading (t.path sd)

namespace SenseState

variable {s t u : SenseState}

namespace SameReadings

theorem refl (s : SenseState) : SameReadings s s := ⟨fun _ => .refl _⟩

theorem trans (h : SameReadings s t) (k : SameReadings t u) : SameReadings s u := ⟨fun sd => (h.path sd).trans (k.path sd)⟩

theorem of_paths (h : t.paths = s.paths) : SameReadings s t := ⟨fun sd => by
  unfold SenseState.path
  rw [h]
  exact .refl _⟩

theorem foldl {α : Type} {f : SenseState → α → SenseState} (hf : ∀ t x, SameReadings t (f t x)) (l : List α) (s : SenseState) :
    SameReadings s (l.foldl f s) :=
  List.foldlRecOn (motive := fun t => SameReadings s t) l f (refl s) fun t ht x _ => ht.trans (hf t x)

/-- A pass of checks that also collects reports. -/
theorem foldl_fst {α β : Type} {f : SenseState × β → α → SenseState × β} (hf : ∀ a x, SameReadings a.1 (f a x).1) (l : List α) (a : SenseState × β) :
    SameReadings a.1 (l.foldl f a).1 :=
  List.foldlRecOn (motive := fun b : SenseState × β => SameReadings a.1 b.1) l f (refl a.1) fun b hb x _ => hb.trans (hf b x)

end SameReadings

theorem setPath_sameReadings (sd : Nat) (f : SdPath → SdPath) (hf : ∀ x : SdPath, x.SameReading (f x)) (s : SenseState) : SameReadings s (s.setPath sd f) := by
  refine ⟨fun k => ?_⟩
  unfold path setPath
  rcases nth_upd_cases s.paths sd k {} f with h | h <;> dsimp only <;> rw [h]
  · exact hf _
  · exact .refl _

theorem setPair_sameReadings (p : Nat) (f : PathPair → PathPair) (s : SenseState) : SameReadings s (s.setPair p f) := .of_paths rfl

theorem switchTo_sameReadings (hold : Bool) (p : Nat) (b : Bool) (s : SenseState) : SameReadings s (s.switchTo hold p b) := by
  unfold switchTo
  split
  · exact .refl s
  · exact .of_paths rfl

theorem takeNext_sameReadings (hold : Bool) (p : Nat) (s : SenseState) : SameReadings s (s.takeNext hold p) := by
  unfold takeNext
  split
  · exact .refl s
  · exact (setPair_sameReadings ..).trans (switchTo_sameReadings ..)

theorem markFailed_sameReadings (hold later : Bool) (p sd : Nat) (s : SenseState) : SameReadings s (s.markFailed hold later p sd).1 := by
  unfold markFailed
  extract_lets was sig marked partner b switched
  have hmarked : SameReadings s marked := setPath_sameReadings _ _ (by exact fun _ => ⟨rfl, rfl, rfl, rfl, rfl⟩) s
  split
  · exact .refl s
  · dsimp only [switched]
    split
    · split
      · exact hmarked.trans (setPair_sameReadings ..)
      · exact hmarked.trans (switchTo_sameReadings ..)
    · exact hmarked

end SenseState

open SenseState

theorem pairChecks_sameReadings (c : Store) (hold : Bool) (s : SenseState) (p : Nat) : SameReadings s (pairChecks c hold s p).1 := by
  unfold pairChecks
  extract_lets a b fa fb da db both
  have hmark (later : Bool) (q : Prop) [Decidable q] (sd : Nat) (t : SenseState) :
      SameReadings t (if q then t.markFailed hold later p sd else (t, [])).1 := by
    split
    · exact markFailed_sameReadings ..
    · exact .refl t
  split
  · exact .refl s
  · exact (hmark ..).trans (hmark ..)

theorem disagree_sameReadings (a b : Nat) (dis : Bool) (s : SenseState) :
    SameReadings s ((s.setPath a (fun y => { y with disagree := dis })).setPath b (fun y => { y with disagree := dis })) :=
  (setPath_sameReadings _ _ (by exact fun _ => ⟨rfl, rfl, rfl, rfl, rfl⟩) s).trans (setPath_sameReadings _ _ (by exact fun _ => ⟨rfl, rfl, rfl, rfl, rfl⟩) _)

theorem comparePair_sameReadings (c : Store) (hold : Bool) (s : SenseState) (p : Nat) : SameReadings s (comparePair c hold s p).1 := by
  unfold comparePair
  extract_lets a b x dis n noted clear
  have hnoted : SameReadings s noted := disagree_sameReadings a b dis s
  split
  · exact hnoted.trans (setPair_sameReadings ..)
  · dsimp only
    split
    · exact hnoted.trans (setPair_sameReadings ..)
    · exact (hnoted.trans (setPair_sameReadings ..)).trans (markFailed_sameReadings ..)

theorem compareLink_sameReadings (c : Store) (hold : Bool) (slot : Option Rat) (s : SenseState) (p : Nat) :
    SameReadings s (compareLink c hold slot s p).1 := by
  unfold compareLink
  extract_lets a b x dis n noted
  have hnoted : SameReadings s noted := disagree_sameReadings a b dis s
  split
  · exact hnoted.trans (setPair_sameReadings ..)
  · split
    · exact hnoted.trans (setPair_sameReadings ..)
    · exact (hnoted.trans (setPair_sameReadings ..)).trans (markFailed_sameReadings ..)

theorem compareShared_sameReadings (c : Store) (hold : Bool) (s : SenseState) : SameReadings s (compareShared c hold s).1 := by
  unfold compareShared
  extract_lets l med
  refine SameReadings.foldl_fst (a := (s, [])) (fun acc sd => ?_) l
  extract_lets t x off n noted
  have hnoted : SameReadings acc.1 noted := setPath_sameReadings _ _ (by exact fun _ => ⟨rfl, rfl, rfl, rfl, rfl⟩) _
  split
  · exact .refl _
  · split
    · exact hnoted.trans (markFailed_sameReadings ..)
    · exact hnoted

theorem countRestored_sameReadings (s : SenseState) (p : Nat) : SameReadings s (countRestored s p) := by
  unfold countRestored
  refine SameReadings.trans (setPath_sameReadings _ _ (fun x => ?_) _) (setPath_sameReadings _ _ (fun x => ?_) _) <;>
    split <;> exact ⟨rfl, rfl, rfl, rfl, rfl⟩

theorem linkVoltage_sameReadings (c : Store) (slot : Option Rat) (s : SenseState) (m : Nat) : SameReadings s (linkVoltage c slot s m).1 := by
  unfold linkVoltage
  dsimp only
  split <;> exact .of_paths rfl

theorem pairUpdate_sameReadings (c : Store) (hold : Bool) (slot : Option Rat) (ps : List Nat) (s : SenseState) :
    SameReadings s (pairUpdate c hold slot ps s).1 := by
  have hrun {f : SenseState → Nat → SenseState × List Signal} (hf : ∀ t p, SameReadings t (f t p).1) (l : List Nat) (a : SenseState × List Signal) :
      SameReadings a.1 (l.foldl (fun acc p => ((f acc.1 p).1, acc.2 ++ (f acc.1 p).2)) a).1 :=
    SameReadings.foldl_fst (f := fun acc p => ((f acc.1 p).1, acc.2 ++ (f acc.1 p).2)) (fun a p => hf a.1 p) l a
  unfold pairUpdate
  extract_lets run next
  have hnext : SameReadings s next := .foldl (fun t p => takeNext_sameReadings hold p t) ps s
  have hdc (dcs : List Nat) (t : SenseState) : SameReadings t (if dcs.isEmpty then (t, []) else
      if c.b 0x6030 3 then compareShared c hold t else run (compareLink c hold slot) dcs (t, [])).1 := by
    split
    · exact .refl t
    · split
      · exact compareShared_sameReadings c hold t
      · exact hrun (fun t p => compareLink_sameReadings c hold slot t p) dcs (t, [])
  refine hnext.trans ((hrun (fun t p => pairChecks_sameReadings c hold t p) ps (next, [])).trans ?_)
  refine (hrun (fun t p => comparePair_sameReadings c hold t p) (ps.filter (· < 12)) (_, [])).trans ?_
  refine (hdc (ps.filter (12 ≤ ·)) _).trans ?_
  exact (SameReadings.foldl (fun t p => countRestored_sameReadings t p) ps _).trans
    (hrun (fun t m => linkVoltage_sameReadings c slot t m) _ (_, []))

/-! ### A window taken (R50, R53) -/

/-- The reading that a window gives. -/
def windowReading (c : Store) (now : Nat) (w : PathWindow) (x : SdPath) : SdPath :=
  { x with
    r := sdValue (sdDecimation c w.sd) (if bit (sdCfg c w.sd) 1 then sdDecimation c w.sd ^ 3 - w.sum else w.sum), valid := true
    time := windowCentre c now w.sd
    clip := sdClipped c w.sd (if bit (sdCfg c w.sd) 1 then 3 * sdDecimation c w.sd - w.ones else w.ones) (3 * sdDecimation c w.sd)
    stuck := decide (64 ≤ w.run) }

theorem takeWindow_of_fresh {c : Store} {now : Nat} {s : SenseState} {w : PathWindow} (h : windowFresh c now s w.sd = true) :
    takeWindow c now s w = s.setPath w.sd (windowReading c now w) := by
  unfold takeWindow
  exact if_neg (by simp [h])

theorem windowFresh_of {c : Store} {now : Nat} {s : SenseState} {sd : Nat}
    (h : ∀ t0, (if sd < 24 then s.iChanged else s.vChanged) = some t0 → t0 + (3 * sdDecimation c sd + 1) * sdDivider c sd ≤ now) :
    windowFresh c now s sd = true := by
  unfold windowFresh
  split
  · rfl
  · next t ht => exact decide_eq_true (h t ht)

/-- The reading of a path after an update of one window. -/
theorem senseUpdate_one {c : Store} {now : Nat} {s : SenseState} {w : PathWindow} (hw : windowFresh c now s w.sd = true)
    (hl : w.sd < s.paths.length) (hold mismatch : Bool) (slot : Option Rat) (skip : Nat → Bool) :
    (windowReading c now w (s.path w.sd)).SameReading ((senseUpdate c now hold mismatch slot skip [w] s).1.path w.sd) := by
  have hfilter : ([w].filter (fun w => windowFresh c now s w.sd)) = [w] := by simp [hw]
  unfold senseUpdate
  rw [hfilter]
  have hpath : (takeWindow c now s w).path w.sd = windowReading c now w (s.path w.sd) := by
    rw [takeWindow_of_fresh hw]
    exact nth_upd_of_lt hl
  have h := (pairUpdate_sameReadings c (hold || mismatch) slot
    ((([w].map (fun w => pairOfSd w.sd)).filter (fun p => decide (p < 14) && !skip p)).eraseDups) (takeWindow c now s w)).path w.sd
  rw [hpath] at h
  exact h

namespace State

variable {s : State}

theorem raiseAll_sense (l : List Signal) (s : State) : (s.raiseAll l).sense = s.sense := (raiseAll_changes l s).same .sense (by decide)

theorem sensed_sense (r : SenseState × List Signal) (s : State) : (s.sensed r).sense = r.1 := by
  unfold sensed
  extract_lets cleared t
  have ht : t.sense = r.1 := raiseAll_sense ..
  split
  · exact (raiseAll_sense ..).trans ht
  · exact ht

theorem windows_one {w : PathWindow} (h28 : w.sd < 28) (h7 : s.dev.state = 7 → 24 ≤ w.sd) (ht : s.twinPath w.sd = false) (mismatch : Bool) :
    s.windows [w] mismatch = s.sensed (senseUpdate s.cfg s.now (s.standing 16) mismatch s.backupVolts (fun p => s.twinPair p) [w] s.sense) := by
  have hhere : ([w].filter (fun w => decide (w.sd < 28) && (s.dev.state != 7 || decide (24 ≤ w.sd)) && !s.twinPath w.sd)) = [w] := by
    by_cases hs : s.dev.state = 7
    · simp [h28, ht, h7 hs]
    · simp [h28, ht, hs]
  unfold windows
  dsimp only
  rw [hhere]

/-- A speaker's window, as the Sifter keeps it. -/
def spkTaken (w : PathWindow) (s : State) : SenseState :=
  (takeWindow s.cfg s.now s.sense w).setPath w.sd (fun p => { p with failed := !sdEnabled s.cfg w.sd })

theorem speakerSense_sense {w : PathWindow} (hw : windowFresh s.cfg s.now s.sense w.sd = true) : (s.speakerSense w).sense = s.spkTaken w := by
  unfold speakerSense
  rw [if_neg (by simp [hw])]
  dsimp only
  split
  · split
    · split
      · exact (raise_changes _ _).same .sense (by decide)
      · exact (raise_changes _ _).same .sense (by decide)
    · split <;> rfl
  · split <;> rfl

/-! ### Ambiguity and restored paths (R59, R61) -/

theorem raiseAll_restored {l : List Signal} (h : ∀ g ∈ l, ∃ b, g = Signal.restored b) (s : State) : Changes [.fault] s (s.raiseAll l) := by
  unfold raiseAll
  refine List.foldlRecOn (motive := fun t : State => Changes [.fault] s t) _ _ (.refl _ s) fun t ht g hg => ?_
  obtain ⟨b, rfl⟩ := h g hg
  exact ht.update

theorem senseRestored_restored (s : State) : ∀ g ∈ s.senseRestored, ∃ b, g = Signal.restored b := by
  intro g hg
  unfold senseRestored at hg
  rcases List.mem_append.1 hg with h | h
  · obtain ⟨p, -, rfl⟩ := List.mem_map.1 h
    exact ⟨p, rfl⟩
  · obtain ⟨m, -, rfl⟩ := List.mem_map.1 h
    exact ⟨13 + m, rfl⟩

/-- A restored path that has passed its updates. -/
def eligible (sd : Nat) (s : State) : State := { s with sense := s.sense.setPath sd (fun x => { x with restoring := none, failed := false }) }

theorem pathEligible_of {sd n : Nat} (hr : (s.sense.path sd).restoring = some n) (hn : 100 ≤ n) :
    s.pathEligible sd = (s.eligible sd).raiseAll (s.eligible sd).senseRestored := by
  unfold pathEligible
  rw [hr]
  exact if_neg (by omega)

theorem reportAmbiguous_of {hb : Nat} (ha : (s.sense.pair hb).ambig = true) (hc : 100 ≤ (s.sense.pair hb).ambigCount)
    (hf : (s.sense.pair hb).ambigFault = false) : s.reportAmbiguous hb
      = raise (.fault 0x05 (hb + 1) hb) { s with sense := s.sense.setPair hb (fun x => { x with ambigFault := true }) } := by
  unfold reportAmbiguous
  exact if_pos (by simp [ha, hc, hf])

theorem fastPath_sense (sd sum : Nat) (s : State) : (s.fastPath sd sum).sense = fastOutput s.cfg s.now sd sum s.sense := by
  unfold fastPath
  extract_lets c x m taken f failed
  have h : failed.sense = x := by
    dsimp only [failed]
    split <;> rfl
  exact ((tripTo_changes ..).same .sense (by decide)).trans h

/-! ### Position front ends (R66 to R72) -/

/-- The judgement of the sources writes the machines' selections alone. -/
theorem markLost_eq (c : Store) (x : SenseState) : (markLost c x).1 = { x with pos := (markLost c x).1.pos } := rfl

theorem resolver_sense (n : Nat) (o : ResolverStep) (s : State) : ∃ l, (s.resolver n o).sense = { s.sense with
    res := upd s.sense.res n (fun r => resolverStep s.cfg s.now n r o), pos := l } := by
  unfold resolver
  extract_lets c crust sampled sense x r
  exact ⟨r.1.pos, (raiseAll_sense ..).trans (markLost_eq c x)⟩

theorem encoder_sense {n : Nat} (h1 : s.cfg.u (0x6200 + 16 * n) 1 = 1) (a b z : Bool) : ∃ l, (s.encoder n a b z).sense = { s.sense with
    enc := upd s.sense.enc n (fun e => encoderEdge s.cfg s.now n e a b z), pos := l } := by
  unfold encoder
  extract_lets c src x r
  rw [if_neg (by simp [c, h1])]
  exact ⟨r.1.pos, (raiseAll_sense ..).trans (markLost_eq c x)⟩

theorem ssi_sense {n : Nat} (h2 : s.cfg.u (0x6200 + 16 * n) 1 = 2) (o : SsiRead) : ∃ l, (s.ssi n o).sense = { s.sense with
    enc := upd s.sense.enc n (fun e => ssiDone s.cfg s.now n e o), pos := l } := by
  unfold ssi
  extract_lets c src x r
  rw [if_neg (by simp [c, h2])]
  exact ⟨r.1.pos, (raiseAll_sense ..).trans (markLost_eq c x)⟩

/-- A read in progress ends, and the next one may start 20 µs later (R70). -/
theorem ssiDone_ended {x : Encoder} (h : x.ssiSince.isSome = true) (c : Store) (now n : Nat) (o : SsiRead) :
    (ssiDone c now n x o).ssiSince = none ∧ (ssiDone c now n x o).ssiFree = now + 4000 := by
  unfold ssiDone
  rw [if_neg (by simpa [Option.isSome_iff_ne_none] using h)]
  extract_lets fmt w total data p diff jump bad sec dt n2 ended
  split <;> exact ⟨rfl, rfl⟩

theorem injectionDone_of {m : Nat} (hm : m < s.sense.pos.length) (hr : (nth s.sense.pos m {}).injRunning = true) : s.injectionDone m
    = { s with sense := { s.sense with pos := upd s.sense.pos m (fun x => { x with injConverged := true, held := none }) } } := by
  have h : upd s.sense.pos m (fun x => if x.injRunning then { x with injConverged := true, held := none } else x)
      = upd s.sense.pos m (fun x => { x with injConverged := true, held := none }) := by
    rw [nth_of_lt hm] at hr
    refine List.ext_getElem (by simp [upd]) fun i h1 h2 => ?_
    simp only [upd, List.getElem_modify]
    split
    · next hmi =>
      subst hmi
      rw [if_pos hr]
    · rfl
  unfold injectionDone
  rw [h]

end State

end Sys2Proof.Machine
end

section
/-! PROOFS. The statements about the Sifter and the position front ends. -/

set_option Elab.async false

open Sys2Proof Sys2Proof.Machine

/-- Settles O17: a window's reading is taken first, and no check of the update changes it. -/
theorem windowGivesValue : Obligations.WindowGivesValue := by
  unfold Obligations.WindowGivesValue
  refine ⟨?_, ?_⟩
  · rintro w mismatch s hr h28 h7 ht hl hfresh
    have hw := windowFresh_of hfresh
    have hsame := senseUpdate_one hw hl (s.standing 16) mismatch s.backupVolts (fun p => s.twinPair p)
    have hrep := State.windows_reports [w] mismatch s
    have hsense : (s.windows [w] mismatch).sense = _ := (congrArg State.sense (State.windows_one h28 h7 ht mismatch)).trans (State.sensed_sense ..)
    refine ⟨_, congrArg Host.Outcome.next (if_pos hr), ?_, ?_, ?_, ?_, ?_, hrep⟩ <;> rw [hsense]
    · exact hsame.r
    · exact hsame.time
    · exact hsame.valid
    · exact hsame.clip
    · exact hsame.stuck
  · rintro w s hf h8 h28 hl hfresh
    have hw : windowFresh s.cfg s.now s.sense w.sd = true := windowFresh_of (by rw [if_neg (by omega)]; exact hfresh)
    have hup : s.up = true := by
      unfold State.full at hf
      simp only [Bool.and_eq_true] at hf
      exact hf.1
    have hruns : s.sdRuns = true := by simp [State.sdRuns, hup, h8]
    have hpath : ((s.speakerSense w).sense.path w.sd) = { windowReading s.cfg s.now w (s.sense.path w.sd) with failed := !sdEnabled s.cfg w.sd } := by
      rw [State.speakerSense_sense hw]
      unfold State.spkTaken
      rw [takeWindow_of_fresh hw]
      have h1 : ((s.sense.setPath w.sd (windowReading s.cfg s.now w)).path w.sd) = windowReading s.cfg s.now w (s.sense.path w.sd) := nth_upd_of_lt hl
      rw [← h1]
      exact nth_upd_of_lt (by simpa [SenseState.setPath, upd] using hl)
    refine ⟨_, congrArg Host.Outcome.next (if_pos (by simp [hf, hruns])), ?_, ?_, ?_, ?_, State.speakerSense_reports w s⟩ <;> rw [hpath] <;> rfl

/-- Settles O18: each event writes its part of the Sifter or of a front end, and the reports that follow leave it. -/
theorem sensingEvents : Obligations.SensingEvents := by
  unfold Obligations.SensingEvents
  refine ⟨⟨?_, ?_, ?_⟩, ?_, ?_, ?_, ?_⟩
  · exact fun sd sum s hr ht => ⟨_, congrArg Host.Outcome.next (if_pos (by simp [hr, ht])), State.fastPath_sense .., State.fastPath_changes ..⟩
  · rintro hb s hf ha hc hn
    have h : exec (.currentPairAmbiguous hb) s = .next (s.reportAmbiguous hb) := congrArg Host.Outcome.next (if_pos hf)
    refine ⟨h.trans (congrArg Host.Outcome.next (State.reportAmbiguous_of ha hc hn)), fun t ht => ?_⟩
    obtain rfl : s.reportAmbiguous hb = t := Host.Outcome.next.inj (h.symm.trans ht)
    exact State.reportAmbiguous_reports hb s
  · rintro sd n s hf hr hn
    have hch := State.raiseAll_restored (State.senseRestored_restored (s.eligible sd)) (s.eligible sd)
    refine ⟨_, (congrArg Host.Outcome.next (if_pos hf)).trans (congrArg Host.Outcome.next (State.pathEligible_of hr hn)), ?_, ?_⟩
    · exact State.raiseAll_sense ..
    · exact hch.after (Changes.refl _ s).update (by decide)
  · rintro n o s hu hn
    obtain ⟨l, hl⟩ := State.resolver_sense n o s
    refine ⟨_, congrArg Host.Outcome.next (if_pos hu), ?_, ?_, ?_, State.resolver_reports n o s⟩ <;> rw [hl]
    exact nth_upd_of_lt hn
  · rintro n a b z s hf h1 hn
    obtain ⟨l, hl⟩ := State.encoder_sense h1 a b z
    refine ⟨_, congrArg Host.Outcome.next (if_pos hf), ?_, ?_, ?_, State.encoder_reports n a b z s⟩ <;> rw [hl]
    exact nth_upd_of_lt hn
  · rintro n o s hf h2 hn hs
    obtain ⟨l, hl⟩ := State.ssi_sense h2 o
    have henc : nth (upd s.sense.enc n (fun e => ssiDone s.cfg s.now n e o)) n {} = ssiDone s.cfg s.now n (nth s.sense.enc n {}) o := nth_upd_of_lt hn
    obtain ⟨hsince, hfree⟩ := State.ssiDone_ended hs s.cfg s.now n o
    refine ⟨_, congrArg Host.Outcome.next (if_pos hf), ?_, ?_, ?_, ?_, ?_, State.ssi_reports n o s⟩ <;> rw [hl]
    · exact henc
    · exact (congrArg Encoder.ssiSince henc).trans hsince
    · exact (congrArg Encoder.ssiFree henc).trans hfree
  · exact fun m s hf hm hr => (congrArg Host.Outcome.next (if_pos hf)).trans (congrArg Host.Outcome.next (State.injectionDone_of hm hr))
end

section
/-! PROOFS. The lanes' update, the vote and the modulation engine's events (chapters 5 and 6). -/

set_option Elab.async false

namespace Sys2Proof.Machine

/-- A device in READY whose fault group STORE stands, and one of whose pairs fails its check in the first copy alone. -/
def storeFaultAgain : State :=
  { dev := { state := 4 }, frame := { started := true }, active := { vals := [(objKey 0x3001 1, 0)] }, fault := { standing := 2 ^ 22 } }

/-- The rewrite of its pair is a second fault (R293), so the lane start enters BEDROCK and no lane starts. -/
theorem storeFaultAgain_updateStart : storeFaultAgain.updateStart.lanes.running = false := by decide +kernel

namespace State

variable {s : State}

/-! ### The vote (R105) -/

theorem loadShadow_shadow0 (r : LaneReport) (h : 0 < s.mod.m.length) : (nth (s.loadShadow r).mod.m 0 {}).shadow = some (r.duties.take 6) := by
  unfold loadShadow
  dsimp only
  split
  · rw [nth_upd_of_ne (by decide), nth_upd_of_lt h]
  · rw [nth_upd_of_lt h]

theorem loadShadow_shadow1 (r : LaneReport) (h : 1 < s.mod.m.length) :
    (nth (s.loadShadow r).mod.m 1 {}).shadow = if s.lanes.m1Update then some (r.duties.drop 6) else (nth s.mod.m 1 {}).shadow := by
  unfold loadShadow
  dsimp only
  split
  · rw [nth_upd_of_lt (by simpa [upd] using h)]
  · rw [nth_upd_of_ne (by decide)]

/-- A report in use loads the compare shadow; what it does beside leaves the modulation engine. -/
theorem voteUse_mod (r : LaneReport) (ul : FullLane) (s : State) : (s.voteUse (some r) ul).mod = ((s.voteMachine 0 ul).loadShadow r).mod := by
  unfold voteUse
  dsimp only
  split
  · rfl
  · rfl

/-- A vote that decides. -/
def votes (s : State) : Voted := voted s.cfg s.frame.fn (s.ctl.map (·.env)) s.lanes

/-- The lanes as a vote decides them, with Crust's heartbeat. -/
def decided (s : State) : State := { s with crust := { s.crust with voteAt := some s.now }, lanes := s.votes.lanes }

/-- A vote that reports no fault: the chosen report in use, and the end of the update. -/
theorem vote_of_quiet (hr : s.lanes.running = true) (hu : s.lanes.underTest = false) (hq : s.votes.signals = []) :
    s.vote false = (s.decided.voteUse s.votes.used (s.votes.lanes.lane s.votes.lanes.active)).voteEnds := by
  have hsig : raiseAll s.votes.signals ((s.decided.voteUse s.votes.used (s.votes.lanes.lane s.votes.lanes.active)).voteEnds)
      = (s.decided.voteUse s.votes.used (s.votes.lanes.lane s.votes.lanes.active)).voteEnds := by
    rw [hq]
    rfl
  unfold vote
  rw [if_neg (by simp [hr])]
  exact (if_neg (by simp [hu])).trans hsig

theorem vote_underTest (outvoted : Bool) (hr : s.lanes.running = true) (hu : s.lanes.underTest = true) :
    s.vote outvoted = { s with
      crust := { s.crust with voteAt := some s.now }
      lanes := { s.lanes with running := false, a := settle s.lanes.a, b := settle s.lanes.b } } := by
  unfold vote
  rw [if_neg (by simp [hr])]
  exact if_pos hu

/-! ### Readmission of a lane (R109 to R115) -/

theorem selftestDone_lane {x t0 : Nat} (hx : x < 2) (ht : (s.lanes.lane x).testing = some t0) (hst : (s.lanes.lane x).st = 2)
    (hn : t0 + 800000 ≤ s.now) (hp : (s.lanes.lane x).testPassed = false) (pass : Bool) :
    s.selftestDone x pass =
      (if pass then { s with lanes := { s.lanes.setLane x (fun f => { f with testPassed := true }) with
        testResult := if (s.lanes.lane x).hostTest then s.lanes.testResult ||| 2 ^ x else s.lanes.testResult } }
      else { s with lanes := { s.lanes.drop s.cfg x 0x0B with
        testResult := if (s.lanes.lane x).hostTest then s.lanes.testResult ||| 0 else s.lanes.testResult } }) := by
  unfold selftestDone
  dsimp only
  rw [if_pos hx, ht]
  dsimp only
  rw [if_neg (by simp [hst, hp]; omega)]
  cases pass <;> rfl

theorem selftestDone_checker {t0 : Nat} (ht : s.lanes.chk.testing = some t0) (hst : s.lanes.chk.st = 2) (hn : t0 + 200000 ≤ s.now) (pass : Bool) :
    s.selftestDone 2 pass = { s with lanes := { s.lanes with
      chk := { s.lanes.chk with st := if pass then 1 else 5, testing := none, testPassed := pass }
      testResult := s.lanes.testResult ||| (if pass then 2 ^ 2 else 0), lastDrop := if pass then s.lanes.lastDrop else 0x200B } } := by
  unfold selftestDone
  dsimp only
  rw [if_neg (by decide), ht]
  exact if_neg (by omega)

/-! ### Events, converter triggers and speaker carriers (R133 to R138) -/

theorem eventTick_armed (presc : Nat) (e : EventSource) : (eventTick presc e).1.armed = true := by
  unfold eventTick
  split
  · rfl
  · next h =>
    have ha : e.armed = true := by simpa using h
    split <;> exact ha

/-- The record of a source at one occurrence. -/
def eventRecord (k : Nat) (s : State) : EventSource :=
  let r := eventTick (eventPresc s.cfg k) (nth s.mod.events k {})
  if r.2 && bit (eventDest s.cfg k) 3 then { r.1 with last := s.now } else r.1

theorem eventRecord_armed (k : Nat) (s : State) : (s.eventRecord k).armed = true := by
  unfold eventRecord
  dsimp only
  split <;> exact eventTick_armed ..

theorem eventRecord_count (k : Nat) (s : State) : (s.eventRecord k).count = (eventTick (eventPresc s.cfg k) (nth s.mod.events k {})).1.count := by
  unfold eventRecord
  dsimp only
  split <;> rfl

theorem eventRecord_last {k : Nat} (hr : (eventTick (eventPresc s.cfg k) (nth s.mod.events k {})).2 = true) (hd : bit (eventDest s.cfg k) 3 = true) :
    (s.eventRecord k).last = s.now := by
  unfold eventRecord
  dsimp only
  rw [if_pos (by simp [hr, hd])]

/-- An occurrence recorded. -/
def eventNoted (k : Nat) (s : State) : State := { s with mod := { s.mod with events := upd s.mod.events k (fun _ => s.eventRecord k) } }

/-- The destinations of a source that fires (Table 6-2). -/
def eventActs (d : Nat) (s : State) : State :=
  let s := if bit d 0 then s.hkTrigger else s
  let s := if bit d 1 then s.captureStrobe else s
  if bit d 2 then (s.accEvent 0).accEvent 1 else s

theorem eventFire_of {k : Nat} (ho : eventOn s.cfg k = true) (hd : s.eventDue k = true) : s.eventFire k =
    if (eventTick (eventPresc s.cfg k) (nth s.mod.events k {})).2 then (s.eventNoted k).eventActs (eventDest s.cfg k) else s.eventNoted k := by
  unfold eventFire
  dsimp only
  rw [if_neg (by simp [ho, hd])]
  by_cases hr : (eventTick (eventPresc s.cfg k) (nth s.mod.events k {})).2 = true
  · exact (if_neg (by simp [hr])).trans (if_pos hr).symm
  · exact (if_pos (by simpa using hr)).trans (if_neg hr).symm

theorem hkTrigger_lastTrigger (s : State) : s.hkTrigger.mod.lastTrigger = some s.now := by
  unfold hkTrigger
  split
  · next h => simpa using h
  · rfl

/-- A housekeeping trigger writes the time of the last trigger alone in the modulation engine. -/
theorem hkTrigger_mod (s : State) : s.hkTrigger.mod = { s.mod with lastTrigger := s.hkTrigger.mod.lastTrigger } := by
  unfold hkTrigger
  split <;> rfl

theorem eventActs_mod (d : Nat) (s : State) : (s.eventActs d).mod = (if bit d 0 then s.hkTrigger else s).mod := by
  unfold eventActs
  extract_lets t u
  have hu : u.mod = t.mod := by
    dsimp only [u]
    split
    · exact (captureStrobe_changes t).same .mod (by decide)
    · rfl
  have hacc (n : Nat) (v : State) : (v.accEvent n).mod = v.mod := (accEvent_changes n v).same .mod (by decide)
  split
  · exact ((hacc ..).trans (hacc ..)).trans hu
  · exact hu

/-- The modulation engine after an occurrence: the source's record, and the last trigger's time. -/
theorem eventFire_mod {k : Nat} (ho : eventOn s.cfg k = true) (hd : s.eventDue k = true) :
    ∃ l, (s.eventFire k).mod = { (s.eventNoted k).mod with lastTrigger := l }
      ∧ ((eventTick (eventPresc s.cfg k) (nth s.mod.events k {})).2 = true → bit (eventDest s.cfg k) 0 = true → l = some s.now) := by
  rw [eventFire_of ho hd]
  split
  · rw [eventActs_mod]
    split
    · exact ⟨_, hkTrigger_mod _, fun _ _ => hkTrigger_lastTrigger _⟩
    · next hb => exact ⟨_, rfl, fun _ h => absurd h hb⟩
  · next hr => exact ⟨_, rfl, fun h => absurd h hr⟩

theorem ctcFire_of {k : Nat} (h31 : bit (s.cfg.u 0x5440 (k + 1)) 31 = true)
    (hp : bits (s.cfg.u 0x5440 (k + 1)) 16 0 < (nth s.mod.m 0 {}).period) (hn : s.now = s.frame.troughTime + bits (s.cfg.u 0x5440 (k + 1)) 16 0) :
    s.ctcFire k = s.hkTrigger := by
  unfold ctcFire
  dsimp only
  rw [h31, decide_eq_true hp, hn]
  exact if_pos (by simp only [Bool.true_and, beq_self_eq_true])

theorem carrierPeriod_of {k : Nat} (hf : s.full = true) (h8 : s.dev.state ≠ 8) (hb : (nth s.mod.spk k {}).started = true) :
    s.carrierPeriod k = (let u := s.completeFor (s.now + (nth s.mod.spk k {}).ps / 2)
      { u with mod := { u.mod with spk := upd u.mod.spk k (fun b =>
        { spkCarrier u.cfg k (u.shaperInput k) b with enabled := u.cfg.b 0x5020 (5 + k) }) } }) := by
  unfold carrierPeriod
  exact if_neg (by simp [hb, hf, stopped, h8])

theorem completeFor_nil {t : Nat} (h : s.hearth.jobs = []) : s.completeFor t = s := by
  unfold completeFor
  rw [h]

end State

end Sys2Proof.Machine
end

section
/-! PROOFS. The statements about the lanes' update, the vote, a lane's readmission and the modulation engine's events. -/

set_option Elab.async false

open Sys2Proof Sys2Proof.Machine

/-- Refutes O19: where STORE stands, a lane start that rewrites a damaged pair reports a second fault and enters BEDROCK, so that no lane starts. -/
theorem not_laneUpdate : ¬ Obligations.LaneUpdate := by
  unfold Obligations.LaneUpdate
  rintro ⟨hstart, -⟩
  obtain ⟨t, ht, hrun, -⟩ := hstart storeFaultAgain rfl (by decide) rfl rfl
  obtain rfl : storeFaultAgain.updateStart = t := Host.Outcome.next.inj ht
  exact Bool.false_ne_true (storeFaultAgain_updateStart.symm.trans hrun)

/-- Settles O20: the chosen report goes into the compare shadow, and the two full lanes settle. -/
theorem voteLoadsDuties : Obligations.VoteLoadsDuties := by
  unfold Obligations.VoteLoadsDuties
  refine ⟨fun s hr hu hq => ?_, fun outvoted s hr hu => congrArg Host.Outcome.next (State.vote_underTest outvoted hr hu)⟩
  let u := s.decided.voteUse s.votes.used (s.votes.lanes.lane s.votes.lanes.active)
  have hch : Changes [.dev, .ctl, .mod, .trip, .canc, .loads, .diag, .flash] s.decided u := State.voteUse_changes ..
  have hlanes : u.lanes = s.votes.lanes := hch.same .lanes (by decide)
  have hcrust : u.crust = { s.crust with voteAt := some s.now } := hch.same .crust (by decide)
  refine ⟨u.voteEnds, s.votes, congrArg Host.Outcome.next (State.vote_of_quiet hr hu hq), rfl, ?_, ?_, ?_, ?_, hcrust, ?_⟩
  · rw [← hlanes]
    rfl
  · intro r hused hl
    have hmod : u.mod = ((s.decided.voteMachine 0 (s.votes.lanes.lane s.votes.lanes.active)).loadShadow r).mod := by
      dsimp only [u]
      rw [hused]
      exact State.voteUse_mod ..
    exact (congrArg (fun x : ModState => (nth x.m 0 {}).shadow) hmod).trans (State.loadShadow_shadow0 r hl)
  · intro r hused hl
    have hmod : u.mod = ((s.decided.voteMachine 0 (s.votes.lanes.lane s.votes.lanes.active)).loadShadow r).mod := by
      dsimp only [u]
      rw [hused]
      exact State.voteUse_mod ..
    exact (congrArg (fun x : ModState => (nth x.m 1 {}).shadow) hmod).trans (State.loadShadow_shadow1 r hl)
  · intro hused m
    have hmod : u.mod.m = s.mod.m.map (fun (x : ModMachine) => { x with shadow := none }) := by
      dsimp only [u]
      rw [hused]
      rfl
    refine (congrArg (fun l : List ModMachine => (nth l m {}).shadow) hmod).trans ?_
    unfold nth
    simp only [List.getD_eq_getElem?_getD, List.getElem?_map]
    cases s.mod.m[m]? <;> rfl
  · exact .after (State.voteEnds_changes u) (.after hch (Changes.refl _ s).update (by decide)) (by decide)

/-- Settles O21: each clause is the case of its command in which the lane is where the command finds it. -/
theorem laneReadmission : Obligations.LaneReadmission := by
  unfold Obligations.LaneReadmission
  refine ⟨?_, ?_, ?_, ?_, ?_⟩
  · intro x t0 s hx hf ht hst hn hp
    have h (pass : Bool) : exec (.laneSelftestDone x pass) s = .next (s.selftestDone x pass) := congrArg Host.Outcome.next (if_pos hf)
    exact ⟨(h true).trans (congrArg Host.Outcome.next (State.selftestDone_lane hx ht hst hn hp true)),
      (h false).trans (congrArg Host.Outcome.next (State.selftestDone_lane hx ht hst hn hp false))⟩
  · intro t0 pass s hf ht hst hn
    exact ⟨_, (congrArg Host.Outcome.next (if_pos hf)).trans (congrArg Host.Outcome.next (State.selftestDone_checker ht hst hn pass)),
      rfl, rfl, rfl, rfl, (Changes.refl _ s).update⟩
  · exact fun x s hf hst => (congrArg Host.Outcome.next (if_pos hf)).trans (congrArg Host.Outcome.next (if_pos hst))
  · exact fun x s hf hst hp => (congrArg Host.Outcome.next (if_pos hf)).trans (congrArg Host.Outcome.next (if_pos ⟨hst, hp⟩))
  · exact fun okA okB s hf => congrArg Host.Outcome.next (if_pos hf)

/-- Settles O22: an occurrence writes its source's record and the last trigger's time; a carrier period writes its bridge. -/
theorem modulationEvents : Obligations.ModulationEvents := by
  unfold Obligations.ModulationEvents
  refine ⟨?_, ?_, ?_⟩
  · intro k s hf hs ho hk hn
    have hdue : s.eventDue k = true := by simpa [State.eventDue] using hn
    obtain ⟨l, hmod, hl⟩ := State.eventFire_mod ho hdue
    have hrec : nth (s.eventFire k).mod.events k {} = s.eventRecord k := by
      rw [hmod]
      exact nth_upd_of_lt hk
    refine ⟨s.eventFire k, congrArg Host.Outcome.next (if_pos (by simp [hf, hs])), ?_, ?_, ?_, ?_, ?_, ?_, State.eventFire_changes k s⟩
    · rw [hrec]
      exact State.eventRecord_armed k s
    · rw [hrec]
      exact State.eventRecord_count k s
    · intro hr hd
      rw [hrec]
      exact State.eventRecord_last hr hd
    · intro hr hd
      rw [hmod]
      exact hl hr hd
    · rw [hmod]
      rfl
    · rw [hmod]
      rfl
  · intro k s hf hs h31 hp hn
    have h : exec (.ctcFire k) s = .next s.hkTrigger :=
      (congrArg Host.Outcome.next (if_pos (by simp [hf, hs]))).trans (congrArg Host.Outcome.next (State.ctcFire_of h31 hp hn))
    exact ⟨fun hl => h.trans (congrArg Host.Outcome.next (if_neg (by simpa using hl))),
      fun hl => h.trans (congrArg Host.Outcome.next (if_pos (by simp [hl])))⟩
  · intro k s hf h8 hb hk
    have hch : Changes [.hearth, .loads, .audio, .crust] s (s.completeFor (s.now + (nth s.mod.spk k {}).ps / 2)) := State.completeFor_changes ..
    have hmod : (s.completeFor (s.now + (nth s.mod.spk k {}).ps / 2)).mod = s.mod := hch.same .mod (by decide)
    refine ⟨_, _, congrArg Host.Outcome.next (State.carrierPeriod_of hf h8 hb), rfl, rfl, ?_, ?_, ?_, fun hj => State.completeFor_nil hj, ?_⟩
    · refine (nth_upd_of_lt (by rw [hmod]; exact hk)).trans ?_
      rw [hmod]
    · intro j hj
      refine (nth_upd_of_ne hj).trans ?_
      rw [hmod]
    · exact (congrArg ModState.m hmod :)
    · exact (hch.mono (by decide)).update
end

section
/-! PROOFS. The trip sources of the FLT inputs, and the discharge (chapter 7). -/

set_option Elab.async false

namespace Sys2Proof.Machine

/-! ### A bit beside the one written -/

/-- The sum of a number and a power of two that it does not hold: no bit beside the power's changes. -/
theorem testBit_two_pow_add_of_ne {y n m : Nat} (h : y.testBit n = false) (hm : m ≠ n) : (2 ^ n + y).testBit m = y.testBit m := by
  rcases Nat.lt_or_gt_of_ne hm with hlt | hgt
  · exact Nat.testBit_two_pow_add_gt hlt y
  · obtain ⟨k, rfl⟩ : ∃ k, m = k + (n + 1) := ⟨m - (n + 1), by omega⟩
    have heven : y / 2 ^ n % 2 ≠ 1 := by simpa [Nat.testBit_eq_decide_div_mod_eq] using h
    have hdiv : (2 ^ n + y) / 2 ^ (n + 1) = y / 2 ^ (n + 1) := by
      rw [Nat.pow_succ, ← Nat.div_div_eq_div_mul, ← Nat.div_div_eq_div_mul, Nat.add_div_left _ (Nat.two_pow_pos n)]
      omega
    rw [← Nat.testBit_div_two_pow, ← Nat.testBit_div_two_pow, hdiv]

theorem bit_setBit_of_ne {m n : Nat} (h : m ≠ n) (x : Nat) (b : Bool) : bit (setBit x n b) m = bit x m := by
  unfold bit setBit
  by_cases hx : x.testBit n = b
  · simp [hx]
  · cases b with
    | true =>
      have hn : x.testBit n = false := by simpa using hx
      rw [if_neg (by simp [hn]), if_pos rfl, Nat.add_comm]
      exact testBit_two_pow_add_of_ne hn h
    | false =>
      have hn : x.testBit n = true := by simpa using hx
      have hsum : 2 ^ n + (x - 2 ^ n) = x := Nat.add_sub_cancel' (Nat.ge_two_pow_of_testBit hn)
      have hlow : (x - 2 ^ n).testBit n = false := by
        have := Nat.testBit_two_pow_add_eq (x - 2 ^ n) n
        rw [hsum, hn] at this
        simpa using this.symm
      rw [if_neg (by simp [hn]), if_neg (by decide), ← testBit_two_pow_add_of_ne hlow h, hsum]

/-! ### One source on one group (R148) -/

namespace TripGroup

variable {g : TripGroup}

/-- What a source's level does to a group: TripState.source, on the group alone. -/
def sourced (now : Nat) (traction : Bool) (src : Nat) (inhibit on : Bool) (g : TripGroup) : TripGroup :=
  if on then
    if bit g.active src then (if inhibit then { g with inhibit := setBit g.inhibit src true } else g) else g.activate now traction src inhibit
  else if bit g.active src then g.release src else g

theorem startDelay_active (now : Nat) (traction : Bool) (g : TripGroup) : (g.startDelay now traction).active = g.active := by
  unfold startDelay
  split <;> rfl

theorem startDelay_latched (now : Nat) (traction : Bool) (g : TripGroup) : (g.startDelay now traction).latched = g.latched := by
  unfold startDelay
  split <;> rfl

theorem activate_active (now : Nat) (traction : Bool) (src : Nat) (inhibit : Bool) (g : TripGroup) :
    (g.activate now traction src inhibit).active = setBit g.active src true := by
  unfold activate
  extract_lets x
  split
  · rfl
  · split <;> exact startDelay_active ..

theorem activate_latched (now : Nat) (traction : Bool) (src : Nat) (inhibit : Bool) (g : TripGroup) :
    (g.activate now traction src inhibit).latched = setBit g.latched src true := by
  unfold activate
  extract_lets x
  split
  · rfl
  · split <;> exact startDelay_latched ..

theorem activate_state (now : Nat) (traction : Bool) (src : Nat) (inhibit : Bool) (g : TripGroup) :
    (g.activate now traction src inhibit).state = if g.state = 5 then 5 else 1 := by
  unfold activate
  extract_lets x
  by_cases h : g.state = 5 ∨ g.state = 1
  · refine (congrArg state (if_pos h)).trans (show g.state = _ from ?_)
    split <;> omega
  · refine (congrArg state (if_neg h)).trans ?_
    rw [if_neg (fun h5 => h (.inl h5))]
    split <;> exact startDelay_state ..

theorem release_active (src : Nat) (g : TripGroup) : (g.release src).active = setBit g.active src false := by
  unfold release
  dsimp only
  split <;> rfl

theorem release_latched (src : Nat) (g : TripGroup) : (g.release src).latched = g.latched := by
  unfold release
  dsimp only
  split <;> rfl

/-- TRIPPED ends with the last active source; no other state changes. -/
theorem release_state (src : Nat) (g : TripGroup) : (g.release src).state = if g.state = 1 ∧ setBit g.active src false = 0 then 2 else g.state := by
  unfold release
  dsimp only
  split <;> rfl

variable {now src n : Nat} {traction inhibit on : Bool}

theorem sourced_active_self (g : TripGroup) : bit (g.sourced now traction src inhibit on).active src = on := by
  unfold sourced
  cases on
  · rw [if_neg (by decide)]
    split
    · rw [release_active]
      exact bit_setBit_self ..
    · next h => simpa using h
  · rw [if_pos rfl]
    split
    · next h => split <;> exact h
    · rw [activate_active]
      exact bit_setBit_self ..

theorem sourced_active_of_ne (h : n ≠ src) (g : TripGroup) : bit (g.sourced now traction src inhibit on).active n = bit g.active n := by
  unfold sourced
  split
  · split
    · split <;> rfl
    · rw [activate_active]
      exact bit_setBit_of_ne h ..
  · split
    · rw [release_active]
      exact bit_setBit_of_ne h ..
    · rfl

/-- A bit that is latched stays latched. -/
theorem sourced_latched (h : bit g.latched n = true) : bit (g.sourced now traction src inhibit on).latched n = true := by
  unfold sourced
  split
  · split
    · split <;> exact h
    · rw [activate_latched]
      by_cases hn : n = src
      · subst hn
        exact bit_setBit_self ..
      · rw [bit_setBit_of_ne hn, h]
  · split
    · rw [release_latched]
      exact h
    · exact h

theorem sourced_locked (g : TripGroup) : (g.sourced now traction src inhibit on).state = 5 ↔ g.state = 5 := by
  unfold sourced
  split
  · split
    · split <;> rfl
    · rw [activate_state]
      split <;> simp [*]
  · split
    · rw [release_state]
      split
      · next h => simp [h.1]
      · rfl
    · rfl

/-- A group's state once source n of it has become active: the source is latched, and the group is tripped unless it was locked. -/
structure Tripped (locked : Prop) (n : Nat) (g : TripGroup) : Prop where
  lock : g.state = 5 ↔ locked
  latched : bit g.active n = true → bit g.latched n = true
  trip : bit g.active n = true → g.state = 5 ∨ g.state = 1

theorem Tripped.sourced {locked : Prop} (h : Tripped locked n g) : Tripped locked n (g.sourced now traction src inhibit on) := by
  by_cases hn : n = src
  · subst hn
    refine ⟨(sourced_locked g).trans h.lock, fun ha => ?_, fun ha => ?_⟩ <;> rw [sourced_active_self] at ha <;> subst ha <;> unfold TripGroup.sourced <;>
      rw [if_pos rfl] <;> split
    · next hb => split <;> exact h.latched hb
    · rw [activate_latched]
      exact bit_setBit_self ..
    · next hb => split <;> exact h.trip hb
    · rw [activate_state]
      split <;> simp
  · refine ⟨(sourced_locked g).trans h.lock, fun ha => ?_, fun ha => ?_⟩ <;> rw [sourced_active_of_ne hn] at ha
    · exact sourced_latched (h.latched ha)
    · have hstate := h.trip ha
      unfold TripGroup.sourced
      split
      · split
        · split <;> exact hstate
        · rw [activate_state]
          split <;> simp
      · split
        · have hact : setBit g.active src false ≠ 0 := fun h0 => by
            have hbit := bit_setBit_of_ne hn g.active false
            rw [h0, ha] at hbit
            simp [bit] at hbit
          rw [release_state, if_neg (fun hc => hact hc.2)]
          exact hstate
        · exact hstate

/-- Every FLT source on one group in turn. -/
def sources (now : Nat) (traction : Bool) (inhibit on : Nat → Bool) (l : List Nat) (g : TripGroup) : TripGroup :=
  l.foldl (fun g n => g.sourced now traction n (inhibit n) (on n)) g

theorem sources_active_of_not_mem {inhibit on : Nat → Bool} {l : List Nat} (h : n ∉ l) (g : TripGroup) :
    bit (g.sources now traction inhibit on l).active n = bit g.active n := by
  induction l generalizing g with
  | nil => rfl
  | cons m l ih =>
    have hm : n ≠ m := fun e => h (e ▸ List.mem_cons_self)
    exact (ih (fun hl => h (List.mem_cons_of_mem m hl)) _).trans (sourced_active_of_ne hm g)

theorem sources_active {inhibit on : Nat → Bool} {l : List Nat} (h : n ∈ l) (g : TripGroup) :
    bit (g.sources now traction inhibit on l).active n = on n := by
  induction l generalizing g with
  | nil => cases h
  | cons m l ih =>
    by_cases hl : n ∈ l
    · exact ih hl _
    · obtain rfl : n = m := by simpa [hl] using h
      exact (sources_active_of_not_mem hl _).trans (sourced_active_self g)

theorem sources_tripped {inhibit on : Nat → Bool} (l : List Nat) (h : bit g.active n = false) : Tripped (g.state = 5) n (g.sources now traction inhibit on l) := by
  refine List.foldlRecOn (motive := fun x => Tripped (g.state = 5) n x) l _ ?_ fun x hx _ _ => hx.sourced
  exact ⟨Iff.rfl, fun ha => absurd (h.symm.trans ha) (by decide), fun ha => absurd (h.symm.trans ha) (by decide)⟩

end TripGroup

/-! ### The sources on every group (R143) -/

namespace TripState

variable {t : TripState}

theorem source_flt (now k src : Nat) (inhibit on : Bool) (t : TripState) : (t.source now k src inhibit on).flt = t.flt := by
  unfold source
  dsimp only
  (repeat' split) <;> rfl

theorem source_length (now k src : Nat) (inhibit on : Bool) (t : TripState) : (t.source now k src inhibit on).g.length = t.g.length :=
  (source_keepsLocks ..).length

theorem source_group_self {now k src : Nat} {inhibit on : Bool} (h : k < t.g.length) :
    (t.source now k src inhibit on).group k = (t.group k).sourced now (decide (k < 2)) src inhibit on := by
  unfold source group TripGroup.sourced
  dsimp only
  split
  · split
    · split
      · exact nth_upd_of_lt h
      · rfl
    · split <;> exact nth_upd_of_lt h
  · split
    · exact nth_upd_of_lt h
    · rfl

theorem source_group_of_ne {now k src : Nat} {inhibit on : Bool} {j : Nat} (h : j ≠ k) (t : TripState) :
    (t.source now k src inhibit on).group j = t.group j := by
  unfold source group
  dsimp only
  split
  · split
    · split
      · exact nth_upd_of_ne h
      · rfl
    · split <;> exact nth_upd_of_ne h
  · split
    · exact nth_upd_of_ne h
    · rfl

/-- A source on the first N groups. -/
def sourceAll (now src : Nat) (inhibit : Bool) (on : Nat → Bool) (N : Nat) (t : TripState) : TripState :=
  (List.range N).foldl (fun t k => t.source now k src inhibit (on k)) t

section

variable {now src : Nat} {inhibit : Bool} {on : Nat → Bool}

theorem sourceAll_succ (N : Nat) (t : TripState) :
    t.sourceAll now src inhibit on (N + 1) = (t.sourceAll now src inhibit on N).source now N src inhibit (on N) := by
  unfold sourceAll
  rw [List.range_succ, List.foldl_append]
  rfl

theorem sourceAll_keeps (N : Nat) (t : TripState) : (t.sourceAll now src inhibit on N).g.length = t.g.length
    ∧ (t.sourceAll now src inhibit on N).flt = t.flt ∧ (t.sourceAll now src inhibit on N).gdl = t.gdl := by
  induction N with
  | zero => exact ⟨rfl, rfl, rfl⟩
  | succ N ih =>
    obtain ⟨hl, hf, hg⟩ := ih
    rw [sourceAll_succ]
    exact ⟨(source_length ..).trans hl, (source_flt ..).trans hf, (State.tripSource_gdl ..).trans hg⟩

theorem sourceAll_group {N : Nat} (hN : N ≤ t.g.length) (j : Nat) : (t.sourceAll now src inhibit on N).group j =
    if j < N then (t.group j).sourced now (decide (j < 2)) src inhibit (on j) else t.group j := by
  induction N with
  | zero => rfl
  | succ N ih =>
    have ih := ih (by omega)
    rw [sourceAll_succ]
    rcases Nat.lt_trichotomy j N with hj | rfl | hj
    · rw [source_group_of_ne (by omega), ih, if_pos hj, if_pos (by omega)]
    · rw [source_group_self (by rw [(sourceAll_keeps ..).1]; omega), ih, if_neg (by omega), if_pos (by omega)]
    · rw [source_group_of_ne (by omega), ih, if_neg (by omega), if_neg (by omega)]

end

/-- Whether FLT source n is active on group k (R143). -/
def fltOn (c : Store) (flt : List Bool) (k n : Nat) : Bool :=
  bit (c.u 0x5450 (n + 1)) 31 && (nth flt n true == bit (c.u 0x5450 (n + 1)) 30) && bit (c.u 0x5450 (n + 1)) (20 + k)

/-- Every FLT source, on its group alone and on the whole logic. -/
theorem fltSources_foldl (c : Store) (now : Nat) (l : List Nat) (h : t.g.length = 4) :
    let u := l.foldl (fun u n => u.sourceAll now n (bit (c.u 0x5450 (n + 1)) 19) (fun k => fltOn c u.flt k n) 4) t
    u.flt = t.flt ∧ u.gdl = t.gdl ∧ ∀ k, k < 4 → u.group k =
      (t.group k).sources now (decide (k < 2)) (fun n => bit (c.u 0x5450 (n + 1)) 19) (fltOn c t.flt k) l := by
  induction l generalizing t with
  | nil => exact ⟨rfl, rfl, fun _ _ => rfl⟩
  | cons n l ih =>
    obtain ⟨hl, hf, hg⟩ := sourceAll_keeps (now := now) (src := n) (inhibit := bit (c.u 0x5450 (n + 1)) 19) (on := fun k => fltOn c t.flt k n) 4 t
    obtain ⟨ihf, ihg, ihk⟩ := ih (hl.trans h)
    refine ⟨ihf.trans hf, ihg.trans hg, fun k hk => ?_⟩
    refine (ihk k hk).trans ?_
    rw [hf, sourceAll_group (by omega), if_pos hk]
    rfl

theorem fltSources_eq (c : Store) (now : Nat) (t : TripState) : t.fltSources c now =
    (List.range 12).foldl (fun u n => u.sourceAll now n (bit (c.u 0x5450 (n + 1)) 19) (fun k => fltOn c u.flt k n) 4) t := rfl

/-- Table 7-6 at the end of a delay: the states that hold a pattern. -/
theorem holds_iff (g : TripGroup) : g.holds = true ↔ g.state ∈ [1, 2, 3, 5] := by
  unfold TripGroup.holds
  simp [or_assoc]

theorem delayEnd_of {c : Store} {now m t0 : Nat} (hd : (t.group m).delayFrom = some t0) (ht : c.pv (0x5050 + m) 4 * 200 * 97 ≤ (now - t0) * 100 + 1300)
    (speed : Rat) (valid : Bool) : t.delayEnd c now m speed valid = { t with g := upd t.g m (fun g => { g with
      delayFrom := none, slow := 0, pattern := if g.state ∈ [1, 2, 3, 5] then patternAt c m speed valid else 0 }) } := by
  unfold delayEnd
  dsimp only
  rw [hd]
  refine (if_neg (by omega)).trans ?_
  unfold setGroup
  simp only [holds_iff]

/-! ### The discharge (R157, R159) -/

theorem disDone_of (hr : t.dis.running = true) (hb : 10 ≤ t.dis.below) : t.disDone = { t with dis := { t.dis with
    running := false, dchgSince := none, dchgWait := false, done := true, wind := t.dis.wind.map (fun _ => {}) } } := by
  unfold disDone
  exact if_pos (by simp [hr, hb])

theorem dchgTimeout_of {c : Store} {now t0 : Nat} (h : t.dis.dchgSince = some t0) (hn : t0 + c.u 0x5060 7 * 200000 ≤ now) :
    t.dchgTimeout c now = { t with dis := { t.dis with
      dchgSince := none, timeout := true, lockUntil := some (now + 10 * (c.u 0x5060 7 * 200000)) } } := by
  unfold dchgTimeout
  rw [h]
  exact if_pos hn

theorem dchgStart_of (h : t.dis.dchgSince = none) (hl : t.dis.lockUntil = none) (now : Nat) :
    t.dchgStart now = { t with dis := { t.dis with dchgSince := some now, dchgWait := false } } := by
  unfold dchgStart
  rw [if_neg (by simp [h])]
  exact if_neg (by simp [hl])

theorem dchgLockEnd_of_waiting {now e : Nat} (hl : t.dis.lockUntil = some e) (he : e ≤ now) (hw : t.dis.dchgWait = true) (hr : t.dis.running = true)
    (hs : t.dis.dchgSince = none) :
    t.dchgLockEnd now = { t with dis := { t.dis with lockUntil := none, dchgSince := some now, dchgWait := false } } := by
  unfold dchgLockEnd
  rw [hl]
  refine (if_neg (by omega)).trans ?_
  refine (if_pos (by simp [hw, hr])).trans ?_
  exact dchgStart_of (t := { t with dis := { t.dis with lockUntil := none } }) hs rfl now

theorem dchgLockEnd_of_idle {now e : Nat} (hl : t.dis.lockUntil = some e) (he : e ≤ now) (hw : t.dis.dchgWait = false) :
    t.dchgLockEnd now = { t with dis := { t.dis with lockUntil := none } } := by
  unfold dchgLockEnd
  rw [hl]
  refine (if_neg (by omega)).trans ?_
  dsimp only
  rw [if_neg (by simp [hw])]
  simp only [← hw]

/-- DCHG driven from now, or not yet driven, with no lockout: what method 0 finds at the time limit. -/
structure DchgFree (now : Nat) (t : TripState) : Prop where
  since : t.dis.dchgSince = none ∨ t.dis.dchgSince = some now
  lock : t.dis.lockUntil = none

theorem dchgStart_since {now : Nat} (h : DchgFree now t) : (t.dchgStart now).dis.dchgSince = some now ∧ (t.dchgStart now).dis.lockUntil = none := by
  rcases h.since with hs | hs
  · rw [dchgStart_of hs h.lock]
    exact ⟨rfl, h.lock⟩
  · have heq : t.dchgStart now = t := if_pos (by simp [hs])
    rw [heq]
    exact ⟨hs, h.lock⟩

theorem dchgStart_wind (now : Nat) (t : TripState) : (t.dchgStart now).dis.wind = t.dis.wind ∧ (t.dchgStart now).dis.windFail = t.dis.windFail := by
  unfold dchgStart
  split
  · exact ⟨rfl, rfl⟩
  · split <;> exact ⟨rfl, rfl⟩

section

variable {c : Store} {now m : Nat}

theorem windFail_of_on (h : (nth t.dis.wind m {}).on = true) : t.windFail c now m =
    (let u := { t with dis := { t.dis with windFail := true, wind := upd t.dis.wind m (fun _ => {}) } }
     if c.u 0x5060 2 = 0 then u.dchgStart now else u) := by
  unfold windFail
  exact if_neg (by rw [h]; decide)

theorem windFail_of_off (h : (nth t.dis.wind m {}).on = false) : t.windFail c now m = t := if_pos (by rw [h]; rfl)

theorem windFail_wind (h : (nth t.dis.wind m {}).on = true) :
    (t.windFail c now m).dis.wind = upd t.dis.wind m (fun _ => {}) ∧ (t.windFail c now m).dis.windFail = true := by
  rw [windFail_of_on h]
  dsimp only
  split
  · exact dchgStart_wind ..
  · exact ⟨rfl, rfl⟩

/-- A winding that fails starts DCHG under method 0. -/
theorem windFail_dchg (h : (nth t.dis.wind m {}).on = true) (h0 : c.u 0x5060 2 = 0) (hf : DchgFree now t) :
    (t.windFail c now m).dis.dchgSince = some now ∧ (t.windFail c now m).dis.lockUntil = none := by
  rw [windFail_of_on h]
  dsimp only
  rw [if_pos h0]
  exact dchgStart_since ⟨hf.since, hf.lock⟩

theorem windFail_free (h0 : c.u 0x5060 2 = 0) (hf : DchgFree now t) : DchgFree now (t.windFail c now m) := by
  cases h : (nth t.dis.wind m {}).on with
  | true =>
    obtain ⟨hs, hl⟩ := windFail_dchg h h0 hf
    exact ⟨.inr hs, hl⟩
  | false => rwa [windFail_of_off h]

theorem windFail_since (h0 : c.u 0x5060 2 ≠ 0) : (t.windFail c now m).dis.dchgSince = t.dis.dchgSince := by
  cases h : (nth t.dis.wind m {}).on with
  | true =>
    rw [windFail_of_on h]
    dsimp only
    rw [if_neg h0]
  | false => rw [windFail_of_off h]

/-- The time limit of one machine's winding. -/
def windLimit (c : Store) (now : Nat) (t : TripState) (m : Nat) : TripState :=
  if (nth t.dis.wind m {}).on && decide ((nth t.dis.wind m {}).since + c.u 0x5060 6 * 200000 ≤ now) then t.windFail c now m else t

theorem disTimeLimit_eq (t : TripState) : t.disTimeLimit c now = (t.windLimit c now 0).windLimit c now 1 := rfl

theorem windLimit_due (h : (nth t.dis.wind m {}).on = true) (hn : (nth t.dis.wind m {}).since + c.u 0x5060 6 * 200000 ≤ now) :
    t.windLimit c now m = t.windFail c now m := if_pos (by rw [h, decide_eq_true hn]; rfl)

/-- The limit of machine m leaves another machine's winding. -/
theorem windLimit_wind_of_ne {k : Nat} (hk : k ≠ m) (t : TripState) : nth (t.windLimit c now m).dis.wind k {} = nth t.dis.wind k {} := by
  unfold windLimit
  split
  · next h =>
    rw [(windFail_wind (by simp only [Bool.and_eq_true] at h; exact h.1)).1]
    exact nth_upd_of_ne hk
  · rfl

theorem windLimit_fail (h : t.dis.windFail = true) : (t.windLimit c now m).dis.windFail = true := by
  unfold windLimit
  split
  · next h => exact (windFail_wind (by simp only [Bool.and_eq_true] at h; exact h.1)).2
  · exact h

theorem windLimit_free (h0 : c.u 0x5060 2 = 0) (hf : DchgFree now t) : DchgFree now (t.windLimit c now m) := by
  unfold windLimit
  split
  · exact windFail_free h0 hf
  · exact hf

theorem windLimit_driven (h0 : c.u 0x5060 2 = 0) (hs : t.dis.dchgSince = some now) (hl : t.dis.lockUntil = none) :
    (t.windLimit c now m).dis.dchgSince = some now := by
  unfold windLimit
  split
  · next h => exact (windFail_dchg (by simp only [Bool.and_eq_true] at h; exact h.1) h0 ⟨.inr hs, hl⟩).1
  · exact hs

theorem windLimit_since (h0 : c.u 0x5060 2 ≠ 0) : (t.windLimit c now m).dis.dchgSince = t.dis.dchgSince := by
  unfold windLimit
  split
  · exact windFail_since h0
  · rfl

/-- What the time limit of machine m does (R157). -/
structure LimitReached (c : Store) (now m : Nat) (t u : TripState) : Prop where
  off : (nth u.dis.wind m {}).on = false
  fail : u.dis.windFail = true
  dchg : c.u 0x5060 2 = 0 → t.dis.dchgSince = none → t.dis.lockUntil = none → u.dis.dchgSince = some now

theorem windFail_off (h : (nth t.dis.wind m {}).on = true) : (nth (t.windFail c now m).dis.wind m {}).on = false := by
  rw [(windFail_wind h).1, nth_upd_self rfl]

theorem disTimeLimit_reached (hm : m < 2) (h : (nth t.dis.wind m {}).on = true) (hn : (nth t.dis.wind m {}).since + c.u 0x5060 6 * 200000 ≤ now) :
    LimitReached c now m t (t.disTimeLimit c now) := by
  rw [disTimeLimit_eq]
  obtain rfl | rfl : m = 0 ∨ m = 1 := by omega
  · have hdue := windLimit_due h hn
    refine ⟨?_, ?_, fun h0 hs hl => ?_⟩
    · rw [windLimit_wind_of_ne (by decide), hdue]
      exact windFail_off h
    · refine windLimit_fail ?_
      rw [hdue]
      exact (windFail_wind h).2
    · obtain ⟨hs0, hl0⟩ := windFail_dchg h h0 ⟨.inl hs, hl⟩
      rw [← hdue] at hs0 hl0
      exact windLimit_driven h0 hs0 hl0
  · have hsame : nth (t.windLimit c now 0).dis.wind 1 {} = nth t.dis.wind 1 {} := windLimit_wind_of_ne (by decide) t
    have hdue : (t.windLimit c now 0).windLimit c now 1 = (t.windLimit c now 0).windFail c now 1 := windLimit_due (by rw [hsame]; exact h) (by rw [hsame]; exact hn)
    have hon : (nth (t.windLimit c now 0).dis.wind 1 {}).on = true := by rw [hsame]; exact h
    rw [hdue]
    exact ⟨windFail_off hon, (windFail_wind hon).2, fun h0 hs hl => (windFail_dchg hon h0 (windLimit_free h0 ⟨.inl hs, hl⟩)).1⟩

end

end TripState

namespace State

variable {s : State}

/-- The trip logic's groups after a filtered level (R143). -/
theorem fltLevel_trip (hu : s.up = true) (n : Nat) (level : Bool) (hg : s.trip.g.length = 4) :
    (s.fltLevel n level).trip.flt = upd s.trip.flt n (fun _ => level) ∧ (s.fltLevel n level).trip.gdl = s.trip.gdl
      ∧ ∀ k, k < 4 → (s.fltLevel n level).trip.group k = (s.trip.group k).sources s.now (decide (k < 2)) (fun n => bit (s.cfg.u 0x5450 (n + 1)) 19)
        (TripState.fltOn s.cfg (upd s.trip.flt n (fun _ => level)) k) (List.range 12) := by
  have hto : s.fltLevel n level = s.tripTo (s.trip.fltInput s.cfg s.now n level) := if_pos hu
  have hsame := tripTo_trip_same (s.trip.fltInput s.cfg s.now n level) s
  obtain ⟨hflt, hgdl, hgroup⟩ := TripState.fltSources_foldl (t := { s.trip with flt := upd s.trip.flt n (fun _ => level) }) s.cfg s.now (List.range 12) hg
  have hin := TripState.fltSources_eq s.cfg s.now { s.trip with flt := upd s.trip.flt n (fun _ => level) }
  rw [← hin] at hflt hgdl hgroup
  rw [hto]
  refine ⟨hsame.flt.trans hflt, hsame.gdl.trans hgdl, fun k hk => ?_⟩
  exact (congrArg (fun l : List TripGroup => nth l k {}) hsame.g).trans (hgroup k hk)

end State

end Sys2Proof.Machine
end

section
/-! PROOFS. The statement about trips and the discharge. -/

set_option Elab.async false

open Sys2Proof Sys2Proof.Machine

/-- Settles O23: on each group the sources act one after the other, and the level's own source decides its bit; the discharge's clauses are its
operations' cases. -/
theorem tripsAndDischarge : Obligations.TripsAndDischarge := by
  unfold Obligations.TripsAndDischarge
  refine ⟨⟨?_, ?_, ?_⟩, ?_, ?_, ?_, ?_, ?_⟩
  · intro n level s hu hn hf hg
    obtain ⟨hflt, hgdl, hgroup⟩ := State.fltLevel_trip hu n level hg
    have hread : nth (upd s.trip.flt n (fun _ => level)) n true = level := nth_upd_of_lt (by omega)
    refine ⟨_, rfl, hflt, by rw [hflt]; exact hread, fun k hk => ?_, hgdl, State.fltLevel_changes n level s⟩
    have hon : TripState.fltOn s.cfg (upd s.trip.flt n (fun _ => level)) k n =
        (bit (s.cfg.u 0x5450 (n + 1)) 31 && level == bit (s.cfg.u 0x5450 (n + 1)) 30 && bit (s.cfg.u 0x5450 (n + 1)) (20 + k)) := by
      unfold TripState.fltOn
      rw [hread]
    rw [hgroup k hk, ← hon]
    have hact := TripGroup.sources_active (now := s.now) (traction := decide (k < 2)) (inhibit := fun n => bit (s.cfg.u 0x5450 (n + 1)) 19)
      (on := TripState.fltOn s.cfg (upd s.trip.flt n (fun _ => level)) k) (List.mem_range.2 hn) (s.trip.group k)
    refine ⟨hact, fun h hoff => ?_⟩
    have htrip := TripGroup.sources_tripped (now := s.now) (traction := decide (k < 2)) (inhibit := fun n => bit (s.cfg.u 0x5450 (n + 1)) 19)
      (on := TripState.fltOn s.cfg (upd s.trip.flt n (fun _ => level)) k) (List.range 12) hoff
    refine ⟨htrip.latched (hact.trans h), ?_⟩
    split
    · next h5 => exact htrip.lock.2 h5
    · next h5 => exact (htrip.trip (hact.trans h)).resolve_left fun h => h5 (htrip.lock.1 h)
  · exact fun n level s hu => congrArg Host.Outcome.next (if_neg (by simp [hu]))
  · intro m t0 s hu hm hl hd ht
    exact (congrArg Host.Outcome.next (if_pos hu)).trans
      (congrArg (fun t => Host.Outcome.next { s with trip := t }) (TripState.delayEnd_of hd ht (s.crustSpeed m).1 (s.crustSpeed m).2))
  · exact fun s hu hr hb => (congrArg Host.Outcome.next (if_pos hu)).trans (congrArg (fun t => Host.Outcome.next { s with trip := t }) (TripState.disDone_of hr hb))
  · intro m s hu hm hon hn
    have hlim := TripState.disTimeLimit_reached hm hon hn
    have hsame := TripState.disTimeLimit_same s.cfg s.now s.trip
    refine ⟨_, congrArg Host.Outcome.next (if_pos hu), hlim.off, hlim.fail, hlim.dchg, fun h0 => ?_, hsame.g, hsame.flt, hsame.gdl, (Changes.refl _ s).update⟩
    exact (TripState.windLimit_since h0).trans (TripState.windLimit_since h0)
  · exact fun t0 s hu hs hn => (congrArg Host.Outcome.next (if_pos hu)).trans
      (congrArg (fun t => Host.Outcome.next { s with trip := t }) (TripState.dchgTimeout_of hs hn))
  · exact fun e s hu hl he hw hr hs => (congrArg Host.Outcome.next (if_pos hu)).trans
      (congrArg (fun t => Host.Outcome.next { s with trip := t }) (TripState.dchgLockEnd_of_waiting hl he hw hr hs))
  · exact fun e s hu hl he hw => (congrArg Host.Outcome.next (if_pos hu)).trans
      (congrArg (fun t => Host.Outcome.next { s with trip := t }) (TripState.dchgLockEnd_of_idle hl he hw))
end

section
/-! PROOFS. The accelerometers and the identification, load diagnosis, and the audio ports and streams (chapters 9 to 12). -/

set_option Elab.async false

namespace Sys2Proof.Machine

/-- Two changes of an element that agree on it. -/
theorem upd_congr {α : Type} (d : α) {l : List α} {i : Nat} {f g : α → α} (h : f (nth l i d) = g (nth l i d)) : upd l i f = upd l i g := by
  refine List.ext_getElem (by simp [upd]) fun j h1 h2 => ?_
  simp only [upd, List.getElem_modify]
  split
  · next hij =>
    subst hij
    have hj : i < l.length := by simpa [upd] using h1
    simpa only [nth_of_lt hj] using h
  · rfl

theorem AccPort.begin_of_idle {p : AccPort} (h : p.reading = none) (now command : Nat) :
    p.begin_ now command = ({ p with reading := some now, command := command }, false) := by
  unfold AccPort.begin_
  exact if_neg (by simp [h])

theorem AccPort.begin_of_busy {p : AccPort} {t0 : Nat} (h : p.reading = some t0) (now command : Nat) : p.begin_ now command = (p, true) := by
  unfold AccPort.begin_
  exact if_pos (by simp [h])

namespace State

variable {s : State}

/-! ### Accelerometers and identification (R191, R197, R204) -/

theorem accTimed_of (hw : s.working = true) {n : Nat} (hr : accRate (s.cfg.u 0x7180 (n + 1)) ≠ 0) : s.accTimed n = s.accStart n := if_pos (by simp [hw, hr])

theorem accStart_of_idle {n : Nat} (h : (nth s.canc.acc n {}).reading = none) : s.accStart n =
    { s with canc := { s.canc with acc := upd s.canc.acc n (fun _ =>
      { nth s.canc.acc n {} with reading := some s.now, command := s.cfg.u 0x7180 (4 + n) }) } } := by
  unfold accStart
  rw [AccPort.begin_of_idle h]
  rfl

theorem accStart_of_busy {n t0 : Nat} (h : (nth s.canc.acc n {}).reading = some t0) : s.accStart n =
    { s with canc := { s.canc with acc := upd s.canc.acc n (fun _ => nth s.canc.acc n {}), skips := inc32 s.canc.skips } } := by
  unfold accStart
  rw [AccPort.begin_of_busy h]
  rfl

/-- The identification after a point, as the command leaves it. -/
theorem identPoint_canc (s : State) : ∃ table ending, s.identPoint.canc = { s.canc with ident :=
    { (s.canc.ident.pointDone (identAmp s.cfg (s.dev.state == 5))).1 with table := table, ending := ending } } := by
  unfold identPoint
  extract_lets i r point j ended k t
  rw [(tapLog_changes ..).same .canc (by decide)]
  dsimp only [k]
  split
  · exact ⟨j.table, some s.now, rfl⟩
  · exact ⟨j.table, j.ending, rfl⟩

theorem identPoint_done (hr : s.canc.ident.running = true) (h : s.identPoint.canc.ident.running = false) :
    s.identPoint.diag.tap.done = true ∧ s.identPoint.diag.tap.completed = inc32 s.diag.tap.completed := by
  have hpoint : (s.canc.ident.pointDone (identAmp s.cfg (s.dev.state == 5))).1.running = false := by
    obtain ⟨table, ending, hc⟩ := identPoint_canc s
    rw [hc] at h
    exact h
  unfold identPoint
  extract_lets i r point j ended k t
  have hended : ended = true := by
    have hj : j.running = false := hpoint
    have hi : i.running = true := hr
    simp [ended, hj, hi]
  rw [(tapLog_changes ..).same .diag (by decide), if_pos hended]
  exact ⟨rfl, rfl⟩

theorem identPoint_keeps (s : State) : Changes [.dev, .canc, .diag, .flash] s s.identPoint := by
  unfold identPoint
  extract_lets i r point j ended k t
  exact .after (tapLog_changes ..) (Changes.refl _ s).update (by decide)

theorem speakerEstimate_of {k : Nat} (hn : (nth s.loads (k + 2) {}).trackFrom + 20000000 ≤ s.now) : s.speakerEstimate k =
    (let x := nth s.loads (k + 2) {}
     let least := s.cfg.f (0x8012 + k) 0x15
     { s with loads := upd s.loads (k + 2) (fun y =>
      if s.pathDelivers (28 + 2 * k) = true ∧ s.pathDelivers (29 + 2 * k) = true ∧ least * least * (x.trackN : Rat) < x.trackIi then
        (y.track s.cfg (k + 2) s.now (x.trackVi / x.trackIi)).trackAnew s.now
      else y.trackAnew s.now) }) := by
  unfold speakerEstimate
  dsimp only
  rw [if_neg (by omega)]
  refine congrArg (fun l => { s with loads := l }) (upd_congr {} ?_)
  simp only [Bool.and_eq_true, decide_eq_true_eq, and_assoc]
  split <;> rfl

/-! ### Load diagnosis (R222 to R233) -/

/-- The engine after a step of a tap test. -/
def tapStepped (s : State) : TapState :=
  let l := s.diag.tap.load
  let amp := mkRat (s.cfg.u 0x8040 4) (if s.dev.state = 5 then 4000 else 1000) * iBase s.cfg l
  let still := (s.crustSpeed l).2 && decide (absR (s.crustSpeed l).1 < s.cfg.f 0x8040 7)
  s.diag.tap.stepDone s.cfg s.now amp still (s.tapAngle l).1 (s.tapAngle l).2 (motorCeiling s.cfg l) (s.tapTemp l)

theorem tapStep_diag (s : State) : s.tapStep.diag = { s.diag with tap := s.tapStepped } := (tapLog_changes ..).same .diag (by decide)

theorem tapStep_keeps (s : State) : Changes [.dev, .diag, .flash] s s.tapStep :=
  .after (tapLog_changes ..) (Changes.refl _ s).update (by decide)

/-- The monitor of a machine after a drift window. -/
def driftNoted (m : Nat) (s : State) : State :=
  { s with diag := { s.diag with mon := upd s.diag.mon m (fun _ => (PassiveMon.driftEnd s.cfg m (nth s.diag.mon m {})).1) } }

theorem driftEnd_of_none {m : Nat} (h : (PassiveMon.driftEnd s.cfg m (nth s.diag.mon m {})).2 = none) : s.driftEnd m = s.driftNoted m := by
  unfold driftEnd
  dsimp only
  rw [h]
  rfl

theorem driftEnd_of_some {m : Nat} {x : Rat} (h : (PassiveMon.driftEnd s.cfg m (nth s.diag.mon m {})).2 = some x) :
    s.driftEnd m = { s.driftNoted m with loads := upd s.loads m (fun l => l.track s.cfg m s.now x) } := by
  unfold driftEnd
  dsimp only
  rw [h]
  rfl

theorem testDuration_of (hr : s.diag.sig.running = true) (h0 : s.cfg.u 0xE010 7 ≠ 0)
    (h : s.cfg.u 0xE010 7 ≤ (s.frame.fn + 2 ^ 32 - s.diag.sig.startFn) % 2 ^ 32) :
    s.testDuration = { s with diag := { s.diag with sig := s.diag.sig.stop 1 } } := by
  unfold testDuration
  dsimp only
  rw [decide_eq_true h]
  exact if_pos (by simp [hr, h0])

/-! ### Audio ports and streams (R240 to R259) -/

/-- A boundary with nothing waiting applies nothing. -/
theorem boundary_of_empty (hp : s.commit.pending = []) (hw : s.commit.writes = []) (groups wait : Nat) : (s.boundary groups wait).1 = s := by
  have hcommit : ({ s.commit with writes := [] } : CommitState) = s.commit := by rw [← hw]
  unfold boundary
  dsimp only
  rw [hp]
  simp only [List.filter_nil, List.foldl_nil, hw]
  exact congrArg (fun c : CommitState => { s with commit := c }) hcommit

/-- The bit clocks end a frame of a port in the format in force, or the port has no format. -/
theorem aspFrame_of {n : Nat} {cycles : List BitCycle} (h : aspFormat (nth s.audio.asp n {}).run = 0 ∨ aspStarts (nth s.audio.asp n {}).run cycles = true) :
    s.aspFrame n cycles = (((s.setPort n ((nth s.audio.asp n {}).ended s.grid s.now cycles)).aspSettings n).aspLeadOut n).aspSend n := by
  unfold aspFrame
  refine if_neg ?_
  rcases h with h | h <;> rw [h] <;> simp

theorem aspFrame_of_noStart {n : Nat} {cycles : List BitCycle} (hf : aspFormat (nth s.audio.asp n {}).run ≠ 0)
    (h : aspStarts (nth s.audio.asp n {}).run cycles = false) : s.aspFrame n cycles = s := by
  unfold aspFrame
  exact if_pos (by rw [decide_eq_true hf, h]; rfl)

/-- A port's settings where none wait: the settings in force, on the port alone. -/
theorem aspSettings_of_empty (hp : s.commit.pending = []) (hw : s.commit.writes = []) (n : Nat) : s.aspSettings n =
    { s with audio := { s.audio with asp := upd s.audio.asp n (fun p =>
      p.settings s.now (aspInForce s.cfg n).1 (aspInForce s.cfg n).2.1 (aspInForce s.cfg n).2.2) } } := by
  unfold aspSettings
  rw [boundary_of_empty hp hw]

/-- The frame of a port where no setting waits: the port's own steps. -/
theorem aspSteps_of_empty (hp : s.commit.pending = []) (hw : s.commit.writes = []) (n : Nat) (p : AspPort) :
    let t := (((s.setPort n p).aspSettings n).aspLeadOut n).aspSend n
    (∀ k, k ≠ n → nth t.audio.asp k {} = nth s.audio.asp k {}) ∧ t.audio.lis = s.audio.lis ∧ t.audio.tal = s.audio.tal ∧ t.hearth = s.hearth
      ∧ (n < s.audio.asp.length → nth t.audio.asp n {} =
          ((p.settings s.now (aspInForce s.cfg n).1 (aspInForce s.cfg n).2.1 (aspInForce s.cfg n).2.2).leadOutEnd (aspInForce s.cfg n).2.1
            (aspInForce s.cfg n).2.2).send s.now (s.hearth.pos s.now - 64) (fun k i => s.hearth.tapAt k i) (fun k => s.cfg.u (0x7204 + 16 * n) (k + 1))) := by
  have hset : (s.setPort n p).aspSettings n = { s with audio := { s.audio with asp := upd (upd s.audio.asp n (fun _ => p)) n (fun p =>
      p.settings s.now (aspInForce s.cfg n).1 (aspInForce s.cfg n).2.1 (aspInForce s.cfg n).2.2) } } :=
    aspSettings_of_empty (s := s.setPort n p) hp hw n
  dsimp only
  rw [hset]
  refine ⟨fun k hk => ?_, rfl, rfl, rfl, fun hn => ?_⟩
  · exact (nth_upd_of_ne hk).trans ((nth_upd_of_ne hk).trans ((nth_upd_of_ne hk).trans (nth_upd_of_ne hk)))
  · have hlen (l : List AspPort) (f : AspPort → AspPort) : (upd l n f).length = l.length := List.length_modify ..
    unfold aspSend aspLeadOut setPort
    dsimp only
    simp only [nth_upd_of_lt, hlen, hn]
    rfl

theorem leadInEnd_phase {p : AspPort} (hp : p.phase = 1) (hc : 32 ≤ p.count) : p.leadInEnd.phase = 2 := by
  unfold AspPort.leadInEnd
  rw [if_neg (by omega)]

theorem aspLeadIn_of {n : Nat} (hph : (nth s.audio.asp n {}).phase = 1) (hc : 32 ≤ (nth s.audio.asp n {}).count) (hn : n < s.audio.asp.length) :
    s.aspLeadIn n = { s with audio := { s.audio with asp := upd s.audio.asp n (fun _ =>
      (nth s.audio.asp n {}).leadInEnd.send s.now (s.hearth.pos s.now - 64) (fun k i => s.hearth.tapAt k i)
        (fun k => s.cfg.u (0x7204 + 16 * n) (k + 1))) } } := by
  unfold aspLeadIn
  dsimp only
  rw [if_neg (by omega)]
  unfold aspSend setPort
  dsimp only
  rw [nth_upd_of_lt hn]
  have hupd (p q : AspPort) : upd (upd s.audio.asp n (fun _ => p)) n (fun _ => q) = upd s.audio.asp n (fun _ => q) := by
    refine List.ext_getElem (by simp [upd]) fun i h1 h2 => ?_
    simp only [upd, List.getElem_modify]
    split <;> rfl
  rw [hupd]
  rfl

theorem pdmWake_of {k t0 : Nat} (h : nth s.audio.micWake k none = some t0) (ht : t0 ≤ s.now) :
    s.pdmWake k = { s with audio := { s.audio with micWake := upd s.audio.micWake k (fun _ => none) } } := by
  unfold pdmWake
  rw [h]
  exact if_pos ht

theorem listenerPdu_of_full {n backlog : Nat} (h : 32 ≤ backlog) (p : AafPdu) :
    s.listenerPdu n backlog p = { s with net := { s.net with received := inc32 s.net.received, drops := upd s.net.drops (3 + n) inc32 } } := by
  unfold listenerPdu
  exact if_pos h

theorem listenerPdu_of {n backlog : Nat} (h : backlog < 32) (hb : s.cfg.b (0x7260 + n) 1 = true) (hg : s.net.gptp.present = true)
    (hs : s.audio.gptpSeen = true) (p : AafPdu) : s.listenerPdu n backlog p = { s with
      net := { s.net with received := inc32 s.net.received }
      audio := { s.audio with lis := upd s.audio.lis n (fun l =>
        l.pdu { n := s.hearth.n, cairn := s.hearth.cairn, delta := s.hearth.delta } (s.cfg.u (0x7260 + n) 2) (s.cfg.u (0x7260 + n) 4) s.now
          (s.frame.gptpOffset : Int) p) } } := by
  unfold listenerPdu
  dsimp only
  rw [if_neg (by omega)]
  refine (if_neg ?_).trans rfl
  rw [hg, hs]
  have hb' : (State.cfg { s with net := { s.net with received := inc32 s.net.received } }).b (0x7260 + n) 1 = true := hb
  rw [hb']
  decide

theorem listenerTimeout_eq (n : Nat) (s : State) : s.listenerTimeout n = { s with audio := { s.audio with lis := upd s.audio.lis n (fun l =>
    if l.receiving = true ∧ 4 ≤ l.idle then l.stop s.now else l) } } := by
  unfold listenerTimeout
  simp only [Bool.and_eq_true, decide_eq_true_eq]

end State

end Sys2Proof.Machine
end

section
/-! PROOFS. The statements about the canceller's inputs, load diagnosis, and the audio ports and streams. -/

set_option Elab.async false

open Sys2Proof Sys2Proof.Machine

/-- Settles O26: each clause is its command's case. -/
theorem cancellationEvents : Obligations.CancellationEvents := by
  unfold Obligations.CancellationEvents
  refine ⟨⟨?_, ?_, ?_, ?_, ?_⟩, ?_⟩
  · exact fun n s hw hr hi => congrArg Host.Outcome.next ((State.accTimed_of hw hr).trans (State.accStart_of_idle hi))
  · intro n t0 s hw hr hb
    refine ⟨_, congrArg Host.Outcome.next ((State.accTimed_of hw hr).trans (State.accStart_of_busy hb)), rfl, fun k => ?_, (Changes.refl _ s).update⟩
    by_cases hk : k = n
    · subst hk
      rcases nth_upd_cases s.canc.acc k k {} (fun _ => nth s.canc.acc k {}) with h | h <;> exact h
    · exact nth_upd_of_ne hk
  · exact fun n bytes s hu => congrArg Host.Outcome.next (if_pos hu)
  · intro s hg hr
    exact ⟨_, congrArg Host.Outcome.next (if_pos hg), State.identPoint_canc s, State.identPoint_done hr, State.identPoint_keeps s⟩
  · exact fun m k s hw => congrArg Host.Outcome.next (if_pos hw)
  · exact fun k s hw hn => (congrArg Host.Outcome.next (if_pos hw)).trans (congrArg Host.Outcome.next (State.speakerEstimate_of hn))

/-- Settles O27: each clause is its command's case. -/
theorem diagnosisEvents : Obligations.DiagnosisEvents := by
  unfold Obligations.DiagnosisEvents
  refine ⟨?_, ?_, ?_, ?_, ?_⟩
  · exact fun s hg hr => ⟨_, congrArg Host.Outcome.next (if_pos (by simp [hg, hr])), State.tapStep_diag s, State.tapStep_keeps s⟩
  · exact fun m s h5 hd => (congrArg Host.Outcome.next (if_pos h5)).trans (congrArg Host.Outcome.next (State.driftEnd_of_none hd))
  · exact fun m x s h5 hd => ⟨_, (congrArg Host.Outcome.next (if_pos h5)).trans (congrArg Host.Outcome.next (State.driftEnd_of_some hd)), rfl, rfl,
      (Changes.refl _ s).update⟩
  · exact fun m s h5 => congrArg Host.Outcome.next (if_pos h5)
  · exact fun s hr h0 hn => congrArg Host.Outcome.next (State.testDuration_of hr h0 hn)

/-- Settles O28: each clause is its command's case. -/
theorem audioEvents : Obligations.AudioEvents := by
  unfold Obligations.AudioEvents
  refine ⟨?_, ?_, ?_, ?_, ?_, ?_, ?_, ?_⟩
  · intro n cycles s hw hf
    have heq := State.aspFrame_of hf
    refine ⟨s.aspFrame n cycles, congrArg Host.Outcome.next (if_pos hw), heq, fun hp hwr => ?_, State.aspFrame_changes n cycles s⟩
    rw [heq]
    exact State.aspSteps_of_empty hp hwr n _
  · intro n cycles s hf hs
    refine congrArg Host.Outcome.next ?_
    split
    · exact State.aspFrame_of_noStart hf hs
    · rfl
  · exact fun n s hw hph hc hn => ⟨(congrArg Host.Outcome.next (if_pos hw)).trans (congrArg Host.Outcome.next (State.aspLeadIn_of hph hc hn)),
      State.leadInEnd_phase hph hc⟩
  · exact fun n s hw => ⟨congrArg Host.Outcome.next (if_pos hw), congrArg Host.Outcome.next (if_pos hw)⟩
  · exact fun k t0 s hw hk ht => (congrArg Host.Outcome.next (if_pos hw)).trans (congrArg Host.Outcome.next (State.pdmWake_of hk ht))
  · exact fun n backlog p s hw hb => (congrArg Host.Outcome.next (if_pos hw)).trans (congrArg Host.Outcome.next (State.listenerPdu_of_full hb p))
  · exact fun n backlog p s hw hb hc hg hs => (congrArg Host.Outcome.next (if_pos hw)).trans (congrArg Host.Outcome.next (State.listenerPdu_of hb hc hg hs p))
  · exact fun n s hw => (congrArg Host.Outcome.next (if_pos hw)).trans (congrArg Host.Outcome.next (State.listenerTimeout_eq n s))
end

section
/-! PROOFS. Single faults, and what BEDROCK entry writes (chapter 14). -/

set_option Elab.async false

namespace Sys2Proof.Machine

theorem CrustState.arm_keeps (now : Nat) (x : CrustState) :
    (x.arm now).soff = x.soff ∧ (x.arm now).laneWd = x.laneWd ∧ (x.arm now).laneExpiries = x.laneExpiries := by
  unfold CrustState.arm
  split <;> exact ⟨rfl, rfl, rfl⟩

theorem faultStands_iff (group : Nat) : faultStands group = true ↔ 1 ≤ group ∧ group ≤ 24 := by
  unfold faultStands
  rw [decide_eq_true_eq, Nat.one_le_iff_ne_zero]

namespace State

variable {s : State}

/-! ### The sessions that BEDROCK entry closes (R296) -/

theorem closeSession_session (j k : Nat) (s : State) : (s.closeSession j).session k = if k = j ∧ j < s.net.sessions.length then none else s.session k := by
  unfold closeSession session
  dsimp only
  unfold nth
  rw [List.getD_eq_getElem?_getD, List.getD_eq_getElem?_getD, List.getElem?_set]
  by_cases hk : j = k
  · subst hk
    by_cases hj : j < s.net.sessions.length <;> simp [hj]
  · simp [hk, Ne.symm hk]

/-- A session closed is none; another is as it was. -/
theorem closeSession_some {j k : Nat} {x : Session} (h : (s.closeSession j).session k = some x) : k ≠ j ∧ s.session k = some x := by
  rw [closeSession_session] at h
  split at h
  · cases h
  · next hk =>
    refine ⟨fun hkj => hk ⟨hkj, ?_⟩, h⟩
    subst hkj
    refine Decidable.byContradiction fun hlen => ?_
    unfold session at h
    rw [nth_of_le (by omega)] at h
    cases h

/-- One session closed where p selects it. -/
def closeIf (p : Session → Bool) (s : State) (k : Nat) : State :=
  match nth s.net.sessions k none with
  | some x => if p x then s.closeSession k else s
  | none => s

theorem closeIf_some {p : Session → Bool} {j k : Nat} {x : Session} (h : (s.closeIf p j).session k = some x) :
    s.session k = some x ∧ (k = j → p x = false) := by
  unfold closeIf at h
  split at h
  · next y hy =>
    split at h
    · obtain ⟨hne, hk⟩ := closeSession_some h
      exact ⟨hk, fun hkj => absurd hkj hne⟩
    · next hp =>
      refine ⟨h, fun hkj => ?_⟩
      subst hkj
      obtain rfl : x = y := Option.some.inj (h.symm.trans hy)
      simpa using hp
  · next hn =>
    refine ⟨h, fun hkj => ?_⟩
    subst hkj
    cases h.symm.trans hn

/-- A session that is open after the closing is one that p does not select. -/
theorem closeSessions_some {p : Session → Bool} {k : Nat} {x : Session} (hk : k < 16) (h : (s.closeSessions p).session k = some x) : p x = false := by
  have hall (n : Nat) : ∀ x, ((List.range n).foldl (closeIf p) s).session k = some x → k < n → p x = false := by
    induction n with
    | zero => exact fun _ _ hn => absurd hn (by omega)
    | succ n ih =>
      intro x hx hn
      rw [List.range_succ, List.foldl_append] at hx
      obtain ⟨hbefore, hself⟩ := closeIf_some (s := (List.range n).foldl (closeIf p) s) hx
      by_cases hkn : k = n
      · exact hself hkn
      · exact ih x hbefore (by omega)
  exact hall 16 x h hk

/-! ### BEDROCK entry (R296) -/

theorem goState_crust (cause : Nat) (own : Bool) (s : State) :
    (s.goState 7 cause own).crust = { s.crust.arm s.dev.counter with hearthAt := s.crust.hearthAt } :=
  (tapLog_changes ..).same .crust (by decide)

/-- What BEDROCK entry leaves. -/
structure BedrockEntered (cause group : Nat) (s t : State) : Prop where
  state : t.dev.state = 7
  cause : t.fault.cause = cause * 256 + group
  causeFn : t.fault.causeFn = s.frame.fn
  causeTime : t.fault.causeTime = s.now
  locked : ∀ g ∈ t.trip.g, g.state = 5
  ctl : t.ctl = s.ctl.map MachCtl.off
  staged : t.staged = s.active
  pending : t.commit.pending = []
  sessions : ∀ k x, k < 16 → t.session k = some x → x.iface = 3
  soffTest : t.crust.soff.test = s.crust.soff.test
  soffPulse : t.crust.soff.pulse = s.crust.soff.pulse
  laneWd : t.crust.laneWd = s.crust.laneWd
  laneExpiries : t.crust.laneExpiries = s.crust.laneExpiries

theorem hardStates_fault (s : State) : s.hardStates.fault = { s.fault with hardLimit := true } := rfl

theorem hardStates_soff (s : State) : s.hardStates.crust.soff.test = s.crust.soff.test ∧ s.hardStates.crust.soff.pulse = s.crust.soff.pulse
    ∧ s.hardStates.crust.laneWd = s.crust.laneWd ∧ s.hardStates.crust.laneExpiries = s.crust.laneExpiries := ⟨rfl, rfl, rfl, rfl⟩

theorem late_fault (hard : Bool) (s : State) : (if hard then s.hardStates else s).fault.cause = s.fault.cause
    ∧ (if hard then s.hardStates else s).fault.causeFn = s.fault.causeFn ∧ (if hard then s.hardStates else s).fault.causeTime = s.fault.causeTime := by
  split
  · rw [hardStates_fault]
    exact ⟨rfl, rfl, rfl⟩
  · exact ⟨rfl, rfl, rfl⟩

theorem late_crust (hard : Bool) (s : State) : (if hard then s.hardStates else s).crust.soff.test = s.crust.soff.test
    ∧ (if hard then s.hardStates else s).crust.soff.pulse = s.crust.soff.pulse ∧ (if hard then s.hardStates else s).crust.laneWd = s.crust.laneWd
    ∧ (if hard then s.hardStates else s).crust.laneExpiries = s.crust.laneExpiries := by
  split
  · exact hardStates_soff s
  · exact ⟨rfl, rfl, rfl, rfl⟩

theorem withFault_fault (s : State) (f : FaultState) : ({ s with fault := f } : State).fault = f := rfl

theorem withFault_changes (s : State) (f : FaultState) : Changes [.fault] s { s with fault := f } := (Changes.refl _ s).update

theorem withTrip_changes (s : State) (x : TripState) : Changes [.trip] s { s with trip := x } := (Changes.refl _ s).update

theorem bedrockStops_crust (byVote : Bool) (s : State) : (s.bedrockStops byVote).crust
    = { s.crust with hostReq := 0, voteBedrock := s.crust.voteBedrock || byVote } := rfl

theorem enterBedrock_entered (cause group : Nat) (byVote : Bool) (hu : s.up = true) (h7 : s.dev.state ≠ 7) :
    BedrockEntered cause group s (s.enterBedrock cause group byVote) := by
  have hstate := enterBedrock_state cause group byVote s h7 hu
  have hlocks := ((enterBedrock_locks cause group byVote s).enters hstate).resolve_left h7
  unfold enterBedrock at hstate hlocks ⊢
  extract_lets word hard stopped tr eased handed gone recorded closed logged at hstate hlocks ⊢
  rw [if_neg h7, if_neg (by simp [hu])] at hstate hlocks ⊢
  have hstop : Changes [.staged, .commit, .persist, .ctl, .lanes, .trip, .diag, .audio, .crust, .flash] s stopped := bedrockStops_changes byVote s
  have hease : Changes [.trip, .chain] stopped eased := (withTrip_changes stopped _).mono (by decide)
  have hhand : Changes [.trip, .chain] stopped handed := (hease.then_ (twinHandOff_changes ..)).then_ (twinHandOff_changes ..)
  have hgone : Changes [.mode, .dev, .hearth, .canc, .loads, .diag, .audio, .crust, .flash] handed gone := goState_changes ..
  have hrec : Changes [.fault] gone recorded := withFault_changes gone _
  have hclosed : Changes [.dev, .table, .net] recorded closed := .after (closeSessions_changes ..) ((retainBedrock_changes ..).mono (by decide)) (by decide)
  have hlogged : Changes [.flash] closed logged := logEvent_changes ..
  let t := if hard then logged.hardStates else logged
  have hlate : Changes [.trip, .crust, .fault] logged t := .ite (hardStates_changes logged) (.refl ..)
  have hall : Changes [.mode, .dev, .trip, .chain, .hearth, .canc, .loads, .diag, .audio, .crust, .flash, .fault, .table, .net] stopped t :=
    .after hlate (.after hlogged (.after hclosed (.after hrec (.after hgone (hhand.mono (by decide)) (by decide)) (by decide)) (by decide)) (by decide)) (by decide)
  have hframe : gone.frame = s.frame := (hgone.same .frame (by decide)).trans ((hhand.same .frame (by decide)).trans (hstop.same .frame (by decide)))
  have hdev : handed.dev = s.dev :=
    ((twinHandOff_dev 1 _).trans (twinHandOff_dev 0 eased)).trans ((withTrip_dev stopped _).trans (bedrockStops_dev byVote s))
  have hnow : gone.now = s.now := by
    have hcounter := (goState_sameButMode 7 7 false handed).field DevState.counter
    rw [hdev] at hcounter
    exact hcounter
  have hcrust : logged.crust = { handed.crust.arm handed.dev.counter with hearthAt := handed.crust.hearthAt } :=
    ((hlogged.same .crust (by decide)).trans ((hclosed.same .crust (by decide)).trans (hrec.same .crust (by decide)))).trans (goState_crust 7 false handed)
  have hold : handed.crust = { s.crust with hostReq := 0, voteBedrock := s.crust.voteBedrock || byVote } :=
    (hhand.same .crust (by decide)).trans (bedrockStops_crust byVote s)
  have hfault : logged.fault = gone.fault.setCause cause group gone.frame.fn gone.now :=
    ((hlogged.same .fault (by decide)).trans (hclosed.same .fault (by decide))).trans (withFault_fault gone _)
  obtain ⟨hsoff, hwd, hexp⟩ := CrustState.arm_keeps handed.dev.counter handed.crust
  obtain ⟨hcause, hfn, htime⟩ : t.fault.cause = logged.fault.cause ∧ _ := late_fault hard logged
  obtain ⟨htest, hpulse, hlaneWd, hlaneExp⟩ : t.crust.soff.test = logged.crust.soff.test ∧ _ := late_crust hard logged
  rw [hfault, hframe, hnow] at hcause hfn htime
  rw [hcrust] at htest hpulse hlaneWd hlaneExp
  dsimp only at htest hpulse hlaneWd hlaneExp
  rw [hsoff, hold] at htest hpulse
  rw [hwd, hold] at hlaneWd
  rw [hexp, hold] at hlaneExp
  refine ⟨hstate, hcause, hfn, htime, hlocks, hall.same .ctl (by decide), hall.same .staged (by decide), ?_, fun k x hk hx => ?_,
    htest, hpulse, hlaneWd, hlaneExp⟩
  · have hcommit : t.commit = { stopped.commit with token := t.commit.token } := hall.same .commit (by decide)
    exact congrArg CommitState.pending hcommit
  · have hnet : t.net = closed.net := (hlate.same .net (by decide)).trans (hlogged.same .net (by decide))
    have hsession : closed.session k = some x := (congrArg (fun n : NetState => nth n.sessions k none) hnet).symm.trans hx
    simpa using closeSessions_some hk hsession

/-! ### Single faults (R290 to R293) -/

theorem record_fault {code : Nat} (hc : code ≠ 0x10) (f : FaultState) (group detail fn now : Nat) : f.record code group detail fn now =
    { f with
      counters := upd f.counters (code - 1) inc32, single := inc32 f.single
      last := code * 2 ^ 24 + group * 2 ^ 16 + faultDetail code detail, lastFn := fn, lastTime := now
      standing := if 1 ≤ group ∧ group ≤ 24 then setBit f.standing (group - 1) true else f.standing } := by
  unfold FaultState.record
  simp only [if_neg hc, faultStands_iff]

/-- A second fault, recorded and logged. -/
def faultLogged (code group detail : Nat) (s : State) : State :=
  let s : State := { s with fault := s.fault.record code group detail s.frame.fn s.now }
  if code = 0x10 then s else s.logEvent 2 (toBytes 4 s.fault.last ++ toBytes 4 s.fault.standing)

theorem faultLogged_dev (code group detail : Nat) (s : State) : (s.faultLogged code group detail).dev = s.dev := by
  unfold faultLogged
  dsimp only
  split <;> rfl

theorem faultLogged_up (code group detail : Nat) (s : State) : (s.faultLogged code group detail).up = s.up :=
  congrArg (fun d : DevState => d.npor && d.nrst && decide (3 ≤ d.state)) (faultLogged_dev code group detail s)

theorem singleFault_of_second {code group : Nat} (h : s.fault.isSecond code group = true) (detail : Nat) :
    s.singleFault code group detail = (s.faultLogged code group detail).enterBedrock 1 group false := by
  unfold singleFault
  exact if_pos h

/-! ### A fault of Crust's own parts (R294) -/

/-- Crust at a fault of its own parts: its flag, and safe-off. -/
theorem crustFault_soff (kind : CrustFaultKind) (s : State) : ∃ x : CrustState, s.crustFault kind = enterBedrock 7 0 false { s with crust := x }
    ∧ x.soff.test = none ∧ x.soff.pulse = none := by
  cases kind <;> exact ⟨_, rfl, rfl, rfl⟩

theorem statusFrame_of (h7 : s.dev.state = 7) (hb : nth s.net.canBusOff 0 false = false) (ht : s.fault.frameTime + 20000000 ≤ s.now) :
    s.statusFrame = { s with
      fault := { s.fault with frameCount := (s.fault.frameCount + 1) % 256, frameTime := s.now }
      net := { s.net with sent := [{ iface := 3, prio := s.cfg.u 0x2300 0xA
                                     bytes := s.fault.frame (s.tripStatus 0) (s.tripStatus 1) s.frameVolts s.trip.disStatus }] } } := by
  unfold statusFrame
  refine if_neg ?_
  simp only [h7, hb, ne_eq, not_true_eq_false, decide_false, Bool.or_self, Bool.false_or, decide_eq_true_eq]
  omega

end State

end Sys2Proof.Machine
end

section
/-! PROOFS. The statements about single faults and BEDROCK. -/

set_option Elab.async false

open Sys2Proof Sys2Proof.Machine

/-- Settles O31: a single fault is its record and its log entry, and a second one enters BEDROCK after both. -/
theorem singleFaults : Obligations.SingleFaults := by
  unfold Obligations.SingleFaults
  refine ⟨fun code group detail s h hc => ?_, fun code group detail s h hu h7 => ?_⟩
  · have heq : s.raise (.fault code group detail) = _ := State.singleFault_of_first h hc detail
    refine ⟨_, rfl, ?_, ?_⟩
    · rw [heq]
      exact State.record_fault hc s.fault group detail s.frame.fn s.now
    · rw [heq]
      exact .after (State.logEvent_changes ..) (Changes.refl _ s).update (by decide)
  · have heq : s.raise (.fault code group detail) = _ := State.singleFault_of_second h detail
    have hent := State.enterBedrock_entered (s := s.faultLogged code group detail) 1 group false ((State.faultLogged_up ..).trans hu)
      (fun h => h7 ((congrArg DevState.state (State.faultLogged_dev ..)).symm.trans h))
    rw [heq]
    exact ⟨hent.state, hent.cause⟩

/-- Settles O32: a Crust fault is BEDROCK entry with its own cause; the functions that stay are each their command's case. -/
theorem bedrockFunctions : Obligations.BedrockFunctions := by
  unfold Obligations.BedrockFunctions
  refine ⟨fun kind s hu h7 => ?_, ?_, ?_, ?_⟩
  · obtain ⟨x, heq, htest, hpulse⟩ := State.crustFault_soff kind s
    have hent := State.enterBedrock_entered (s := { s with crust := x }) 7 0 false hu h7
    have hch : Changes faultParts s (State.enterBedrock 7 0 false { s with crust := x }) := .after (State.enterBedrock_changes ..) (Changes.refl _ s).update (by decide)
    exact ⟨_, (congrArg Host.Outcome.next (if_pos hu)).trans (congrArg Host.Outcome.next heq), hent.state, hent.cause, hent.causeFn, hent.causeTime, hent.locked,
      hent.ctl, hent.staged, hent.pending, hent.sessions, hent.soffTest.trans htest, hent.soffPulse.trans hpulse, hch⟩
  · exact fun s hu h7 => congrArg Host.Outcome.next (if_pos (by simp [hu, h7]))
  · exact fun s hu h7 hb ht => (congrArg Host.Outcome.next (if_pos hu)).trans (congrArg Host.Outcome.next (State.statusFrame_of h7 hb ht))
  · exact fun s hu => ⟨congrArg Host.Outcome.next (if_pos hu), congrArg Host.Outcome.next (if_pos hu)⟩
end

section
/-! PROOFS. Crust: its inputs, cycles and watchdogs, and safe-off (chapter 13). -/

set_option Elab.async false

namespace Sys2Proof.Machine

/-! ### A store with no damaged pair -/

theorem Store.mend_of_sound {a : Store} (h : a.damaged = false) (v : Nat → Nat → Nat) : a.mend v = a := by
  unfold Store.mend
  refine List.foldlRecOn (motive := fun c => c = a) _ _ rfl fun c hc e he => ?_
  unfold Store.damaged at h
  have hgood := List.any_eq_false.1 h e he
  subst hc
  split
  · next r hr =>
    simp only [hr] at hgood
    exact if_neg hgood
  · rfl

namespace State

variable {s : State}

theorem repairStore_of_sound (h : s.active.damaged = false) (h2 : s.active2.damaged = false) : s.repairStore = s := by
  unfold repairStore Store.heal
  dsimp only
  rw [Store.mend_of_sound h, Store.mend_of_sound h2, h]
  exact if_pos (by simp only [beq_self_eq_true, Bool.not_false, Bool.true_or, Bool.and_self])

theorem crustStoreLost_of_sound (h : s.active.damaged = false) : s.crustStoreLost = false := by
  unfold crustStoreLost
  unfold Store.damaged at h
  refine List.any_eq_false.2 fun e he => ?_
  have hgood := List.any_eq_false.1 h e he
  split
  · next r hr =>
    simp only [hr, Bool.and_eq_true, not_and] at hgood ⊢
    exact fun ⟨hp, hbad⟩ => absurd hbad (hgood hp.2)
  · decide

/-- What applies at a boundary with nothing waiting. -/
theorem boundary_applied_of_empty (hp : s.commit.pending = []) (hw : s.commit.writes = []) (groups wait : Nat) :
    (s.boundary groups wait).2 = { mask := 0, keys := [] } := by
  unfold boundary
  dsimp only
  rw [hp]
  simp only [List.filter_nil, List.foldl_nil, hw, List.map_nil]

/-- Crust's settings where none wait. -/
theorem crustSettings_of_empty (hp : s.commit.pending = []) (hw : s.commit.writes = []) : s.crustSettings = s := by
  have hid {α : Type} (l : List α) : l.mapIdx (fun _ y => y) = l := List.ext_getElem (by simp) (by simp)
  unfold crustSettings
  split
  · rfl
  · dsimp only
    rw [boundary_of_empty hp hw, boundary_applied_of_empty hp hw]
    simp only [List.any_nil, Bool.false_and, Bool.false_eq_true, if_false, hid]
    rfl

/-! ### The cycle (R262) -/

/-- Crust after a cycle, before its reactions. -/
def cycled (s : State) : CrustState :=
  (CrustState.cycle s.cfg s.crustEnv { s.crust with hostReq := if s.dev.state = 7 then 0 else s.cfg.pv 0x9000 6 }).1.tone s.cfg (s.dev.state == 7)
    ((s.trip.group 2).active != 0 || s.fault.hardLimit)

/-- A cycle with no setting waiting and no pair damaged: Crust's own part, then its reactions. -/
theorem crustCycle_reacts (hp : s.commit.pending = []) (hw : s.commit.writes = []) (hd : s.active.damaged = false) (hd2 : s.active2.damaged = false) :
    Reports [.dev, .trip, .canc, .diag] { s with crust := s.cycled, hk := { s.hk with safeInUse := nth s.hk.trims 0 0 } } s.crustCycle := by
  unfold crustCycle
  rw [crustSettings_of_empty hp hw, repairStore_of_sound hd hd2]
  extract_lets hk0 mended stored c old req cycled x r stuck lost demanded blocked hk u source drained trips raised stuckOn
  have hstored : stored = s := if_neg (by simp [mended, crustStoreLost_of_sound hd])
  clear_value stored
  subst hstored
  have hsource : Reports [.dev, .trip, .canc, .diag] u source := .of (crustSource_changes ..)
  have hdrained : Reports [.dev, .trip, .canc, .diag] u drained := .ite hsource (.change (discharge_changes ..) hsource (by decide) (by decide))
  have htrips : Reports [.dev, .trip, .canc, .diag] u trips := .change (crustTrips_changes ..) hdrained (by decide) (by decide)
  have hraised : Reports [.dev, .trip, .canc, .diag] u raised := .report (raiseAll_reports ..) htrips (by decide)
  have hstuck : Reports [.dev, .trip, .canc, .diag] u stuckOn := .ite (.report (raise_reports ..) hraised (by decide)) hraised
  exact .ite (.report (enterBedrock_reports ..) hstuck (by decide)) hstuck

theorem testPulse_crust {n : Nat} (h : s.crust.testPulseDue s.cfg n = true) : ∃ ch, s.crust.testPulse s.cfg n =
    { s.crust with tpFrom := upd s.crust.tpFrom n (fun _ => some s.crust.usec), ch := ch } := by
  unfold CrustState.testPulse
  rw [if_neg (by simp [h])]
  exact ⟨_, rfl⟩

theorem srstStuck_of (h : (s.crust.srst.long s.crust.usec).2 = true) : s.srstStuck =
    State.logEvent 8 (toBytes 4 ((s.crust.usec - (s.crust.srst.long s.crust.usec).1.rise) / 1000))
      { s with crust := { s.crust with srst := (s.crust.srst.long s.crust.usec).1 } } := if_pos h

/-! ### Watchdogs (R277, R278) -/

/-- The lane watchdog's trip of both machines. -/
def laneTripped (s : State) : State :=
  { s with crust := { s.crust with laneWd := true, laneExpiries := inc32 s.crust.laneExpiries } }.crustSource 3 0

theorem laneTripped_changes (s : State) : Changes [.dev, .trip, .canc, .diag, .crust, .flash] s s.laneTripped :=
  .after (crustSource_changes ..) (Changes.refl _ s).update (by decide)

theorem laneTripped_dev (s : State) : s.dev.SameButMarks s.laneTripped.dev := tripTo_dev ..

theorem laneTripped_crust (s : State) : s.laneTripped.crust = { s.crust with laneWd := true, laneExpiries := inc32 s.crust.laneExpiries } :=
  (crustSource_changes ..).same .crust (by decide)

theorem laneTripped_up (s : State) : s.laneTripped.up = s.up :=
  (laneTripped_dev s).field (fun d : DevState => d.npor && d.nrst && decide (3 ≤ d.state))

theorem laneWatchdog_of (ha : s.crust.armed = true) (hw : s.crust.laneWd = false) (h7 : s.dev.state ≠ 7)
    (hl : s.crust.laneLate s.now (nth s.mod.m 0 {}).period = true) : s.laneWatchdog = s.laneTripped.enterBedrock 6 0 false := by
  unfold laneWatchdog
  dsimp only
  exact if_neg (by rw [ha, hw, hl, decide_eq_false h7]; decide)

theorem hearthWatchdog_of (hw : s.working = true) (hg : s.crust.gateClosed = false) (hl : s.crust.hearthLate s.now = true) :
    s.hearthWatchdog = State.raise (.fault 0x15 0 0) { s with crust := s.crust.hearthExpire } := by
  unfold hearthWatchdog
  exact if_neg (by simp [hw, hg, hl])

theorem hearthReopen_of (hg : s.crust.gateClosed = true) (ho : 64 ≤ s.crust.onTime) (now : Nat) :
    s.crust.hearthReopen now = { s.crust with gateClosed := false, gateRamp := some now, hearthWd := false } := by
  unfold CrustState.hearthReopen
  exact if_pos (by simp [hg, ho])

/-! ### Off-pulses (R287) -/

theorem offPulseEnd_eq (s : State) : s.offPulseEnd =
    (let r := s.crust.soff.pulseEnd s.crust.usec (s.cfg.pv 0x9030 3)
     if r.2.2 = true then State.raise (.fault 0x19 24 0) { s with crust := { s.crust with soff := r.1 } }
     else if r.2.1 = true ∧ r.1.hStuck = false ∧ r.1.lStuck = false then
       { s with crust := { s.crust with soff := r.1 }, fault := { s.fault with standing := setBit s.fault.standing 23 false } }
     else { s with crust := { s.crust with soff := r.1 } }) := by
  unfold offPulseEnd
  simp only [Bool.and_eq_true, Bool.not_eq_true', and_assoc]
  rfl

end State

namespace SafeOff

variable {x : SafeOff}

theorem maxWaitEnd_of {now maxWait w : Nat} (hw : x.waitFrom = some w) (hn : w + maxWait ≤ now) (hp : x.pulse = none) :
    x.maxWaitEnd now maxWait = ({ x with released := true } : SafeOff).command now false false := by
  unfold maxWaitEnd
  rw [hw]
  exact if_pos (by simp [hn, hp])

theorem testStep_of {k now : Nat} (ht : x.test = some k) (hn : x.testFrom + 1940 ≤ now) : x.testStep now =
    if x.testBad then ({ x with test := none, testFail := true } : SafeOff).command now false false
    else if k = 4 then { x with test := none, testPass := true }
    else ({ x with test := some (k + 1), testFrom := now, testBad := false } : SafeOff).command now (expected (k + 1)).1 (expected (k + 1)).2 := by
  unfold testStep
  rw [ht]
  exact if_neg (by omega)

theorem pulseStart_of {now period b : Nat} (hb : x.bothOnFrom = some b) (hh : x.hCmd = true) (hl : x.lCmd = true) (hp : x.pulse = none)
    (ht : x.test = none) (hn : b + period * 970000 ≤ now) : x.pulseStart now period =
    ({ x with pulse := some x.nextLow, pulseFrom := now, pulseFell := false } : SafeOff).command now x.nextLow (!x.nextLow) := by
  unfold pulseStart
  rw [hb]
  exact if_pos (by simp [hh, hl, hp, ht, hn])

/-- Safe-off after an off-pulse. -/
def pulsed (now : Nat) (low : Bool) (x : SafeOff) : SafeOff :=
  ({ x with
    pulse := none, nextLow := !low, pulses := inc32 x.pulses
    hStuck := if low then x.hStuck else !x.pulseFell, lStuck := if low then !x.pulseFell else x.lStuck } : SafeOff).command now true true

theorem pulseEnd_of {now width : Nat} {low : Bool} (hp : x.pulse = some low) (hn : x.pulseFrom + width * 97 / 100 ≤ now) :
    x.pulseEnd now width = (x.pulsed now low, x.pulseFell, !x.pulseFell && !(if low then x.lStuck else x.hStuck)) := by
  unfold pulseEnd
  rw [hp]
  exact if_neg (by omega)

end SafeOff

end Sys2Proof.Machine
end

section
/-! PROOFS. The statements about Crust and safe-off. -/

set_option Elab.async false

open Sys2Proof Sys2Proof.Machine

/-- Settles O29: a cycle's reactions write none of Crust's parts unless BEDROCK is entered; the other clauses are their commands' cases. -/
theorem crustEvents : Obligations.CrustEvents := by
  unfold Obligations.CrustEvents
  refine ⟨⟨?_, ?_, ?_, ?_⟩, ?_, ?_, ?_⟩
  · exact fun sin srst rbh rbl s hp hr h2 => congrArg Host.Outcome.next (if_pos (by simp [hp, hr, h2]))
  · intro s hu hp hw hd hd2
    have hreact := State.crustCycle_reacts hp hw hd hd2
    have hown : Reports [.crust, .hk] s { s with crust := s.cycled, hk := { s.hk with safeInUse := nth s.hk.trims 0 0 } } :=
      .of (qs := [.crust, .hk]) (Changes.refl _ s).update
    obtain ⟨hactive, -, -⟩ := hreact.parts.same .active (by decide)
    refine ⟨_, congrArg Host.Outcome.next (if_pos hu), fun h => (hreact.calm h).same .crust (by decide), hreact.parts.same .hk (by decide),
      hactive, (hown.mono (by decide)).trans (hreact.mono (by decide))⟩
  · intro n s hu hn hdue
    obtain ⟨ch, heq⟩ := State.testPulse_crust hdue
    refine ⟨_, congrArg Host.Outcome.next (if_pos hu), rfl, ?_, fun k hk => ?_, (Changes.refl _ s).update⟩
    · exact (congrArg (fun x : CrustState => nth x.tpFrom n none) heq).trans (nth_upd_of_lt hn)
    · exact (congrArg (fun x : CrustState => nth x.tpFrom k none) heq).trans (nth_upd_of_ne hk)
  · exact fun s hu h => (congrArg Host.Outcome.next (if_pos hu)).trans (congrArg Host.Outcome.next (State.srstStuck_of h))
  · intro s hu h7 ha hw hl
    have hstate : s.laneTripped.dev.state ≠ 7 := fun h => h7 (((State.laneTripped_dev s).field DevState.state).symm.trans h)
    have hent := State.enterBedrock_entered (s := s.laneTripped) 6 0 false ((State.laneTripped_up s).trans hu) hstate
    have hcrust := State.laneTripped_crust s
    refine ⟨_, (congrArg Host.Outcome.next (if_pos hu)).trans (congrArg Host.Outcome.next (State.laneWatchdog_of ha hw h7 hl)), hent.state, ?_, ?_, hent.cause,
      .after (State.enterBedrock_changes ..) ((State.laneTripped_changes s).mono (by decide)) (by decide)⟩
    · exact hent.laneWd.trans (congrArg CrustState.laneWd hcrust)
    · exact hent.laneExpiries.trans (congrArg CrustState.laneExpiries hcrust)
  · exact fun s hw hg hl => congrArg Host.Outcome.next (State.hearthWatchdog_of hw hg hl)
  · exact fun s hw hg ho => (congrArg Host.Outcome.next (if_pos hw)).trans
      (congrArg (fun x => Host.Outcome.next { s with crust := x }) (State.hearthReopen_of hg ho s.now))

/-- Settles O30: each clause is a case of safe-off's own step. -/
theorem safeOffEvents : Obligations.SafeOffEvents := by
  unfold Obligations.SafeOffEvents
  refine ⟨?_, ?_, ?_, ?_⟩
  · exact fun w s hu hw hn hp => (congrArg Host.Outcome.next (if_pos hu)).trans
      (congrArg (fun x => Host.Outcome.next { s with crust := { s.crust with soff := x } }) (SafeOff.maxWaitEnd_of hw hn hp))
  · intro k s hu ht hn
    have hstep := SafeOff.testStep_of ht hn
    refine ⟨_, _, congrArg Host.Outcome.next (if_pos hu), rfl, fun hb => ?_, fun hb h4 => ?_, fun hb h4 => ?_⟩ <;> rw [hstep]
    · rw [if_pos hb]
      exact ⟨rfl, rfl, rfl, rfl, rfl⟩
    · rw [if_neg (by simp [hb]), if_pos h4]
    · rw [if_neg (by simp [hb]), if_neg h4]
      exact ⟨rfl, rfl, rfl, rfl⟩
  · intro b s hw hb hh hl hp ht hn
    have hstart := SafeOff.pulseStart_of hb hh hl hp ht hn
    refine ⟨_, _, congrArg Host.Outcome.next (if_pos hw), rfl, ?_⟩
    rw [hstart]
    exact ⟨rfl, rfl, rfl, rfl⟩
  · intro low s hu hp hn
    have hend := SafeOff.pulseEnd_of hp hn
    refine ⟨s.crust.soff.pulsed s.crust.usec low, rfl, rfl, rfl, rfl, rfl, rfl, rfl, ?_⟩
    refine (congrArg Host.Outcome.next (if_pos hu)).trans (congrArg Host.Outcome.next ?_)
    rw [State.offPulseEnd_eq, hend]
    simp only [Bool.and_eq_true, Bool.not_eq_true']
end

section
/-! PROOFS. Housekeeping and THERMAL STOP (chapter 15). -/

set_option Elab.async false

namespace Sys2Proof.Machine

namespace State

variable {s : State}

/-! ### THERMAL STOP (R317, R319) -/

/-- What THERMAL STOP entry leaves. -/
structure ThermalStopped (hard : Bool) (s t : State) : Prop where
  state : t.dev.state = 8
  hk : t.hk = { s.hk with stops := inc32 s.hk.stops, stopAt := if hard then 2 else 1, hardSeen := hard }
  ctl : t.ctl = s.ctl.map MachCtl.off
  inhibit : ∀ g ∈ t.trip.g, bit g.inhibit 29 = true
  hearth : t.hearth = s.hearth.halt

/-- A stop's change of state halts Hearth. -/
theorem goState_hearth_stop (cause : Nat) (own : Bool) (s : State) : (s.goState 8 cause own).hearth = s.hearth.halt :=
  (tapLog_changes ..).same .hearth (by decide)

theorem thermalStop_stopped (hard : Bool) (s : State) : ThermalStopped hard s (s.thermalStop hard) := by
  unfold thermalStop
  extract_lets from_ f rec_ tr pe hk d stopped gone
  have hleft : Changes [.chain] stopped ((stopped.twinLeave 0).twinLeave 1) := .after (twinLeave_changes ..) (twinLeave_changes ..) (by decide)
  have hgone : Changes [.mode, .dev, .hearth, .canc, .loads, .diag, .audio, .crust, .flash] ((stopped.twinLeave 0).twinLeave 1) gone := goState_changes ..
  have hhearth : ((stopped.twinLeave 0).twinLeave 1).hearth = s.hearth := hleft.same .hearth (by decide)
  have hretained (t : State) (hlate : Changes [.dev, .flash] gone t) : ThermalStopped hard s t := by
    have hall : Changes [.mode, .dev, .hearth, .canc, .loads, .diag, .audio, .crust, .flash, .chain] stopped t :=
      .after hlate (.after hgone (hleft.mono (by decide)) (by decide)) (by decide)
    refine ⟨(hlate.same .mode (by decide)).trans (goState_state ..), hall.same .hk (by decide), hall.same .ctl (by decide), fun g hg => ?_, ?_⟩
    · have htrip : t.trip = stopped.trip := hall.same .trip (by decide)
      have hmem : g ∈ stopped.trip.g := htrip ▸ hg
      obtain ⟨y, -, rfl⟩ := List.mem_map.1 hmem
      exact bit_setBit_self ..
    · refine (hlate.same .hearth (by decide)).trans ((goState_hearth_stop ..).trans ?_)
      rw [hhearth]
  split
  · exact hretained _ (Changes.refl _ gone).update
  · exact hretained _ (Changes.refl _ gone).update

theorem thermalEntry_of (hu : s.up = true) (hh : s.hk.hot = true) (h6 : s.dev.state ≤ 6) : s.thermalEntry = s.thermalStop false := by
  have h3 : 3 ≤ s.dev.state := by
    unfold up at hu
    simp only [Bool.and_eq_true, decide_eq_true_eq] at hu
    exact hu.2
  unfold thermalEntry
  exact if_pos (by simp [hh, h3, h6])

theorem thermalExit_of (h8 : s.dev.state = 8) (h1 : s.hk.stopAt = 1) (hh : s.hk.hot = false) : s.thermalExit = s.thermalRelease := by
  unfold thermalExit stopped
  exact if_pos (by simp [h8, h1, hh])

/-- What the release of a stop leaves (R318). -/
structure ThermalReleased (s t : State) : Prop where
  state : t.dev.state = 4
  hk : t.hk = { s.hk with stopAt := 0, hardSeen := false }
  inhibit : ∀ g ∈ t.trip.g, bit g.inhibit 29 = false

theorem thermalRelease_released (s : State) : ThermalReleased s s.thermalRelease := by
  unfold thermalRelease
  extract_lets tr hk eased gone
  have hgone : Changes [.mode, .dev, .hearth, .canc, .loads, .diag, .audio, .crust, .flash] eased gone := goState_changes ..
  refine ⟨goState_state .., hgone.same .hk (by decide), fun g hg => ?_⟩
  have htrip : gone.trip = eased.trip := hgone.same .trip (by decide)
  have hmem : g ∈ eased.trip.g := htrip ▸ hg
  obtain ⟨y, -, rfl⟩ := List.mem_map.1 hmem
  exact bit_setBit_self ..

/-! ### The round (R304) -/

/-- The round that ended, published with its records. -/
def published (s : State) : State := { s with hk := (s.hk.round s.cfg s.now).1 }.hkRecords (s.hk.round s.cfg s.now).2

/-- A round's own end with no setting waiting: its reports, the coil models, the backup slot and the stored pairs. -/
def roundJudged (s : State) : State :=
  ((raiseAll ((s.hk.round s.cfg s.now).2.excluded.map (fun i => Signal.fault 0x0F 22 i)) s.published).loadStep.backupLost).repairStore

theorem published_changes (s : State) : Changes [.hk, .flash] s s.published := .after (hkRecords_changes ..) (Changes.refl _ s).update (by decide)

theorem published_hk (s : State) : s.published.hk = (s.hk.round s.cfg s.now).1 := (hkRecords_changes ..).same .hk (by decide)

theorem hkRound_of_empty (hp : s.commit.pending = []) (hw : s.commit.writes = []) :
    s.hkRound = if (s.hk.round s.cfg s.now).2.hard then s.roundJudged.hardLimit else s.roundJudged := by
  have hcommit : s.published.commit = s.commit := by
    have hpart : s.published.commit = { s.commit with token := s.published.commit.token } := (published_changes s).same .commit (by decide)
    have htoken : s.published.commit.token = s.commit.token := (published_changes s).same .token (by decide)
    rw [hpart, htoken]
  have hbound : (if s.published.stopped then s.published else (s.published.boundary 0x200 200).1) = s.published := by
    split
    · rfl
    · exact boundary_of_empty (by rw [hcommit, hp]) (by rw [hcommit, hw]) ..
  have heq : s.hkRound = (if (s.hk.round s.cfg s.now).2.hard then
      ((((raiseAll ((s.hk.round s.cfg s.now).2.excluded.map (fun i => Signal.fault 0x0F 22 i))
        (if s.published.stopped then s.published else (s.published.boundary 0x200 200).1)).loadStep).backupLost).repairStore).hardLimit else
      (((raiseAll ((s.hk.round s.cfg s.now).2.excluded.map (fun i => Signal.fault 0x0F 22 i))
        (if s.published.stopped then s.published else (s.published.boundary 0x200 200).1)).loadStep).backupLost).repairStore) := rfl
  rw [heq, hbound]
  rfl

theorem roundJudged_reports (s : State) : Reports [.active, .loads] s.published s.roundJudged :=
  .report (repairStore_reports ..) (.report (backupLost_reports ..) (.report (loadStep_reports ..) ((raiseAll_reports ..).mono (by decide)) (by decide)) (by decide))
    (by decide)

/-- With every model stopped no sensor is newly lost. -/
theorem loadStep_of_stopped (h : s.loads.all (fun x => !x.running) = true) : ∃ l, s.loadStep = { s with loads := l } := by
  have hstop (l : Nat) : (nth s.loads l {}).running = false := by
    rcases Nat.lt_or_ge l s.loads.length with hl | hl
    · rw [nth_of_lt hl]
      simpa using List.all_eq_true.1 h _ (List.getElem_mem hl)
    · rw [nth_of_le hl]
  unfold loadStep
  extract_lets c cfgd new lost t
  have hlost : lost = [] := by
    refine List.filter_eq_nil_iff.2 fun l _ => ?_
    simp [new, hstop l]
  rw [hlost]
  exact ⟨_, rfl⟩

theorem backupLost_of_none (h : s.cfg.u 0x6030 4 = 0) : s.backupLost = s := by
  unfold backupLost
  exact if_pos (by simp [h])

theorem hardLimit_of_running (h6 : s.dev.state ≤ 6) : s.hardLimit = s.thermalStop true := by
  unfold hardLimit
  rw [if_neg (by omega), if_neg (by omega)]

/-- The configuration in force reads the settings, the device state and the zero offsets. -/
theorem cfg_of_changes {t : State} (h : Changes [.hk, .flash, .loads] s t) : t.cfg = s.cfg := by
  obtain ⟨ha, ha2, hp⟩ := h.same .active (by decide)
  have hs : t.dev.state = s.dev.state := h.same .mode (by decide)
  have hsense : t.sense = s.sense := h.same .sense (by decide)
  unfold cfg
  rw [ha, ha2, hp, hs, hsense]

/-- A quiet round: the records and the coil models are all that it changes. -/
theorem roundJudged_of_quiet (he : (s.hk.round s.cfg s.now).2.excluded = []) (hl : s.loads.all (fun x => !x.running) = true)
    (hd : s.active.damaged = false) (hd2 : s.active2.damaged = false) (hb : s.cfg.u 0x6030 4 = 0) : Changes [.hk, .flash, .loads] s s.roundJudged := by
  have hpub := published_changes s
  have hloads : s.published.loads = s.loads := hpub.same .loads (by decide)
  obtain ⟨l, hstep⟩ := loadStep_of_stopped (s := s.published) (by rw [hloads]; exact hl)
  have hch : Changes [.hk, .flash, .loads] s { s.published with loads := l } := (hpub.mono (by decide)).update
  have hcfg : ({ s.published with loads := l } : State).cfg = s.cfg := cfg_of_changes hch
  obtain ⟨ha, ha2, -⟩ := hch.same .active (by decide)
  have heq : s.roundJudged = { s.published with loads := l } := by
    unfold roundJudged
    rw [he]
    change (s.published.loadStep.backupLost).repairStore = _
    rw [hstep, backupLost_of_none (by rw [hcfg]; exact hb), repairStore_of_sound (by rw [ha]; exact hd) (by rw [ha2]; exact hd2)]
  rw [heq]
  exact hch

end State

end Sys2Proof.Machine
end

section
/-! PROOFS. The statement about housekeeping and THERMAL STOP. -/

set_option Elab.async false

open Sys2Proof Sys2Proof.Machine

/-- Settles O33: a round is published first, and what follows leaves its values; a stop and its release are their transitions. -/
theorem thermalEvents : Obligations.ThermalEvents := by
  unfold Obligations.ThermalEvents
  refine ⟨⟨?_, ?_, ?_⟩, ?_, ?_, ?_⟩
  · intro s hu hr ht hh hp hw
    have heq : s.hkRound = s.roundJudged := (State.hkRound_of_empty hp hw).trans (if_neg (by simp [hh]))
    have hrep := State.roundJudged_reports s
    refine ⟨_, (congrArg Host.Outcome.next (if_pos (by simp [hu, hr, ht]))).trans (congrArg Host.Outcome.next heq),
      (hrep.parts.same .hk (by decide) : _).trans (State.published_hk s), (Reports.of (State.published_changes s)).trans (hrep.mono (by decide))⟩
  · intro slot code s hu h7
    refine congrArg Host.Outcome.next (if_pos ?_)
    rw [hu, Bool.true_and]
    unfold State.hkServes
    by_cases h : s.dev.state = 7
    · rcases h7 h with hs | hs <;> simp [hs]
    · simp [h]
  · exact fun codes s hf => congrArg Host.Outcome.next (if_pos hf)
  · intro s hu hh h6
    have hstop := State.thermalStop_stopped false s
    have hch := State.thermalStop_changes false s
    obtain ⟨hactive, -, -⟩ := hch.same .active (by decide)
    have hcommit : (s.thermalStop false).commit = s.commit := by
      have hpart : (s.thermalStop false).commit = { s.commit with token := (s.thermalStop false).commit.token } := hch.same .commit (by decide)
      have htoken : (s.thermalStop false).commit.token = s.commit.token := hch.same .token (by decide)
      rw [hpart, htoken]
    exact ⟨_, (congrArg Host.Outcome.next (if_pos hu)).trans (congrArg Host.Outcome.next (State.thermalEntry_of hu hh h6)), hstop.state,
      congrArg HkState.stopAt hstop.hk, congrArg HkState.stops hstop.hk, hstop.ctl, hstop.inhibit, hstop.hearth, hcommit, hactive, hch⟩
  · intro s hu hr ht hh he h6 hl hd hd2 hp hw hb
    have hquiet := State.roundJudged_of_quiet he hl hd hd2 hb
    have hstate : s.roundJudged.dev.state = s.dev.state := hquiet.same .mode (by decide)
    have heq : s.hkRound = s.roundJudged.thermalStop true :=
      ((State.hkRound_of_empty hp hw).trans (if_pos hh)).trans (State.hardLimit_of_running (by omega))
    have hstop := State.thermalStop_stopped true s.roundJudged
    exact ⟨_, (congrArg Host.Outcome.next (if_pos (by simp [hu, hr, ht]))).trans (congrArg Host.Outcome.next heq), hstop.state,
      congrArg HkState.stopAt hstop.hk⟩
  · intro s hu h8 h1 hh
    have hrel := State.thermalRelease_released s
    have hch := State.thermalRelease_changes s
    obtain ⟨hactive, -, -⟩ := hch.same .active (by decide)
    exact ⟨_, (congrArg Host.Outcome.next (if_pos hu)).trans (congrArg Host.Outcome.next (State.thermalExit_of h8 h1 hh)), hrel.state, hrel.hk, hrel.inhibit,
      hch.same .ctl (by decide), hactive, hch⟩
end
